-- ==== Sys2Proof/Word.lean ====
section
/-!
DEFINITION. The word and byte types, the port and instant types every other file uses.
Registers are 32 bits (00 R5); wire and memory contents are bytes; instants are counted in
codes of 1/256 ns, the finest unit the manual gives (07, "Periods and cycle origins").
-/

namespace Sys2Proof

/-- A register word (R5: every register is 32 bits wide). -/
abbrev Word := BitVec 32

/-- A byte of memory or of a wire message. -/
abbrev Byte := BitVec 8

/-- One vector: 64 pins of 3 bits (R189). -/
abbrev Vec192 := BitVec 192

/-- A kernel instant, in codes of 3.906 25 ps. -/
abbrev Instant := Nat

end Sys2Proof
end

