-- ==== Sys2Proof/Syntax.lean ====
section
/-!
DEFINITION. Syntax.lean: the commands of the block. One constructor of `Instr` per row of
spec/opcode_table.json, in the table's order. Every command carries first the kernel instant `t`
(codes of 1/256 ns) at which the block that acts on the happening registers it (00 R428; log 2), then its
own operands. Physical quantities the unit measures (voltages, temperatures, phase errors, comparator
inputs, calibration measurements) are operands of the command that brings them.
-/

namespace Sys2Proof

/-- The source of a register-bus access (R423): the management core's own accesses, then the three ports. -/
inductive Port where
  | core | tasp | spi | usb
  deriving DecidableEq, Repr, Inhabited

/-- An image bank of the MRAM (Table 5-3). -/
inductive Bank where
  | a | b
  deriving DecidableEq, Repr, Inhabited

/-- A ring port (R43): J6 is RING A, J7 is RING B. -/
inductive RingPort where
  | a | b
  deriving DecidableEq, Repr, Inhabited

/-- One sample of the enclosure (R55): PRES lines, carriers, REF10, temperatures in degrees C, fan speeds and
commanded speeds in units of 8 rpm. -/
structure EnclSample where
  pres : BitVec 8
  carrierA : Bool
  carrierB : Bool
  ref10 : Bool
  inletC : Int
  dieC : Int
  bankC : Int
  fan0 : Nat
  fan1 : Nat
  cmd0 : Nat
  cmd1 : Nat
  deriving DecidableEq, Repr, Inhabited

/-- What a full Dawn finds at its first steps (R114): whether the MRAM identity matches (step 4), whether the key
self-test passes (R281), the die temperature, and the cell voltage read at Dawn (R411). -/
structure DawnInput where
  mramOk : Bool
  keyOk : Bool
  dieC : Int
  cellMv : Nat
  deriving DecidableEq, Repr, Inhabited

/-- Header of a received PTP message (R103, Table 4-8): the fields the unit judges. -/
structure PtpHdr where
  version : Nat
  msgLen : Nat
  rxLen : Nat
  domain : Nat
  sdo : Nat
  source : Nat
  seq : Nat
  logInterval : Int
  deriving DecidableEq, Repr, Inhabited

/-- Body of a PTP Announce: the data set the best master clock algorithm compares, and PTP_TIMESCALE. -/
structure PtpAnnounce where
  priority1 : Nat
  clockClass : Nat
  accuracy : Nat
  variance : Nat
  priority2 : Nat
  gmIdentity : Nat
  stepsRemoved : Nat
  ptpTimescale : Bool
  deriving DecidableEq, Repr, Inhabited

/-- A value of a comparator input during a vector cycle: from `at` codes after the cycle's origin the input of the
pin is `u`, in units of 1/819 200 V (the coarsest unit in which every level, hysteresis and clip of chapter 06 is whole). -/
structure InputStep where
  at_ : Nat
  u : Int
  deriving DecidableEq, Repr, Inhabited

/-- What one pin's comparator input does during one vector cycle. -/
structure PinObs where
  pin : Fin 64
  steps : List InputStep
  deriving DecidableEq, Repr, Inhabited

/-- Measurements of one calibration channel (Tables 13-1 and 13-4), in the tables' own units: times in units of 0.1 ps, voltages in
microvolts, gain in ppm, resistances in milliohms, bins in hundredths of an LSB. -/
structure ChMeas where
  /-- Offset and gain correction, from the factory value, of DAC `d` (VIH, VIL, VTT, VOH, VOL) in span `s`, at index 4d + s. -/
  dac : Vector (Int × Int) 20
  /-- Check code and level measured there, in units of 1/819 200 V: check `j` of DAC `d` in span `s` at index 12d + 3s + j. -/
  levels : Vector (Nat × Int) 60
  /-- Comparators HI and LO: offset, and residual after trimming. -/
  cmpOff : Vector Int 2
  cmpResid : Vector Int 2
  termMilli : Nat
  termTrimMilli : Nat
  /-- Drive path delay from the factory value, rising and falling at SLEW 0, 1 and 2; compare path delay, HI and LO. -/
  drvDelay : Vector Int 6
  cmpDelay : Vector Int 2
  /-- Widths of the converter's bins, and integral nonlinearity after correction. -/
  bins : List Nat
  inl : Int
  resid : Nat
  eyePs : Nat
  skew : Int
  skewResid : Int
  deriving DecidableEq, Repr, Inhabited

/-- Header of a ring frame (Table 14-1); `dirUp` is DIR 1; `rsvd` holds the reserved bits. -/
structure RingHdr where
  type : Nat
  src : Nat
  hops : Nat
  seq : Nat
  dirUp : Bool
  rsvd : BitVec 7
  deriving DecidableEq, Repr, Inhabited

/-- Payload of PROPOSE and COMMIT (Table 14-2). -/
structure AgreeMsg where
  agreeId : Nat
  target : Nat
  veto : Nat
  accept : BitVec 16
  vetoed : BitVec 16
  sleepS : Nat
  tnSec : Nat
  tnNs : Nat
  deriving DecidableEq, Repr, Inhabited

/-- An SPI frame as clocked: its whole words, the bits of a partial last word (R346), the index of a word begun
while HRDY was low (Table 15-6 code 2), and whether HPRES fell during it (code 7). -/
structure SpiFrame where
  words : List Word
  partialBits : Nat
  rdyViol : Option Nat
  hpresFell : Bool
  deriving DecidableEq, Repr, Inhabited

/-- A control transfer cut by a bus reset, a loss of VBUS, a new setup or a restart of the management core (R365, R406): its bRequest and
the stage, 0 setup, 1 data, 2 status. -/
structure UsbCut where
  bRequest : Nat
  stage : Nat
  deriving DecidableEq, Repr, Inhabited

/-- A USB setup packet, its bRequest being the row's, and the previous control transfer it cuts (R365). -/
structure UsbSetup where
  bmRequestType : Nat
  wValue : Nat
  wIndex : Nat
  wLength : Nat
  cut : Option UsbCut
  deriving DecidableEq, Repr, Inhabited

/-- A DHCPv4 answer (R373). -/
inductive DhcpMsg where
  | offer (addr : BitVec 32)
  | ack (addr : BitVec 32) (maskBits : Nat) (router : BitVec 32) (leaseS t1S t2S : Nat)
  | nak
  deriving DecidableEq, Repr, Inhabited

/-- A frame or datagram the unit does not serve (R370, R373, R375). -/
inductive DroppedFrame where
  | tooLong (len : Nat) (tagged : Bool)
  | notServed
  | badChecksum
  | noRoute
  deriving DecidableEq, Repr, Inhabited

/-- Source of a datagram: IP version, address and UDP port. -/
structure NetAddr where
  v6 : Bool
  ip : BitVec 128
  port : Nat
  deriving DecidableEq, Repr, Inhabited

/-- An authenticated TASP request (R377): its source, SESSION, SEQ and body; the row of the table is its OP. -/
structure TaspReq where
  src : NetAddr
  session : Nat
  seq : Nat
  body : List Byte
  deriving DecidableEq, Repr, Inhabited

/-- An instant, with the inputs of pins at it in units of 1/819 200 V (06 R158). -/
structure Sight where
  at_ : Instant
  ins : List (Fin 64 × Int)
  deriving DecidableEq, Repr, Inhabited

/-- A read of one register, with the inputs of pins that PIN_STATUS tells of (06 R155). -/
structure RegRead where
  addr : Nat
  ins : List (Fin 64 × Int)
  deriving DecidableEq, Repr, Inhabited

/-- The `n` bits that a ring port has received since its search for alignment began, the first the most significant (14 R320). -/
structure LineBits where
  rp : RingPort
  n : Nat
  bits : Nat
  deriving DecidableEq, Repr, Inhabited

/-- A DELAY_RESP: its header and its residence (14 R324). -/
structure DelayResp where
  hdr : RingHdr
  residence : Int
  deriving DecidableEq, Repr, Inhabited

/-- The commands of the block: one constructor per row of spec/opcode_table.json, in the table's order. -/
inductive Instr where
  /-- REGISTER_WRITE (R421). A write to a register that has no row of its own changes only its writable fields, after the address checks of R419 and the RWL judgement of R9. -/
  | registerWrite (t : Instant) (port : Port) (addr : Nat) (val : Word)
  /-- RC_REGISTER_READ (R7). A read of a register with RC fields returns their values and then clears them, with R8 keeping any event of the same cycle. -/
  | rcRegisterRead (t : Instant) (port : Port) (x : RegRead)
  /-- LATCHED_GROUP_LOW_READ (R10). A read of the lowest word of a multi-word group returns it and latches the upper words for later reads. -/
  | latchedGroupLowRead (t : Instant) (port : Port) (addr : Nat)
  /-- ENCL_SENSE_UPDATE (R55). Every 1 ms the unit samples PRES, the sense lines, the temperatures and the fans, and updates G_ENCL_SENSE, G_ENCL_THERM and G_ENCL_FAN. -/
  | enclSenseUpdate (t : Instant) (x : EnclSample)
  /-- HARDWARE_THERMAL_TRIP (R52). A die temperature of 115 °C removes power from the pin engine and fast clocks within 1 ms and puts the unit in Night without a Dusk. -/
  | hardwareThermalTrip (t : Instant) (dieC : Int)
  /-- THERMAL_TRIP_RELEASE (R52). A die temperature below 95 °C releases the held trip and starts the full Dawn towards the target of any latched wake source. -/
  | thermalTripRelease (t : Instant) (dieC : Int)
  /-- TAMONG_SECOND_BOUNDARY (R83). At each Tamong second boundary the unit aligns the Nightwatch counter, drives the PPS out pulse and compares time-of-day sources. -/
  | tamongSecondBoundary (t : Instant)
  /-- PPS_OUT_FALL (R42). J4 falls when the pulse width set by PPSO_WIDTH has expired. -/
  | ppsOutFall (t : Instant)
  /-- HPRES_CHANGE (R47). A change of HPRES at J9 releases or enables the SPI outputs, discards any frame in progress and updates SPI_HPRES. -/
  | hpresChange (t : Instant) (high : Bool)
  /-- LINE_POWER_APPLIED (R60). Application of line power ends ship mode, sets the power tier and starts a full Dawn towards START_TARGET. -/
  | linePowerApplied (t : Instant) (classEvents : Nat)
  /-- LINE_LOSS (R75). An input at J1 below 36.0 V for at least 1 µs is declared as line loss and starts a Dusk towards line absent with DUSK_WAIT taken as 0. -/
  | lineLoss (t : Instant) (belowNs : Nat)
  /-- BANK_EXHAUSTED (R430). A bank that reaches 0 J during a Dusk after line loss cuts power to the fast domain and DRAM at once, leaving the remaining steps undone. -/
  | bankExhausted (t : Instant)
  /-- NIGHTWATCH_RESET (R76). A Nightwatch reset, including brown-out at 1.8 V and entry to ship mode, zeroes the token, the Nightwatch counter and the held trip. -/
  | nightwatchReset (t : Instant) (toShip : Bool)
  /-- CELL_LOW_SET (R79). The cell falling to 2.50 V sets CELL_LOW and counts an event of the CELL_LOW source. -/
  | cellLowSet (t : Instant) (mv : Nat)
  /-- NIGHTWATCH_ALARM (R85). The Nightwatch alarm fires at the first tick at which the counter reaches its set value and acts as a wake source. -/
  | nightwatchAlarm (t : Instant)
  /-- HSEL_WAKE (R63). HSEL falling at J9 in Night while HPRES is high fires wake source 4 with target Evening. -/
  | hselWake (t : Instant)
  /-- VBUS_RISE (R63). VBUS rising at J8 while USB_EN is 1 fires wake source 5 in Night and keeps the unit out of Night under R65. -/
  | vbusRise (t : Instant)
  /-- VBUS_LOSS (R365). Loss of VBUS at J8 abandons the USB control transfer, ends bulk streams and uploads, and resets address and configuration. -/
  | vbusLoss (t : Instant) (cut : Option UsbCut)
  /-- JOB_WAKE_CONDITION (R220). In Evening, a queued job's start condition becoming true fires wake source 6 towards Day, at S − 5 ms for timed kinds. -/
  | jobWakeCondition (t : Instant) (slot : Fin 16)
  /-- PWR_REQ_DAY (R64). A write of TARGET 1 to G_PWR_REQ requests Day, resolved under R64. -/
  | pwrReqDay (t : Instant) (port : Port)
  /-- PWR_REQ_EVENING (R64). A write of TARGET 2 to G_PWR_REQ requests Evening, resolved under R64. -/
  | pwrReqEvening (t : Instant) (port : Port)
  /-- PWR_REQ_NIGHT (R64). A write of TARGET 3 to G_PWR_REQ requests Night, carried out as Evening while VBUS holds the unit out of Night. -/
  | pwrReqNight (t : Instant) (port : Port)
  /-- FULL_DAWN_BEGIN (R114). A full Dawn makes the token decision, starts the management core, brings DRAM up, starts the time base and reads the MRAM identity and factory area. -/
  | fullDawnBegin (t : Instant) (x : DawnInput)
  /-- IMAGE_BANK_READ_DONE (R131). Completion of a bank read verifies it in order and applies it, or records its failure and reads the next candidate. -/
  | imageBankReadDone (t : Instant) (bank : Bank) (fails : List (Nat × Nat))
  /-- IMG_TIMEOUT_EXPIRY (R137). Expiry of IMG_TIMEOUT abandons any re-read, gives the bank status 10 and counts one CONFIG_MEM event. -/
  | imgTimeoutExpiry (t : Instant) (bank : Bank) (rereads : Nat)
  /-- DAWN_ENTER_TARGET (R60). When the conditions of Table 3-3 for its target hold, the Dawn enters Day, Evening, Night or maintenance Day, with one strobe per active octet at Day entry. -/
  | dawnEnterTarget (x : Sight)
  /-- SHORT_DAWN_BEGIN (R61). A wake source with target Day in Evening starts a short Dawn that restores configuration and starts the synthesisers. -/
  | shortDawnBegin (t : Instant)
  /-- BAND_CAL_DONE (R88). Completion of band calibration selects the VCO band and begins the lock attempt. -/
  | bandCalDone (t : Instant) (which : Option (Fin 8))
  /-- SYNTH_LOCKED (R87). A synthesiser whose phase error stays below 10 ps for 256 reference cycles is locked; core lock starts the octets, and full lock aligns the core phase. -/
  | synthLocked (t : Instant) (which : Option (Fin 8))
  /-- LOCK_ATTEMPT_TIMEOUT (R89). A lock attempt that has not locked by its limit fails, and the synthesiser is band-calibrated and retried, or declared failed after LOCK_TRIES attempts. -/
  | lockAttemptTimeout (t : Instant) (which : Option (Fin 8))
  /-- SYNTH_LOCK_LOSS (R91). A phase error beyond 50 ps for 1 µs in Day or Dusk puts the affected octets' pins in the safe state, ends their jobs with CLOCK_FAIL and starts a relock. -/
  | synthLockLoss (t : Instant) (which : Option (Fin 8))
  /-- OVEN_WARM (R431). The oven reaching its temperature sets OSC_WARM. -/
  | ovenWarm (t : Instant)
  /-- OVEN_WARM_TIMEOUT (R431). OSC_WARM still 0 at 180 s after the oven oscillator starts counts an event of source 11. -/
  | ovenWarmTimeout (t : Instant)
  /-- DUSK_ENTRY (R66). Entry to Dusk closes admission, ends jobs in CHECKING or ARMED with DUSK_STOP, abandons windows and discards pending calibration requests. -/
  | duskEntry (t : Instant)
  /-- DUSK_WAIT_EXPIRY (R66). Expiry of DUSK_WAIT orders every running job to end at its next granule boundary with DUSK_STOP. -/
  | duskWaitExpiry (t : Instant)
  /-- DUSK_JOBS_ENDED (R66). Once no job runs, the Dusk puts the pins in the safe state, returns the crosspoints and drains the capture FIFOs. -/
  | duskJobsEnded (t : Instant)
  /-- DUSK_FIFOS_DRAINED (R66). When the capture FIFOs have drained, the Dusk takes a seal under the Dusk trigger. -/
  | duskFifosDrained (t : Instant)
  /-- DUSK_SEALED (R66). After the Dusk seal, a Dusk towards Night or line absent writes a Midnight checkpoint, and any other proceeds to power down. -/
  | duskSealed (t : Instant)
  /-- DUSK_POWER_DOWN (R66). Step 7 powers down the domains not alive in the target and the unit enters it, then any latched Day request starts a Dawn. -/
  | duskPowerDown (t : Instant)
  /-- BANK_UPDATE (R68). Every 10 µs BANK_MJ is updated and the admission of the head job and the floor test are decided again. -/
  | bankUpdate (t : Instant) (bankUv busMw inputMw : Nat)
  /-- POWER_WINDOW_END (R72). At the end of each 1 ms window the average load is compared with the average declaration, and an over-declared window flags the running jobs. -/
  | powerWindowEnd (t : Instant)
  /-- PPS_EDGE (R99). A rising edge at J3 is timestamped and compensated, judged for outlier and lock, used for phase acquisition and for a pending host time set or PPS start. -/
  | ppsEdge (t : Instant)
  /-- PPS_MISSING (R102). No PPS edge within 1 s + 10 µs of the previous one ends lock to REF10 and PPS and clears PPS_IN_OK. -/
  | ppsMissing (t : Instant)
  /-- REF10_LOSS_TIMEOUT (R102). REF10_IN_OK reading 0 for 10 ms of updates ends lock to REF10 and PPS. -/
  | ref10LossTimeout (t : Instant)
  /-- HOLDOVER_EXPIRY (R19). A holdover that passes 60 s puts the time base in the unlocked state with B unknown. -/
  | holdoverExpiry (t : Instant)
  /-- STEP_APPLY (R101). A waiting phase step or whole-second correction is applied as one step in the first cycle in which no job runs. -/
  | stepApply (t : Instant)
  /-- TIME_SET_LO_WRITE (R97). A write of G_TIME_SET_LO submits the host time set, accepted only when TOD_HOST_EN is 1 and no higher source is usable. -/
  | timeSetLoWrite (t : Instant) (port : Port) (val : Word)
  /-- PTP_ANNOUNCE (R103). An Announce message is taken into the best master clock algorithm over up to four foreign masters. -/
  | ptpAnnounce (t : Instant) (h : PtpHdr) (a : PtpAnnounce)
  /-- PTP_SYNC (R104). A Sync message, with its Follow_Up when two-step, gives an offset sample to the servo, which may declare PTP lock. -/
  | ptpSync (t : Instant) (h : PtpHdr) (twoStep : Bool) (origin : Nat) (corr : Int)
  /-- PTP_FOLLOW_UP (R104). A Follow_Up message completes its pending two-step Sync, or is discarded when no Sync matches. -/
  | ptpFollowUp (t : Instant) (h : PtpHdr) (origin : Nat) (corr : Int)
  /-- PTP_DELAY_REQ_SEND (R103). At each Delay_Req interval the port sends a Delay_Req through the priority transmit queue. -/
  | ptpDelayReqSend (t : Instant)
  /-- PTP_DELAY_RESP (R104). A Delay_Resp for an outstanding Delay_Req updates the mean path delay. -/
  | ptpDelayResp (t : Instant) (h : PtpHdr) (forUs : Bool) (rx : Nat) (corr : Int)
  /-- PTP_ANNOUNCE_TIMEOUT (R105). Expiry of the announce receipt timeout ends lock to PTP. -/
  | ptpAnnounceTimeout (t : Instant)
  /-- PTP_SYNC_TIMEOUT (R105). No valid Sync for four Sync intervals ends lock to PTP. -/
  | ptpSyncTimeout (t : Instant)
  /-- PTP_FOLLOW_UP_TIMEOUT (R106). A two-step Sync without Follow_Up within the larger of 100 ms and one Sync interval is discarded. -/
  | ptpFollowUpTimeout (t : Instant)
  /-- PTP_DELAY_RESP_TIMEOUT (R106). No Delay_Resp within 1 s counts the request as lost, and 8 consecutive losses end PTP lock. -/
  | ptpDelayRespTimeout (t : Instant)
  /-- JOB_DUE (R217). A queued job becomes due at its instant and the due jobs are decided in order for readiness and admission. -/
  | jobDue (t : Instant)
  /-- START_CHECK_DONE (R219). Completion of the start check arms the job or ends it with EDGE_ORDER or SEG_UNLOADED. -/
  | startCheckDone (t : Instant) (slot : Fin 16)
  /-- JOB_JUDGEMENT (R111). At S − 10 µs a timed job is judged ready and admitted, ended with LATE_START, or left to start late within its tolerance. -/
  | jobJudgement (t : Instant) (slot : Fin 16)
  /-- JOB_START_INSTANT (R219). An armed job reaching its start instant becomes RUNNING and forms its JOB_START record at cycle 0. -/
  | jobStartInstant (t : Instant) (slot : Fin 16)
  /-- LATE_START_EXPIRY (R111). A job still not ready and admitted at S + U ends with LATE_START. -/
  | lateStartExpiry (t : Instant) (slot : Fin 16)
  /-- HOLD_LIMIT_EXPIRY (R112). A job held for want of valid time, a trigger assignment or a PPS edge for HOLD_MAX_S ends with LATE_START. -/
  | holdLimitExpiry (t : Instant) (slot : Fin 16)
  /-- ADMIT_TIMEOUT_EXPIRY (R221). A due job of kind 0 or 3 that stays at the head unadmitted for ADMIT_MAX_S ends with ADMIT_TIMEOUT. -/
  | admitTimeoutExpiry (t : Instant) (slot : Fin 16)
  /-- JOB_CANCEL_WRITE (R222). A write of G_JOB_CANCEL cancels the masked slots, ending queued jobs with CANCELLED and running jobs with ABORTED at the next granule. -/
  | jobCancelWrite (t : Instant) (port : Port) (val : Word)
  /-- VECTOR_CYCLE (R233). Each cycle of a running job plays its vector, gives compare and capture results to the capture engines and ends the job at a pending stop boundary. -/
  | vectorCycle (t : Instant) (slot : Fin 16) (obs : List PinObs)
  /-- LOSS_CLOSE (R251). At the first cycle with fewer than 4 094 FIFO entries occupied the LOSS and LOSS_END records are placed and the loss closes. -/
  | lossClose (t : Instant) (oct : Fin 8)
  /-- JOB_END_CHAINED (R226). When a job's end record is chained after its results have drained, the slot moves from ENDING to ENDED. -/
  | jobEndChained (t : Instant) (slot : Fin 16)
  /-- CHAIN_STEP (R236). A record taken from the merge is numbered, chained into H(n), copied to Nightwatch and queued for writing to evidence memory. -/
  | chainStep (t : Instant)
  /-- EVID_RELEASE_WRITE (R258). A write of G_EVID_RELEASE_LO releases records below TO, clipped to SEALED_END, and may clear FULL or resume the chain. -/
  | evidReleaseWrite (t : Instant) (port : Port) (val : Word)
  /-- ARB_REQUEST_RAISED (R263). A requester raising its request while the port is idle is decided and granted its first beat two cycles later. -/
  | arbRequestRaised (t : Instant) (req : Fin 14) (len : Nat)
  /-- MEMORY_TRANSFER_COMPLETE (R260). The last beat of a transfer charges its owner and decides the next owner in the same cycle. -/
  | memoryTransferComplete (t : Instant)
  /-- ARB_WINDOW_START (R262). At cycle 0 of each 4 096-cycle window every counter is refilled by its weight and expired hold-offs end. -/
  | arbWindowStart (t : Instant)
  /-- REFRESH_DUE (R267). REF falls due at cycles 0 and 2 048 of each window and takes the port at the end of the current transfer. -/
  | refreshDue (t : Instant)
  /-- REFRESH_INTERRUPT (R267). A transfer not ended 64 cycles after REF fell due is interrupted after its current beat. -/
  | refreshInterrupt (t : Instant)
  /-- REFRESH_DONE (R267). After 286 cycles the refresh ends and the port is decided again, resuming any interrupted DBG access. -/
  | refreshDone (t : Instant)
  /-- DBG_REQUEST (R268). A DBG request takes the port after the current beat and clears DBG_IDLE. -/
  | dbgRequest (t : Instant) (beats : Nat)
  /-- ARB_PREEMPT (R269). In preemptive mode a candidate with a fuller counter takes the port after the current beat and the owner's transfer restarts later. -/
  | arbPreempt (t : Instant)
  /-- GRANT_WATCHDOG_EXPIRY (R270). A grant held for GWD_US is withdrawn, the requester held off for HOLDOFF windows and a GRANT_WD event counted. -/
  | grantWatchdogExpiry (t : Instant)
  /-- SEAL_INTERVAL_EXPIRY (R275). INT_MS after the previous seal's part 0 a seal falls due if a record has been chained since, otherwise the interval restarts. -/
  | sealIntervalExpiry (t : Instant)
  /-- SEAL_FORM (R276). A due seal forms part 0 when 5 µs have passed, a nonce is held and the previous seal is chained, closing open runs and groups. -/
  | sealForm (t : Instant)
  /-- SEAL_SIGNED (R280). Completion of the signature forms parts 1 to 8 and chains them after part 0. -/
  | sealSigned (t : Instant)
  /-- NONCE_REFILL (R279). Every 120 µs while the core is locked the sealing engine adds one nonce to its pool. -/
  | nonceRefill (t : Instant)
  /-- CHECKPOINT_WRITE_DONE (R285). Completion of a checkpoint write and read-back makes the slot valid, or counts CKPT_FAIL and leaves the other slot in force. -/
  | checkpointWriteDone (t : Instant) (readBackOk : Bool)
  /-- MRAM_BUSY_TIMEOUT (R120). MRAM busy for more than 1 ms after a write counts the write as failed and abandons its operation. -/
  | mramBusyTimeout (t : Instant)
  /-- CAL_STORE_COMPLETE (R145). Completion of the calibration store's last write and read-back commits the slot, or abandons the store. -/
  | calStoreComplete (t : Instant) (readBackOk : Bool)
  /-- IMAGE_COMMIT_COMPLETE (R149). Completion of the commit's header write and read-back commits the image to the target bank. -/
  | imageCommitComplete (t : Instant) (readBackOk : Bool)
  /-- ROUTINE_OCCURRENCE (R139). An occurrence of a routine entry falling due acts as a state request, calibration start or ring sleep proposal, or is skipped. -/
  | routineOccurrence (t : Instant) (entry : Nat)
  /-- ROUTINE_JOB_SUBMIT (R139). At S − 1 s, or at Day entry, a JOB entry submits its template with start kind 4. -/
  | routineJobSubmit (t : Instant) (entry : Nat)
  /-- ROUTINE_AFTER_REQUEST (R139). After a JOB entry's job ends, the AFTER state is requested at the first instant when no job runs and the queue is empty. -/
  | routineAfterRequest (t : Instant)
  /-- ROUTINE_ENABLE_WRITE (R142). Setting ROUTINE_EN from 0 to 1 recomputes every entry's next occurrence without counting skips. -/
  | routineEnableWrite (t : Instant) (port : Port) (val : Word)
  /-- OCT_LOAD_WRITE (R163). A write of 1 to LOAD of OCT_LOAD_CTRL fires the octet's load strobe when it is active and powered. -/
  | octLoadWrite (t : Instant) (port : Port) (oct : Fin 8) (val : Word)
  /-- LOAD_TIMER_EXPIRY (R164). The load timer fires a strobe when TMR_PERIOD periods of 80 ns have passed since the last strobe. -/
  | loadTimerExpiry (t : Instant) (oct : Fin 8)
  /-- WAVE_TICK (R166). Every 80 ns the wave accumulator gains FTW and the generator outputs a new code to its wave-mode DACs. -/
  | waveTick (t : Instant) (oct : Fin 8)
  /-- DRIVER_OVERCURRENT (R157). A driver current above 80 mA for 1 µs puts the pin in the safe state, sets OVC and counts a PIN_OVC event. -/
  | driverOvercurrent (t : Instant) (pin : Fin 64) (peakMa : Nat)
  /-- SAFE_RELEASE_WRITE (R156). Writing 1 to SAFE of PIN_STATUS in Day returns the pin from the safe state to idle. -/
  | safeReleaseWrite (t : Instant) (port : Port) (pin : Fin 64) (val : Word)
  /-- UR_RELEASE (R206). Writing 1 to UR_RELEASE of G_SEG_CTRL returns every pin held under underrun modes 1 to 4 to idle. -/
  | urRelease (t : Instant) (port : Port) (val : Word)
  /-- TIMING_SET_WRITE (R186). A write to a timing-set entry takes effect, or is refused and counted when the set is in use. -/
  | timingSetWrite (t : Instant) (port : Port) (ix : Nat) (val : Word)
  /-- SEGMENT_ENTRY_WRITE (R195). A write to words 0 to 6 of a segment entry unloads it, or is refused when the entry is in use. -/
  | segmentEntryWrite (t : Instant) (port : Port) (ix : Nat) (val : Word)
  /-- WAVE_TABLE_WRITE (R168). A write to an octet's wave table takes effect, or is refused while RUN is loaded as 1. -/
  | waveTableWrite (t : Instant) (port : Port) (ix : Nat) (val : Word)
  /-- TSET_PROBE_WRITE (R187). A write of G_TSET_PROBE starts a probe of one timing set over the selected octets. -/
  | tsetProbeWrite (t : Instant) (port : Port) (val : Word)
  /-- TSET_PROBE_DONE (R187). Completion of a probe reports its result in G_TSET_CHECK with PROBE 1. -/
  | tsetProbeDone (t : Instant)
  /-- SEG_LOAD_WRITE (R196). A write of G_SEG_LOAD starts checking a range of segment entries. -/
  | segLoadWrite (t : Instant) (port : Port) (val : Word)
  /-- SEG_LOAD_DONE (R196). Completion of a load marks each entry loaded or refused and reports the result in G_SEG_CHECK. -/
  | segLoadDone (t : Instant)
  /-- SRING_RESET_WRITE (R231). Writing 1 to a bit of G_SRING_RESET resets the ring, or is refused while a job selects it. -/
  | sringResetWrite (t : Instant) (port : Port) (val : Word)
  /-- CAL_REQ_OCT (R298). Bits of OCT in G_CAL_REQ request Twilight windows on the named octets. -/
  | calReqOct (t : Instant) (port : Port) (val : Word)
  /-- CAL_REQ_UNIT (R297). UNIT of G_CAL_REQ starts a whole-unit calibration with its unit step. -/
  | calReqUnit (t : Instant) (port : Port) (val : Word)
  /-- CAL_REQ_STORE (R315). STORE of G_CAL_REQ starts a store of the trim memory, or holds it until the running store ends. -/
  | calReqStore (t : Instant) (port : Port) (val : Word)
  /-- CAL_REQ_CANCEL (R298). Bits of CANCEL in G_CAL_REQ discard the pending requests of octets not yet in a window. -/
  | calReqCancel (t : Instant) (port : Port) (val : Word)
  /-- TWILIGHT_WINDOW_BEGIN (R299). A window begins when its octet is free and admitted, forming a CAL record and putting the pins in the safe state. -/
  | twilightWindowBegin (t : Instant) (oct : Fin 8)
  /-- TWILIGHT_STEP_DONE (R295). Completion of one measuring step of a window starts the next. -/
  | twilightStepDone (t : Instant) (oct : Fin 8) (meas : List ChMeas)
  /-- TWILIGHT_WINDOW_END (R296). The window ends, writing passing groups to the trim memory, reconnecting the pins and firing deferred strobes. -/
  | twilightWindowEnd (t : Instant) (oct : Fin 8)
  /-- CAL_UNIT_STEP_DONE (R297). Completion of the 6 ms unit step requests a window on the lowest active octet. -/
  | calUnitStepDone (t : Instant) (phases : List Int)
  /-- CAL_REQUEST_OVERDUE (R300). A request pending for WAIT_S becomes overdue and holds jobs naming its octet. -/
  | calRequestOverdue (t : Instant) (oct : Fin 8)
  /-- ROLL_PHASE_DONE (R308). Completion of a measuring phase of the rolling cycle checks its results and moves to the next phase. -/
  | rollPhaseDone (t : Instant) (oct : Fin 8) (m : ChMeas)
  /-- SPARE_SWAP_IN (R309). At a permitted cycle origin the spare lane takes over the next pin through the crosspoint. -/
  | spareSwapIn (t : Instant) (oct : Fin 8)
  /-- SPARE_HAND_BACK (R310). At a permitted cycle origin the pin is handed back to its own channel with new timing trims if they passed. -/
  | spareHandBack (t : Instant) (oct : Fin 8)
  /-- ROLL_GAP_EXPIRY (R308). Expiry of GAP_MS starts the rolling cycle on the next pin. -/
  | rollGapExpiry (t : Instant) (oct : Fin 8)
  /-- RING_ALIGNMENT_FOUND (R320). A candidate marker position confirmed by three valid frames becomes the port's alignment:
  the search over the bits received since it began. -/
  | ringAlignmentFound (t : Instant) (x : LineBits)
  /-- RING_FRAME_DISCARDED (R321). A frame with bad MARKER or CRC on an aligned port is discarded, and four in a row end the alignment:
  the 32 bits received in the place of MARKER and the 224 after them. -/
  | ringFrameDiscarded (t : Instant) (rp : RingPort) (marker : BitVec 32) (rest : BitVec 224)
  /-- RING_IDLE_RECEIVED (R337). An IDLE frame is taken for link status, self-loop detection and rendezvous with the agreement's beacons. -/
  | ringIdleReceived (t : Instant) (rp : RingPort) (serial : BitVec 64) (agreeId : Nat)
  /-- SURVEY_SEND (R323). Every 100 ms the unit sends a SURVEY downstream. -/
  | surveySend (t : Instant)
  /-- SURVEY_RECEIVED (R323). A SURVEY is marked and forwarded, or on return decides whether the ring is closed. -/
  | surveyReceived (t : Instant) (rp : RingPort) (h : RingHdr) (seen dup : BitVec 16)
  /-- SURVEY_TIMEOUT (R323). A SURVEY not returned within 1 ms makes the ring open at this unit. -/
  | surveyTimeout (t : Instant)
  /-- DELAY_REQ_SEND (R324). Every 10 ms the unit sends DELAY_REQ on RING B. -/
  | delayReqSend (t : Instant)
  /-- DELAY_REQ_RECEIVED (R324). A DELAY_REQ on RING A is timestamped and answered with DELAY_RESP, and its LAST_D becomes LINK_A. -/
  | delayReqReceived (t : Instant) (h : RingHdr) (lastD : Nat)
  /-- DELAY_RESP_RECEIVED (R324). A DELAY_RESP completes a downstream and upstream delay measurement of the RING B link. -/
  | delayRespReceived (t : Instant) (x : DelayResp)
  /-- RING_TICK (R326). At each 1 ms ring tick a unit may claim mastership, and the master sends TIME frames. -/
  | ringTick (t : Instant)
  /-- CLAIM_RECEIVED (R326). A CLAIM is forwarded, withdraws a higher claim, or is discarded against a lower standing claim. -/
  | claimReceived (t : Instant) (rp : RingPort) (h : RingHdr) (valid : Bool) (todSrc : Nat)
  /-- CLAIM_TIMEOUT (R326). A claimant with no lower claim 1 ms after its claim becomes ring time master. -/
  | claimTimeout (t : Instant)
  /-- RESIGN_RECEIVED (R326). A RESIGN from the master is forwarded and ends the selection of that master. -/
  | resignReceived (t : Instant) (rp : RingPort) (h : RingHdr)
  /-- TIME_RECEIVED (R327). A TIME frame gives an offset sample to the fit and is regenerated out of the other port. -/
  | timeReceived (t : Instant) (rp : RingPort) (h : RingHdr) (mtime : Nat) (state : Nat) (valid : Bool) (todSrc : Nat)
  /-- RING_SYNC_TIMEOUT (R327). 8 ms without a TIME frame sets SYNC to 0. -/
  | ringSyncTimeout (t : Instant)
  /-- LOOP_MEASURE_DONE (R325). After 1 s of self-loop timing the unit reports ASYM_MEAS and sets LOOP_VALID. -/
  | loopMeasureDone (t : Instant) (asym : Int)
  /-- RING_CMD_WAKE (R336). The WAKE command of G_RING_CMD originates a wake call on both ports. -/
  | ringCmdWake (t : Instant) (port : Port) (val : Word)
  /-- RING_CMD_PROPOSE (R332). The PROPOSE command of G_RING_CMD starts a sleep agreement with a PROPOSE frame. -/
  | ringCmdPropose (t : Instant) (port : Port) (val : Word)
  /-- RING_CMD_TRIG (R329). The TRIG command of G_RING_CMD assigns a start instant to a TRIG_ID and sends TRIG. -/
  | ringCmdTrig (t : Instant) (port : Port) (val : Word)
  /-- RING_CMD_RUN (R329). The RUN command of G_RING_CMD assigns a start instant and sends RUN so that units submit a template. -/
  | ringCmdRun (t : Instant) (port : Port) (val : Word)
  /-- TRIG_RECEIVED (R329). A TRIG frame stores the assignment of its TRIG_ID and is forwarded. -/
  | trigReceived (t : Instant) (rp : RingPort) (h : RingHdr) (trigId : Nat) (start : Nat)
  /-- RUN_RECEIVED (R329). A RUN frame stores the assignment and, with RUN_EN 1, submits the named template as a ring job. -/
  | runReceived (t : Instant) (rp : RingPort) (h : RingHdr) (trigId : Nat) (start : Nat) (template : Nat)
  /-- PROPOSE_RECEIVED (R333). A PROPOSE is accepted or vetoed and forwarded, or on return leads the proposer to COMMIT or ABORT. -/
  | proposeReceived (t : Instant) (rp : RingPort) (h : RingHdr) (a : AgreeMsg)
  /-- COMMIT_RECEIVED (R334). A COMMIT commits the unit and is forwarded, or on return leads the proposer to send its verdict. -/
  | commitReceived (t : Instant) (rp : RingPort) (h : RingHdr) (a : AgreeMsg)
  /-- VERDICT_RECEIVED (R335). A VERDICT confirms or aborts the agreement, releasing or latching held wake calls, and is forwarded. -/
  | verdictReceived (t : Instant) (rp : RingPort) (h : RingHdr) (agreeId result : Nat)
  /-- WAKE_RECEIVED (R335). A WAKE frame acts, is held or is latched according to the unit's place in the agreement, and is forwarded once each way. -/
  | wakeReceived (t : Instant) (rp : RingPort) (h : RingHdr) (origin wakeSeq agreeId : Nat)
  /-- AGREE_RETURN_TIMEOUT (R333). PROPOSE or COMMIT not returned within LEAD_MS / 4 aborts the agreement with code 9. -/
  | agreeReturnTimeout (t : Instant)
  /-- VERDICT_TIMEOUT (R335). No verdict by local T_n − 10 ms aborts the agreement locally with code 11. -/
  | verdictTimeout (t : Instant)
  /-- SLEEP_INSTANT (R332). At local T_n after CONFIRM the unit enters Dusk towards Night and sets its Nightwatch alarm for the rendezvous. -/
  | sleepInstant (t : Instant)
  /-- RENDEZVOUS_START (R337). At local T_w the unit starts its transmitters and sends beacons. -/
  | rendezvousStart (t : Instant)
  /-- RENDEZVOUS_GUARD_EXPIRY (R339). No rendezvous by local T_w + G declares a lost rendezvous and starts the listen. -/
  | rendezvousGuardExpiry (t : Instant)
  /-- LISTEN_EXPIRY (R339). No rendezvous within LISTEN_S fails the rendezvous, sends a wake call and takes the wake target with the ring open. -/
  | listenExpiry (t : Instant)
  /-- WAKE_TONE_DETECTED (R336). A receiver in Night that detects the wake tone for 1 ms fires wake source 2. -/
  | wakeToneDetected (t : Instant)
  /-- SPI_COMMAND_FRAME (R349). A COMMAND frame is stored in the receive side, held off with HRDY, or discarded. -/
  | spiCommandFrame (t : Instant) (f : SpiFrame)
  /-- SPI_FETCH_ANSWER_FRAME (R353). A FETCH_ANSWER frame clocks out the answer and empties the area only when every word was clocked. -/
  | spiFetchAnswerFrame (t : Instant) (f : SpiFrame)
  /-- SPI_FETCH_NOTE_FRAME (R353). A FETCH_NOTE frame clocks out the notification and moves the next one into the area. -/
  | spiFetchNoteFrame (t : Instant) (f : SpiFrame)
  /-- SPI_ABORT_FRAME (R353). An ABORT frame empties the answer area and ends an export sequence. -/
  | spiAbortFrame (t : Instant) (f : SpiFrame)
  /-- SPI_BAD_FRAME (R347). A frame with a bad frame word is discarded whole without answer. -/
  | spiBadFrame (t : Instant) (f : SpiFrame)
  /-- SPI_FRAME_WHILE_STOPPED (R357). A frame begun while the port was not running is discarded at HSEL rise and counted in PARTIAL. -/
  | spiFrameWhileStopped (t : Instant)
  /-- SPI_REG_READ (R352). The REG_READ command returns N values read from consecutive addresses. -/
  | spiRegRead (t : Instant)
  /-- SPI_REG_WRITE (R352). The REG_WRITE command writes N values, stopping at the first refused. -/
  | spiRegWrite (t : Instant)
  /-- SPI_ECHO (R352). The ECHO command returns the words it carries. -/
  | spiEcho (t : Instant)
  /-- SPI_VSTORE_WRITE (R352). The VSTORE_WRITE command writes vectors into vector store under R193. -/
  | spiVstoreWrite (t : Instant)
  /-- SPI_VSTORE_READ (R352). The VSTORE_READ command returns vectors from vector store. -/
  | spiVstoreRead (t : Instant)
  /-- SPI_STREAM_PIECE (R352). The STREAM_PIECE command delivers one piece to a stream ring and answers with WR_SEQ, FILL and its disposition. -/
  | spiStreamPiece (t : Instant)
  /-- SPI_JOB_SUBMIT (R352). The JOB_SUBMIT command submits a job descriptor and answers with the slot and job number or a refusal code. -/
  | spiJobSubmit (t : Instant)
  /-- SPI_JOB_CANCEL (R352). The JOB_CANCEL command cancels the masked slots under R222. -/
  | spiJobCancel (t : Instant)
  /-- SPI_JOB_STATUS (R352). The JOB_STATUS command returns the state, job number and host tag of a slot. -/
  | spiJobStatus (t : Instant)
  /-- SPI_EXPORT (R352). The EXPORT command answers under R257 and, for more than 31 records, starts an export sequence. -/
  | spiExport (t : Instant)
  /-- SPI_EXPORT_TIMEOUT (R352). An export answer left unfetched for 2 s is discarded and the sequence ends. -/
  | spiExportTimeout (t : Instant)
  /-- SPI_RELEASE (R352). The RELEASE command releases evidence under R258 and returns TO as applied. -/
  | spiRelease (t : Instant)
  /-- SPI_CERT_READ (R352). The CERT_READ command returns bytes of the certificate bundle. -/
  | spiCertRead (t : Instant)
  /-- SPI_LOG_READ (R352). The LOG_READ command returns trouble-log entries from FROM. -/
  | spiLogRead (t : Instant)
  /-- USB_BUS_RESET (R365). A bus reset abandons the control transfer, ends streams and uploads and returns address and configuration to 0. -/
  | usbBusReset (t : Instant) (high : Bool) (cut : Option UsbCut)
  /-- USB_SUSPEND (R359). A USB suspend stops the port's transfers and no other unit activity. -/
  | usbSuspend (t : Instant)
  /-- USB_GET_STATUS (R359). The standard GET_STATUS request is answered as USB 2.0 defines it. -/
  | usbGetStatus (t : Instant) (u : UsbSetup)
  /-- USB_CLEAR_FEATURE (R359). The standard CLEAR_FEATURE request clears a feature, including a halted bulk OUT endpoint. -/
  | usbClearFeature (t : Instant) (u : UsbSetup)
  /-- USB_SET_FEATURE (R359). The standard SET_FEATURE request sets ENDPOINT_HALT or TEST_MODE. -/
  | usbSetFeature (t : Instant) (u : UsbSetup)
  /-- USB_SET_ADDRESS (R359). The standard SET_ADDRESS request sets the device address. -/
  | usbSetAddress (t : Instant) (u : UsbSetup)
  /-- USB_GET_DESCRIPTOR (R359). The standard GET_DESCRIPTOR request returns a descriptor of Table 15-7. -/
  | usbGetDescriptor (t : Instant) (u : UsbSetup)
  /-- USB_GET_CONFIGURATION (R359). The standard GET_CONFIGURATION request returns the configuration value. -/
  | usbGetConfiguration (t : Instant) (u : UsbSetup)
  /-- USB_SET_CONFIGURATION (R359). The standard SET_CONFIGURATION request selects configuration 0 or 1. -/
  | usbSetConfiguration (t : Instant) (u : UsbSetup)
  /-- USB_GET_INTERFACE (R359). The standard GET_INTERFACE request returns alternate setting 0. -/
  | usbGetInterface (t : Instant) (u : UsbSetup)
  /-- USB_SET_INTERFACE (R359). The standard SET_INTERFACE request selects alternate setting 0. -/
  | usbSetInterface (t : Instant) (u : UsbSetup)
  /-- USB_GET_INFO (R360). The GET_INFO vendor request returns 16 identity and state registers. -/
  | usbGetInfo (t : Instant) (u : UsbSetup)
  /-- USB_REG_READ (R360). The REG_READ vendor request returns register values read at setup. -/
  | usbRegRead (t : Instant) (u : UsbSetup)
  /-- USB_REG_WRITE (R360). The REG_WRITE vendor request writes its values at the status stage, stopping at the first refused. -/
  | usbRegWrite (t : Instant) (u : UsbSetup) (data : List Byte)
  /-- USB_CERT_READ (R360). The CERT_READ vendor request returns bundle bytes below TOTAL_LEN. -/
  | usbCertRead (t : Instant) (u : UsbSetup)
  /-- USB_LAST_RESULT (R360). The LAST_RESULT vendor request returns the result of the previous vendor request. -/
  | usbLastResult (t : Instant) (u : UsbSetup)
  /-- USB_EXPORT_START (R361). The EXPORT_START vendor request opens a bulk IN export stream under R257. -/
  | usbExportStart (t : Instant) (u : UsbSetup) (data : List Byte)
  /-- USB_LOG_START (R361). The LOG_START vendor request opens a bulk IN stream of log entries. -/
  | usbLogStart (t : Instant) (u : UsbSetup) (data : List Byte)
  /-- USB_DEBUG_START (R362). The DEBUG_START vendor request opens a bulk IN stream read from DRAM through one DBG access. -/
  | usbDebugStart (t : Instant) (u : UsbSetup) (data : List Byte)
  /-- USB_BULK_ABORT (R361). The BULK_ABORT vendor request ends a running bulk IN stream after its current packet. -/
  | usbBulkAbort (t : Instant) (u : UsbSetup) (data : List Byte)
  /-- USB_RELEASE (R360). The RELEASE vendor request releases evidence under R258. -/
  | usbRelease (t : Instant) (u : UsbSetup) (data : List Byte)
  /-- USB_UPLOAD_BEGIN (R363). The UPLOAD_BEGIN vendor request discards the staged image and opens an upload of LEN bytes. -/
  | usbUploadBegin (t : Instant) (u : UsbSetup) (data : List Byte)
  /-- USB_UPLOAD_COMMIT (R363). The UPLOAD_COMMIT vendor request requests the commit of the staged image at its status stage. -/
  | usbUploadCommit (t : Instant) (u : UsbSetup) (data : List Byte)
  /-- USB_STAGE_STATUS (R360). The STAGE_STATUS vendor request returns G_BOOT_STAGE and the bytes received. -/
  | usbStageStatus (t : Instant) (u : UsbSetup)
  /-- USB_BULK_OUT_PACKET (R363). A bulk OUT packet is appended to the open upload, or discarded and the endpoint halted. -/
  | usbBulkOutPacket (t : Instant) (data : List Byte)
  /-- USB_BULK_IN_PACKET (R361). The host taking a bulk IN packet lets the stream send its next packet or end. -/
  | usbBulkInPacket (t : Instant)
  /-- USB_BULK_TIMEOUT (R364). A bulk IN packet not taken, or an upload packet not received, for 2 s ends the stream or upload. -/
  | usbBulkTimeout (t : Instant)
  /-- ETH_LINK_UP (R370). The 1000BASE-T link at J1 comes up by auto-negotiation. -/
  | ethLinkUp (t : Instant)
  /-- ETH_LINK_DOWN (R370). The link at J1 goes down, discarding queued frames and counting a LINK event while services run. -/
  | ethLinkDown (t : Instant)
  /-- DHCP_MESSAGE (R373). A DHCPv4 message advances the client to obtain, renew or lose its lease. -/
  | dhcpMessage (t : Instant) (m : DhcpMsg)
  /-- DHCP_TIMER (R373). A DHCPv4 T1, T2, lease or retry timer expiry renews, rebinds or retries. -/
  | dhcpTimer (t : Instant)
  /-- ARP_REQUEST (R373). An ARP request for the unit's address is answered and cached. -/
  | arpRequest (t : Instant) (senderIp targetIp : BitVec 32) (senderMac : BitVec 48)
  /-- ARP_ENTRY_AGE_OUT (R373). An ARP cache entry ages out after 60 s. -/
  | arpEntryAgeOut (t : Instant) (ip : BitVec 32)
  /-- IPV6_ROUTER_ADVERTISEMENT (R374). A router advertisement with the A flag forms a global address by stateless autoconfiguration. -/
  | ipv6RouterAdvertisement (t : Instant) (prefix64 : BitVec 64) (aFlag : Bool)
  /-- IPV6_DAD_DONE (R374). Completion of duplicate address detection validates an address, or turns IPv6 off on a link-local failure. -/
  | ipv6DadDone (t : Instant) (addr : BitVec 128) (duplicate : Bool)
  /-- IPV6_NEIGHBOUR_MESSAGE (R374). A neighbour discovery message is answered as RFC 4861 defines. -/
  | ipv6NeighbourMessage (t : Instant) (solicit : Bool) (target src : BitVec 128) (mac : BitVec 48)
  /-- ICMP_ECHO (R375). An ICMPv4 or ICMPv6 echo request is answered with the same payload. -/
  | icmpEcho (t : Instant) (v6 : Bool) (src dst : BitVec 128) (payload : List Byte)
  /-- ETH_FRAME_DROPPED (R375). A frame or datagram for no served service is dropped and counted in RX_ERR. -/
  | ethFrameDropped (t : Instant) (f : DroppedFrame)
  /-- TASP_DATAGRAM_REJECTED (R379). A TASP datagram failing acceptance codes 1 to 10 is dropped and counted, or answered with FORMAT or NO_SESSION. -/
  | taspDatagramRejected (t : Instant) (src : NetAddr) (dgram : List Byte)
  /-- TASP_REG_READ (R383). The REG_READ message returns N register values. -/
  | taspRegRead (t : Instant) (q : TaspReq)
  /-- TASP_REG_WRITE (R383). The REG_WRITE message writes N values, stopping at the first refused. -/
  | taspRegWrite (t : Instant) (q : TaspReq)
  /-- TASP_ECHO (R383). The ECHO message returns its bytes. -/
  | taspEcho (t : Instant) (q : TaspReq)
  /-- TASP_VSTORE_WRITE (R383). The VSTORE_WRITE message writes vectors into vector store. -/
  | taspVstoreWrite (t : Instant) (q : TaspReq)
  /-- TASP_VSTORE_READ (R383). The VSTORE_READ message returns vectors from vector store. -/
  | taspVstoreRead (t : Instant) (q : TaspReq)
  /-- TASP_STREAM_PIECE (R383). The STREAM_PIECE message delivers one piece to a stream ring and answers with WR_SEQ, FILL and disposition. -/
  | taspStreamPiece (t : Instant) (q : TaspReq)
  /-- TASP_JOB_SUBMIT (R383). The JOB_SUBMIT message submits a job descriptor and answers with slot and job number or a refusal code. -/
  | taspJobSubmit (t : Instant) (q : TaspReq)
  /-- TASP_JOB_CANCEL (R383). The JOB_CANCEL message cancels the masked slots. -/
  | taspJobCancel (t : Instant) (q : TaspReq)
  /-- TASP_JOB_STATUS (R383). The JOB_STATUS message returns the state, job number and host tag of a slot. -/
  | taspJobStatus (t : Instant) (q : TaspReq)
  /-- TASP_RING_TRIG (R383). The RING_TRIG message originates a ring TRIG or RUN and returns the start instant assigned. -/
  | taspRingTrig (t : Instant) (q : TaspReq)
  /-- TASP_EXPORT (R384). The EXPORT message sends the R257 answer in up to MAXDG datagrams. -/
  | taspExport (t : Instant) (q : TaspReq)
  /-- TASP_RELEASE (R383). The RELEASE message releases evidence and returns TO as applied. -/
  | taspRelease (t : Instant) (q : TaspReq)
  /-- TASP_CERT_READ (R383). The CERT_READ message returns bundle bytes. -/
  | taspCertRead (t : Instant) (q : TaspReq)
  /-- TASP_LOG_READ (R383). The LOG_READ message returns trouble-log entries. -/
  | taspLogRead (t : Instant) (q : TaspReq)
  /-- TASP_OPEN (R380). The OPEN message opens or returns a session, evicting the longest idle one or answering BUSY. -/
  | taspOpen (t : Instant) (q : TaspReq)
  /-- TASP_CLOSE (R380). The CLOSE message closes its session. -/
  | taspClose (t : Instant) (q : TaspReq)
  /-- TASP_NOTE_SUB (R385). The NOTE_SUB message starts or ends the session's subscription to EVENT notifications. -/
  | taspNoteSub (t : Instant) (q : TaspReq)
  /-- TASP_NOTE_RESEND (R387). The NOTE_RESEND message sends held EVENT notes again from FROM_NSEQ. -/
  | taspNoteResend (t : Instant) (q : TaspReq)
  /-- TASP_UPLOAD_BEGIN (R391). The UPLOAD_BEGIN message discards the staged image and opens an upload. -/
  | taspUploadBegin (t : Instant) (q : TaspReq)
  /-- TASP_UPLOAD_DATA (R391). The UPLOAD_DATA message appends a chunk, accepts a repeat, or is answered with LENGTH. -/
  | taspUploadData (t : Instant) (q : TaspReq)
  /-- TASP_UPLOAD_COMMIT (R391). The UPLOAD_COMMIT message requests the commit of the staged image. -/
  | taspUploadCommit (t : Instant) (q : TaspReq)
  /-- TASP_STAGE_STATUS (R383). The STAGE_STATUS message returns G_BOOT_STAGE and the bytes received. -/
  | taspStageStatus (t : Instant) (q : TaspReq)
  /-- TASP_UPLOAD_TIMEOUT (R391). An upload with no chunk for 10 s ends and leaves the staging buffer empty. -/
  | taspUploadTimeout (t : Instant)
  /-- TASP_SESSION_IDLE_EXPIRY (R380). A session without an authenticated datagram for SESS_IDLE_S closes. -/
  | taspSessionIdleExpiry (t : Instant) (session : Fin 4)
  /-- TASP_EVENT_HANDOVER (R386). An EVENT note moves from the notification queue to the MAC's priority transmit queue when that queue is empty. -/
  | taspEventHandover (t : Instant)
  /-- STREAM_GAP_RETRY (R388). Every RETX_US while the gap persists the note is repeated, until RETX_MAX notes give up. -/
  | streamGapRetry (t : Instant) (ring : Fin 4)
  /-- FAULT_QUIET_EXPIRY (R402). A severe scope in automatic mode exits when its cause has not persisted for Q, releasing its reaction. -/
  | faultQuietExpiry (t : Instant) (src : Fin 48) (oct : Fin 8)
  /-- FAULT_CLEAR_WRITE (R403). A write of G_FLT_CLEAR clears a severe scope, or is refused while its cause persists. -/
  | faultClearWrite (t : Instant) (port : Port) (val : Word)
  /-- FAULT_CFG_WRITE (R401). A write of G_FLT_CFG changes the selected source's settings and applies a changed reaction at once to severe scopes. -/
  | faultCfgWrite (t : Instant) (port : Port) (val : Word)
  /-- FW_WATCHDOG_SERVICE (R405). The management core services the firmware watchdog and its count starts again. -/
  | fwWatchdogService (t : Instant)
  /-- FWD_CFG_WRITE (R405). A write of G_FWD_CFG that enables the watchdog or changes FWD_MS restarts its count. -/
  | fwdCfgWrite (t : Instant) (port : Port) (val : Word)
  /-- FW_WATCHDOG_EXPIRY (R405). An unserviced firmware watchdog restarts the management core from ROM and counts an FW_WD event. -/
  | fwWatchdogExpiry (t : Instant) (cut : Option UsbCut)
  /-- FW_RESTART_DONE (R406). Completion of the restart answers the request in service with REFUSED and resumes the ports and any power transition. -/
  | fwRestartDone (t : Instant)
  /-- LOG_SUPPRESS_PERIOD_END (R410). At the end of 1 000 ms after an EVENT entry, suppressed events of the scope are logged in one SUPPRESSED entry. -/
  | logSuppressPeriodEnd (t : Instant) (src : Fin 48) (oct : Fin 8)
  /-- CELL_PRESENCE_CHANGE (R395). The backup cell being removed or connected changes CELL_ABSENT, and its becoming 1 counts an event of the CELL_ABSENT source. -/
  | cellPresenceChange (t : Instant) (present : Bool) (mv : Nat)
  /-- CELL_LOW_CLEARED (R79). The cell charging back above 2.50 V clears CELL_LOW, which ends the condition of the CELL_LOW source so that its quiet period can run. -/
  | cellLowCleared (t : Instant) (mv : Nat)
  /-- USB_RESUME (R359). Resume signalling from the USB host takes the device out of the suspended state and lets the port's transfers continue. -/
  | usbResume (t : Instant)
  /-- MULTICAST_LISTENER_QUERY (R375). An IGMPv2 or MLDv2 query received on J1 is answered with reports for the PTP multicast groups. -/
  | multicastListenerQuery (t : Instant) (v6 : Bool) (group : BitVec 128)
  deriving DecidableEq, Repr

end Sys2Proof
end

