-- ==== Sys2Proof/WellFormed.lean ====
section
/-!
DEFINITION. WellFormed.lean: which commands can come at all: register addresses are 32 bits wide (18 R419), memory rows name a word
of their array (07 R177, 08 R194, 06 R168), a request moves at least one beat (11 R263), a routine entry is one of the
255 an image may hold, power classification gives 0 to 5 class events (Table 3-1), and a search for alignment looks at as
many bits as it names (14 R320). Meanings are total all the same.
-/

namespace Sys2Proof

/-- Whether a command is one that can come. -/
def Instr.wf (i : Instr) : Bool :=
  match i with
  | .registerWrite _ _ a _ => decide (a < 2 ^ 32)
  | .rcRegisterRead _ _ x => decide (x.addr < 2 ^ 32)
  | .latchedGroupLowRead _ _ a => decide (a < 2 ^ 32)
  | .enclSenseUpdate _ _ => true
  | .hardwareThermalTrip _ _ => true
  | .thermalTripRelease _ _ => true
  | .tamongSecondBoundary _ => true
  | .ppsOutFall _ => true
  | .hpresChange _ _ => true
  | .linePowerApplied _ n => decide (n ≤ 5)
  | .lineLoss _ _ => true
  | .bankExhausted _ => true
  | .nightwatchReset _ _ => true
  | .cellLowSet _ _ => true
  | .nightwatchAlarm _ => true
  | .hselWake _ => true
  | .vbusRise _ => true
  | .vbusLoss _ _ => true
  | .jobWakeCondition _ _ => true
  | .pwrReqDay _ _ => true
  | .pwrReqEvening _ _ => true
  | .pwrReqNight _ _ => true
  | .fullDawnBegin _ _ => true
  | .imageBankReadDone _ _ _ => true
  | .imgTimeoutExpiry _ _ _ => true
  | .dawnEnterTarget _ => true
  | .shortDawnBegin _ => true
  | .bandCalDone _ _ => true
  | .synthLocked _ _ => true
  | .lockAttemptTimeout _ _ => true
  | .synthLockLoss _ _ => true
  | .ovenWarm _ => true
  | .ovenWarmTimeout _ => true
  | .duskEntry _ => true
  | .duskWaitExpiry _ => true
  | .duskJobsEnded _ => true
  | .duskFifosDrained _ => true
  | .duskSealed _ => true
  | .duskPowerDown _ => true
  | .bankUpdate _ _ _ _ => true
  | .powerWindowEnd _ => true
  | .ppsEdge _ => true
  | .ppsMissing _ => true
  | .ref10LossTimeout _ => true
  | .holdoverExpiry _ => true
  | .stepApply _ => true
  | .timeSetLoWrite _ _ _ => true
  | .ptpAnnounce _ _ _ => true
  | .ptpSync _ _ _ _ _ => true
  | .ptpFollowUp _ _ _ _ => true
  | .ptpDelayReqSend _ => true
  | .ptpDelayResp _ _ _ _ _ => true
  | .ptpAnnounceTimeout _ => true
  | .ptpSyncTimeout _ => true
  | .ptpFollowUpTimeout _ => true
  | .ptpDelayRespTimeout _ => true
  | .jobDue _ => true
  | .startCheckDone _ _ => true
  | .jobJudgement _ _ => true
  | .jobStartInstant _ _ => true
  | .lateStartExpiry _ _ => true
  | .holdLimitExpiry _ _ => true
  | .admitTimeoutExpiry _ _ => true
  | .jobCancelWrite _ _ _ => true
  | .vectorCycle _ _ _ => true
  | .lossClose _ _ => true
  | .jobEndChained _ _ => true
  | .chainStep _ => true
  | .evidReleaseWrite _ _ _ => true
  | .arbRequestRaised _ _ n => decide (1 ≤ n)
  | .memoryTransferComplete _ => true
  | .arbWindowStart _ => true
  | .refreshDue _ => true
  | .refreshInterrupt _ => true
  | .refreshDone _ => true
  | .dbgRequest _ n => decide (1 ≤ n)
  | .arbPreempt _ => true
  | .grantWatchdogExpiry _ => true
  | .sealIntervalExpiry _ => true
  | .sealForm _ => true
  | .sealSigned _ => true
  | .nonceRefill _ => true
  | .checkpointWriteDone _ _ => true
  | .mramBusyTimeout _ => true
  | .calStoreComplete _ _ => true
  | .imageCommitComplete _ _ => true
  | .routineOccurrence _ e => decide (e < 255)
  | .routineJobSubmit _ e => decide (e < 255)
  | .routineAfterRequest _ => true
  | .routineEnableWrite _ _ _ => true
  | .octLoadWrite _ _ _ _ => true
  | .loadTimerExpiry _ _ => true
  | .waveTick _ _ => true
  | .driverOvercurrent _ _ _ => true
  | .safeReleaseWrite _ _ _ _ => true
  | .urRelease _ _ _ => true
  | .timingSetWrite _ _ ix _ => decide (ix < 16384)
  | .segmentEntryWrite _ _ ix _ => decide (ix < 32768)
  | .waveTableWrite _ _ ix _ => decide (ix < 4096)
  | .tsetProbeWrite _ _ _ => true
  | .tsetProbeDone _ => true
  | .segLoadWrite _ _ _ => true
  | .segLoadDone _ => true
  | .sringResetWrite _ _ _ => true
  | .calReqOct _ _ _ => true
  | .calReqUnit _ _ _ => true
  | .calReqStore _ _ _ => true
  | .calReqCancel _ _ _ => true
  | .twilightWindowBegin _ _ => true
  | .twilightStepDone _ _ _ => true
  | .twilightWindowEnd _ _ => true
  | .calUnitStepDone _ _ => true
  | .calRequestOverdue _ _ => true
  | .rollPhaseDone _ _ _ => true
  | .spareSwapIn _ _ => true
  | .spareHandBack _ _ => true
  | .rollGapExpiry _ _ => true
  | .ringAlignmentFound _ x => decide (x.bits < 2 ^ x.n)
  | .ringFrameDiscarded _ _ _ _ => true
  | .ringIdleReceived _ _ _ _ => true
  | .surveySend _ => true
  | .surveyReceived _ _ _ _ _ => true
  | .surveyTimeout _ => true
  | .delayReqSend _ => true
  | .delayReqReceived _ _ _ => true
  | .delayRespReceived _ _ => true
  | .ringTick _ => true
  | .claimReceived _ _ _ _ _ => true
  | .claimTimeout _ => true
  | .resignReceived _ _ _ => true
  | .timeReceived _ _ _ _ _ _ _ => true
  | .ringSyncTimeout _ => true
  | .loopMeasureDone _ _ => true
  | .ringCmdWake _ _ _ => true
  | .ringCmdPropose _ _ _ => true
  | .ringCmdTrig _ _ _ => true
  | .ringCmdRun _ _ _ => true
  | .trigReceived _ _ _ _ _ => true
  | .runReceived _ _ _ _ _ _ => true
  | .proposeReceived _ _ _ _ => true
  | .commitReceived _ _ _ _ => true
  | .verdictReceived _ _ _ _ _ => true
  | .wakeReceived _ _ _ _ _ _ => true
  | .agreeReturnTimeout _ => true
  | .verdictTimeout _ => true
  | .sleepInstant _ => true
  | .rendezvousStart _ => true
  | .rendezvousGuardExpiry _ => true
  | .listenExpiry _ => true
  | .wakeToneDetected _ => true
  | .spiCommandFrame _ _ => true
  | .spiFetchAnswerFrame _ _ => true
  | .spiFetchNoteFrame _ _ => true
  | .spiAbortFrame _ _ => true
  | .spiBadFrame _ _ => true
  | .spiFrameWhileStopped _ => true
  | .spiRegRead _ => true
  | .spiRegWrite _ => true
  | .spiEcho _ => true
  | .spiVstoreWrite _ => true
  | .spiVstoreRead _ => true
  | .spiStreamPiece _ => true
  | .spiJobSubmit _ => true
  | .spiJobCancel _ => true
  | .spiJobStatus _ => true
  | .spiExport _ => true
  | .spiExportTimeout _ => true
  | .spiRelease _ => true
  | .spiCertRead _ => true
  | .spiLogRead _ => true
  | .usbBusReset _ _ _ => true
  | .usbSuspend _ => true
  | .usbGetStatus _ _ => true
  | .usbClearFeature _ _ => true
  | .usbSetFeature _ _ => true
  | .usbSetAddress _ _ => true
  | .usbGetDescriptor _ _ => true
  | .usbGetConfiguration _ _ => true
  | .usbSetConfiguration _ _ => true
  | .usbGetInterface _ _ => true
  | .usbSetInterface _ _ => true
  | .usbGetInfo _ _ => true
  | .usbRegRead _ _ => true
  | .usbRegWrite _ _ _ => true
  | .usbCertRead _ _ => true
  | .usbLastResult _ _ => true
  | .usbExportStart _ _ _ => true
  | .usbLogStart _ _ _ => true
  | .usbDebugStart _ _ _ => true
  | .usbBulkAbort _ _ _ => true
  | .usbRelease _ _ _ => true
  | .usbUploadBegin _ _ _ => true
  | .usbUploadCommit _ _ _ => true
  | .usbStageStatus _ _ => true
  | .usbBulkOutPacket _ _ => true
  | .usbBulkInPacket _ => true
  | .usbBulkTimeout _ => true
  | .ethLinkUp _ => true
  | .ethLinkDown _ => true
  | .dhcpMessage _ _ => true
  | .dhcpTimer _ => true
  | .arpRequest _ _ _ _ => true
  | .arpEntryAgeOut _ _ => true
  | .ipv6RouterAdvertisement _ _ _ => true
  | .ipv6DadDone _ _ _ => true
  | .ipv6NeighbourMessage _ _ _ _ _ => true
  | .icmpEcho _ _ _ _ _ => true
  | .ethFrameDropped _ _ => true
  | .taspDatagramRejected _ _ _ => true
  | .taspRegRead _ _ => true
  | .taspRegWrite _ _ => true
  | .taspEcho _ _ => true
  | .taspVstoreWrite _ _ => true
  | .taspVstoreRead _ _ => true
  | .taspStreamPiece _ _ => true
  | .taspJobSubmit _ _ => true
  | .taspJobCancel _ _ => true
  | .taspJobStatus _ _ => true
  | .taspRingTrig _ _ => true
  | .taspExport _ _ => true
  | .taspRelease _ _ => true
  | .taspCertRead _ _ => true
  | .taspLogRead _ _ => true
  | .taspOpen _ _ => true
  | .taspClose _ _ => true
  | .taspNoteSub _ _ => true
  | .taspNoteResend _ _ => true
  | .taspUploadBegin _ _ => true
  | .taspUploadData _ _ => true
  | .taspUploadCommit _ _ => true
  | .taspStageStatus _ _ => true
  | .taspUploadTimeout _ => true
  | .taspSessionIdleExpiry _ _ => true
  | .taspEventHandover _ => true
  | .streamGapRetry _ _ => true
  | .faultQuietExpiry _ _ _ => true
  | .faultClearWrite _ _ _ => true
  | .faultCfgWrite _ _ _ => true
  | .fwWatchdogService _ => true
  | .fwdCfgWrite _ _ _ => true
  | .fwWatchdogExpiry _ _ => true
  | .fwRestartDone _ => true
  | .logSuppressPeriodEnd _ _ _ => true
  | .cellPresenceChange _ _ _ => true
  | .cellLowCleared _ _ => true
  | .usbResume _ => true
  | .multicastListenerQuery _ _ _ => true

end Sys2Proof
end

