-- ==== Sys2Proof/Decode.lean ====
section
/-!
DEFINITION. Decode.lean: the commands that words of spec/opcode_table.json spell. The table gives no row bits (its rows are
happenings and register accesses, not encoded instructions), so no word spells a command (log 1). The encodings the manual
does give, of frames, messages and records, are read in Machine/.
-/

namespace Sys2Proof

/-- The command an `nbits`-bit word spells by the table's bits: none, since no row has bits. -/
def decodeTableWord (_nbits _w : Nat) : Option Instr := none

end Sys2Proof
end

