-- ==== Sys2Proof/Machine/Defaults.lean ====
section
/-!
DEFINITION. Defaults.lean: the tables of reset values the manual prints whole: the 48 fault sources (17 Table 17-1) and
the sine a wave table holds at each full Dawn (06 R168).
-/

namespace Sys2Proof.Machine

/-- Threshold N, window W in ms, reaction (0 log only, 1 stop octet, 2 stop job, 3 go to Dusk), exit (0 automatic,
1 software) and quiet period Q in s of a fault source (Table 17-1). -/
structure FltDefault where
  n : Nat
  wMs : Nat
  react : Nat
  exit : Nat
  qS : Nat
  deriving DecidableEq, Repr

/-- Table 17-1, sources 0 to 15. -/
def fltDefaults0 : List FltDefault :=
  [⟨200, 1000, 0, 0, 10⟩  /- 0 PWR_DECL -/,
   ⟨1, 1000, 0, 0, 10⟩  /- 1 ENERGY_STOP -/,
   ⟨1, 1000, 0, 0, 60⟩  /- 2 BANK_CHARGE -/,
   ⟨1, 1000, 0, 0, 60⟩  /- 3 CELL_LOW -/,
   ⟨1, 1000, 0, 1, 1⟩  /- 4 CELL_ABSENT -/,
   ⟨1, 1000, 0, 0, 60⟩  /- 5 INLET_HOT -/,
   ⟨1, 1000, 3, 0, 120⟩  /- 6 DIE_HOT -/,
   ⟨1, 1000, 0, 0, 60⟩  /- 7 BANK_HOT -/,
   ⟨1, 1000, 0, 0, 60⟩  /- 8 FAN -/,
   ⟨1, 1000, 0, 1, 1⟩  /- 9 THERMAL_TRIP -/,
   ⟨1, 1000, 0, 1, 1⟩  /- 10 SYNTH -/,
   ⟨1, 1000, 0, 0, 60⟩  /- 11 OSC -/,
   ⟨1, 1000, 0, 0, 600⟩  /- 12 TIME_LOCK -/,
   ⟨3, 10000, 0, 0, 60⟩  /- 13 TOD_DISAGREE -/,
   ⟨10, 1000, 0, 0, 10⟩  /- 14 PTP_PARTNER -/,
   ⟨3, 60000, 0, 0, 60⟩  /- 15 PPS_OUTLIER -/]

/-- Table 17-1, sources 16 to 31. -/
def fltDefaults16 : List FltDefault :=
  [⟨3, 1000, 0, 0, 10⟩  /- 16 PIN_OVC -/,
   ⟨1, 1000, 0, 0, 10⟩  /- 17 CABLE_SENSE -/,
   ⟨1, 1000, 0, 1, 1⟩  /- 18 CAL_CHECK -/,
   ⟨1, 1000, 0, 0, 1⟩  /- 19 SPARE_LANE -/,
   ⟨1, 1000, 0, 0, 10⟩  /- 20 CAPTURE_LOSS -/,
   ⟨1, 1000, 0, 0, 10⟩  /- 21 LEVEL_CLIP -/,
   ⟨1, 1000, 0, 0, 10⟩  /- 22 UNDERRUN_STREAM -/,
   ⟨1, 1000, 0, 0, 10⟩  /- 23 UNDERRUN_FETCH -/,
   ⟨1, 1000, 0, 0, 1⟩  /- 24 EVID_FULL -/,
   ⟨1, 1000, 0, 0, 1⟩  /- 25 CHAIN_SUSPEND -/,
   ⟨16, 1000, 0, 0, 10⟩  /- 26 NOTIFY_DROP -/,
   ⟨1, 1000, 0, 1, 1⟩  /- 27 SEAL -/,
   ⟨1, 1000, 0, 1, 1⟩  /- 28 CERT_MISMATCH -/,
   ⟨1, 1000, 0, 1, 1⟩  /- 29 CONFIG_MEM -/,
   ⟨1, 1000, 0, 1, 1⟩  /- 30 IMAGE -/,
   ⟨1, 1000, 0, 0, 60⟩  /- 31 CAL_STORE -/]

/-- Table 17-1, sources 32 to 47. -/
def fltDefaults32 : List FltDefault :=
  [⟨3, 60000, 0, 0, 60⟩  /- 32 GRANT_WD -/,
   ⟨3, 60000, 3, 1, 1⟩  /- 33 FW_WD -/,
   ⟨1, 1000, 0, 0, 1⟩  /- 34 CONFIG_RANGE -/,
   ⟨10, 1000, 0, 0, 10⟩  /- 35 SPI_PARTNER -/,
   ⟨10, 1000, 0, 0, 10⟩  /- 36 USB_PARTNER -/,
   ⟨10, 1000, 0, 0, 10⟩  /- 37 TASP_PARTNER -/,
   ⟨100, 1000, 0, 0, 60⟩  /- 38 TASP_AUTH -/,
   ⟨1, 1000, 0, 0, 10⟩  /- 39 LINK -/,
   ⟨10, 1000, 0, 0, 10⟩  /- 40 RING_PARTNER -/,
   ⟨1, 1000, 0, 0, 10⟩  /- 41 RING_OPEN -/,
   ⟨1, 1000, 0, 0, 60⟩  /- 42 RDV_LOST -/,
   ⟨1, 1000, 0, 0, 10⟩  /- 43 RING_SYNC -/,
   ⟨1, 1000, 0, 0, 10⟩  /- 44 ROUTINE_SKIP -/,
   ⟨1, 1000, 0, 0, 10⟩  /- 45 SUBMIT_REFUSED -/,
   ⟨1, 1000, 0, 0, 10⟩  /- 46 LATE_START -/,
   ⟨1, 1000, 0, 0, 10⟩  /- 47 GUARD_SHORT -/]

/-- Table 17-1: the defaults of the 48 sources, in order. -/
def fltDefaults : List FltDefault := fltDefaults0 ++ fltDefaults16 ++ fltDefaults32

/-- The default of source `i`. -/
def fltDefault (i : Nat) : FltDefault := fltDefaults.getD i ⟨1, 1000, 0, 0, 10⟩

/-- G_FLT_CFG of source `i` by default (Table 17-9): W_MS [31:16], N [15:8], EXIT [7], REACT [5:4]. -/
def fltCfgDefault (i : Nat) : Word :=
  let d := fltDefault i
  BitVec.ofNat 32 (65536 * d.wMs + d.n * 256 + d.exit * 128 + d.react * 16)

/-- G_FLT_QUIET of source `i` by default (Table 17-9), in units of 100 ms. -/
def fltQuietDefault (i : Nat) : Word := BitVec.ofNat 32 ((fltDefault i).qS * 10)

/-- First quarter of the sine of R168, entries 0 to 63. -/
def sineQ0 : List Nat :=
  [0, 201, 402, 603, 804, 1005, 1206, 1407, 1608, 1809, 2009, 2210, 2410, 2611, 2811, 3012,
   3212, 3412, 3612, 3811, 4011, 4210, 4410, 4609, 4808, 5007, 5205, 5404, 5602, 5800, 5998, 6195,
   6393, 6590, 6786, 6983, 7179, 7375, 7571, 7767, 7962, 8157, 8351, 8545, 8739, 8933, 9126, 9319,
   9512, 9704, 9896, 10087, 10278, 10469, 10659, 10849, 11039, 11228, 11417, 11605, 11793, 11980, 12167, 12353]

/-- First quarter of the sine of R168, entries 64 to 127. -/
def sineQ1 : List Nat :=
  [12539, 12725, 12910, 13094, 13279, 13462, 13645, 13828, 14010, 14191, 14372, 14553, 14732, 14912, 15090, 15269,
   15446, 15623, 15800, 15976, 16151, 16325, 16499, 16673, 16846, 17018, 17189, 17360, 17530, 17700, 17869, 18037,
   18204, 18371, 18537, 18703, 18868, 19032, 19195, 19357, 19519, 19680, 19841, 20000, 20159, 20317, 20475, 20631,
   20787, 20942, 21096, 21250, 21403, 21554, 21705, 21856, 22005, 22154, 22301, 22448, 22594, 22739, 22884, 23027]

/-- First quarter of the sine of R168, entries 128 to 191. -/
def sineQ2 : List Nat :=
  [23170, 23311, 23452, 23592, 23731, 23870, 24007, 24143, 24279, 24413, 24547, 24680, 24811, 24942, 25072, 25201,
   25329, 25456, 25582, 25708, 25832, 25955, 26077, 26198, 26319, 26438, 26556, 26674, 26790, 26905, 27019, 27133,
   27245, 27356, 27466, 27575, 27683, 27790, 27896, 28001, 28105, 28208, 28310, 28411, 28510, 28609, 28706, 28803,
   28898, 28992, 29085, 29177, 29268, 29358, 29447, 29534, 29621, 29706, 29791, 29874, 29956, 30037, 30117, 30195]

/-- First quarter of the sine of R168, entries 192 to 255. -/
def sineQ3 : List Nat :=
  [30273, 30349, 30424, 30498, 30571, 30643, 30714, 30783, 30852, 30919, 30985, 31050, 31113, 31176, 31237, 31297,
   31356, 31414, 31470, 31526, 31580, 31633, 31685, 31736, 31785, 31833, 31880, 31926, 31971, 32014, 32057, 32098,
   32137, 32176, 32213, 32250, 32285, 32318, 32351, 32382, 32412, 32441, 32469, 32495, 32521, 32545, 32567, 32589,
   32609, 32628, 32646, 32663, 32678, 32692, 32705, 32717, 32728, 32737, 32745, 32752, 32757, 32761, 32765, 32766]

/-- First quarter of the sine of R168, entries 256 to 256. -/
def sineQ4 : List Nat :=
  [32767]

/-- First quarter of the sine of R168, entries 0 to 256. -/
def sineQ : List Nat := sineQ0 ++ sineQ1 ++ sineQ2 ++ sineQ3 ++ sineQ4

/-- Entry `i` of the sine of R168, 0 to 1 023: round(32 767 sin(2 pi i / 1 024)), halves away from zero. -/
def sineEntry (i : Nat) : Int :=
  if i ≤ 256 then (sineQ.getD i 0 : Nat)
  else if i ≤ 512 then (sineQ.getD (512 - i) 0 : Nat)
  else if i ≤ 768 then -((sineQ.getD (i - 512) 0 : Nat) : Int)
  else -((sineQ.getD (1024 - i) 0 : Nat) : Int)

/-- Array word `j` (0 to 511) of a wave table at a full Dawn: entry 2j in [15:0], entry 2j + 1 in [31:16] (R168). -/
def waveReset (j : Nat) : Word :=
  BitVec.ofInt 16 (sineEntry (2 * j + 1)) ++ BitVec.ofInt 16 (sineEntry (2 * j))

end Sys2Proof.Machine
end

