-- ==== Sys2Proof/Machine/State.lean ====
section
/-!
DEFINITION. State.lean: everything the manual gives the unit to hold, as plain data, with its reset values as the
fields' defaults. INVENTORY.md lists each field with its rule. Instants are kernel instants in codes of 1/256 ns; Tamong
times are codes since the epoch. Array memories and byte memories are sparse lists in canonical form.
-/

namespace Sys2Proof.Machine

/-! ### Register bus (18 R419, R423) -/

/-- Result of a register-bus access (Table 15-4 codes that an access can give). -/
inductive BusRes where
  | done | align | address | access
  deriving DecidableEq, Repr, Inhabited

/-- The latest register-bus access: the model's trace of what its port is answered (log 4). -/
structure BusRec where
  port : Port
  addr : Nat
  write : Bool
  val : Word
  res : BusRes
  deriving DecidableEq, Repr, Inhabited

/-- An event added to an RC or W1C register in the present cycle (R8): register index, lowest bit, width, and how it
combines: `set` ors, `add` adds and saturates, `max` keeps the largest. -/
inductive EvKind where
  | set | add | max
  deriving DecidableEq, Repr, Inhabited

structure EvBump where
  reg : Nat
  lo : Nat
  width : Nat
  kind : EvKind
  amt : Nat
  deriving DecidableEq, Repr, Inhabited

/-- The RW and RWL registers as stored words (18 R427); fields a rule gives another home are not repeated here. -/
structure Regs where
  ledCtrl : Word := 0
  portCfg : Word := 0x00000036
  bootLimits : Word := 0x01F40003
  bootRoutine : Word := 0x80000000
  pwrOctEn : Word := 0x000000FF
  pwrCfg : Word := 0x000007D0
  clkCfg : Word := 0x00000020
  timeSrc : Word := 0x0258320C
  ppsComp : Word := 0
  ptpCfg : Word := 0x00300800
  ptpAsym : Word := 0
  timeSetHi : Word := 0
  seqCfg : Word := 0x0000003C
  jobSel : Word := 0
  sringCfg : Vector Word 4 := Vector.replicate 4 0
  segCtrl : Word := 0x00000100
  tsetProbePer : Word := 0x00000140
  evidRelHi : Word := 0
  arbCfg : Word := 0x800400C8
  arbWeight : Vector Word 7 :=
    #v[0x01000400, 0x01000100, 0x01000100, 0x01000100, 0x00400100, 0x008000C0, 0x00300010]
  arbMonSel : Word := 0
  sealCfg : Word := 0x031003E8
  ckptCfg : Word := 0x00000040
  fltSel : Word := 0
  fltCfg : Vector Word 48 := Vector.ofFn fun i => fltCfgDefault i.val
  fltQuiet : Vector Word 48 := Vector.ofFn fun i => fltQuietDefault i.val
  fwdCfg : Word := 0x80000064
  ringCfg : Word := 0x0000000A
  ringSleep : Word := 0x00005064
  ringAsym : Word := 0
  ringArg : Word := 0
  spiCfg : Word := 0x00000010
  usbCfg : Word := 0
  ethCfg : Word := 0x03E83C83
  calCfg : Word := 0xC00A0258
  calSel : Word := 0
  /-- Watched fields that hold a substituted value (17 R429): register offset, field, value written. -/
  subst : List (Nat × Nat × Nat) := []
  deriving DecidableEq, Repr

/-! ### Enclosure (02) -/

structure Encl where
  /-- G_ENCL_SENSE as last updated, PPS_IN_OK apart (R55). -/
  sense : Word := 0
  fanSpeed0 : Nat := 0
  fanSpeed1 : Nat := 0
  fanFail0 : Bool := false
  fanFail1 : Bool := false
  /-- Speeds the fans are commanded to, 0 while off (R32, R55). -/
  fanCmd0 : Nat := 0
  fanCmd1 : Nat := 0
  /-- Since when each fan is below 20 % of its commanded speed. -/
  fanLow0 : Option Instant := none
  fanLow1 : Option Instant := none
  /-- The lines VBUS and HPRES at J8 and J9, and REF10_IN_OK. -/
  vbus : Bool := false
  hpres : Bool := false
  ref10 : Bool := false
  /-- PPS_IN_OK as it read when the fast domain was last powered (R55). -/
  ppsKept : Bool := false
  dieC : Int := 0
  inletC : Int := 0
  bankC : Int := 0
  /-- The next update is the first of a full Dawn: conditions that hold are onsets (R396). -/
  onset : Bool := true
  ppsOutHigh : Bool := false
  ppsOutRise : Instant := 0
  j4Skip : Bool := false
  deriving DecidableEq, Repr

/-! ### Power (03) -/

/-- The power states of R60 and Table 3-14. -/
inductive PwrSt where
  | absent | night | evening | dawn | day | dusk | maint
  deriving DecidableEq, Repr, Inhabited

/-- A power transition resolved and waiting to begin (R64): target, wake source (0: host request), Dusk cause. -/
structure PwrPend where
  target : PwrSt
  source : Nat
  cause : Nat
  at_ : Instant
  deriving DecidableEq, Repr, Inhabited

/-- The request of a Dusk that wins in its cycle so far (R64), with the Dusk's target, cause and latched request and the request waiting
before it. -/
structure DuskReq where
  win : PwrPend
  target : PwrSt
  cause : Nat
  latched : Option Nat
  pend : Option PwrPend
  deriving DecidableEq, Repr

/-- Sums of the present 1 ms power window (R72): samples, load, input, declaration and its excess part in mW; numbers of the jobs seen running. -/
structure PwrWin where
  samples : Nat := 0
  load : Nat := 0
  input : Nat := 0
  decl : Nat := 0
  excess : Nat := 0
  jobs : List Nat := []
  deriving DecidableEq, Repr

structure Pwr where
  st : PwrSt := .absent
  target : PwrSt := .absent
  shortDawn : Bool := false
  /-- A short Dawn abandoned under R90: a full Dawn follows. -/
  abandoned : Bool := false
  linePresent : Bool := false
  /-- Line power has been applied and its full Dawn has not begun; the present full Dawn followed line absent (R60). -/
  lineDawn : Bool := false
  fromLine : Bool := false
  /-- Steps 1 to 8 of the present full Dawn are done, or the Dawn is short (R114, R115). -/
  dawnReady : Bool := false
  lastStart : Nat := 0
  classEvents : Nat := 0
  octActive : BitVec 8 := 0
  bankUv : Nat := 0
  /-- Averages of the last 1 ms window, in mW (Table 3-18). -/
  inputMw : Nat := 0
  busMw : Nat := 0
  win : PwrWin := {}
  /-- Bus load of the latest 10 µs sample, and COMMIT_CJ as the latest update of BANK_MJ left it (Table 3-19). -/
  busNow : Nat := 0
  commitCj : Nat := 0
  pend : Option PwrPend := none
  duskCause : Nat := 0
  stopCause : Nat := 0
  wakeSource : Nat := 0
  /-- Step of R66 under way: 2 until no job runs, then 4 to 7; instant of entry and DUSK_WAIT in ms. -/
  duskStep : Nat := 0
  duskStart : Instant := 0
  duskWaitMs : Nat := 0
  /-- The seal of step 5 has been ordered. -/
  duskSealed : Bool := false
  /-- Wake source of a Day request latched during the Dusk (R432). -/
  duskLatched : Option Nat := none
  duskReq : Option DuskReq := none
  /-- The Dusk was entered from Day, so its pin channels are powered until step 7. -/
  duskPins : Bool := false
  /-- Class events of line power that returned during a Dusk after line loss. -/
  lineBack : Option Nat := none
  cellMv : Nat := 0
  cellLow : Bool := false
  cellAbsent : Bool := false
  tokenRead : Word := 0
  /-- BANK_MJ at instants 1 ms apart, the latest first, since charging was last not expected (source 2 of Table 17-1). -/
  bankHist : List (Instant × Nat) := []
  deriving DecidableEq, Repr

/-! ### Evidence records (10 R237) -/

/-- A record: its eight little-endian words. -/
structure Rec where
  head : Word
  jobNo : Word
  t0 : Word
  t1 : Word
  t2 : Word
  p0 : Word
  p1 : Word
  p2 : Word
  deriving DecidableEq, Repr, Inhabited

/-- A formed record on its way to the chain: its formation instant, whether an event closed it (R235), its issue order,
its octet when it is a pin record or LOSS pair, and the closing strobe R25 measures from. -/
structure QRec where
  body : Rec
  at_ : Instant
  closed : Bool
  ord : Nat
  oct : Option Nat
  strobe : Option Instant
  deriving DecidableEq, Repr, Inhabited

/-- An open PASS run of an octet (R243). -/
structure Run where
  jobNo : Nat
  first : Nat
  count : Nat
  judged : Nat
  time : Nat
  strobe : Instant
  spare : Bool
  rle : Bool
  deriving DecidableEq, Repr, Inhabited

/-- Fields of a FAIL record that must be equal for a coalescing group to go on (R245): all but CYCLE. -/
structure FailKey where
  pin : Nat
  expect : Nat
  hi : Bool
  lo : Bool
  nobs : Bool
  judged : Nat
  failing : Nat
  deriving DecidableEq, Repr, Inhabited

/-- An open coalescing group (R245). -/
structure Grp where
  jobNo : Nat
  keys : List FailKey
  count : Nat
  firstCycle : Nat
  lastCycle : Nat
  time : Nat
  strobe : Instant
  spare : Bool
  fold : Bool
  notify : Bool
  deriving DecidableEq, Repr, Inhabited

/-- An open loss (R251). -/
structure Loss where
  jobNo : Nat
  first : Nat
  last : Nat
  dropped : Nat
  time : Nat
  notify : Bool
  deriving DecidableEq, Repr, Inhabited

/-- A capture result (R159, R233): RESULT, DIR, MORE and the code of a timed edge. -/
structure CapRes where
  res : Nat
  dir : Nat
  more : Bool
  at_ : Nat
  deriving DecidableEq, Repr, Inhabited

/-- What a pin's cycle gives: the state, its compare strobe, whether it failed with the outputs there, whether it was not
observed, its capture, and whether the spare lane served it (R233). -/
structure PinRes where
  pin : Nat
  st : Nat
  strobe : Nat
  fail : Bool
  hi : Bool
  lo : Bool
  nobs : Bool
  cap : Option CapRes
  spare : Bool
  deriving DecidableEq, Repr, Inhabited

/-- What the records of a cycle share: job, cycle number, origin as a Tamong code and as an instant, and the policy. -/
structure CycAt where
  jobNo : Nat
  cyc : Nat
  org : Nat
  korg : Instant
  pol : Nat
  deriving DecidableEq, Repr, Inhabited

/-- The cycle an octet's capture engine is judging: the compare results still to come and those given, by pin. -/
structure OctCyc where
  a : CycAt
  left : Nat
  rs : List PinRes
  deriving DecidableEq, Repr, Inhabited

/-- The capture engine of one octet (R233 to R251). -/
structure Cap where
  fifo : List QRec := []
  run : Option Run := none
  grp : Option Grp := none
  loss : Option Loss := none
  cyc : Option OctCyc := none
  deriving DecidableEq, Repr, Inhabited

/-- A saved chain state (12 R274): HEAD, where none is H(-1), COUNT and OLDEST. -/
structure ChainSt where
  head : Option (List Byte) := none
  count : Nat := 0
  oldest : Nat := 0
  deriving DecidableEq, Repr

/-- A seal being formed (R276, R280): its k, its part 0 and CHAIN_HEAD. -/
structure SealForm where
  k : Nat
  part0 : Rec
  headB : List Byte
  deriving DecidableEq, Repr

/-- An export in progress and the releases that wait for it (R258). -/
structure Export where
  port : Port
  first : Nat
  next : Nat
  stop : Nat
  deriving DecidableEq, Repr

structure Evid where
  head : Option (List Byte) := none
  count : Nat := 0
  oldest : Nat := 0
  sealedEnd : Nat := 0
  /-- Records OLDEST to COUNT - 1, in order (R253). -/
  held : List Rec := []
  /-- Record numbers still to be written, with the requester that writes them: 0 to 7 CE, 8 SE. -/
  unwritten : List (Nat × Nat) := []
  unitQ : List QRec := []
  nextOrd : Nat := 0
  full : Bool := false
  suspended : Bool := false
  suspendTime : Nat := 0
  exports : List Export := []
  /-- JOB_END records of jobs whose slots a full Dawn freed while the chain was suspended (R256; 09 R216). -/
  endWait : List Rec := []
  relWait : List Nat := []
  deriving DecidableEq, Repr

/-! ### Nightwatch (02 R52, 03 R76, 04 R82 to R85, 17 R407) -/

/-- A trouble-log entry (Table 17-3): its four words. -/
structure LogEntry where
  w0 : Word
  w1 : Word
  w2 : Word
  w3 : Word
  deriving DecidableEq, Repr, Inhabited

/-- The settings Nightwatch keeps for the next full Dawn (05 R114, R135): those in force when the previous Day, Evening or maintenance Day
ended. -/
structure KeptRegs where
  bootLimits : Word := 0x01F40003
  timeSrc : Word := 0x0258320C
  ppsComp : Word := 0
  ptpCfg : Word := 0x00300800
  ptpAsym : Word := 0
  deriving DecidableEq, Repr

structure Night where
  kept : KeptRegs := {}
  shipMode : Bool := true
  token : Word := 0
  codes : Nat := 0
  alignSec : Nat := 0
  aligned : Bool := false
  /-- Set values of the alarm in ticks: for the routine table, and for a rendezvous; the earlier one fires first. -/
  alarm : Option Nat := none
  /-- The state the routine table's alarm wakes for (R63). -/
  alarmFor : PwrSt := .day
  alarmRdv : Option Nat := none
  tripHeld : Bool := false
  tripFound : Bool := false
  wakeLatch : Bool := false
  duskIncomplete : Bool := false
  /-- Die temperature at which each synthesiser's band codes were taken: octets 0 to 7, the core at 8 (R88). -/
  bands : Vector (Option Int) 9 := Vector.replicate 9 none
  jobNo : Nat := 0
  chain : ChainSt := {}
  log : List LogEntry := []
  logNext : Nat := 0
  deriving DecidableEq, Repr

/-! ### Clocks and time (04) -/

/-- What a synthesiser does (04 R86 to R89). -/
inductive SynthSt where
  | off
  | band (begun : Instant) (tries : Nat)
  | attempt (begun : Instant) (tries : Nat)
  | locked (at_ : Instant)
  | failed
  deriving DecidableEq, Repr, Inhabited

structure Clk where
  core : SynthSt := .off
  oct : Vector SynthSt 8 := Vector.replicate 8 .off
  bandCalRan : Bool := false
  oscWarm : Bool := false
  lastLock : Nat := 0
  clockStep : Instant := 0
  ovenStart : Option Instant := none
  coldStart : Bool := false
  /-- CORE_FAILED and OCT_FAILED (Table 4-11). -/
  coreFailed : Bool := false
  octFailed : BitVec 8 := 0
  /-- The relock under way is of R91, in Day or Dusk. -/
  relock : Bool := false
  /-- Synthesisers of which an attempt has failed in this Dawn or relock (R88), by place of their band codes. -/
  tried : BitVec 9 := 0
  deriving DecidableEq, Repr

/-- Time-base state (Table 4-9). -/
inductive TimeSt where
  | unlocked | pps | ptp | holdover
  deriving DecidableEq, Repr, Inhabited

structure Tim where
  running : Bool := false
  /-- Tamong time in codes since the epoch. -/
  codes : Nat := 0
  st : TimeSt := .unlocked
  valid : Bool := false
  todSrc : Nat := 0
  acquiring : Bool := false
  lockSince : Option Instant := none
  /-- Length of the last lock, and whether the present holdover follows a lock of less than 10 minutes. -/
  lockLen : Nat := 0
  holdSince : Instant := 0
  holdShort : Bool := false
  slew : Int := 0
  slewAcc : Nat := 0
  /-- Waiting steps (R101): of phase in codes, of whole seconds. -/
  stepPhase : Int := 0
  stepSec : Int := 0
  /-- The waiting step sets the second number of a time-of-day source (R95). -/
  secDue : Bool := false
  ref10Since : Option Instant := none
  ref10Bad : Option Instant := none
  ppsLast : Option Instant := none
  ppsGood : Nat := 0
  /-- Phase error counted for the previous edge. -/
  ppsPrev : Option Int := none
  ppsOutliers : Nat := 0
  /-- Accepted host set that has not become SEC; whether a host set was accepted since the time base started (R97). -/
  hostSet : Option Nat := none
  hostSeen : Bool := false
  /-- The latest second boundary acted on. -/
  lastSecond : Option Nat := none
  ptpEst : Nat := 0
  deriving DecidableEq, Repr

/-- A foreign master of the best master clock algorithm (R103), with the instants of its latest two Announce messages. -/
structure Master where
  id : Nat
  ann : PtpAnnounce
  lastAt : Instant
  prevAt : Option Instant
  interval : Int
  deriving DecidableEq, Repr

/-- A two-step Sync that waits for its Follow_Up (R105: valid with it): sequenceId, instant, receive time in Tamong codes, correction, header words. -/
structure PendSync where
  seq : Nat
  at_ : Instant
  rx : Int
  corr : Int
  hdr : List Nat
  deriving DecidableEq, Repr

/-- An outstanding Delay_Req: sequenceId, instant, send time in Tamong codes. -/
structure PendReq where
  seq : Nat
  at_ : Instant
  tx : Int
  deriving DecidableEq, Repr

structure Ptp where
  masters : List Master := []
  best : Option Nat := none
  /-- The last 16 offsets, the latest first, in codes. -/
  offsets : List Int := []
  /-- Offset plus path delay of the latest Sync; mean path delay; latest offset kept through steps. -/
  raw : Option Int := none
  delay : Option Int := none
  offset : Option Int := none
  bad : Nat := 0
  lost : Nat := 0
  good : Nat := 0
  pendSync : List PendSync := []
  pendReq : List PendReq := []
  reqSeq : Nat := 0
  lastReq : Option Instant := none
  reqInterval : Int := 0
  lastSync : Option Instant := none
  syncInterval : Int := 0
  syncSecond : Nat := 0
  syncCount : Nat := 0
  deriving DecidableEq, Repr

/-! ### Start-up and image (05) -/

/-- A routine-table entry (05 R138, Table 5-7): FIRST in codes, PERIOD_S, REPEAT, ACTION, ARG, AFTER, ARG2. -/
structure RtEntry where
  first : Nat
  periodS : Nat
  times : Nat
  action : Nat
  arg : Nat
  after : Nat
  arg2 : Nat
  deriving DecidableEq, Repr, Inhabited

/-- A commit in progress (05 R149) and a calibration store in progress (05 R145), with the chunks of 256 bytes it has still to carry out.
A store's data are taken as its step 2 starts (13 R294); until then `snap` is false. -/
structure MramJob where
  target : Bank
  data : List Byte
  begun : Instant
  left : Nat := 0
  snap : Bool := true
  deriving DecidableEq, Repr

/-- A write of the enrolment or of the maintenance network copy (05 R129, R132): its address and instant, and what stood there. -/
structure SmallWrite where
  addr : Nat
  old : List Byte
  at_ : Instant
  deriving DecidableEq, Repr

structure Boot where
  serial : BitVec 64 := 0
  maintCause : Nat := 0
  statA : Nat := 0
  statB : Nat := 0
  keyUsed : Nat := 0
  fallback : Bool := false
  bank : Nat := 0
  seqA : Nat := 0
  seqB : Nat := 0
  calSeq : Nat := 0
  calSrc : Nat := 0
  slotAValid : Bool := false
  slotBValid : Bool := false
  lastStore : Nat := 0
  cands : List Bank := []
  reading : Option (Bank × Instant) := none
  imageApplied : Bool := false
  mramOk : Bool := false
  stageState : Nat := 0
  stageCode : Nat := 0
  stageTarget : Nat := 0
  stageLen : Nat := 0
  stage : List Byte := []
  commit : Option MramJob := none
  store : Option MramJob := none
  storeHeld : Bool := false
  small : Option SmallWrite := none
  /-- Instant up to which the chunks of the configuration memory are accounted for (05 R121). -/
  portAt : Instant := 0
  nextCal : Nat := 1
  net : List Byte := []
  deriving DecidableEq, Repr

/-- A job descriptor as held (09 Table 9-1). START of kind 1 and 4 is S in Tamong codes; of kind 2 the trigger. -/
structure JobDesc where
  octMask : Nat
  cls : Nat
  kind : Nat
  slotReq : Nat
  tUs : Nat
  tolUs : Nat
  start : Nat
  trig : Nat
  policy : Nat
  tag : Nat
  list : List Nat
  deriving DecidableEq, Repr, Inhabited

structure Rt where
  entries : List RtEntry := []
  /-- Number k of each entry's next occurrence. -/
  next : List Nat := []
  templates : List (Nat × List Byte) := []
  /-- Jobs submitted by entries with an AFTER: entry, job number, AFTER. -/
  after : List (Nat × Nat × Nat) := []
  /-- Entries of the table before the full Dawn with the numbers of their next occurrences. -/
  past : List (RtEntry × Nat) := []
  deriving DecidableEq, Repr

/-! ### Pin channels (06) -/

/-- Loaded settings of a pin (R162): PIN_CFG and the level registers as the last strobe took them. -/
structure PinLd where
  cfg : Word := 0x00000003
  drv : Word := 0x80008000
  cmp : Word := 0x80008000
  tt : Word := 0x00008000
  deriving DecidableEq, Repr

/-- The driver and termination of a pin from a code of its cycle on: driver on, level driven (true VIH), termination connected. -/
structure DrvAt where
  code : Nat
  drv : Bool
  lvl : Bool
  term : Bool
  deriving DecidableEq, Repr

/-- A drive edge of one cycle as the pin's formatter uses it (07 R175, R176, R179): its code, whether it turns the driver off (D4) or
on (D1), the level it sets, the level D1 turns on at where it sets none, and whether the state is DZ. -/
structure DrvEdge where
  code : Nat
  off : Bool
  on : Bool
  lvl : Option Bool
  dflt : Bool
  dz : Bool
  deriving DecidableEq, Repr, Inhabited

/-- The compare or capture of a pin in the present cycle (R158, R159; 07 R181): state, mode, C1 and C2, the cycle, whether C1 has come, whether the pin was safe at an instant that counts, the outputs at the first instant that failed,
and the crossings so far as codes with their DIR. -/
structure PinWin where
  st : Nat
  strobe : Bool
  c1 : Nat
  c2 : Nat
  a : CycAt
  opened : Bool := false
  nobs : Bool := false
  fail : Option (Bool × Bool) := none
  cross : List (Nat × Nat) := []
  deriving DecidableEq, Repr, Inhabited

/-- What falls due at an instant of a cycle being played: a step of a comparator input, a drive edge, C1 or C2 of a pin, or the
formation of a pin record with the job cycles it covers (10 R234); or the strobe that a Twilight window deferred (13 R302). -/
inductive ActKind where
  | input (pin : Nat) (u : Int)
  | edge (pin : Nat) (e : DrvEdge)
  | c1 (pin : Nat)
  | c2 (pin : Nat)
  | form (oct : Nat) (q : QRec) (lo hi : Nat)
  | strobe (oct : Nat)
  deriving DecidableEq, Repr

/-- Such a happening with its instant and its job's number, 0 for an input step and a deferred strobe. -/
structure Act where
  at_ : Instant
  jobNo : Nat
  kind : ActKind
  deriving DecidableEq, Repr

structure PinCh where
  cfg : Word := 0x00000003
  lvlDrv : Word := 0x80008000
  lvlCmp : Word := 0x80008000
  lvlTt : Word := 0x00008000
  ld : PinLd := {}
  safe : Bool := false
  safeAt : Instant := 0
  ovc : Bool := false
  ovcAt : Instant := 0
  /-- Driver on, level driven (true VIH), termination connected, at the end of the last cycle. -/
  drv : Bool := false
  lvl : Bool := false
  term : Bool := false
  /-- What the drive edges of its last played cycle did, in the order they acted (log 4). -/
  wave : List DrvAt := []
  hi : Bool := false
  lo : Bool := false
  inp : Int := 0
  /-- DZ holds: the termination is connected whatever TERM is. -/
  dz : Bool := false
  /-- CLIP of the loaded levels, and of the wave samples since RUN last started (Table 6-9). -/
  clip : BitVec 5 := 0
  waveClip : BitVec 5 := 0
  win : Option PinWin := none
  /-- Underrun mode 1 to 4 the pin holds (08 R206). -/
  hold : Option Nat := none
  /-- Last timed crossing, in Tamong codes (R159). -/
  lastTimed : Option Nat := none
  deriving DecidableEq, Repr

/-- A Twilight window in progress (13 R295): instant begun, present step, instant the step began, measurements taken, and
the pins already safe when it began. -/
structure Win where
  begun : Instant
  step : Nat
  stepAt : Instant
  meas : List ChMeas
  wasSafe : BitVec 8
  /-- Die temperature as the level step recorded it. -/
  temp : Int
  deriving DecidableEq, Repr

/-- Rolling cycle of an octet (13 R308): phase 0 to 6, next pin, instant the phase began. -/
structure Roll where
  phase : Nat := 0
  next : Nat := 0
  at_ : Instant := 0
  meas : Option ChMeas := none
  deriving DecidableEq, Repr

structure OctCh where
  loadCtrl : Word := 0x01000000
  waveFtw : Word := 0
  waveLvl : Word := 0x00008000
  waveCtrl : Word := 0
  xptInhibit : Bool := false
  rollCfg : Word := 0x800003E8
  strobes : Nat := 0
  pending : Bool := false
  lastSrc : Nat := 0
  lastStrobe : Instant := 0
  ldFtw : Word := 0
  ldLvl : Word := 0x00008000
  ldRun : Bool := false
  ldPhase : Nat := 0
  acc : Word := 0
  code : Nat := 0x8000
  waveSat : Bool := false
  waveAt : Instant := 0
  served : Option (Fin 8) := none
  /-- Wave table words that differ from the sine of R168, by word index. -/
  wave : List (Nat × Word) := []
  /-- Calibration: pending request, whether overdue, window, roll (13). -/
  calPend : Option Instant := none
  calOverdue : Bool := false
  win : Option Win := none
  /-- Strobes deferred by a window (R302): by register, by timer. -/
  defReg : Bool := false
  defTmr : Bool := false
  roll : Roll := {}
  spareOk : Bool := true
  lastOut : Nat := 0
  lvlFail : BitVec 8 := 0
  timFail : BitVec 8 := 0
  lvlTemp : Option Int := none
  rollFails : List Nat := []
  unitPhase : Option Int := none
  phaseTrim : Int := 0
  /-- Registers written in the cycle of `freshAt` with the values they had at its start (R163): keys 0 to 31 are pin index times 4
  plus 0 PIN_CFG, 1 drive, 2 compare, 3 VTT; 32 to 34 are the wave registers. -/
  fresh : List (Nat × Word) := []
  freshAt : Instant := 0
  deriving DecidableEq, Repr

/-! ### Timing sets and segments (07, 08) -/

/-- A probe in progress (R187). -/
structure Probe where
  set : Nat
  octs : Nat
  per : Nat
  begun : Instant
  deriving DecidableEq, Repr

/-- G_TSET_CHECK but for BUSY (Table 7-9). -/
structure TsetChk where
  fail : Bool := false
  probe : Bool := false
  rule : Nat := 0
  edge : Nat := 0
  slot : Nat := 0
  pin : Nat := 0
  set : Nat := 0
  deriving DecidableEq, Repr

/-- A load in progress (R196): first entry, count, instant begun, and entries written at or after their own check
with the code that check found. -/
structure SegLoad where
  first : Nat
  count : Nat
  trunc : Bool
  begun : Instant
  dirty : List (Nat × Nat)
  deriving DecidableEq, Repr

/-- G_SEG_CHECK but for BUSY (Table 8-9). -/
structure SegChk where
  trunc : Bool := false
  fail : Bool := false
  code : Nat := 0
  entry : Nat := 0
  refused : Nat := 0
  deriving DecidableEq, Repr

/-- A write of the present cycle to timing-set memory or the segment table: which, its word, and what the word and the entry's status were. -/
structure SegUndo where
  tset : Bool
  ix : Nat
  old : Word
  stat : Nat × Nat
  deriving DecidableEq, Repr

/-- Sequencer-side memories and reports of chapters 07 and 08. -/
structure Seg where
  /-- Writes of the cycle of `undoAt` to timing sets and segment entries, the latest first (07 R186, 08 R198). -/
  undo : List SegUndo := []
  undoAt : Instant := 0
  tset : List (Nat × Word) := []
  tchk : TsetChk := {}
  probe : Option Probe := none
  vstore : List Host.Cell := []
  mem : List (Nat × Word) := []
  /-- STATUS of the entries that are not unloaded: entry, state 1 or 2, code (Table 8-2 word 7). -/
  stat : List (Nat × Nat × Nat) := []
  load : Option SegLoad := none
  chk : SegChk := {}
  urMode : Nat := 0
  urCause : Nat := 0
  urSlot : Nat := 0
  deriving DecidableEq, Repr

/-! ### Sequencer (09) -/

/-- Slot states of Table 9-4. -/
inductive JobSt where
  | free | queued | checking | armed | running | ending | ended
  deriving DecidableEq, Repr, Inhabited

/-- A stop ordered for a running job (R224): at a granule boundary or at any vector cycle boundary, its end code and
cause, the instant ordered, and whether line loss ordered it. -/
structure Stop where
  gran : Bool
  code : Nat
  cause : Nat
  at_ : Instant
  line : Bool
  deriving DecidableEq, Repr, Inhabited

/-- What a running or checked job plays next: naming, play, cycle, job cycle number, Tamong code of the next cycle's
origin, its period, vectors fetched and not yet played, fetch position, cache use. -/
structure Play where
  name : Nat := 0
  play : Nat := 0
  cyc : Nat := 0
  n : Nat := 0
  org : Nat := 0
  per : Nat := 0
  buf : List Vec192 := []
  fName : Nat := 0
  fPlay : Nat := 0
  fGran : Nat := 0
  cacheEn : Bool := false
  cacheG : Nat := 0
  cacheV : List Vec192 := []
  /-- The cycle being played is the last of its naming; the ring whose piece it plays last, if any (08 R203, 09 R229). -/
  lastOf : Bool := false
  eats : Option Nat := none
  deriving DecidableEq, Repr

structure Slot where
  st : JobSt := .free
  endCode : Nat := 0
  cause : Nat := 0
  cancelSeen : Bool := false
  readySeen : Bool := false
  /-- Started late within its tolerance, and decided so (R111). -/
  late : Bool := false
  lateDue : Bool := false
  overDecl : Bool := false
  source : Nat := 0
  desc : JobDesc := default
  jobNo : Nat := 0
  order : Nat := 0
  placedAt : Instant := 0
  /-- Instant at which the job became due, none while it is not. -/
  dueAt : Option Instant := none
  headSince : Option Instant := none
  checkAt : Instant := 0
  /-- Start instant S as Tamong codes: of kinds 1, 2 and 4 once known, of kinds 0 and 3 once the check fixes it. -/
  start : Option Nat := none
  judged : Bool := false
  play : Play := {}
  stops : List Stop := []
  /-- Instant and Tamong time at which the end took effect, the job cycles played, whether line loss ended it, and how far its
  JOB_END record is: 0 none, 1 pending, 2 formed, 3 chained (R225, R226). -/
  endAt : Instant := 0
  endTam : Nat := 0
  endLine : Bool := false
  endSt : Nat := 0
  deriving DecidableEq, Repr

/-- A stream ring (R227 to R231): SEQ numbers, pieces written (sequence number and bytes), pieces fetched, and the gap
being reported (16 R388). -/
structure Gap where
  missing : Nat
  sent : Nat
  session : Nat
  next : Instant
  deriving DecidableEq, Repr

structure SRing where
  wr : Nat := 0
  rd : Nat := 0
  fetched : Nat := 0
  pieces : List (Nat × List Byte) := []
  gap : Option Gap := none
  gaveUp : Option Nat := none
  notes : Nat := 0
  deriving DecidableEq, Repr

/-- A job start of the present cycle, as it can be taken back (R223): the slot as it stood armed, and the pins, octets and capture
engines before it. -/
structure StartUndo where
  slot : Nat
  at_ : Instant
  x : Slot
  pins : Vector PinCh 64
  octs : Vector OctCh 8
  caps : Vector Cap 8
  deriving DecidableEq, Repr

structure Seqr where
  /-- What the cycle being played still has to do, by instant. -/
  acts : List Act := []
  starts : List StartUndo := []
  slots : Vector Slot 16 := Vector.replicate 16 {}
  nextOrder : Nat := 0
  /-- Slots taken by placements, with the instant of the first; those of the present cycle count (R214). -/
  placeAt : Instant × List Nat := (0, [])
  head : Option (Fin 16) := none
  admitWait : Bool := false
  srings : Vector SRing 4 := Vector.replicate 4 {}
  /-- Stream pieces that wait in a port's receive buffer while SW is held off (11 R271): ring, sequence number, bytes. -/
  rxBuf : List (Nat × Nat × List Byte) := []
  deriving DecidableEq, Repr

/-! ### Memory port arbiter (11) -/

inductive ArbOwner where
  | idle
  | norm (i : Nat)
  | ref
  | dbg
  deriving DecidableEq, Repr, Inhabited

/-- A raised request: requester, beats, the cycle it was raised in, whether it has been granted, and the requesters granted
the port since (R264), as a mask. -/
structure ArbReq where
  req : Nat
  beats : Nat
  at_ : Nat
  granted : Bool
  since : Nat
  deriving DecidableEq, Repr, Inhabited

/-- A raised DBG request (R267, R268): its cycle, its beats, those still to carry out, and the cycle of its first beat. -/
structure DbgReq where
  at_ : Nat
  total : Nat
  left : Nat
  first : Option Nat
  deriving DecidableEq, Repr

structure Arb where
  cnt : Vector Nat 14 := Vector.replicate 14 0
  weight : Vector Nat 14 :=
    #v[0x400, 0x100, 0x100, 0x100, 0x100, 0x100, 0x100, 0x100, 0x100, 0x40, 0xC0, 0x80, 0x10, 0x30]
  reqs : List ArbReq := []
  owner : ArbOwner := .idle
  /-- Cycle of the owner's first beat; the cycle from which an idle port decides. -/
  ownerAt : Nat := 0
  ownerBeats : Nat := 0
  /-- The owner's transfer has come to its end, in the cycle of its last beat; the decision of that cycle is still to be made. -/
  done : Bool := false
  /-- The owner before the present one. -/
  prev : ArbOwner := .idle
  held : Vector Nat 15 := Vector.replicate 15 0
  used : Vector Nat 14 := Vector.replicate 14 0
  usedLast : Vector Nat 14 := Vector.replicate 14 0
  winAt : Nat := 0
  refDue : Option Nat := none
  dbgReq : Option DbgReq := none
  /-- The start cycle of the latest window in which DBG requested. -/
  dbgWin : Option Nat := none
  deriving DecidableEq, Repr

/-! ### Sealing (12) -/

structure CkptWrite where
  slot : Nat
  data : List Byte
  count : Nat
  begun : Instant
  dusk : Bool
  left : Nat := 0
  deriving DecidableEq, Repr

structure Seal where
  pool : Nat := 0
  poolAt : Instant := 0
  draws : Nat := 0
  /-- Triggers that have fallen due, with the instants from which they are (R275). -/
  due : List (Nat × Instant) := []
  waited : Bool := false
  /-- Part 0 formed and not yet chained. -/
  part0Wait : Bool := false
  forming : Option SealForm := none
  /-- Seals whose parts SE has still to write: k + 9, and the chain value after part 8. -/
  writing : List (Nat × List Byte) := []
  lastPart0 : Option Instant := none
  intStart : Instant := 0
  recs : Nat := 0
  count : Nat := 0
  lastK : Nat := 0
  lastTrigger : Nat := 0
  keyOk : Bool := false
  certMatch : Bool := false
  ckptSlot : Nat := 0
  ckptSeq : Nat := 0
  ckptCount : Nat := 0
  ckptWrite : Option CkptWrite := none
  ckptSince : Nat := 0
  ckptForce : Bool := false
  /-- H(SEALED_END - 1), which a checkpoint records (R285); none before a seal of this start is written. -/
  ckptHead : Option (List Byte) := none
  deriving DecidableEq, Repr

/-! ### Calibration (13) -/

/-- What the trim memory and the results hold of one channel (R294, R306). -/
structure Chan where
  lvlTrim : List Int := []
  timTrim : List Int := []
  skewTrim : List Int := []
  lvlOut : Nat := 0
  lvlChk : Nat := 0
  timOut : Nat := 0
  timChk : Nat := 0
  skewOut : Nat := 0
  timSrc : Nat := 0
  eye : Nat := 0xFFFF
  resid : Nat := 0xFFFF
  lvlAt : Option Instant := none
  timAt : Option Instant := none
  deriving DecidableEq, Repr, Inhabited

structure Cal where
  ch : Vector Chan 72 := Vector.replicate 72 {}
  /-- Whole-unit sequence: the unit step begun at an instant, or the octet it requests next. -/
  unitStep : Option Instant := none
  unitNext : Option Nat := none
  dawnTemp : Int := 0
  deriving DecidableEq, Repr

/-! ### Ring (14) -/

/-- A ring port: carrier, alignment, bad frames in a row, and hops and instant of its latest
TIME frame. -/
structure RPort where
  carrier : Bool := false
  aligned : Bool := false
  bad : Nat := 0
  hops : Option (Nat × Instant) := none
  deriving DecidableEq, Repr

/-- A frame handed to a ring port by the latest happening (log 23): whether it leaves by J6 (RING A), its TYPE, SRC, HOPS, SEQ and
PAYLOAD; the instant its MARKER leaves; and for a TIME frame the master time less the local time that its MTIME is formed with (R327). TYPE
0x100 stands for the wake tone. -/
structure RFrame where
  outA : Bool
  type : Nat
  src : Nat
  hops : Nat
  seq : Nat
  body : List Byte
  at_ : Instant := 0
  mt : Option Int := none
  deriving DecidableEq, Repr

/-- The present or last sleep agreement (Table 14-13). Instants T_n and T_w in master time until CONFIRM; local ones from then on. -/
structure Agree where
  id : Nat := 0
  st : Nat := 0
  veto : Nat := 0
  proposer : Bool := false
  target : Nat := 0
  sleepS : Nat := 0
  tn : Nat := 0
  tw : Nat := 0
  accept : Nat := 0
  vetoed : Nat := 0
  guardUs : Nat := 0
  guardShort : Bool := false
  sentAt : Instant := 0
  wakeBefore : Bool := false
  held : Bool := false
  latched : Bool := false
  slept : Bool := false
  /-- The Dawn of its alarm is under way: transmitters stay off until local T_w (R337). -/
  quiet : Bool := false
  /-- Set value of the Nightwatch alarm for the rendezvous, in ticks. -/
  alarm : Nat := 0
  listenAt : Instant := 0
  deriving DecidableEq, Repr

structure Ring where
  pa : RPort := {}
  pb : RPort := {}
  seen : Nat := 0
  dup : Nat := 0
  surveyOk : Bool := false
  surveyAt : Option Instant := none
  selfLoop : Bool := false
  loopAt : Instant := 0
  loopValid : Bool := false
  loopAsym : Int := 0
  linkA : Nat := 0
  linkB : Nat := 0
  linkSamples : List Int := []
  reqAt : Option Instant := none
  dUp : Int := 0
  master : Option Nat := none
  claiming : Option Instant := none
  sync : Bool := false
  samples : List (Nat × Int) := []
  sampleCount : Nat := 0
  lastTime : Option Instant := none
  mValid : Bool := false
  trigs : List (Nat × Nat) := []
  agree : Agree := {}
  agreeSeq : Nat := 0
  wakeSeq : Nat := 0
  /-- Wake calls forwarded: origin, WAKE_SEQ, and whether upstream. -/
  wakeSeen : List (Nat × Nat × Bool) := []
  /-- New wake calls by origin with their instants. -/
  wakeTimes : List (Nat × Instant) := []
  tx : List RFrame := []
  seqs : List (Nat × Nat) := []
  toneDue : Bool := false
  deriving DecidableEq, Repr

/-! ### SPI host port and USB maintenance port (15) -/

/-- The receive side of the SPI mailbox: the words of a stored COMMAND frame, frame word included, and the number received. -/
structure SpiCmd where
  words : List Word
  received : Nat
  deriving DecidableEq, Repr

/-- An export sequence of the SPI port (R352): the next record number, the end of the R257 answer, SEALED_END at the request, TAG. -/
structure SpiExp where
  next : Nat
  stop : Nat
  sealedEnd : Nat
  tag : Nat
  deriving DecidableEq, Repr

structure Spi where
  running : Bool := false
  rx : Option SpiCmd := none
  ans : Option (List Word) := none
  ansAt : Instant := 0
  note : Option (List Word) := none
  /-- Closing strobe of the notification in the area while HIRQ is not asserted, so that its handover is still to come (01 R22). -/
  noteStrobe : Option Instant := none
  queue : List (List Word × Option Instant) := []
  noteCount : Nat := 0
  /-- OVF, and a frame discarded since the last status word was sent. -/
  ovf : Bool := false
  disc : Bool := false
  lastOp : Nat := 0
  lastResult : Nat := 0
  /-- SPI_MODE in use since the latest fall of HSEL (R343). -/
  mode : Nat := 0
  exp : Option SpiExp := none
  viol : Word := 0
  /-- Words the unit sent in the latest frame (log 4). -/
  sent : List Word := []
  deriving DecidableEq, Repr

/-- A bulk stream of the USB port (R361): kind 1 export, 2 log, 3 debug; bytes still to send, and since when its next packet
waits. A packet shorter than the endpoint's size ends it. -/
structure UsbBulk where
  kind : Nat
  data : List Byte
  lastAt : Instant
  deriving DecidableEq, Repr

structure Usb where
  /-- DEV_STATE but for suspension: 0 disconnected to 4 configured. -/
  dev : Nat := 0
  high : Bool := false
  addr : Nat := 0
  suspended : Bool := false
  haltIn : Bool := false
  haltOut : Bool := false
  /-- Test selector of SET_FEATURE TEST_MODE; 0 none. -/
  test : Nat := 0
  /-- The data the latest IN request was answered with, and whether the latest setup was stalled (log 4). -/
  dataIn : List Byte := []
  stall : Bool := false
  /-- LAST_RESULT: bRequest, RESULT, CODE, VALUE. -/
  lastReq : Nat := 0
  last : Nat := 0
  lastCode : Nat := 0
  lastValue : Nat := 0
  bulk : Option UsbBulk := none
  /-- The latest bulk IN packet taken by the host (log 4). -/
  pktIn : List Byte := []
  /-- An upload: open, LEN, bytes received since UPLOAD_BEGIN, instant of the latest packet. -/
  upOn : Bool := false
  upLen : Nat := 0
  upGot : Nat := 0
  upAt : Instant := 0
  deriving DecidableEq, Repr

/-! ### Ethernet and TASP (16) -/

/-- A frame the unit sends, as its kind and content. -/
structure EthFrame where
  kind : Nat
  dst : NetAddr
  body : List Byte
  deriving DecidableEq, Repr

structure Eth where
  link : Bool := false
  /-- EEE_EN as advertised when the link came up (R371). -/
  eee : Bool := false
  running : Bool := false
  ipv4 : BitVec 32 := 0
  mask : Nat := 0
  router : BitVec 32 := 0
  /-- DHCPv4 client: 0 off, 1 selecting, 2 requesting, 3 bound, 4 renewing, 5 rebinding; instant of its next timer; address offered;
  instants of T1, T2 and the end of the lease; seconds of the latest retry spacing. -/
  dhcpSt : Nat := 0
  dhcpAt : Instant := 0
  dhcpOffer : BitVec 32 := 0
  dhcpT2 : Instant := 0
  dhcpEnd : Instant := 0
  dhcpRetry : Nat := 0
  /-- ARP cache: address, MAC, instant of entry. -/
  arp : List (BitVec 32 × BitVec 48 × Instant) := []
  /-- IPv6 off until the next full Dawn (R374); addresses formed, and whether each has passed duplicate address detection. -/
  v6Off : Bool := false
  ipv6 : List (BitVec 128 × Bool) := []
  /-- The priority transmit queue as last filled, and frames handed to the normal queue by the latest happening (log 25). -/
  txPri : List EthFrame := []
  txNorm : List EthFrame := []
  deriving DecidableEq, Repr

/-- A cached answer (R381). -/
structure Cached where
  seq : Nat
  op : Nat
  result : Nat
  body : List Byte
  deriving DecidableEq, Repr

structure Sess where
  num : Nat
  /-- Source and CLIENT_NONCE of the OPEN; source of the latest authenticated datagram. -/
  origin : NetAddr
  cnonce : Nat
  src : NetAddr
  high : Nat
  seen : List Nat
  cache : List Cached
  sub : Bool
  nseq : Nat
  notes : List (Nat × List Byte)
  lastAt : Instant
  deriving DecidableEq, Repr

/-- An EVENT note in the TASP notification queue (R386): its destination, datagram and closing strobe. -/
structure TNote where
  dst : NetAddr
  body : List Byte
  strobe : Option Instant
  deriving DecidableEq, Repr

structure Tasp where
  on : Bool := false
  key : List Byte := []
  keyId : Nat := 0
  sess : Vector (Option Sess) 4 := Vector.replicate 4 none
  /-- Requests that wait in the queue of R382, by OP. -/
  reqs : List (Nat × TaspReq) := []
  queue : List TNote := []
  draws : Nat := 0
  /-- The session whose upload is open, and the instant of its latest chunk (R391). -/
  upSess : Option Nat := none
  upAt : Instant := 0
  viol : Word := 0
  deriving DecidableEq, Repr

/-! ### Faults (17) -/

/-- The latest exit or accepted clear of a scope: its instant, whether it was automatic, the history it emptied, and its log entry. -/
structure FltExit where
  at_ : Instant
  auto : Bool
  ticks : List Nat
  entry : LogEntry
  deriving DecidableEq, Repr

/-- One scope of a fault source (R395 to R402). -/
structure FltScope where
  severe : Bool := false
  ticks : List Nat := []
  lastEv : Option Instant := none
  cond : Bool := false
  condEnd : Option Instant := none
  exits : Nat := 0
  left : Option FltExit := none
  logAt : Option Instant := none
  unlogged : Nat := 0
  deriving DecidableEq, Repr, Inhabited

structure Fw where
  lastService : Instant := 0
  restarting : Option Instant := none
  /-- The request in service when the watchdog fired: its port and its data (R406). -/
  inService : Option Port := none
  deriving DecidableEq, Repr

/-! ### The machine -/

/-- Latches of R10: upper words of each group as last latched, none while empty. -/
structure Latch where
  serial : Option Word := none
  time : Option (Word × Word) := none
  evCount : Option Word := none
  evOldest : Option Word := none
  evSealed : Option Word := none
  sealLast : Option Word := none
  sealCkpt : Option Word := none
  ringOfs : Option Word := none
  deriving DecidableEq, Repr

/-- The unit's state: the queue of waiting commands, the kernel instant, and every block. -/
structure State where
  pending : List Instr := []
  now : Instant := 0
  /-- The instant of the latest happening within the present cycle: happenings of one cycle may be queued in any order (00 R428). -/
  hap : Instant := 0
  free : Nat := 0
  latch : Latch := {}
  bus : Option BusRec := none
  ev : Vector Word 431 := Vector.replicate 431 0
  evPend : List EvBump := []
  r : Regs := {}
  encl : Encl := {}
  pwr : Pwr := {}
  nw : Night := {}
  clk : Clk := {}
  tim : Tim := {}
  ptp : Ptp := {}
  mram : List Host.Cell := []
  boot : Boot := {}
  rt : Rt := {}
  pins : Vector PinCh 64 := Vector.replicate 64 {}
  octs : Vector OctCh 8 := Vector.replicate 8 {}
  seg : Seg := {}
  seqr : Seqr := {}
  caps : Vector Cap 8 := Vector.replicate 8 {}
  evid : Evid := {}
  arb : Arb := {}
  sl : Seal := {}
  cal : Cal := {}
  ring : Ring := {}
  spi : Spi := {}
  usb : Usb := {}
  eth : Eth := {}
  tasp : Tasp := {}
  flt : Vector FltScope 384 := Vector.replicate 384 {}
  fw : Fw := {}
  deriving DecidableEq, Repr

/-- Faults of the block: none of its commands stops it, and no rule of the manual does (INVENTORY, Faults). The one name
stands for a command that would not be the front of any queue and is raised by nothing: safe. -/
inductive Fault where
  /-- Raised by no command. Safe: it is never answered. -/
  | unreachable
  deriving DecidableEq, Repr

/-- Refusals. -/
inductive Refusal where
  /-- Raised by the dispatch for a command whose meaning is not written. Safe: nothing is claimed of it. -/
  | notModelled (mnemonic : String)
  deriving DecidableEq, Repr

/-- The unit as shipped: in ship mode, line absent, every register at its reset value (02 R53, 18 R427; logs 5 to 7). -/
def State.reset : State := {}

end Sys2Proof.Machine
end

