-- ==== Sys2Proof/Machine/Bits.lean ====
section
/-!
DEFINITION. Bits.lean: fields of words, saturating counts, arrays by index, and sparse memories in canonical form.
-/

namespace Sys2Proof.Machine

/-! ### Fields of a word (R6) -/

/-- The field of `n` bits from bit `lo`. -/
def fld (w : Word) (lo n : Nat) : Nat := (w.toNat >>> lo) % 2 ^ n

/-- Bit `i` of a word. -/
def bit (w : Word) (i : Nat) : Bool := w.toNat.testBit i

/-- The word with its field of `n` bits from `lo` replaced. -/
def setFld (w : Word) (lo n v : Nat) : Word :=
  BitVec.ofNat 32 (w.toNat - 2 ^ lo * fld w lo n + 2 ^ lo * (v % 2 ^ n))

/-- A word from a number. -/
def word (n : Nat) : Word := BitVec.ofNat 32 n

/-- 1 for true. -/
def b2n (b : Bool) : Nat := if b then 1 else 0

/-- What a write of `new` leaves in a register whose writable bits are `mask` (R421): other bits keep `old`. -/
def wmask (old new mask : Word) : Word := (old &&& ~~~mask) ||| (new &&& mask)

/-- Sum that saturates at all ones of `n` bits. -/
def satAdd (n a b : Nat) : Nat := min (a + b) (2 ^ n - 1)

/-- The unsigned `n`-bit code of an integer, in two's complement. -/
def twos (n : Nat) (i : Int) : Nat := (BitVec.ofInt n i).toNat

/-- The integer an `n`-bit two's-complement code stands for. -/
def sgn (n v : Nat) : Int := (BitVec.ofNat n v).toInt

/-! ### Arrays by a natural index -/

/-- Element `i`, or `d` outside the array. -/
def vget {α : Type} {n : Nat} (v : Vector α n) (i : Nat) (d : α) : α :=
  if h : i < n then v[i] else d

/-- The array with element `i` changed by `f`; unchanged outside it. -/
def vmod {α : Type} {n : Nat} (v : Vector α n) (i : Nat) (f : α → α) : Vector α n :=
  if h : i < n then v.set i (f v[i]) h else v

/-- The array with every element changed by `f`, which sees the index. -/
def vmap {α : Type} {n : Nat} (v : Vector α n) (f : Nat → α → α) : Vector α n :=
  Vector.ofFn fun i => f i.val v[i]

/-! ### Sparse memories: strictly rising keys, no entry equal to what an unlisted key reads as -/

/-- What key `a` reads as. -/
def sget {α : Type} (dflt : Nat → α) : List (Nat × α) → Nat → α
  | [], a => dflt a
  | (b, x) :: m, a => if a = b then x else sget dflt m a

/-- The memory with key `a` listed as `x`, or unlisted where `keep` is false. -/
def sput {α : Type} (keep : Bool) (a : Nat) (x : α) : List (Nat × α) → List (Nat × α)
  | [] => if keep then [(a, x)] else []
  | (b, y) :: m =>
    if a < b then (if keep then (a, x) :: (b, y) :: m else (b, y) :: m)
    else if a = b then (if keep then (a, x) :: m else m)
    else (b, y) :: sput keep a x m

/-- The memory after writing `x` at `a`: writing what an unlisted key reads as removes the entry. -/
def sset {α : Type} [DecidableEq α] (dflt : Nat → α) (m : List (Nat × α)) (a : Nat) (x : α) : List (Nat × α) :=
  sput (decide (x ≠ dflt a)) a x m

/-- The canonical form: keys strictly rising, no entry equal to its default. -/
def swf {α : Type} [DecidableEq α] (dflt : Nat → α) : List (Nat × α) → Bool
  | [] => true
  | (a, x) :: m =>
    decide (x ≠ dflt a) && (match m with | [] => true | (b, _) :: _ => decide (a < b)) && swf dflt m

/-! ### Byte memories -/

/-- The byte at an address; a byte nothing has written reads 0 (R192; log 6). -/
def rdByte (m : List Host.Cell) (a : Nat) : Byte := sget (fun _ => (0 : Byte)) m a

/-- The memory with one byte written. -/
def wrByte (m : List Host.Cell) (a : Nat) (b : Byte) : List Host.Cell := sset (fun _ => (0 : Byte)) m a b

/-- `n` bytes from an address. -/
def rdBytes (m : List Host.Cell) (a n : Nat) : List Byte := (List.range n).map fun i => rdByte m (a + i)

/-- The memory with bytes written from an address. -/
def wrBytes (m : List Host.Cell) (a : Nat) : List Byte → List Host.Cell
  | [] => m
  | b :: bs => wrBytes (wrByte m a b) (a + 1) bs

/-- The canonical form of a byte memory. -/
def Memory.wf (m : List Host.Cell) : Bool := swf (fun _ => (0 : Byte)) m

/-- The word of an array that reads 0 where nothing is listed. -/
def rdWord (m : List (Nat × Word)) (i : Nat) : Word := sget (fun _ => (0 : Word)) m i

/-- The array with one word written. -/
def wrWord (m : List (Nat × Word)) (i : Nat) (w : Word) : List (Nat × Word) := sset (fun _ => (0 : Word)) m i w

/-! ### Units of time -/

/-- Codes in a nanosecond, microsecond, millisecond and second. -/
def cNs : Nat := 256
def cUs : Nat := 256000
def cMs : Nat := 256000000
def cS : Nat := 256000000000

/-- The cycle of the 800 MHz arbiter clock an instant belongs to (R428). -/
def cycleOf (t : Instant) : Nat := t / 320

/-- Indices 0 to n - 1 of the bits set in a mask. -/
def bitsOf (n m : Nat) : List Nat := (List.range n).filter fun i => m.testBit i

/-- The mask of the octets listed. -/
def maskOf (l : List Nat) : Nat := l.foldl (fun m i => m ||| 2 ^ i) 0

end Sys2Proof.Machine
end

