-- ==== Sys2Proof/Config.lean ====
section
/-!
DEFINITION. Config.lean: what an implementation fixes and the manual does not state, as constants without a body.
No proof can see a value of them; a claim about them holds for every value (log 5, 10 to 14).
-/

namespace Sys2Proof.Config

/-- Unit serial number of the factory area (R12, 18 R424 "factory"). -/
opaque serial : BitVec 64

/-- MAC address of the factory area (R370). -/
opaque mac : BitVec 48

/-- The number that the private key of the one-time key store follows (R281; log 11). -/
opaque privKey : Nat

/-- The number that the nonce of the given draw follows (R279; log 11). -/
opaque nonce : Nat → Nat

/-- The Oadalu image public key of the controller ROM (R128). -/
opaque oadaluKey : List Byte

/-- A byte of the MRAM's certificate area, which is written only at manufacture (R282, R283; log 78). -/
opaque certByte : Nat → Byte

/-- A number drawn from the DRBG of R279 at the given draw, for a session number (R380; log 11). -/
opaque drbg : Nat → Nat

/-- The speed at which a fan is commanded to run at full speed, in the units of FANn_SPEED (R32 gives no figure). -/
opaque fanFull : Nat

/-- EST_DAYS for a cell voltage in mV at an instant, which the cell's age follows (R80 gives no relation; log 12). -/
opaque estDays : Nat → Nat → Nat

/-- Where the 5.12 µs slots in which ring frames leave stand (R318, R327; log 81). -/
opaque ringSlot : Nat

/-- Whether a dip of the given length in ns, between 500 and 1 000, is declared a line loss (R75 promises neither). -/
opaque shortDip : Nat → Bool

/-- A DRAM byte as the debug read of the given draw returns it: the manual gives no address to any region of DRAM (R362; log 14). -/
opaque dramByte : Nat → Nat → Byte

/-- The factory calibration's trims of a channel and group (R144). -/
opaque factoryTrim : Nat → Nat → List Int

/-- Factory-stored delay of the PTP timestamp point, in codes (Table 4-7). -/
opaque ptpPhyDelay : Int

/-- Values the manual leaves unstated where the unit goes on: the value of each draw of the counter `State.free` (log 3). -/
opaque freeNat : Nat → Nat

end Sys2Proof.Config
end

