-- ==== Sys2Proof/Machine/Crypto.lean ====
section
/-!
DEFINITION. Crypto.lean: byte order, checksums and hashes the manual names: CRC-16 of the continuity token (R76),
CRC-32C (R122), SHA-256 (R273) and HMAC-SHA-256 (R378). SHA-256's constants are those of FIPS 180-4, which the
manual names and does not print (PRESUMED, log 10).
-/

namespace Sys2Proof.Machine

/-- The little-endian bytes of a number (R11). -/
def leBytes (n : Nat) (v : Nat) : List Byte :=
  (List.range n).map fun i => BitVec.ofNat 8 (v >>> (8 * i))

/-- The big-endian (network order) bytes of a number (R11). -/
def beBytes (n : Nat) (v : Nat) : List Byte := (leBytes n v).reverse

/-- The number little-endian bytes spell. -/
def leNat : List Byte → Nat
  | [] => 0
  | b :: bs => b.toNat + 256 * leNat bs

/-- The number big-endian bytes spell. -/
def beNat (bs : List Byte) : Nat := leNat bs.reverse

/-- One bit step of CRC-16 with polynomial 0x1021 (R76). -/
def crc16Bit (c : Nat) : Nat :=
  let s := (2 * c) % 65536
  if c / 32768 % 2 = 1 then s ^^^ 0x1021 else s

/-- CRC-16 of R76: initial value 0xFFFF, no reflection, no final XOR. -/
def crc16 (bs : List Byte) : Nat :=
  bs.foldl (fun c b => Nat.repeat crc16Bit 8 (c ^^^ (b.toNat * 256))) 0xFFFF

/-- One bit step of the reflected Castagnoli CRC. -/
def crc32cBit (c : Nat) : Nat :=
  if c % 2 = 1 then (c / 2) ^^^ 0x82F63B78 else c / 2

/-- CRC-32C of R122: polynomial 0x1EDC6F41 reflected, initial and final XOR all ones. -/
def crc32c (bs : List Byte) : Nat :=
  (bs.foldl (fun c b => Nat.repeat crc32cBit 8 (c ^^^ b.toNat)) 0xFFFFFFFF) ^^^ 0xFFFFFFFF

/-- The whole part of the `k`-th root of `x`, below 2^n, bit by bit from the highest. -/
def rootBelow (k x : Nat) : Nat → Nat → Nat
  | 0, r => r
  | n + 1, r => rootBelow k x n (if (r + 2 ^ n) ^ k ≤ x then r + 2 ^ n else r)

/-- The first 32 bits of the fractional part of the `k`-th root of `p`, which is below 8. -/
def rootFrac (k p : Nat) : Nat := rootBelow k (p * 2 ^ (32 * k)) 37 0 % 2 ^ 32

/-- The primes below 312, 64 of them. -/
def shaPrimes : List Nat :=
  (List.range 312).filter fun p => decide (2 ≤ p) && (List.range 18).all fun d => decide (d < 2) || p % d != 0 || p == d

/-- Round constants of SHA-256: FIPS 180-4 takes them from the cube roots of the first 64 primes. -/
def shaK : List Nat := shaPrimes.map (rootFrac 3)

/-- The eight working variables of SHA-256. -/
structure ShaSt where
  a : Nat
  b : Nat
  c : Nat
  d : Nat
  e : Nat
  f : Nat
  g : Nat
  h : Nat
  deriving DecidableEq, Repr

/-- Initial hash value of SHA-256: from the square roots of the first eight primes. -/
def shaInit : ShaSt :=
  ⟨rootFrac 2 2, rootFrac 2 3, rootFrac 2 5, rootFrac 2 7, rootFrac 2 11, rootFrac 2 13, rootFrac 2 17, rootFrac 2 19⟩

/-- Addition of 32-bit words. -/
def add32 (x y : Nat) : Nat := (x + y) % 4294967296

/-- Right rotation of a 32-bit word. -/
def rotr32 (x n : Nat) : Nat := (x >>> n) ||| ((x <<< (32 - n)) % 4294967296)

/-- The next message-schedule word from the sixteen before it, newest first. -/
def shaSched (w : List Nat) : Nat :=
  let s1 := w.getD 1 0
  let s0 := w.getD 14 0
  add32 (add32 ((rotr32 s1 17 ^^^ rotr32 s1 19) ^^^ (s1 >>> 10)) (w.getD 6 0))
    (add32 ((rotr32 s0 7 ^^^ rotr32 s0 18) ^^^ (s0 >>> 3)) (w.getD 15 0))

/-- The message schedule of a block, newest word first. -/
def shaExpand : Nat → List Nat → List Nat
  | 0, w => w
  | n + 1, w => shaExpand n (shaSched w :: w)

/-- One round of SHA-256. -/
def shaRound (s : ShaSt) (kw : Nat × Nat) : ShaSt :=
  let ch := (s.e &&& s.f) ^^^ ((4294967295 ^^^ s.e) &&& s.g)
  let t1 := add32 (add32 s.h ((rotr32 s.e 6 ^^^ rotr32 s.e 11) ^^^ rotr32 s.e 25))
    (add32 ch (add32 kw.1 kw.2))
  let mj := ((s.a &&& s.b) ^^^ (s.a &&& s.c)) ^^^ (s.b &&& s.c)
  let t2 := add32 ((rotr32 s.a 2 ^^^ rotr32 s.a 13) ^^^ rotr32 s.a 22) mj
  ⟨add32 t1 t2, s.a, s.b, s.c, add32 s.d t1, s.e, s.f, s.g⟩

/-- Compression of one 16-word block. -/
def shaBlock (s : ShaSt) (blk : List Nat) : ShaSt :=
  let w := (shaExpand 48 blk.reverse).reverse
  let r := (shaK.zip w).foldl shaRound s
  ⟨add32 s.a r.a, add32 s.b r.b, add32 s.c r.c, add32 s.d r.d,
   add32 s.e r.e, add32 s.f r.f, add32 s.g r.g, add32 s.h r.h⟩

/-- The big-endian 32-bit words of a byte string. -/
def beWords : List Byte → List Nat
  | a :: b :: c :: d :: r => (((a.toNat * 256 + b.toNat) * 256 + c.toNat) * 256 + d.toNat) :: beWords r
  | _ => []

/-- Blocks of 16 words. -/
def shaBlocks : Nat → List Nat → ShaSt → ShaSt
  | 0, _, s => s
  | n + 1, w, s => shaBlocks n (w.drop 16) (shaBlock s (w.take 16))

/-- SHA-256 of a byte string, as 32 bytes in the standard order (R273). -/
def sha256 (m : List Byte) : List Byte :=
  let z := (119 - m.length % 64) % 64
  let p := m ++ (0x80 :: List.replicate z 0) ++ beBytes 8 (8 * m.length)
  let s := shaBlocks (p.length / 64) (beWords p) shaInit
  [s.a, s.b, s.c, s.d, s.e, s.f, s.g, s.h].flatMap (beBytes 4)

/-- HMAC-SHA-256 (R378). -/
def hmacSha256 (key m : List Byte) : List Byte :=
  let k := key ++ List.replicate (64 - key.length) 0
  sha256 (k.map (· ^^^ 0x5C) ++ sha256 (k.map (· ^^^ 0x36) ++ m))

/-- The bytes of an ASCII string of the manual. -/
def ascii (s : String) : List Byte := s.toList.map fun c => BitVec.ofNat 8 c.toNat

/-- H(-1), the chain's initial value for the serial number that G_ID_SERIAL holds (R273). -/
def chainOrigin (serial : Nat) : List Byte :=
  sha256 (ascii "TAMONG-CLOASH-C1" ++ leBytes 8 serial)

end Sys2Proof.Machine
end

