-- ==== Sys2Proof/Machine/Ecdsa.lean ====
section
/-!
DEFINITION. Ecdsa.lean: ECDSA on curve P-256 with SHA-256 (05 R128, 12 R278, R281). The curve's constants and the arithmetic are those
of FIPS 186-5 and SP 800-186, which the manual names and does not print (PRESUMED, log 10).
-/

namespace Sys2Proof.Machine

/-- The field prime, the group order and the coefficient b of P-256. -/
def p256p : Nat := 0xFFFFFFFF00000001000000000000000000000000FFFFFFFFFFFFFFFFFFFFFFFF
def p256n : Nat := 0xFFFFFFFF00000000FFFFFFFFFFFFFFFFBCE6FAADA7179E84F3B9CAC2FC632551
def p256b : Nat := 0x5AC635D8AA3A93E7B3EBBD55769886BC651D06B0CC53B0F63BCE3C3E27D2604B

/-- A point in Jacobian coordinates: (x/z², y/z³), the point at infinity where z = 0. -/
structure EcPoint where
  x : Nat
  y : Nat
  z : Nat
  deriving DecidableEq, Repr

/-- The base point G. -/
def p256g : EcPoint :=
  ⟨0x6B17D1F2E12C4247F8BCE6E563A440F277037D812DEB33A0F4A13945D898C296,
   0x4FE342E2FE1A7F9B8EE7EB4A7C0F9E162BCE33576B315ECECBB6406837BF51F5, 1⟩

/-- Difference and product modulo the field prime. -/
def fsub (a b : Nat) : Nat := (a + (p256p - b % p256p)) % p256p
def fmul (a b : Nat) : Nat := a * b % p256p

/-- The bits of a 256-bit number, the highest first. -/
def bits256 (k : Nat) : List Bool := (List.range 256).map fun i => k.testBit (255 - i)

/-- `b` to the power `e` modulo `m`. -/
def powMod (b e m : Nat) : Nat := (bits256 e).foldl (fun a t => if t then a * a % m * b % m else a * a % m) 1

/-- The inverse modulo a prime. -/
def invMod (a m : Nat) : Nat := powMod (a % m) (m - 2) m

/-- Twice a point. -/
def ecDouble (q : EcPoint) : EcPoint :=
  if q.z = 0 ∨ q.y = 0 then ⟨1, 1, 0⟩
  else
    let yy := fmul q.y q.y
    let zz := fmul q.z q.z
    let s := fmul 4 (fmul q.x yy)
    let m := fmul 3 (fmul (fsub q.x zz) ((q.x + zz) % p256p))
    let x := fsub (fmul m m) (2 * s)
    ⟨x, fsub (fmul m (fsub s x)) (8 * fmul yy yy), fmul 2 (fmul q.y q.z)⟩

/-- The sum of two points. -/
def ecAdd (q r : EcPoint) : EcPoint :=
  if q.z = 0 then r
  else if r.z = 0 then q
  else
    let z1 := fmul q.z q.z
    let z2 := fmul r.z r.z
    let u1 := fmul q.x z2
    let u2 := fmul r.x z1
    let s1 := fmul q.y (fmul z2 r.z)
    let s2 := fmul r.y (fmul z1 q.z)
    if u1 = u2 then (if s1 = s2 then ecDouble q else ⟨1, 1, 0⟩)
    else
      let h := fsub u2 u1
      let d := fsub s2 s1
      let hh := fmul h h
      let hhh := fmul h hh
      let v := fmul u1 hh
      let x := fsub (fsub (fmul d d) hhh) (2 * v)
      ⟨x, fsub (fmul d (fsub v x)) (fmul s1 hhh), fmul h (fmul q.z r.z)⟩

/-- A multiple of a point. -/
def ecMul (k : Nat) (q : EcPoint) : EcPoint :=
  (bits256 k).foldl (fun a t => if t then ecAdd (ecDouble a) q else ecDouble a) ⟨1, 1, 0⟩

/-- The affine coordinates of a point other than infinity. -/
def ecX (q : EcPoint) : Nat := let i := invMod q.z p256p; fmul q.x (fmul i i)
def ecY (q : EcPoint) : Nat := let i := invMod q.z p256p; fmul q.y (fmul i (fmul i i))

/-- Whether the 64 bytes X, Y, both big-endian, are a point of the curve. -/
def onCurve (key : List Byte) : Bool :=
  let x := beNat (key.take 32)
  let y := beNat (key.drop 32)
  decide (x < p256p) && decide (y < p256p) && fmul y y == (fmul x (fmul x x) + fsub p256b (3 * x)) % p256p

/-- Whether (r, s), as big-endian strings, is a signature of a digest under the key X, Y. -/
def sigValid (key : List Byte) (digest : Nat) (rB sB : List Byte) : Bool :=
  let r := beNat rB
  let s := beNat sB
  let w := invMod s p256n
  let q := ecAdd (ecMul (digest * w % p256n) p256g) (ecMul (r * w % p256n) ⟨beNat (key.take 32), beNat (key.drop 32), 1⟩)
  onCurve key && decide (1 ≤ r) && decide (r < p256n) && decide (1 ≤ s) && decide (s < p256n) && q.z != 0 && ecX q % p256n == r

/-- The 64 bytes X, Y of the public key of a private key. -/
def publicKey (d : Nat) : List Byte := let q := ecMul d p256g; beBytes 32 (ecX q) ++ beBytes 32 (ecY q)

/-- The signature r, s of a digest under a private key with nonce `k`. -/
def ecdsaSign (d k digest : Nat) : Nat × Nat :=
  let r := ecX (ecMul k p256g) % p256n
  (r, invMod k p256n * (digest + r * d) % p256n)

/-- A number from 1 to n − 1. -/
def inGroup (x : Nat) : Nat := 1 + x % (p256n - 1)

/-- The unit's private key (R281). -/
def unitKey : Nat := inGroup Config.privKey

end Sys2Proof.Machine
end

