-- ==== Sys2Proof/Machine/Ops.lean ====
section
/-!
DEFINITION. Ops.lean: the operations every family shares: the passing of time, event counts under R8, the bus answer, Tamong
time in words, the trouble log (17 R407 to R412), records and the unit record queue (10 R234 to R241), and power requests
(03 R64, R65, R432).
-/

namespace Sys2Proof.Machine

/-! ### Time (00 R428, 04 R92, R101; log 2) -/

/-- An event of the present cycle folded into its register (R8). -/
def applyBump (v : Vector Word 431) (b : EvBump) : Vector Word 431 :=
  vmod v b.reg fun w =>
    let old := fld w b.lo b.width
    setFld w b.lo b.width <| match b.kind with
      | .set => old ||| b.amt
      | .add => satAdd b.width old b.amt
      | .max => max old (min b.amt (2 ^ b.width - 1))

/-- The events of a past cycle are settled into their registers. -/
def settle (s : State) : State :=
  { s with ev := s.evPend.reverse.foldl applyBump s.ev, evPend := [] }

/-- Codes slewed in `d` elapsed codes at no more than 0.5 ppm (R101), with the elapsed codes left over. -/
def slewBy (tm : Tim) (d : Nat) : Tim :=
  let room := (tm.slewAcc + d) / 2000000
  let k := min room tm.slew.natAbs
  let step : Int := if 0 ≤ tm.slew then (k : Int) else -(k : Int)
  { tm with
    codes := ((tm.codes + d : Nat) + step).toNat
    slew := tm.slew - step
    slewAcc := if tm.slew = step then 0 else (tm.slewAcc + d) % 2000000
    acquiring := decide (tm.slew ≠ step) || decide (tm.stepPhase ≠ 0) || decide (tm.stepSec ≠ 0) }

/-- The time base after `d` elapsed codes: it counts while it runs (R92). -/
def timAdvance (tm : Tim) (d : Nat) : Tim :=
  if tm.running then
    (if tm.slew = 0 then { tm with codes := tm.codes + d } else slewBy tm d)
  else tm

/-- Kernel instant of a Tamong time near the present. -/
def kernOf (s : State) (c : Nat) : Instant := s.now + c - s.tim.codes

/-- Tamong time of a kernel instant near the present. -/
def tamOf (s : State) (k : Instant) : Nat := s.tim.codes + k - s.now

/-- Tamong time of the present happening: its own instant within the cycle, however the happenings of the cycle were queued (R428). -/
def tamNow (s : State) : Nat := tamOf s s.hap

/-- Whether two instants belong to one cycle. -/
def sameCycle (a b : Instant) : Bool := cycleOf a == cycleOf b

/-! ### Event registers: indices into `ev` -/

def rgAssureHist : Nat := 0
def rgArbFault : Nat := 1
def rgLatMax : Nat := 2
def rgBoot : Nat := 3
def rgPwrStop : Nat := 4
def rgTime : Nat := 5
def rgJob : Nat := 6
def rgSring : Nat := 7
def rgSeg : Nat := 8
def rgTset : Nat := 9
def rgEvid : Nat := 10
def rgArb : Nat := 11
def rgArbWait : Nat := 12
def rgSeal : Nat := 13
def rgFlt : Nat := 14
def rgLog : Nat := 15
def rgRing : Nat := 16
def rgRingErr : Nat := 17
def rgSpi : Nat := 18
def rgUsb : Nat := 19
def rgEthRx : Nat := 20
def rgEthTx : Nat := 21
def rgCal : Nat := 22
def rgXpt (k : Nat) : Nat := 23 + k
def rgCapHw (k : Nat) : Nat := 31 + k
def rgCapLoss (k : Nat) : Nat := 39 + k
def rgFltCount (sc : Nat) : Nat := 47 + sc

/-- An event counted in a field (R8): it saturates. -/
def bump (reg lo width amt : Nat) (s : State) : State :=
  { s with evPend := ⟨reg, lo, width, .add, amt⟩ :: s.evPend }

/-- A largest value noted in a field. -/
def bumpMax (reg lo width v : Nat) (s : State) : State :=
  { s with evPend := ⟨reg, lo, width, .max, v⟩ :: s.evPend }

/-- A W1C bit set. -/
def bumpSet (reg lo : Nat) (s : State) : State :=
  { s with evPend := ⟨reg, lo, 1, .set, 1⟩ :: s.evPend }

/-- The register with the events of the present cycle counted in. -/
def evNow (s : State) (reg : Nat) : Word := vget (settle s).ev reg 0

/-! ### Bus answers (18 R419, R423; log 4) -/

/-- The unit after answering a register-bus access. -/
def answer (port : Port) (addr : Nat) (wr : Bool) (val : Word) (res : BusRes) (s : State) : State :=
  { s with bus := some ⟨port, addr, wr, val, res⟩ }

/-- Day as R9 means it: STATE 3. -/
def inDay (s : State) : Bool := s.pwr.st == .day

/-- Whether the fast domain is powered (02 R52). -/
def fastOn (s : State) : Bool :=
  match s.pwr.st with
  | .absent | .night => false
  | _ => true

/-- Whether registers are reached through a port (18 R425): the management core's own accesses while it runs, the others while
their port runs; in maintenance Day SPI answers every command with STATE (15 R356, R367, 16 R372). -/
def portUp (s : State) (p : Port) : Bool :=
  fastOn s && match p with
    | .core => true
    | .tasp => s.eth.running && s.tasp.on
    | .spi => s.spi.running && s.pwr.st != .maint
    | .usb => s.usb.dev != 0

/-- Whether the pin channels are powered (06 R156): in Day, and in Dusk until its step 7. A Dusk entered from Evening or
maintenance Day powers none. -/
def pinsOn (s : State) : Bool :=
  match s.pwr.st with
  | .day => true
  | .dusk => s.pwr.duskPins && !(decide (7 ≤ s.pwr.duskStep) || (s.pwr.duskStep == 6 && s.sl.ckptWrite.isNone))
  | _ => false

/-! ### Tamong time and the time-base state (04) -/

/-- The 96-bit Tamong time of a number of codes (Table 4-4). -/
def timeCode (c : Nat) : Nat :=
  2 ^ 48 * (c / cS) + 2 ^ 18 * (c % cS / 256) + 2 ^ 10 * (c % 256)

/-- Codes of a 96-bit Tamong time. -/
def timeOfCode (n : Nat) : Nat :=
  cS * (n / 2 ^ 48) + (n / 2 ^ 18 % 2 ^ 30) * 256 + n / 2 ^ 10 % 256

/-- Word `i` of a 96-bit value. -/
def w96 (n i : Nat) : Word := word (n >>> (32 * i))

/-- Code of a time-base state (Table 4-9). -/
def TimeSt.code : TimeSt → Nat
  | .unlocked => 0
  | .pps => 1
  | .ptp => 2
  | .holdover => 3

/-- The error bound B in units of 0.1 ns, 0xFFFF unknown (R18); unknown while time is not valid (R112). -/
def boundB (tm : Tim) : Nat :=
  if !tm.valid then 0xFFFF
  else match tm.st with
  | .unlocked => 0xFFFF
  | .pps => 20
  | .ptp => min 0xFFFE (tm.ptpEst + 5)
  | .holdover => if tm.holdShort then 0xFFFF else 1000

/-- STATE, VALID, TOD_SRC and B as a TIME_STATE payload carries them (Table 10-5). -/
def timeBits (tm : Tim) : Nat :=
  tm.st.code + 8 * b2n tm.valid + 16 * tm.todSrc + 256 * boundB tm

/-! ### The trouble log (17 R407 to R412) -/

/-- Whether an entry is a continuation. -/
def isCont (e : LogEntry) : Bool := bit e.w1 30

/-- Continuation entries for a content of 32-bit words, three words each (R408). -/
def logConts : Nat → List Nat → List LogEntry
  | 0, _ => []
  | n + 1, ws =>
    match ws with
    | [] => []
    | _ => ⟨word (ws.getD 0 0), 0x40000000, word (ws.getD 1 0), word (ws.getD 2 0)⟩ :: logConts n (ws.drop 3)

/-- A head entry at Tamong time `c` (Table 17-3). -/
def logHead (src code value c : Nat) (valid : Bool) : LogEntry :=
  ⟨word (c / cS), word (2 ^ 31 * b2n valid + c % cS / 256),
   word (2 ^ 24 * src + 2 ^ 16 * code + c / cS / 2 ^ 32 % 2 ^ 16), word value⟩

/-- The log without its oldest `n` entries and the continuations they orphan (R412). -/
def logDrop (n : Nat) (l : List LogEntry) : List LogEntry :=
  if n = 0 then l else (l.drop n).dropWhile isCont

/-- Entries written to the log, the oldest overwritten when it is full (R412). -/
def logWrite (es : List LogEntry) (s : State) : State :=
  let kept := logDrop (s.nw.log.length + es.length - 2048) s.nw.log
  let s1 := if kept.length = s.nw.log.length then s else bump rgLog 16 16 (s.nw.log.length - kept.length) s
  { s1 with nw := { s1.nw with log := kept ++ es, logNext := (s1.nw.logNext + es.length) % 2 ^ 32 } }

/-- An entry with its continuations, stamped with the present Tamong time and VALID (R408). -/
def logPut (src code value : Nat) (ws : List Nat) (s : State) : State :=
  logWrite (logHead src code value (tamNow s) s.tim.valid :: logConts 3 ws) s

/-- A notice of Table 17-5. -/
def notice (code value : Nat) (ws : List Nat) (s : State) : State := logPut 0xFF code value ws s

/-! ### Records (10 R237 to R241) -/

/-- HEAD flag bits (Table 10-2), as amounts. -/
def hNotify : Nat := 2 ^ 25
def hSpare : Nat := 2 ^ 24
def hCoal : Nat := 2 ^ 23
def hFold : Nat := 2 ^ 22
def hCoarse : Nat := 2 ^ 21
def hRle : Nat := 2 ^ 20

/-- A record with its TIME at Tamong time `c` and a 96-bit payload (Table 10-1). -/
def mkRec (type sub oct flags jobNo c payload : Nat) : Rec :=
  ⟨word (type + 2 ^ 8 * sub + 2 ^ 16 * oct + flags), word jobNo,
   w96 (timeCode c) 0, w96 (timeCode c) 1, w96 (timeCode c) 2, w96 payload 0, w96 payload 1, w96 payload 2⟩

/-- The 32 bytes of a record as stored (R236). -/
def recBytes (r : Rec) : List Byte :=
  [r.head, r.jobNo, r.t0, r.t1, r.t2, r.p0, r.p1, r.p2].flatMap fun w => leBytes 4 w.toNat

/-- TYPE and SUB of a record, and whether it is marked for notification. -/
def recType (r : Rec) : Nat := fld r.head 0 8
def recSub (r : Rec) : Nat := fld r.head 8 8
def recNotify (r : Rec) : Bool := bit r.head 25

/-- A unit record formed at instant `k` enters the unit record queue, which drops none (R234); while the chain is suspended
no record is formed (R256). -/
def pushUnit (r : Rec) (k : Instant) (s : State) : State :=
  if s.evid.suspended then s
  else { s with evid := { s.evid with
      unitQ := s.evid.unitQ ++ [⟨r, k, false, s.evid.nextOrd, none, none⟩], nextOrd := s.evid.nextOrd + 1 } }

/-! ### Synthesisers and jobs, as other rules ask of them -/

def SynthSt.isLocked : SynthSt → Bool
  | .locked _ => true
  | _ => false

def SynthSt.isFailed : SynthSt → Bool
  | .failed => true
  | _ => false

def coreLocked (s : State) : Bool := s.clk.core.isLocked
def coreFailed (s : State) : Bool := s.clk.coreFailed
def octLocked (s : State) (k : Nat) : Bool := (vget s.clk.oct k .off).isLocked

/-- Slot `i`; a free slot outside 0 to 15. -/
def slotAt (s : State) (i : Nat) : Slot := vget s.seqr.slots i {}

/-- The unit with slot `i` changed. -/
def modSlot (i : Nat) (f : Slot → Slot) (s : State) : State :=
  { s with seqr := { s.seqr with slots := vmod s.seqr.slots i f } }

/-- The slots whose state is among those given. -/
def slotsIn (s : State) (p : JobSt → Bool) : List Nat :=
  (List.range 16).filter fun i => p (slotAt s i).st

/-- CHECKING, ARMED and RUNNING: the running jobs of R70 and R73 (R217). -/
def JobSt.active : JobSt → Bool
  | .checking | .armed | .running => true
  | _ => false

/-- Octets named by a job in CHECKING, ARMED or RUNNING. -/
def octBusy (s : State) : Nat :=
  (slotsIn s JobSt.active).foldl (fun m i => m ||| (slotAt s i).desc.octMask) 0

/-- Pin `n`; an idle one outside 0 to 63. -/
def pinAt (s : State) (n : Nat) : PinCh := vget s.pins n {}
def modPin (n : Nat) (f : PinCh → PinCh) (s : State) : State := { s with pins := vmod s.pins n f }

/-- Octet `k`. -/
def octAt (s : State) (k : Nat) : OctCh := vget s.octs k {}
def modOct (k : Nat) (f : OctCh → OctCh) (s : State) : State := { s with octs := vmod s.octs k f }

def capAt (s : State) (k : Nat) : Cap := vget s.caps k {}
def modCap (k : Nat) (f : Cap → Cap) (s : State) : State := { s with caps := vmod s.caps k f }

/-- Whether octet `k` is in OCT_ACTIVE. -/
def octOn (s : State) (k : Nat) : Bool := s.pwr.octActive.getLsbD k

/-! ### Faults as other rules ask of them (17 R395 to R402) -/

/-- Index of a scope; sources of scope Unit use octet 0. -/
def scopeIx (src oct : Nat) : Nat := src * 8 + oct

/-- Sources of scope Octet (Table 17-1). -/
def srcOct (src : Nat) : Bool := decide (16 ≤ src) && decide (src ≤ 21)

def scopeAt (s : State) (src oct : Nat) : FltScope := vget s.flt (scopeIx src oct) {}
def modScope (src oct : Nat) (f : FltScope → FltScope) (s : State) : State :=
  { s with flt := vmod s.flt (scopeIx src oct) f }

/-- Settings of a source in force (Table 17-9): N, W in ticks, reaction, software exit, Q in codes. -/
def fltN (s : State) (src : Nat) : Nat := max 1 (fld (vget s.r.fltCfg src 0) 8 8)
def fltW (s : State) (src : Nat) : Nat := max 1 (fld (vget s.r.fltCfg src 0) 16 16)
def fltReact (s : State) (src : Nat) : Nat := fld (vget s.r.fltCfg src 0) 4 2
def fltSoft (s : State) (src : Nat) : Bool := bit (vget s.r.fltCfg src 0) 7
def fltQ (s : State) (src : Nat) : Nat := cMs * (max 1 (fld (vget s.r.fltQuiet src 0) 0 16) * 100)

/-- The scopes a source has. -/
def scopesOf (src : Nat) : List Nat := if srcOct src then List.range 8 else [0]

/-- Octets a scope's reaction covers (R399). -/
def covered (s : State) (src oct : Nat) : Nat :=
  if srcOct src then 2 ^ oct else s.pwr.octActive.toNat

/-- Octets stopped: those a severe scope whose reaction is stop octet covers (R400). -/
def stoppedMask (s : State) : Nat :=
  (List.range 48).foldl (fun m src =>
    if fltReact s src = 1 then
      (scopesOf src).foldl (fun m o => if (scopeAt s src o).severe then m ||| covered s src o else m) m
    else m) 0

/-- DAY_BLOCK: a severe scope's reaction is go to Dusk (R399). -/
def dayBlock (s : State) : Bool :=
  (List.range 48).any fun src => fltReact s src == 3 && (scopesOf src).any fun o => (scopeAt s src o).severe

/-- Whether a scope's cause persists (R395). -/
def persists (s : State) (src oct : Nat) : Bool :=
  let f := scopeAt s src oct
  f.cond ||
    (match f.lastEv with
     | none => false
     | some e => decide (s.now < max e (f.condEnd.getD 0) + fltQ s src))

/-! ### Power requests (03 R64, R65, R432) -/

/-- STATE and TARGET codes (Table 3-14). -/
def PwrSt.code : PwrSt → Nat
  | .night => 0
  | .evening => 1
  | .dawn => 2
  | .day => 3
  | .dusk => 4
  | .maint => 5
  | .absent => 7

/-- Which of two requests of one cycle wins (R64): line loss, Day, Evening, Night. -/
def PwrSt.rank : PwrSt → Nat
  | .absent => 3
  | .day => 2
  | .evening => 1
  | _ => 0

/-- The power tier 0 to 3 (Table 3-1, TIER of Table 3-14). -/
def tier (s : State) : Nat :=
  if 5 ≤ s.pwr.classEvents then 3 else if s.pwr.classEvents = 4 then 2 else if 2 ≤ s.pwr.classEvents then 1 else 0

def usbEn (s : State) : Bool := bit s.r.portCfg 5

/-- J8 applies its pull-up while the port services run, USB_EN is 1 and VBUS is present (15 R367). -/
def usbConnect (s : State) : State :=
  if s.eth.running ∧ usbEn s ∧ s.encl.vbus ∧ s.usb.dev = 0 then { s with usb := { s.usb with dev := 1 } } else s

/-- R65: Night is carried out as Evening while VBUS is present and USB_EN is 1. -/
def nightOrEvening (s : State) (t : PwrSt) : PwrSt :=
  if t = .night ∧ s.encl.vbus ∧ usbEn s then .evening else t

/-- A request held until its transition begins: one of the same cycle with the higher rank wins, one already met by the
present state gives way to a later one, and otherwise the higher rank stays (R64; log 15). -/
def holdRequest (p : PwrPend) (s : State) : State :=
  let keep := match s.pwr.pend with
    | none => false
    | some q => if sameCycle q.at_ s.now then decide (p.target.rank ≤ q.target.rank)
                else decide (q.target ≠ s.pwr.st) && decide (p.target.rank ≤ q.target.rank)
  if keep then s else { s with pwr := { s.pwr with pend := some p } }

/-- Whether step 7 of the Dusk under way has begun: after the checkpoint of step 6, or directly after step 5. -/
def stepSeven (s : State) : Bool :=
  decide (7 ≤ s.pwr.duskStep) || (s.pwr.duskStep == 6 && s.sl.ckptWrite.isNone)

/-- The Dusk as it was before the winning request of the present cycle, if there is one. -/
def duskUndo (s : State) : State :=
  match s.pwr.duskReq with
  | some r => if sameCycle r.win.at_ s.now then
      { s with pwr := { s.pwr with target := r.target, duskCause := r.cause, duskLatched := r.latched, pend := r.pend } } else s
  | none => s

/-- What a request does in a Dusk towards Evening or Night (R432). -/
def duskAct (p : PwrPend) (s : State) : State :=
  if p.target = .day then { s with pwr := { s.pwr with duskLatched := some p.source } }
  else if p.target = s.pwr.target then s
  else if !stepSeven s then { s with pwr := { s.pwr with target := p.target, duskCause := p.cause } }
  else holdRequest p s

/-- A request during a Dusk (R432): of those of one cycle only the highest in rank acts (R64). -/
def duskRequest (p : PwrPend) (s : State) : State :=
  let beaten : Bool := match s.pwr.duskReq with
    | some r => sameCycle r.win.at_ s.now && decide (p.target.rank ≤ r.win.target.rank)
    | none => false
  if s.pwr.target = .absent ∨ beaten then s
  else
    let u := duskUndo s
    duskAct p { u with pwr := { u.pwr with
      duskReq := some ⟨p, u.pwr.target, u.pwr.duskCause, u.pwr.duskLatched, u.pwr.pend⟩ } }

/-- A request or wake source for a power state, from wake source `source` (0: host request) with the Dusk cause `cause`:
Day is discarded and logged while CORE_FAILED or DAY_BLOCK is 1 (R89, R399); R65 turns Night into Evening;
from maintenance Day no request leads to Day, and at Class 3 none to Evening (R60, Table 3-3); without line power or in Night only a
wake acts. A request for Day cancels the AFTER states that routine entries wait to request (R139). -/
def pwrRequest (target0 : PwrSt) (source cause : Nat) (s : State) : State :=
  let target := nightOrEvening s target0
  if target = .day ∧ s.clk.coreFailed then notice 4 (16 + source) [] s
  else if target = .day ∧ dayBlock s then notice 4 (32 + source) [] s
  else
    let s := if target = .day then { s with rt := { s.rt with after := [] } } else s
    match s.pwr.st with
    | .absent => s
    | .dusk => duskRequest ⟨target, source, cause, s.now⟩ s
    | .maint => if target = .day ∨ (tier s = 0 ∧ target ≠ .night) then s else holdRequest ⟨target, source, cause, s.now⟩ s
    | .night => if target = .night then s else holdRequest ⟨target, source, cause, s.now⟩ s
    | _ => holdRequest ⟨target, source, cause, s.now⟩ s

end Sys2Proof.Machine
end

