-- ==== Sys2Proof/Machine/Fault.lean ====
section
/-!
DEFINITION. Fault.lean: what a fault event does (17 R395 to R403) and what reactions act through: the safe state of pins
(06 R156), stops ordered for running jobs (09 R224), requests for and abandonment of Twilight windows (13 R298, R304).
-/

namespace Sys2Proof.Machine

/-! ### Pins -/

/-- A pin in the safe state: driver off, termination open, no underrun state held, and an open window not observed (R156, R157, R206). -/
def PinCh.toSafe (now : Instant) (p : PinCh) : PinCh :=
  { p with safe := true, safeAt := if p.safe then p.safeAt else now, drv := false, term := false, dz := false, hold := none
           win := p.win.map fun w => { w with nobs := w.nobs || w.opened } }

/-- TERM of the loaded PIN_CFG. -/
def ldTerm (p : PinCh) : Bool := bit p.ld.cfg 4

/-- An idle pin (R155): driver off, termination as TERM. -/
def PinCh.toIdle (p : PinCh) : PinCh :=
  { p with safe := false, drv := false, term := ldTerm p, dz := false, hold := none }

/-- The pins of the octets of a mask, each changed. -/
def mapPins (mask : Nat) (f : Nat → PinCh → PinCh) (s : State) : State :=
  { s with pins := vmap s.pins fun n p => if mask.testBit (n / 8) then f n p else p }

/-- The pins of the octets of a mask in the safe state. -/
def safePins (mask : Nat) (s : State) : State := mapPins mask (fun _ p => p.toSafe s.now) s

/-- A swap made on octet `k`, in or out, is counted (R169, R309; Table 6-13). -/
def swapMade (k : Nat) (s : State) : State := bump (rgXpt k) 16 8 1 s

/-- A rolling cycle is cut off: its measurement is discarded, and it goes on from phase 1, with the next pin where the spare lane was
serving one (R308, R310). -/
def Roll.cut (r : Roll) : Roll :=
  { r with phase := 0, next := if r.phase = 4 ∨ r.phase = 5 then (r.next + 1) % 8 else r.next, meas := none }

/-- The crosspoint returns every pin of the octets of a mask to its own channel; a rolling measurement under way is
discarded (R170, R310). -/
def returnXpt (mask : Nat) (s : State) : State :=
  let gone := (List.range 8).filter fun k => mask.testBit k && (octAt s k).served.isSome
  let back := fun (k : Nat) (o : OctCh) =>
    if mask.testBit k then { o with served := none, roll := o.roll.cut } else o
  gone.foldl (fun s k => swapMade k s) { s with octs := vmap s.octs back }

/-! ### Stops of running jobs (R224) -/

/-- A stop ordered for slot `i` when its job runs. -/
def orderStop (gran : Bool) (code cause : Nat) (line : Bool) (i : Nat) (s : State) : State :=
  if (slotAt s i).st = .running then
    modSlot i (fun x => { x with stops := ⟨gran, code, cause, s.now, line⟩ :: x.stops }) s
  else s

/-- Slots whose job runs and names an octet of the mask. -/
def runningOn (s : State) (mask : Nat) : List Nat :=
  (slotsIn s (· == .running)).filter fun i => decide ((slotAt s i).desc.octMask &&& mask ≠ 0)

/-- FAULT_STOP at the next vector cycle boundary for the running jobs that name an octet of the mask (Table 9-6). -/
def faultStop (mask src : Nat) (s : State) : State :=
  (runningOn s mask).foldl (fun s i => orderStop false 14 src false i s) s

/-! ### Twilight windows -/

/-- Requests for windows on the octets of a mask (R298): one for an octet pending or in a window merges; octets outside
OCT_ACTIVE are logged in notice CAL_REQUEST. -/
def calRequest (mask : Nat) (s : State) : State :=
  let live := mask &&& s.pwr.octActive.toNat
  let dead := mask - live
  let s1 := { s with octs := vmap s.octs fun k o =>
    if (live.testBit k && o.calPend.isNone && o.win.isNone) = true then { o with calPend := some s.now, calOverdue := false } else o }
  if dead = 0 then s1 else notice 9 dead [] s1

/-- Whether octet `k` is busy as R299 means it: a running job names it, or one of its pins holds an underrun state. -/
def octHeld (s : State) (k : Nat) : Bool :=
  (octBusy s).testBit k || (List.range 8).any fun i => (pinAt s (8 * k + i)).hold.isSome

/-- The whole-unit sequence requests the first active octet of a list that it does not find busy; those it finds busy keep their
request pending (R297, R299). -/
def unitRequest : List Nat → State → State
  | [], s => { s with cal := { s.cal with unitNext := none } }
  | j :: l, s =>
    if octOn s j then
      let s1 := calRequest (2 ^ j) s
      if octHeld s j then unitRequest l s1 else { s1 with cal := { s1.cal with unitNext := some j } }
    else unitRequest l s

/-- The whole-unit sequence goes on past octet `k` (R297). -/
def unitAdvance (k : Nat) (s : State) : State :=
  if s.cal.unitNext = some k then unitRequest ((List.range 8).filter fun j => decide (k < j)) s else s

/-! ### Happenings to come (00 R428) -/

/-- Order of happenings at one instant: input steps, the edges in the order of 07 R176, then the formation of records. A strobe comes first, as the first thing of
its cycle. -/
def ActKind.rank : ActKind → Nat
  | .strobe _ => 0
  | .input _ _ => 1
  | .edge _ e => if e.off then 2 else if e.on then 3 else 4
  | .c1 _ => 5
  | .c2 _ => 6
  | .form _ _ _ _ => 7

/-- Whether one happening comes before another that was queued earlier. -/
def Act.before (a b : Act) : Bool :=
  decide (a.at_ < b.at_) || (a.at_ == b.at_ && decide (a.kind.rank < b.kind.rank))

/-- A happening in its place, behind those of the same instant and rank. -/
def actPut (a : Act) : List Act → List Act
  | [] => [a]
  | x :: l => if a.before x then a :: x :: l else x :: actPut a l

/-- A happening falls due at an instant to come. -/
def schedule (a : Act) (s : State) : State := { s with seqr := { s.seqr with acts := actPut a s.seqr.acts } }

/-- The strobe that a window of octet `k` deferred fires in the first cycle after the window (R302). -/
def strobeAfter (k : Nat) (s : State) : State :=
  if (octAt s k).defReg || (octAt s k).defTmr then schedule ⟨320 * (cycleOf s.now + 1), 0, .strobe k⟩ s else s

/-- Outcome 4 for every group of the nine channels of octet `k` (R304). -/
def chansAbandoned (k : Nat) (ch : Vector Chan 72) : Vector Chan 72 :=
  vmap ch fun c x =>
    if c / 8 = k ∧ c < 64 then { x with lvlOut := 4, lvlChk := 0, timOut := 4, timChk := 0, skewOut := 4 }
    else if c = 64 + k then { x with lvlOut := 4, lvlChk := 0, timOut := 4, timChk := 0 } else x

/-- A CAL record (Table 10-5). -/
def calRec (sub mask pin : Nat) (pinValid : Bool) (quality : Nat) (s : State) : State :=
  pushUnit (mkRec 0x40 sub 0 0 0 (tamNow s)
    (mask + 2 ^ 8 * pin + 2 ^ 14 * b2n pinValid + 2 ^ 16 * quality)) s.now s

/-- A window is abandoned at once (R304): nothing is written and every pin keeps its trims, outcome 4, CAL record SUB 3, the pins stay
safe, a deferred strobe fires (R302), and a whole-unit sequence goes on. -/
def abandonWindow (k : Nat) (s : State) : State :=
  match (octAt s k).win with
  | none => s
  | some _ =>
    let s1 := modOct k (fun o => { o with win := none, lastOut := 4, lvlFail := 0xFF, timFail := 0xFF, unitPhase := none }) s
    let s2 := { s1 with cal := { s1.cal with ch := chansAbandoned k s1.cal.ch } }
    unitAdvance k (strobeAfter k (calRec 3 (2 ^ k) 0 false 0xFFFF (bump rgCal 16 8 1 s2)))

/-- Windows on the octets of a mask are abandoned. -/
def abandonWindows (mask : Nat) (s : State) : State :=
  (bitsOf 8 mask).foldl (fun s k => abandonWindow k s) s

/-! ### Reactions (R399) -/

/-- Stop octet: pins safe, crosspoint returned, running jobs end with FAULT_STOP, windows abandoned, rolling paused. -/
def stopOctets (mask src : Nat) (s : State) : State :=
  faultStop mask src (abandonWindows mask (returnXpt mask
    (if pinsOn s then safePins mask s else s)))

/-- The reaction in force acts on the octets it covers: at the event that makes the scope severe (`fresh`), and for stop job
at each further one. -/
def react (src oct : Nat) (fresh : Bool) (s : State) : State :=
  match fltReact s src with
  | 1 => if fresh then stopOctets (covered s src oct) src s else s
  | 2 => faultStop (covered s src oct) src s
  | 3 => if fresh ∧ s.pwr.st = .day then pwrRequest .evening 0 3 s else s
  | _ => s

/-! ### Leaving severity (R398, R402, R403) -/

/-- VALUE of a source entry (R409): the octet and the pin's index within it, where they are known. -/
def srcValue (oct : Option Nat) (pin : Option Nat) (detail : Nat) : Nat :=
  (match oct with | some k => 2 ^ 31 + 2 ^ 28 * k | none => 0) +
  (match pin with | some p => 2 ^ 24 + 2 ^ 25 * p | none => 0) + detail % 2 ^ 24

/-- VALUE of an entry about a scope as a whole (R409). -/
def scopeValue (src oct detail : Nat) : Nat := srcValue (if srcOct src then some oct else none) none detail

/-- A source entry of a scope with the DETAIL given (R409). -/
def scopeLog (src oct code detail : Nat) (s : State) : State := logPut src code (scopeValue src oct detail) [] s

/-- A scope leaves severity (R402, R403): its history is emptied, and the entry with the DETAIL given is logged. -/
def leaveSevere (src oct : Nat) (auto : Bool) (detail : Nat) (s : State) : State :=
  let code := if auto then 3 else 4
  let e := logHead src code (scopeValue src oct detail) (tamNow s) s.tim.valid
  scopeLog src oct code detail
    (modScope src oct (fun f => { f with severe := false, ticks := [], left := some ⟨s.now, auto, f.ticks, e⟩ }) s)

/-- A log entry of the present cycle that is not to be, taken out again. -/
def unlog (e : LogEntry) (s : State) : State :=
  if s.nw.log.contains e then
    { s with nw := { s.nw with log := (s.nw.log.reverse.erase e).reverse.dropWhile isCont, logNext := (s.nw.logNext + (2 ^ 32 - 1)) % 2 ^ 32 } }
  else s

/-- An automatic exit counted in the present cycle that is not to be: RECOVERIES and the scope's exit count. -/
def uncount (src oct : Nat) (s : State) : State :=
  modScope src oct (fun f => { f with exits := f.exits - 1 })
    { s with evPend := s.evPend.erase ⟨rgFltCount (scopeIx src oct), 0, 16, .add, 1⟩ }

/-- A clear is refused: counted and logged (R403). -/
def clearRefused (src oct : Nat) (s : State) : State := scopeLog src oct 5 0 (bump rgFlt 16 8 1 s)

/-- An exit or clear that took effect earlier in the cycle of an event gives way to it: the event is applied first, so that the cause persists,
the scope stays severe, its reaction holds, and a clear is refused (R398). -/
def exitBack (src oct : Nat) (s : State) : State :=
  match (scopeAt s src oct).left with
  | none => s
  | some x =>
    if sameCycle x.at_ s.now ∧ (scopeAt s src oct).severe = false then
      let s1 := unlog x.entry (modScope src oct (fun f => { f with severe := true, ticks := x.ticks, left := none }) s)
      react src oct true (if x.auto then uncount src oct s1 else clearRefused src oct s1)
    else s

/-! ### Events (R395, R397, R410) -/

/-- Sources every event of which is logged: partner violations (R410), and occurrences skipped, of which each entry gives a trouble-log
entry (05 R141; DEDUCED, log 77). -/
def eachLogged (src : Nat) : Bool := src == 14 || src == 35 || src == 36 || src == 37 || src == 40 || src == 44

/-- Where an event lies: its source, its octet scope, and the pin concerned. -/
structure FltAt where
  src : Nat
  oct : Nat
  pin : Option Nat
  deriving DecidableEq, Repr

/-- The octet a source entry names: that of an octet scope. -/
def FltAt.octV (a : FltAt) : Option Nat := if srcOct a.src then some a.oct else none

/-- The EVENT entry of an event, or its count while the scope's second has not passed (R410). -/
def logEvent (a : FltAt) (detail : Nat) (ws : List Nat) (s : State) : State :=
  let f := scopeAt s a.src a.oct
  let open' := match f.logAt with
    | none => true
    | some t => decide (cS + t ≤ s.now)
  if eachLogged a.src || open' then
    modScope a.src a.oct (fun f => { f with logAt := some s.now })
      (logPut a.src 1 (srcValue a.octV a.pin detail) ws s)
  else
    bump rgLog 0 16 1 (modScope a.src a.oct (fun f => { f with unlogged := f.unlogged + 1 }) s)

/-- Events of a scope in the last W ms (R397), the present tick included. -/
def winCount (s : State) (src oct : Nat) : Nat :=
  ((scopeAt s src oct).ticks.filter fun t => decide (s.now / cMs < t + fltW s src)).length

/-- The scope becomes severe: SEVERE entry, SEVERE_COUNT, and the reaction (R397, R399). -/
def goSevere (a : FltAt) (s : State) : State :=
  let s1 := modScope a.src a.oct (fun f => { f with severe := true }) s
  react a.src a.oct true (bump rgFlt 0 16 1
    (logPut a.src 2 (srcValue a.octV a.pin (fltReact s a.src * 256 + fltN s a.src)) [] s1))

/-- One event of a source (R395 to R399, R410). In Night and without line power no source is evaluated (R396). -/
def fault (a : FltAt) (detail : Nat) (ws : List Nat) (s : State) : State :=
  if fastOn s then
    let s := exitBack a.src a.oct s
    let s1 := modScope a.src a.oct (fun f =>
      { f with ticks := (s.now / cMs :: f.ticks).take 255, lastEv := some s.now }) s
    let s2 := logEvent a detail ws (bump (rgFltCount (scopeIx a.src a.oct)) 16 16 1 s1)
    if (scopeAt s2 a.src a.oct).severe then react a.src a.oct false s2
    else if fltN s2 a.src ≤ winCount s2 a.src a.oct then goSevere a s2
    else s2
  else s

/-- An event of a source of scope Unit. -/
def faultU (src detail : Nat) (s : State) : State := fault ⟨src, 0, none⟩ detail [] s

/-- The condition of a source with one under "Persists while" begins or ends (R395, R402). -/
def setCond (src oct : Nat) (c : Bool) (s : State) : State :=
  modScope src oct (fun f => { f with cond := c, condEnd := if f.cond && !c then some s.now else f.condEnd }) s

end Sys2Proof.Machine
end

