-- ==== Sys2Proof/Machine/Range.lean ====
section
/-!
DEFINITION. Range.lean: watched fields and CONFIG_RANGE (17 R429, 18 R422), and the range rules RETRY_OK judges (04 R113,
05 R136, 14 R342, 16 R389).
-/

namespace Sys2Proof.Machine

/-! ### Ranges -/

/-- MRAM_RETRY and IMG_TIMEOUT are in range together (R136). -/
def bootLimitsOk (w : Word) : Bool :=
  let r := fld w 0 3
  let t := fld w 16 16
  decide (1 ≤ r) && decide (100 ≤ t) && decide (t ≤ 2000) && decide ((r + 1) * 45 < t)

/-- RETX_MAX and RETX_US are in range together (R389). -/
def retxOk (w : Word) : Bool :=
  let m := fld w 0 3
  let u := fld w 16 16
  decide (200 ≤ u) && decide (u ≤ 10000) && decide (m * u ≤ 20000)

/-- LISTEN_S and LEAD_MS are in range (Table 14-9). -/
def ringSleepOk (w : Word) : Bool :=
  decide (1 ≤ fld w 12 4) && decide (fld w 12 4 ≤ 10) && decide (20 ≤ fld w 0 12)

/-- ANN_TIMEOUT is in range, and TRANSPORT is no reserved code (Table 4-18). -/
def ptpCfgOk (w : Word) : Bool :=
  decide (2 ≤ fld w 20 4) && decide (fld w 20 4 ≤ 10) && fld w 8 2 != 3

/-! ### Substituted fields -/

/-- A field as a number and its value, where the unit uses another value in its place. -/
def subIf (c : Bool) (f v : Nat) : List (Nat × Nat) := if c then [(f, v)] else []

/-- The watched fields of the register at an offset that hold a substituted value, as field numbers and values written. Octet
and pin registers are given by their offset in the block. -/
def subsIn (off : Nat) (w : Word) : List (Nat × Nat) :=
  match off with
  | 0x05C => subIf (!bootLimitsOk w && fld w 0 3 != 3) 0 (fld w 0 3) ++
      subIf (!bootLimitsOk w && fld w 16 16 != 0x1F4) 1 (fld w 16 16)
  | 0x11C => subIf (fld w 16 2 == 3) 0 3
  | 0x204 => subIf (fld w 4 2 == 0) 0 0
  | 0x21C => subIf (fld w 8 8 == 0) 0 0
  | 0x224 => subIf (decide (fld w 20 4 < 2) || decide (10 < fld w 20 4)) 0 (fld w 20 4) ++ subIf (fld w 8 2 == 3) 1 3
  | 0x304 => subIf (fld w 0 16 == 0) 0 0
  | 0x3CC => subIf (decide (w.toNat < 320)) 0 w.toNat
  | 0x500 => subIf (fld w 16 8 == 0) 0 0 ++ subIf (fld w 0 16 == 0) 1 0
  | 0x524 => subIf (decide (14 ≤ fld w 0 4)) 0 (fld w 0 4)
  | 0x600 => subIf (decide (fld w 0 16 < 100) || decide (60000 < fld w 0 16)) 0 (fld w 0 16) ++
      subIf (fld w 16 8 != 0 && (decide (fld w 16 8 < 10) || decide (24 < fld w 16 8))) 1 (fld w 16 8)
  | 0x604 => subIf (fld w 0 16 == 0) 0 0
  | 0x70C => subIf (decide (48 ≤ fld w 0 6)) 0 (fld w 0 6)
  | 0x710 => subIf (fld w 8 8 == 0) 0 0 ++ subIf (fld w 16 16 == 0) 1 0
  | 0x714 => subIf (fld w 0 16 == 0) 0 0
  | 0x728 => subIf (decide (fld w 0 16 < 10) || decide (1000 < fld w 0 16)) 0 (fld w 0 16)
  | 0x804 => subIf (fld w 12 4 == 0 || decide (10 < fld w 12 4)) 0 (fld w 12 4) ++
      subIf (decide (fld w 0 12 < 20)) 1 (fld w 0 12)
  | 0x920 => subIf (!retxOk w && fld w 0 3 != 3) 0 (fld w 0 3) ++
      subIf (!retxOk w && fld w 16 16 != 1000) 1 (fld w 16 16) ++ subIf (decide (fld w 8 8 < 10)) 2 (fld w 8 8)
  | 0xA04 => subIf (fld w 16 8 == 0) 0 0
  | 0xA0C => subIf (decide (72 ≤ fld w 0 7)) 0 (fld w 0 7)
  | _ => []

/-- The same for an octet register. -/
def subsOct (off : Nat) (w : Word) : List (Nat × Nat) :=
  match off with
  | 0x00 => subIf (decide (fld w 0 24 < 25)) 0 (fld w 0 24)
  | 0x08 => subIf (decide (0x10000000 < w.toNat)) 0 w.toNat
  | _ => []

/-- The same for a pin register. -/
def subsPin (off : Nat) (w : Word) : List (Nat × Nat) :=
  match off with
  | 0x00 => subIf (fld w 12 2 == 3) 0 3 ++ subIf (fld w 8 2 == 3) 1 3
  | _ => []

/-- A write that leaves the register at an offset with the substituted fields given: one event for each field that comes to hold
a substituted value, or another one (R429). `sel` is the source selected, for the two registers that have one value per source. -/
def noteRange (off sel : Nat) (subs : List (Nat × Nat)) (s : State) : State :=
  let mine := fun (x : Nat × Nat × Nat) => x.1 == off && x.2.1 / 4 == sel
  let old := s.r.subst.filter mine
  let new := subs.map fun x => (off, sel * 4 + x.1, x.2)
  let rest := s.r.subst.filter fun x => !mine x
  let s1 := { s with r := { s.r with subst := rest ++ new } }
  setCond 34 0 (!(rest ++ new).isEmpty) ((new.filter fun x => !old.contains x).foldl (fun s _ => faultU 34 off s) s1)

end Sys2Proof.Machine
end

