-- ==== Sys2Proof/Machine/Assure.lean ====
section
/-!
DEFINITION. Assure.lean: the latency conditions and guarantee assumptions of chapter 01 (R21, R26, R30, Table 1-8, Table 1-9).
-/

namespace Sys2Proof.Machine

/-- Records evidence memory holds (10 R253). -/
def evCap : Nat := 50331648

/-- Weights in force of CE0 to CE7 are each at least 256. -/
def ceWeightOk (s : State) : Bool := (List.range 8).all fun k => decide (256 ≤ vget s.arb.weight (k + 1) 0)

/-- DBG has made no request in the present or the previous window. -/
def dbgIdle (s : State) : Bool :=
  match s.arb.dbgWin with
  | none => true
  | some w => decide (w + 4096 < s.arb.winAt)

/-- Every retry count and listen time is within its documented range (R113, R136, R342, R389). -/
def retryOk (s : State) : Bool :=
  bootLimitsOk s.r.bootLimits && fld s.r.clkCfg 4 2 != 0 && fld s.r.timeSrc 8 8 != 0 && ptpCfgOk s.r.ptpCfg &&
  ringSleepOk s.r.ringSleep && retxOk s.r.ethCfg

/-- GWD_US in force. -/
def gwdUs (s : State) : Nat := max 1 (fld s.r.arbCfg 0 16)

/-- G_ASSURE_COND in Day but for LIVE_OK and LAT_OK: its bits by number. -/
def assureBit (s : State) (i : Nat) : Bool :=
  match i with
  | 0 => ceWeightOk s
  | 1 => !bit s.r.arbCfg 28
  | 2 => dbgIdle s
  | 8 => bit s.r.arbCfg 31 && decide (gwdUs s ≤ 200)
  | 9 => bit s.r.fwdCfg 31
  | 10 => retryOk s
  | 11 => s.boot.imageApplied
  | 12 => decide (4 * (s.evid.count - s.evid.oldest) < 3 * evCap)
  | _ => false

/-- The conditions that G_ASSURE_HIST records. -/
def assureBits : List Nat := [0, 1, 2, 8, 9, 10, 11, 12]

/-- G_ASSURE_COND (Table 1-8): 0 outside Day. -/
def assureCond (s : State) : Word :=
  if inDay s then
    let live := [8, 9, 10, 11, 12].all (assureBit s)
    let lat := [0, 1, 2].all (assureBit s)
    word (maskOf (assureBits.filter (assureBit s)) + 2 ^ 13 * b2n live + 2 ^ 3 * b2n lat)
  else 0

/-- Whether a bit of G_ASSURE_HIST has been set in the present cycle. -/
def lapseNoted (s : State) (i : Nat) : Bool := s.evPend.any fun b => b.reg == rgAssureHist && b.lo == i

/-- A condition that reads 0 in a cycle of Day sets its bit of G_ASSURE_HIST in that cycle, so that a write of the same cycle does not
clear it (R8, R30). It is noted as each cycle of Day ends, before every change that could end the lapse, before Day ends, and before
every register access. -/
def assureLapse (s : State) : State :=
  if inDay s then
    assureBits.foldl (fun s i => if assureBit s i || lapseNoted s i then s else bumpSet rgAssureHist i s) s
  else s

/-! ### The passing of time (00 R428; log 2, log 69) -/

/-- The unit at instant `t` with nothing due in between: time never runs back; the Nightwatch counter counts in every state (R82); the
events of a cycle that has passed are settled. An instant `t` within the present cycle is the instant of the happening even where
another happening of the cycle was queued before it. -/
def pass (t : Instant) (s : State) : State :=
  let n := max s.now t
  let d := n - s.now
  let s1 := if cycleOf n = cycleOf s.now then s else settle (assureLapse s)
  { s1 with now := n, hap := if sameCycle t n then t else n, tim := timAdvance s.tim d, nw := { s.nw with codes := s.nw.codes + d } }

end Sys2Proof.Machine
end

