-- ==== Sys2Proof/Machine/Capture.lean ====
section
/-!
DEFINITION. Capture.lean: capture FIFOs, open runs and groups, losses (10 R243 to R251), time-state records (01 R16,
04 R108), and the end of a job (09 R225, R226, Table 9-6).
-/

namespace Sys2Proof.Machine

/-! ### Capture FIFOs (R250, R251) -/

/-- Entries a FIFO holds before a record is dropped (R250). -/
def capRoom : Nat := 4094

/-- A dropped record joins the open loss, or opens one (R251). -/
def lossAdd (jobNo lo hi time : Nat) (notify : Bool) (c : Cap) : Cap :=
  match c.loss with
  | none => { c with loss := some ⟨jobNo, lo, hi, 1, time, notify⟩ }
  | some l => { c with loss := some { l with first := min l.first lo, last := max l.last hi, dropped := l.dropped + 1 } }

/-- The PASS record of a run (Table 10-4). -/
def runRec (k : Nat) (r : Run) (at_ : Instant) (closed : Bool) : QRec :=
  ⟨mkRec 1 0 k (b2n r.rle * hRle + b2n r.spare * hSpare) r.jobNo r.time
    (r.first + 2 ^ 64 * r.judged + 2 ^ 72 * r.count), at_, closed, 0, some k, some r.strobe⟩

/-- The REPEAT record of a group (Table 10-4). -/
def grpRec (k : Nat) (g : Grp) (at_ : Instant) (closed : Bool) : QRec :=
  ⟨mkRec 3 0 k (hCoal + b2n g.spare * hSpare + b2n g.notify * hNotify) g.jobNo g.time
    (g.lastCycle + 2 ^ 64 * g.count), at_, closed, 0, some k, some g.strobe⟩

/-- Records an open run and an open group of an octet give when they end, with the cycles they cover: a group of one fail
cycle gives none (R245). -/
def openRecs (k : Nat) (c : Cap) (at_ : Instant) (closed : Bool) : List (QRec × Nat × Nat) :=
  (match c.run with
   | some r => [(runRec k r at_ closed, r.first, r.first + r.count - 1)]
   | none => []) ++
  (match c.grp with
   | some g => if 2 ≤ g.count then [(grpRec k g at_ closed, g.firstCycle, g.lastCycle)] else []
   | none => [])

/-- Entries occupied in the capture FIFO of octet `k`: a record leaves it when the transfer that writes it to evidence memory completes,
chained or not (11 R261, R271). -/
def capFill (s : State) (k : Nat) : Nat :=
  (capAt s k).fifo.length + (s.evid.unwritten.filter fun u => u.2 == k).length

/-- One record offered to a FIFO with `fill` entries occupied: accepted while fewer than 4 094 are, otherwise dropped; a dropped record
ends the octet's run and group, whose records are dropped with it (R249, R251). The count is of records dropped. -/
def capOffer (fill k : Nat) (q : QRec) (lo hi time : Nat) (nl : Bool) (c : Cap) : Cap × Nat :=
  if fill < capRoom then ({ c with fifo := c.fifo ++ [q] }, 0)
  else
    let rs := openRecs k c q.at_ true
    let c1 := lossAdd q.body.jobNo.toNat lo hi time nl { c with run := none, grp := none }
    (rs.foldl (fun c r => lossAdd r.1.body.jobNo.toNat r.2.1 r.2.2 time nl c) c1, 1 + rs.length)

/-- NOTIFY_LOSS of the job with a number (Table 10-7). -/
def notifyLoss (s : State) (jobNo : Nat) : Bool :=
  (List.range 16).any fun i => (slotAt s i).jobNo == jobNo && (slotAt s i).desc.policy.testBit 10

/-- An open loss closes once fewer than 4 094 entries are occupied: LOSS and LOSS_END are placed and formed, and the pair
counts an event of CAPTURE_LOSS (R251, Table 17-1). DESIGN CHOICE (log 70): no rule names a strobe that closes them, so no latency of a
notified LOSS or LOSS_END is measured. -/
def lossCloseAt (k : Nat) (s : State) : State :=
  let c := capAt s k
  match c.loss with
  | none => s
  | some l =>
    if capFill s k < capRoom ∧ !s.evid.suspended then
      let fl := b2n l.notify * hNotify
      let a : QRec := ⟨mkRec 5 0 k fl l.jobNo l.time (l.first + 2 ^ 64 * (l.dropped % 2 ^ 32)), s.now, false, 0, some k, none⟩
      let b : QRec := ⟨mkRec 6 0 k fl l.jobNo (tamNow s) (l.last + 2 ^ 64 * (l.dropped / 2 ^ 32 % 2 ^ 32)), s.now, false, 0,
        some k, none⟩
      let s1 := modCap k (fun c => { c with loss := none, fifo := c.fifo ++ [a, b] }) s
      let s2 := bumpMax (rgCapHw k) 16 13 (capFill s k + 2) s1
      fault ⟨20, k, none⟩ (min l.dropped 0xFFFFFF) [] s2
    else s

/-- A pin record of octet `k` covering job cycles `lo` to `hi` is formed (R234, R250, R251): it is accepted or dropped by the
occupancy at its formation, after the pair of a loss that has room. -/
def capIn (k : Nat) (q : QRec) (lo hi : Nat) (s0 : State) : State :=
  if s0.evid.suspended then s0
  else
    let s := lossCloseAt k s0
    let o := capOffer (capFill s k) k q lo hi (tamOf s q.at_) (notifyLoss s q.body.jobNo.toNat) (capAt s k)
    let s1 := modCap k (fun _ => o.1) s
    let s2 := bumpMax (rgCapHw k) 16 13 (capFill s1 k) s1
    if o.2 = 0 then s2 else bump (rgCapLoss k) 0 32 o.2 s2

/-! ### What the cycle being played still has to do (R234) -/

/-- A pin record whose formation falls at an instant: at once where that is not in the future. -/
def formAt (k : Nat) (q : QRec) (lo hi : Nat) (s : State) : State :=
  if q.at_ ≤ s.now then capIn k q lo hi s else schedule ⟨q.at_, q.body.jobNo.toNat, .form k q lo hi⟩ s

/-- Whether a happening is the formation of a record. -/
def ActKind.isForm : ActKind → Bool
  | .form _ _ _ _ => true
  | _ => false

/-- What a job's cycle still had to do ends with the job: its drive edges and its compares; its records that wait for their formation
stay, and so do the pins' inputs. -/
def dropActs (jobNo mask : Nat) (s : State) : State :=
  { s with
    seqr := { s.seqr with acts := s.seqr.acts.filter fun a => a.jobNo != jobNo || a.kind.isForm }
    pins := vmap s.pins fun n p => if mask.testBit (n / 8) then { p with win := none } else p
    caps := vmap s.caps fun k c => if mask.testBit k then { c with cyc := none } else c }

/-- Whether a record of a job still waits for its formation. -/
def formsWait (s : State) (jobNo : Nat) : Bool := s.seqr.acts.any fun a => a.jobNo == jobNo && a.kind.isForm

/-- The run and group of octet `k` end with records formed at `at_` (R249). -/
def closeOct (at_ : Instant) (closed : Bool) (k : Nat) (s : State) : State :=
  let rs := openRecs k (capAt s k) at_ closed
  let s1 := modCap k (fun c => { c with run := none, grp := none }) s
  rs.foldl (fun s r => formAt k r.1 r.2.1 r.2.2 s) s1

/-- The runs and groups of the octets of a mask end. -/
def closeOcts (at_ : Instant) (mask : Nat) (s : State) : State :=
  (bitsOf 8 mask).foldl (fun s k => closeOct at_ true k s) s

/-! ### Time-state records (01 R16, 04 R108, 10 R234) -/

/-- A TIME_STATE record of the state in force, formed 50 ns after the change or step; it closes every run and group, which end at the
change itself: results whose strobes fall at or after it open new ones (R249). -/
def timeStateRec (sub : Nat) (step : Int) (s : State) : State :=
  let k := s.hap + 50 * cNs
  pushUnit (mkRec 0x20 sub 0 0 0 (tamNow s) (timeBits s.tim + 2 ^ 32 * twos 64 step)) k (closeOcts k 0xFF s)

/-! ### Stream rings (09 R227, R231) -/

/-- Word `w` of segment entry `e` as written. -/
def segWord (s : State) (e w : Nat) : Word := rdWord s.seg.mem (8 * e + w)

/-- STREAM, RING, TSET and LOOP of an entry (Table 8-3). -/
def segStream (s : State) (e : Nat) : Bool := bit (segWord s e 3) 24
def segRing (s : State) (e : Nat) : Nat := fld (segWord s e 3) 25 2
def segTset (s : State) (e : Nat) : Nat := fld (segWord s e 3) 16 5
def segLoop (s : State) (e : Nat) : Nat := fld (segWord s e 3) 0 16
def segLenG (s : State) (e : Nat) : Nat := fld (segWord s e 1) 0 22
def segStart (s : State) (e : Nat) : Nat := fld (segWord s e 0) 0 27
def segPer (s : State) (e : Nat) : Nat := (segWord s e 2).toNat

/-- Stream rings that the segments of a job select, as a mask. -/
def jobRings (s : State) (d : JobDesc) : Nat :=
  d.list.foldl (fun m e => if segStream s e then m ||| 2 ^ segRing s e else m) 0

/-- Ring `r` reset: both sequence numbers 0, pieces discarded (R231). -/
def resetRing (r : Nat) (s : State) : State :=
  bump rgSring 0 8 1 { s with seqr := { s.seqr with srings := vmod s.seqr.srings r fun _ => {} } }

def resetRings (mask : Nat) (s : State) : State := (bitsOf 4 mask).foldl (fun s r => resetRing r s) s

/-! ### The end of a job (09 Table 9-6) -/

/-- Counters an end code and cause add one to: G_PWR_STOP, G_JOB_EVENTS, G_EVID_EVENTS, UR_STREAM and UR_FETCH of G_SEG_EVENTS, and
START_ENDED of G_TSET_EVENTS. -/
def endBump (code cause : Nat) : Option EvBump :=
  match code with
  | 2 => some ⟨rgJob, 8, 8, .add, 1⟩
  | 3 => some ⟨rgJob, 8, 8, .add, 1⟩
  | 5 => some ⟨rgSeg, if cause = 1 then 24 else 16, 8, .add, 1⟩
  | 6 => some ⟨rgEvid, 0, 8, .add, 1⟩
  | 7 => some ⟨rgPwrStop, 0, 16, .add, 1⟩
  | 8 => some ⟨rgJob, 16, 8, .add, 1⟩
  | 10 => some ⟨rgTset, 0, 8, .add, 1⟩
  | _ => none

/-- The event list with the counts of an end code added, and with them taken back. -/
def addEnd (code cause : Nat) (l : List EvBump) : List EvBump :=
  match endBump code cause with | some b => b :: l | none => l
def dropEnd (code cause : Nat) (l : List EvBump) : List EvBump :=
  match endBump code cause with | some b => l.erase b | none => l

/-- Pins of the job's octets at an end (Table 9-6): safe for EVIDENCE_FULL, ENERGY_STOP, CLOCK_FAIL and FAULT_STOP; idle for
COMPLETED, ABORTED and DUSK_STOP of a job that ran, where a pin in the safe state stays in it (R156); otherwise unchanged. Of a job
that had not left the queue, only the octets that no other job holds (log 33). -/
def endPins (code mask : Nat) (act ran : Bool) (s : State) : State :=
  if pinsOn s then
    if code = 6 ∨ code = 7 ∨ code = 9 ∨ code = 14 then safePins (if act then mask else mask - (mask &&& octBusy s)) s
    else if ran ∧ (code = 1 ∨ code = 3 ∨ code = 4) then
      mapPins mask (fun _ p => if p.safe then p else p.toIdle) s
    else s
  else s

/-- Fault events an end counts (Table 17-1): ENERGY_STOP and LATE_START. -/
def endFault (i code cause : Nat) (s : State) : State :=
  match code with
  | 7 => faultU 1 (i * 256 + cause) s
  | 8 => faultU 46 i s
  | _ => s

/-- Slot `i` ends with a code and cause (R225): it enters ENDING with its JOB_END record pending. When two causes reach it in
one cycle the lower code wins, and ENERGY_STOP on line loss wins over every other. -/
def endJob (code cause : Nat) (line : Bool) (i : Nat) (s : State) : State :=
  let x := slotAt s i
  match x.st with
  | .free | .ended => s
  | .ending =>
    if sameCycle x.endAt s.now ∧ x.endSt = 1 ∧ !x.endLine ∧ (line ∨ code < x.endCode) then
      let s1 := modSlot i (fun x => { x with endCode := code, cause := cause, endLine := line })
        { s with evPend := addEnd code cause (dropEnd x.endCode x.cause s.evPend) }
      let s2 := if code = 7 then { s1 with pwr := { s1.pwr with stopCause := cause } } else s1
      endPins code x.desc.octMask x.readySeen false s2
    else s
  | _ =>
    let ran := x.st == .running
    let s1 := if ran then closeOcts s.now x.desc.octMask (dropActs x.jobNo x.desc.octMask s) else s
    let s2 := if code = 1 then s1 else resetRings (jobRings s1 x.desc) s1
    let s3 := endPins code x.desc.octMask x.st.active ran s2
    let s4 := modSlot i (fun x => { x with
      st := .ending, endCode := code, cause := cause, endLine := line, endAt := s.now, endTam := tamNow s,
      endSt := 1, stops := [], play := { x.play with buf := [], cacheG := 0, cacheV := [], lastOf := false, eats := none } }) s3
    let s5 := { s4 with evPend := addEnd code cause s4.evPend }
    let s6 := if code = 7 then { s5 with pwr := { s5.pwr with stopCause := cause } } else s5
    endFault i code cause s6

/-- Each slot of a list ends with one code. -/
def endJobs (code cause : Nat) (line : Bool) (l : List Nat) (s : State) : State :=
  l.foldl (fun s i => endJob code cause line i s) s

/-- The JOB_END record of a slot (Table 10-5). -/
def jobEndRec (i : Nat) (x : Slot) : Rec :=
  mkRec 0x11 0 0 (b2n (x.desc.policy.testBit 11) * hNotify) x.jobNo x.endTam
    (x.play.n + 2 ^ 64 * x.endCode + 2 ^ 72 * x.cause + 2 ^ 80 * i + 2 ^ 84 * b2n x.cancelSeen +
     2 ^ 85 * b2n x.readySeen + 2 ^ 86 * b2n x.overDecl)

/-- Whether a loss is open for the job of a slot, on any octet. -/
def lossOpenFor (s : State) (jobNo : Nat) : Bool :=
  (List.range 8).any fun k => match (capAt s k).loss with | some l => l.jobNo == jobNo | none => false

/-- The first instant after a pin record or a LOSS pair at which a unit record follows it in the chain order (R235): that of a record
closed by an event, and otherwise the cycle after its formation. -/
def followsAt (q : QRec) : Instant :=
  if q.closed then q.at_ else (cycleOf q.at_ + 1) * 320

/-- The first instant after every record of a job still in the capture FIFOs. -/
def lastFormed (s : State) (jobNo : Nat) : Instant :=
  (List.range 8).foldl (fun m k =>
    (capAt s k).fifo.foldl (fun m q => if q.body.jobNo.toNat = jobNo then max m (followsAt q) else m) m) 0

/-- The JOB_END record of slot `i` is formed, when the end took effect in an earlier cycle and every other record of the job,
LOSS pairs included, is formed (R234); a suspended chain leaves it pending (R256). -/
def formEnd (i : Nat) (s : State) : State :=
  let x := slotAt s i
  if x.st = .ending ∧ x.endSt = 1 ∧ cycleOf x.endAt < cycleOf s.now ∧ !lossOpenFor s x.jobNo ∧ !formsWait s x.jobNo ∧
      !s.evid.suspended then
    pushUnit (jobEndRec i x) (max x.endAt (lastFormed s x.jobNo)) (modSlot i (fun x => { x with endSt := 2 }) s)
  else s

/-- Every JOB_END record that can be formed is. -/
def formEnds (s : State) : State := (List.range 16).foldl (fun s i => formEnd i s) s

end Sys2Proof.Machine
end

