-- ==== Sys2Proof/Machine/Acts.lean ====
section
/-!
DEFINITION. Acts.lean: what happens at each instant of a cycle being played: levels and the comparator (06 R154, R158 to R160), drive
edges (07 R175 to R180), compares and captures (06 R159; 07 R181), the records they give under the job's policy (10 R233 to
R249), load strobes and the wave generator (06 R160 to R167; 13 R302), and the passing of time with all of it.
-/

namespace Sys2Proof.Machine

/-! ### Levels (R160), in units of 1/819 200 V -/

/-- V_min and LSB of a span (Table 6-3). -/
def spanMin (span : Nat) : Int :=
  match span with | 2 => -1638400 | 3 => -3276800 | _ => 0
def spanLsb (span : Nat) : Int :=
  match span with | 0 => 25 | 3 => 100 | _ => 50

/-- The level of a code in a span before the clip. -/
def rawLevel (span code : Nat) : Int := spanMin span + spanLsb span * code

/-- The level at the pin, clipped to -1.0 V to +3.6 V. -/
def clipLevel (v : Int) : Int := max (-819200) (min v 2949120)

/-- Loaded SPAN, WAVE_SEL, CAP_EDGE and h/2 of a pin (Table 6-7). -/
def ldSpan (p : PinCh) : Nat := fld p.ld.cfg 0 2
def ldWaveSel (p : PinCh) : Nat := fld p.ld.cfg 16 5
def ldCapEdge (p : PinCh) : Nat := if fld p.ld.cfg 12 2 = 3 then 0 else fld p.ld.cfg 12 2
def ldHalfHyst (p : PinCh) : Int :=
  match fld p.ld.cfg 5 2 with | 0 => 0 | 1 => 4096 | 2 => 10240 | _ => 20480

/-- The code DAC `i` (0 VIH, 1 VIL, 2 VTT, 3 VOH, 4 VOL) applies: its loaded level field, or the generator's code in wave mode
(R166). -/
def dacCode (wcode : Nat) (p : PinCh) (i : Nat) : Nat :=
  if (ldWaveSel p).testBit i then wcode
  else match i with
    | 0 => fld p.ld.drv 16 16
    | 1 => fld p.ld.drv 0 16
    | 2 => fld p.ld.tt 0 16
    | 3 => fld p.ld.cmp 16 16
    | _ => fld p.ld.cmp 0 16

/-- Level of DAC `i` at the pin. -/
def dacLevel (wcode : Nat) (p : PinCh) (i : Nat) : Int := clipLevel (rawLevel (ldSpan p) (dacCode wcode p i))

/-- Whether DAC `i`'s level is clipped. -/
def dacClips (wcode : Nat) (p : PinCh) (i : Nat) : Bool :=
  decide (clipLevel (rawLevel (ldSpan p) (dacCode wcode p i)) ≠ rawLevel (ldSpan p) (dacCode wcode p i))

/-! ### Pin states (Table 8-1) -/

/-- State code of a pin in a vector. -/
def stateOf (v : Vec192) (n : Nat) : Nat := v.toNat >>> (3 * n) % 8

/-- Whether a state drives, compares, or captures. -/
def stDrives (c : Nat) : Bool := c == 2 || c == 3
def stCompares (c : Nat) : Bool := c == 4 || c == 5 || c == 6
def stCaptures (c : Nat) : Bool := c == 7

/-- Whether outputs pass a compare state (R158). -/
def cmpPass (c : Nat) (hi lo : Bool) : Bool :=
  match c with
  | 4 => lo
  | 5 => hi
  | _ => !hi && !lo

/-! ### Comparator (R158) -/

/-- HI and LO for an input with hysteresis: each output acts on its own previous value, and switches at its switching level; without
hysteresis HI is 1 above VOH and LO below VOL. -/
def cmpHi (voh half : Int) (prev : Bool) (u : Int) : Bool :=
  if half = 0 then decide (voh < u) else if prev then decide (voh - half < u) else decide (voh + half ≤ u)
def cmpLo (vol half : Int) (prev : Bool) (u : Int) : Bool :=
  if half = 0 then decide (u < vol) else if prev then decide (u < vol + half) else decide (u ≤ vol - half)

/-- A compare or capture in progress sees the outputs change at `code` of its cycle: a rising output is a crossing (R159), and in a
window that is open the first outputs that do not pass are kept (R240). -/
def PinWin.see (code cap : Nat) (ohi olo hi lo : Bool) (w : PinWin) : PinWin :=
  { w with
    cross := if stCaptures w.st then
        w.cross ++ (if !ohi && hi && cap != 1 then [(code, 0)] else []) ++ (if !olo && lo && cap != 0 then [(code, 1)] else [])
      else w.cross
    fail := if w.opened && stCompares w.st && w.fail.isNone && !cmpPass w.st hi lo then some (hi, lo) else w.fail }

/-- The pin's comparator at an instant with its input at `u`. -/
def cmpAt (now : Instant) (wcode : Nat) (u : Int) (p : PinCh) : PinCh :=
  let hi := cmpHi (dacLevel wcode p 3) (ldHalfHyst p) p.hi u
  let lo := cmpLo (dacLevel wcode p 4) (ldHalfHyst p) p.lo u
  { p with inp := u, hi := hi, lo := lo, win := p.win.map fun w => w.see (now - w.a.korg) (ldCapEdge p) p.hi p.lo hi lo }

/-- The outputs as the channel becomes powered: plain comparison (R158). -/
def cmpFresh (wcode : Nat) (p : PinCh) : PinCh :=
  { p with hi := decide (dacLevel wcode p 3 < p.inp), lo := decide (p.inp < dacLevel wcode p 4) }

/-- A step of a pin's input (R158); an unpowered channel compares nothing. -/
def inputStep (n : Nat) (u : Int) (s : State) : State :=
  modPin n (fun p => if pinsOn s then cmpAt s.now (octAt s (n / 8)).code u p else { p with inp := u }) s

/-! ### Drive edges (R175, R176, R179, R180) -/

/-- A pin after one of its drive edges: D1 turns a driver that is off on at the level it or D2 sets, and the termination opens; D2 and D3
set a level; D4 turns the driver off, and the termination is as Table 6-2 has it for the state. In the safe state none acts. -/
def PinCh.edge (e : DrvEdge) (p : PinCh) : PinCh :=
  if p.safe then p
  else
    let q :=
      if e.off then { p with drv := false, term := e.dz || ldTerm p, dz := e.dz }
      else if e.on then { p with drv := true, lvl := e.lvl.getD (if p.drv then p.lvl else e.dflt), term := false, dz := false }
      else { p with lvl := e.lvl.getD p.lvl }
    { q with wave := p.wave ++ [⟨e.code, q.drv, q.lvl, q.term⟩] }

/-! ### Capture (R159) -/

/-- Whether a Tamong code lies within 2.4 ns, 614.4 codes, after the last timed crossing. -/
def deadAt (last : Option Nat) (c : Nat) : Bool :=
  match last with
  | none => false
  | some l => decide (l ≤ c) && decide (5 * (c - l) < 3072)

/-- The result of a capture window from C1 to C2 with its origin at Tamong code `org`, from the crossings of its cycle. -/
def capture (last : Option Nat) (org c1 c2 : Nat) (cs : List (Nat × Nat)) : CapRes :=
  let inw := cs.filter fun x => decide (c1 ≤ x.1) && decide (x.1 ≤ c2)
  if deadAt last (org + c2) then ⟨2, 0, false, 0⟩
  else match inw.filter fun x => !deadAt last (org + x.1) with
    | [] => ⟨1, 0, false, 0⟩
    | x :: l => ⟨0, x.2, !l.isEmpty, x.1⟩

/-! ### Records of one octet and cycle (R239 to R249) -/

def CycAt.rle (a : CycAt) : Bool := a.pol.testBit 0
def CycAt.coarse (a : CycAt) : Bool := a.pol.testBit 1
def CycAt.fold (a : CycAt) : Bool := a.pol.testBit 2
def CycAt.coal (a : CycAt) : Bool := a.pol.testBit 3

/-- JUDGED: pins in CL, CH or CM. -/
def judgedMask (rs : List PinRes) : Nat := maskOf ((rs.filter fun r => stCompares r.st).map fun r => r.pin % 8)

/-- The run and the group of an octet end at a condition, with records formed at `at_` (R249). -/
def closeRun (k : Nat) (at_ : Instant) (s : State) : State :=
  match (capAt s k).run with
  | none => s
  | some r => formAt k (runRec k r at_ false) r.first (r.first + r.count - 1) (modCap k (fun c => { c with run := none }) s)
def closeGrp (k : Nat) (at_ : Instant) (s : State) : State :=
  match (capAt s k).grp with
  | none => s
  | some g =>
    let s1 := modCap k (fun c => { c with grp := none }) s
    if 2 ≤ g.count then formAt k (grpRec k g at_ false) g.firstCycle g.lastCycle s1 else s1

/-- The latest compare strobe among results. -/
def lastStrobe (rs : List PinRes) : Nat := rs.foldl (fun m r => max m r.strobe) 0

/-- The instant at which the results of an octet's cycle are all known: its latest compare strobe. -/
def knownAt (a : CycAt) (rs : List PinRes) : Instant := a.korg + lastStrobe rs

/-- When a failing cycle's end of a run or group is formed: 50 ns after the cycle's origin, or when the failure is known where that is
later (R249; DEDUCED, log 71). -/
def endsAt (a : CycAt) (rs : List PinRes) : Instant := max (a.korg + 50 * cNs) (knownAt a rs)

/-- A cycle whose judged pins all passed (R243): it gives a record, or joins the run of its octet or opens one. -/
def passCycle (k : Nat) (a : CycAt) (rs : List PinRes) (s : State) : State :=
  let sp := rs.any (·.spare)
  let k50 := knownAt a rs + 50 * cNs
  let r1 : Run := ⟨a.jobNo, a.cyc, 1, judgedMask rs, a.org + ((rs.map (·.strobe)).headD 0), knownAt a rs, sp, a.rle⟩
  if a.rle then
    let r2 : Run := match (capAt s k).run with
      | some r => { r with count := r.count + 1, strobe := r1.strobe, spare := r.spare || sp }
      | none => r1
    if r2.count = 16777215 then
      formAt k (runRec k r2 k50 false) r2.first a.cyc (modCap k (fun c => { c with run := none }) s)
    else modCap k (fun c => { c with run := some r2 }) s
  else formAt k (runRec k r1 k50 false) a.cyc a.cyc s

/-- The fields of a FAIL record (Table 10-4). -/
def failKey (rs fs : List PinRes) (r : PinRes) : FailKey :=
  ⟨r.pin, r.st, r.hi, r.lo, r.nobs, judgedMask rs, fs.length⟩

/-- The FAIL record of a key, with TIME at `strobe`, formed 50 ns after `last`, the latest strobe it covers, and not before its FAILING is
known at `known`; its latency is measured from `last` (R23, R234; log 71). -/
def failRec (k : Nat) (a : CycAt) (spare : Bool) (strobe last : Nat) (known : Instant) (f : FailKey) : QRec :=
  ⟨mkRec 2 0 k (b2n (a.pol.testBit 8) * hNotify + b2n spare * hSpare + b2n a.coal * hCoal + b2n a.fold * hFold)
    a.jobNo (a.org + strobe)
    (a.cyc + 2 ^ 64 * f.pin + 2 ^ 72 * f.expect + 2 ^ 75 * b2n f.hi + 2 ^ 76 * b2n f.lo + 2 ^ 77 * b2n f.nobs +
     2 ^ 80 * f.judged + 2 ^ 88 * f.failing), max (a.korg + last + 50 * cNs) known, false, 0, some k, some (a.korg + last)⟩

/-- The FAIL records of a cycle: one per failing pin, or one for the octet with FOLD (R244). -/
def failRecs (k : Nat) (a : CycAt) (rs : List PinRes) : List (QRec × FailKey) :=
  let fs := rs.filter (·.fail)
  if a.fold then
    match fs with
    | [] => []
    | r :: _ => [(failRec k a (fs.any (·.spare)) r.strobe (lastStrobe fs) (knownAt a rs) (failKey rs fs r), failKey rs fs r)]
  else fs.map fun r => (failRec k a r.spare r.strobe r.strobe (knownAt a rs) (failKey rs fs r), failKey rs fs r)

/-- A cycle with failing or unobserved pins: the run ends, and the FAIL records are formed or the cycle joins an identical
group (R240, R244, R245). -/
def failCycle (k : Nat) (a : CycAt) (rs : List PinRes) (s : State) : State :=
  let s1 := closeRun k (endsAt a rs) s
  let fr := failRecs k a rs
  let fs := rs.filter (·.fail)
  let keys := fr.map (·.2)
  let put := fun (s : State) => fr.foldl (fun s f => formAt k f.1 a.cyc a.cyc s) s
  if a.coal then
    let g1 : Grp := ⟨a.jobNo, keys, 1, a.cyc, a.cyc, a.org + ((fs.map (·.strobe)).headD 0),
      a.korg + lastStrobe fs, fs.any (·.spare), a.fold, a.pol.testBit 8⟩
    match (capAt s1 k).grp with
    | some g =>
      if g.jobNo = a.jobNo ∧ g.keys = keys ∧ g.count < 0xFFFFFFFF then
        modCap k (fun c => { c with grp := some { g with
          count := g.count + 1, lastCycle := a.cyc, time := g1.time, strobe := g1.strobe, spare := g.spare || g1.spare } }) s1
      else put (modCap k (fun c => { c with grp := some g1 }) (closeGrp k (endsAt a rs) s1))
    | none => put (modCap k (fun c => { c with grp := some g1 }) s1)
  else put s1

/-- The EDGE record of a capture (Table 10-4; R246). -/
def edgeRec (k : Nat) (a : CycAt) (r : PinRes) (x : CapRes) : QRec :=
  let c := a.org + x.at_
  let co := a.coarse && x.res == 0
  ⟨mkRec 4 0 k (b2n (a.pol.testBit 9 && x.res == 0) * hNotify + b2n r.spare * hSpare + b2n co * hCoarse) a.jobNo
    (if x.res = 0 then (if co then c / 16 * 16 else c) else a.org + r.strobe)
    (a.cyc + 2 ^ 64 * r.pin + 2 ^ 70 * x.res + 2 ^ 72 * b2n x.more + 2 ^ 73 * x.dir),
    a.korg + r.strobe + 50 * cNs, false, 0, some k, some (a.korg + r.strobe)⟩

/-- Octet `k` comes to a cycle that judges the pins of `m`, `n` of them: a run of other pins, of another job or of cycles that do not
join on ends, and so does one before a cycle without a judged pin (R243); the end is known at the cycle's origin (R249). -/
def openCycle (k : Nat) (a : CycAt) (m n : Nat) (s : State) : State :=
  let s1 := match (capAt s k).run with
    | some r => if r.judged = m ∧ r.jobNo = a.jobNo ∧ r.first + r.count = a.cyc then s else closeRun k (a.korg + 50 * cNs) s
    | none => s
  modCap k (fun c => { c with cyc := if n = 0 then none else some ⟨a, n, []⟩ }) s1

/-- A result in its place among those of its octet, by pin. -/
def resPut (r : PinRes) : List PinRes → List PinRes
  | [] => [r]
  | x :: l => if r.pin < x.pin then r :: x :: l else x :: resPut r l

/-- A compare result reaches the capture engine of its octet; the last of the cycle decides whether the cycle passed. -/
def octResult (k : Nat) (r : PinRes) (s : State) : State :=
  match (capAt s k).cyc with
  | none => s
  | some c =>
    let rs := resPut r c.rs
    if 2 ≤ c.left then modCap k (fun x => { x with cyc := some { c with left := c.left - 1, rs := rs } }) s
    else
      let s1 := modCap k (fun x => { x with cyc := none }) s
      if rs.any (·.fail) then failCycle k c.a rs s1 else passCycle k c.a rs s1

/-! ### Strobes (R158, R159; 07 R181; 10 R233) -/

/-- Whether the spare lane serves a pin. -/
def spareServes (s : State) (n : Nat) : Bool :=
  match (octAt s (n / 8)).served with | some i => i.val == n % 8 | none => false

/-- A pin's compare or capture as C1 comes: strobe mode judges here, and a window opens (R181). -/
def PinWin.open1 (p : PinCh) (w : PinWin) : PinWin :=
  { w with
    opened := true, nobs := p.safe
    fail := if stCompares w.st && !cmpPass w.st p.hi p.lo then some (p.hi, p.lo) else none }

/-- The compare result a window holds, at its compare strobe: not observed where the pin was safe at an instant that counts (R157). -/
def PinWin.result (n strobe : Nat) (spare : Bool) (w : PinWin) : PinRes :=
  { pin := n, st := w.st, strobe := strobe, fail := w.nobs || w.fail.isSome, nobs := w.nobs
    hi := !w.nobs && (match w.fail with | some x => x.1 | none => false)
    lo := !w.nobs && (match w.fail with | some x => x.2 | none => false)
    cap := none, spare := spare }

/-- C1 of a pin. -/
def pinC1 (n : Nat) (s : State) : State :=
  let p := pinAt s n
  match p.win with
  | none => s
  | some w =>
    let w1 := w.open1 p
    if stCompares w.st && w.strobe then
      octResult (n / 8) (w1.result n w.c1 (spareServes s n)) (modPin n (fun p => { p with win := none }) s)
    else modPin n (fun p => { p with win := some w1 }) s

/-- The capture result of a window at C2, and the pin after it (R159). -/
def PinWin.capRes (p : PinCh) (w : PinWin) : CapRes :=
  if w.nobs || p.safe then ⟨3, 0, false, 0⟩ else capture p.lastTimed w.a.org w.c1 w.c2 w.cross

/-- C2 of a pin: a window compare gives its result, and a capture its EDGE record (R181, R233). -/
def pinC2 (n : Nat) (s : State) : State :=
  let p := pinAt s n
  match p.win with
  | none => s
  | some w =>
    if stCompares w.st then
      octResult (n / 8) ({ w with nobs := w.nobs || p.safe }.result n w.c2 (spareServes s n)) (modPin n (fun p => { p with win := none }) s)
    else
      let x := w.capRes p
      let r : PinRes := ⟨n, w.st, w.c2, false, false, false, false, some x, spareServes s n⟩
      formAt (n / 8) (edgeRec (n / 8) w.a r x) w.a.cyc w.a.cyc (modPin n (fun p => { p with
        win := none, lastTimed := if x.res = 0 then some (w.a.org + x.at_) else p.lastTimed }) s)

/-! ### Clipping (R160, Table 6-9) -/

/-- The DACs that are clipped: at a loaded level, or (`wave`) at a wave sample, while the generator runs (`run`). -/
def clipMask (wcode : Nat) (run wave : Bool) (p : PinCh) : Nat :=
  maskOf ((List.range 5).filter fun i => dacClips wcode p i && (((ldWaveSel p).testBit i && run) == wave))

/-- A pin's clip bits after a load or a wave sample: those of wave samples stay until RUN next starts (`restart`). -/
def PinCh.clips (wcode : Nat) (run restart : Bool) (p : PinCh) : PinCh :=
  { p with
    clip := BitVec.ofNat 5 (clipMask wcode run false p)
    waveClip := BitVec.ofNat 5 (clipMask wcode run true p ||| (if restart then 0 else p.waveClip.toNat)) }

/-- CLIP of PIN_STATUS. -/
def PinCh.clipBits (p : PinCh) : BitVec 5 := p.clip ||| p.waveClip

/-! ### Wave generator (R166, R167) -/

/-- Entry `i` of octet `k`'s wave table (R168). -/
def waveEntry (o : OctCh) (i : Nat) : Int :=
  let w := sget waveReset o.wave (i / 2)
  sgn 16 (fld w (16 * (i % 2)) 16)

/-- The code for a table entry before its limit: OFFSET + floor(AMP T / 32 768). -/
def waveRaw (o : OctCh) : Int :=
  (fld o.ldLvl 0 16 : Int) + (fld o.ldLvl 16 16 : Int) * waveEntry o (fld o.acc 22 10) / 32768

/-- The generator's output for its accumulator, limited to 0 to 0xFFFF. -/
def waveOut (o : OctCh) : OctCh :=
  if o.ldRun then
    { o with code := (max 0 (min (waveRaw o) 65535)).toNat
             waveSat := o.waveSat || decide (waveRaw o < 0) || decide (65535 < waveRaw o) }
  else { o with code := fld o.ldLvl 0 16 }

/-! ### Load strobe (R162 to R165) -/

/-- A register as it stood at the start of the cycle (R163). -/
def atStart (now : Instant) (o : OctCh) (key : Nat) (cur : Word) : Word :=
  if sameCycle o.freshAt now then
    ((o.fresh.find? fun x => x.1 == key).map (·.2)).getD cur
  else cur

/-- Notes the value a register has at the start of the cycle before its first write in it. -/
def noteFresh (now : Instant) (key : Nat) (old : Word) (o : OctCh) : OctCh :=
  let l := if sameCycle o.freshAt now then o.fresh else []
  { o with fresh := if l.any fun x => x.1 == key then l else (key, old) :: l, freshAt := now, pending := true }

/-- Loaded values of pin `i` of the octet. -/
def loadPin (now : Instant) (o : OctCh) (i : Nat) (p : PinCh) : PinCh :=
  { p with ld := ⟨atStart now o (4 * i) p.cfg, atStart now o (4 * i + 1) p.lvlDrv, atStart now o (4 * i + 2) p.lvlCmp,
      atStart now o (4 * i + 3) p.lvlTt⟩ }

/-- Loaded wave settings: an FTW above 0x1000_0000 is loaded as that; the phase starts where RUN goes from 0 to 1, or where
`dayEntry` holds (R167). -/
def loadWave (now : Instant) (dayEntry : Bool) (o : OctCh) : OctCh :=
  let ctl := atStart now o 34 o.waveCtrl
  let ftw := atStart now o 32 o.waveFtw
  let o1 := { o with
    ldFtw := if 0x10000000 < ftw.toNat then 0x10000000 else ftw
    ldLvl := atStart now o 33 o.waveLvl
    ldRun := bit ctl 31
    ldPhase := fld ctl 0 10 }
  waveOut (if bit ctl 31 ∧ (!o.ldRun ∨ dayEntry) then
    { o1 with acc := word (2 ^ 22 * o1.ldPhase), waveSat := false, waveAt := now } else o1)

/-- LEVEL_CLIP events: one for each pin of octet `k` of which a CLIP bit became 1 (Table 17-1). -/
def clipEvents (k : Nat) (before : List (BitVec 5)) (s : State) : State :=
  (List.range 8).foldl (fun s i =>
    let c := (pinAt s (8 * k + i)).clipBits
    if c &&& ~~~(before.getD i 0) = 0 then s else fault ⟨21, k, some i⟩ c.toNat [] s) s

/-- CLIP bits of the octet's pins. -/
def clipsOf (s : State) (k : Nat) : List (BitVec 5) := (List.range 8).map fun i => (pinAt s (8 * k + i)).clipBits

/-- The octet's written values are transferred to the pins, the converter selection and the generator in one cycle. -/
def loadOct (k : Nat) (dayEntry : Bool) (s : State) : State :=
  let o := octAt s k
  let o1 := loadWave s.now dayEntry o
  let restart := o1.ldRun && (!o.ldRun || dayEntry)
  let before := clipsOf s k
  let load := fun (n : Nat) (p : PinCh) =>
    let p1 := (loadPin s.now o (n % 8) p).clips o1.code o1.ldRun restart
    let p2 := { p1 with term := if p.drv || p.safe then p.term else p.dz || ldTerm p1 }
    cmpAt s.now o1.code p2.inp p2
  let s1 := mapPins (2 ^ k) load s
  clipEvents k before (modOct k (fun _ => { o1 with pending := sameCycle o.freshAt s.now && !o.fresh.isEmpty }) s1)

/-- A strobe of octet `k` from a source (Table 6-11 LAST_SRC): it fires only for an active octet whose pin channels are powered;
sources of one cycle give one strobe with LAST_SRC 5 (R163). -/
def strobe (k src : Nat) (s : State) : State :=
  let o := octAt s k
  if octOn s k ∧ pinsOn s then
    if o.lastSrc ≠ 0 ∧ sameCycle o.lastStrobe s.now then
      modOct k (fun o => { o with lastSrc := if o.lastSrc = src then src else 5 }) s
    else
      loadOct k false (modOct k (fun o => { o with
        strobes := (o.strobes + 1) % 65536, lastSrc := src, lastStrobe := s.now }) s)
  else s

/-- The strobe of Day entry (R165): it also restarts the generator where RUN is 1 (R167). -/
def dayStrobe (k : Nat) (s : State) : State :=
  if octOn s k then
    loadOct k true (modOct k (fun o => { o with
      strobes := (o.strobes + 1) % 65536, lastSrc := 4, lastStrobe := s.now }) s)
  else s

/-- A register or timer strobe, deferred while the octet is in a Twilight window (R302). -/
def strobeOrDefer (k src : Nat) (s : State) : State :=
  if (octAt s k).win.isSome then
    modOct k (fun o => if src = 1 then { o with defReg := true } else { o with defTmr := true }) s
  else strobe k src s

/-- The strobe deferred by a window that has ended fires once, LAST_SRC 5 when both sources asked (R302). -/
def fireDeferred (k : Nat) (s : State) : State :=
  let o := octAt s k
  if (o.defReg || o.defTmr) ∧ o.win.isNone then
    strobe k (if o.defReg && o.defTmr then 5 else if o.defReg then 1 else 3)
      (modOct k (fun o => { o with defReg := false, defTmr := false }) s)
  else s

/-! ### The passing of time with what falls due (00 R428; log 69) -/

/-- One happening of a cycle being played takes place. -/
def runAct (a : Act) (s : State) : State :=
  match a.kind with
  | .input n u => inputStep n u s
  | .edge n e => modPin n (fun p => p.edge e) s
  | .c1 n => pinC1 n s
  | .c2 n => pinC2 n s
  | .form k q lo hi => capIn k q lo hi s
  | .strobe k => fireDeferred k s

/-- The happenings before instant `t`, each at its own instant, to at most `f` of them. -/
def runActs : Nat → Instant → State → State
  | 0, _, s => s
  | f + 1, t, s =>
    match s.seqr.acts with
    | [] => s
    | a :: l => if a.at_ < t then runActs f t (runAct a (pass a.at_ { s with seqr := { s.seqr with acts := l } })) else s

/-- The unit at instant `t`, after everything that cycles being played had due before it, in order. What falls due at `t` itself comes
after the happenings of that instant: a result whose strobe falls exactly at a time-state change is judged under the new state.
DESIGN CHOICE (log 69): the path of a happening at a pin, a connector or in the time base has latency 0, so one instant
serves as its registration and as its exact instant (R428). No happening queues more than eleven others, so `f` is enough. -/
def advance (t : Instant) (s : State) : State := pass t (runActs (16 * s.seqr.acts.length) (max s.now t) s)

end Sys2Proof.Machine
end

