-- ==== Sys2Proof/Machine/Timing.lean ====
section
/-!
DEFINITION. Timing.lean: timing-set memory, the edge-ordering rules and their order (07 R177, R183 to R187), and the
commands TIMING_SET_WRITE, TSET_PROBE_WRITE and TSET_PROBE_DONE.
-/

namespace Sys2Proof.Machine

/-- Word `w` of the entry of pin `p` in set `st` (R177). -/
def tsetWord (s : State) (st p w : Nat) : Nat := (rdWord s.seg.tset (512 * st + 8 * p + w)).toNat

/-- A timing entry (Table 7-3). -/
structure TEntry where
  d1 : Nat
  d2 : Nat
  d3 : Nat
  d4 : Nat
  c1 : Nat
  c2 : Nat
  mode : Nat
  w7 : Nat
  deriving DecidableEq, Repr

def tsetEntry (s : State) (st p : Nat) : TEntry :=
  ⟨tsetWord s st p 0, tsetWord s st p 1, tsetWord s st p 2, tsetWord s st p 3, tsetWord s st p 4, tsetWord s st p 5,
   tsetWord s st p 6, tsetWord s st p 7⟩

/-- FMT and CMODE (Table 7-3). -/
def TEntry.fmt (e : TEntry) : Nat := e.mode % 8
def TEntry.strobe (e : TEntry) : Bool := e.mode.testBit 3

/-- Whether the formatter uses D1 and D2, and D3 (Table 7-4). -/
def TEntry.usesD12 (e : TEntry) : Bool := decide (e.fmt ≤ 5)
def TEntry.usesD3 (e : TEntry) : Bool := decide (2 ≤ e.fmt) && decide (e.fmt ≤ 5)

/-- The edges a rule judges with their codes 0 to 5 (R183). -/
def TEntry.edges (e : TEntry) : List (Nat × Nat) :=
  (if e.usesD12 then [(0, e.d1), (1, e.d2)] else []) ++ (if e.usesD3 then [(2, e.d3)] else []) ++
  [(3, e.d4), (4, e.c1), (5, e.c2)]

/-- The drive transitions of a cycle in the formatter's order (R183). -/
def TEntry.trans (e : TEntry) : List (Nat × Nat) :=
  match e.fmt with
  | 0 => [(1, e.d2)]
  | 1 => [(1, e.d2)]
  | 2 => [(0, e.d1), (1, e.d2), (2, e.d3)]
  | 3 => [(0, e.d1), (1, e.d2), (2, e.d3)]
  | 4 => [(0, e.d1), (1, e.d2), (2, e.d3)]
  | 5 => [(1, e.d2), (2, e.d3)]
  | _ => []

/-- The first transition that follows another by less than 80 codes (DRIVE_SEP). -/
def sepBroken : List (Nat × Nat) → Option Nat
  | a :: b :: l => if b.2 < a.2 + 80 then some b.1 else sepBroken (b :: l)
  | _ => none

/-- WRAP_SEP from the last transition of `a` at period `pa` to the first of `b`: the edge of `b` where it is broken. -/
def wrapSep (a b : TEntry) (pa : Nat) : Option Nat :=
  match a.trans.getLast?, b.trans.head? with
  | some x, some y => if (pa : Int) - x.2 + y.2 < 80 then some y.1 else none
  | _, _ => none

/-- The rules of Table 7-6 in code order with the edge each reports (R185); none where all are met. -/
def entryCheck (e : TEntry) (p : Nat) : Option (Nat × Nat) :=
  if e.fmt = 7 ∨ 16 ≤ e.mode ∨ e.w7 ≠ 0 then some (1, 6)
  else match e.edges.find? fun x => decide (p ≤ x.2) with
  | some x => some (2, x.1)
  | none =>
    if e.usesD12 ∧ e.d2 < e.d1 then some (3, 1)
    else if e.usesD3 ∧ e.d3 < e.d2 then some (3, 2)
    else match sepBroken e.trans with
    | some x => some (4, x)
    | none => match wrapSep e e p with
      | some x => some (5, x)
      | none =>
        if e.c2 < e.c1 + 64 then some (6, 5)
        else if e.c1 < e.d4 then some (7, 4)
        else if e.fmt ≠ 6 ∧ e.d4 + p < e.c2 + 64 then some (8, 3)
        else none

/-- A failure: rule, edge, pin and set. -/
structure TFail where
  rule : Nat
  edge : Nat
  pin : Nat
  set : Nat
  deriving DecidableEq, Repr

/-- Pins of the octets of a mask, ascending. -/
def pinsOf (mask : Nat) : List Nat := (List.range 64).filter fun n => mask.testBit (n / 8)

/-- The first failure among the pins of a set at a period, each with itself. -/
def setCheck (s : State) (st p : Nat) (pins : List Nat) : Option TFail :=
  pins.findSome? fun n => (entryCheck (tsetEntry s st n) p).map fun x => ⟨x.1, x.2, n, st⟩

/-- The first WRAP_SEP failure of a join between two segments (set and period each). -/
def joinCheck (s : State) (a b : Nat × Nat) (pins : List Nat) : Option TFail :=
  pins.findSome? fun n =>
    (wrapSep (tsetEntry s a.1 n) (tsetEntry s b.1 n) a.2).map fun x => ⟨5, x, n, b.1⟩

/-- A job's positions in order: the join from the one before, then the position with itself (R185). -/
def listCheck (s : State) (pins : List Nat) : Option (Nat × Nat) → List (Nat × Nat) → Option TFail
  | _, [] => none
  | prev, b :: l =>
    match (match prev with | some a => joinCheck s a b pins | none => none) with
    | some f => some f
    | none => match setCheck s b.1 b.2 pins with
      | some f => some f
      | none => listCheck s pins (some b) l

/-- The edge-order check of a job (R184). -/
def jobEdgeCheck (s : State) (d : JobDesc) : Option TFail :=
  listCheck s (pinsOf d.octMask) none (d.list.map fun e => (segTset s e, segPer s e))

/-- What a completed check writes in G_TSET_CHECK (R185). -/
def checkReport (probe : Bool) (slot : Nat) : Option TFail → TsetChk
  | none => { fail := false, probe := probe, rule := 0, edge := 0, slot := slot, pin := 0, set := 0 }
  | some f => { fail := true, probe := probe, rule := f.rule, edge := f.edge, slot := slot, pin := f.pin, set := f.set }

/-- Timing sets in use (R186): those the segments of jobs in CHECKING, ARMED or RUNNING select. -/
def setsInUse (s : State) : Nat :=
  (slotsIn s JobSt.active).foldl (fun m i =>
    (slotAt s i).desc.list.foldl (fun m e => m ||| 2 ^ segTset s e) m) 0

/-- A write of the present cycle is noted with what it replaced: the start check of a job that begins in the same cycle takes it back. -/
def noteUndo (tset : Bool) (ix : Nat) (old : Word) (stat : Nat × Nat) (s : State) : State :=
  let l := if sameCycle s.seg.undoAt s.now then s.seg.undo else []
  { s with seg := { s.seg with undo := ⟨tset, ix, old, stat⟩ :: l, undoAt := s.now } }

/-- A write of a timing-set word (R186): refused while the set is in use. -/
def tsetWrite (ix : Nat) (val : Word) (s : State) : State × BusRes :=
  if 16384 ≤ ix then (s, .address)
  else if (setsInUse s).testBit (ix / 512) then (bump rgTset 16 16 1 s, .access)
  else
    let s1 := noteUndo true ix (rdWord s.seg.tset ix) (0, 0) s
    ({ s1 with seg := { s1.seg with tset := wrWord s1.seg.tset ix val } }, .done)

/-- A write of G_TSET_PROBE (R187): starts a probe unless one runs. -/
def probeWrite (val : Word) (s : State) : State × BusRes :=
  match s.seg.probe with
  | some _ => (s, .done)
  | none => ({ s with seg := { s.seg with
      probe := some ⟨fld val 0 5, fld val 8 8, max 320 s.r.tsetProbePer.toNat, s.now⟩ } }, .done)

/-- A register-bus write that a row of its own stands for: its effect and the answer its port is given. A write from a port that
does not run reaches no register (18 R425). -/
def portWrite (port : Port) (addr : Nat) (val : Word) (f : State → State × BusRes) (s : State) : State :=
  if portUp s port then
    let r := f (assureLapse s)
    answer port addr true val r.2 r.1
  else s

/-- TIMING_SET_WRITE (R186). -/
def execTimingSetWrite (t : Instant) (port : Port) (ix : Nat) (val : Word) (s : State) :
    Host.Outcome State Fault Refusal :=
  .next (portWrite port (0x100000 + 4 * ix) val (tsetWrite ix val) (advance t s))

/-- TSET_PROBE_WRITE (R187). -/
def execTsetProbeWrite (t : Instant) (port : Port) (val : Word) (s : State) : Host.Outcome State Fault Refusal :=
  .next (portWrite port 0x3D0 val (probeWrite val) (advance t s))

/-- A probe completes (R187): it judges the pins of its octets, or all 64, and reports with PROBE 1. -/
def probeDone (s : State) : State :=
  match s.seg.probe with
  | none => s
  | some p =>
    { s with seg := { s.seg with
        probe := none
        tchk := checkReport true 0 (setCheck s p.set p.per (pinsOf (if p.octs = 0 then 0xFF else p.octs))) } }

/-- TSET_PROBE_DONE (R187). -/
def execTsetProbeDone (t : Instant) (s : State) : Host.Outcome State Fault Refusal :=
  .next (probeDone (advance t s))

end Sys2Proof.Machine
end

