-- ==== Sys2Proof/Machine/Segments.lean ====
section
/-!
DEFINITION. Segments.lean: the segment table, its load checks, the vector store and underrun holds (08 R192 to R199, R206),
and the commands SEGMENT_ENTRY_WRITE, SEG_LOAD_WRITE, SEG_LOAD_DONE and UR_RELEASE.
-/

namespace Sys2Proof.Machine

/-- Vectors the store holds (R197). -/
def vecCount : Nat := 89478485

/-- STATE and CODE of an entry (Table 8-2 word 7). -/
def segStat (s : State) (e : Nat) : Nat × Nat := sget (fun _ => (0, 0)) s.seg.stat e

/-- Entries of the table as states and codes after one is set. -/
def setStat (e : Nat) (v : Nat × Nat) (s : State) : State :=
  { s with seg := { s.seg with stat := sset (fun _ => (0, 0)) s.seg.stat e v } }

/-- The load check of an entry (Table 8-4): the code of the first rule broken, 0 where none is. -/
def loadCheck (s : State) (e : Nat) : Nat :=
  let ctl := segWord s e 3
  let stream := segStream s e
  let fieldBad := fld (segWord s e 0) 27 5 ≠ 0 ∨ fld (segWord s e 1) 22 10 ≠ 0 ∨ fld ctl 27 5 ≠ 0 ∨ fld ctl 21 3 ≠ 0 ∨
    fld (segWord s e 4) 9 23 ≠ 0 ∨ fld (segWord s e 5) 3 29 ≠ 0 ∨ segWord s e 6 ≠ 0 ∨ 5 ≤ fld (segWord s e 5) 0 3 ∨
    (!stream ∧ segRing s e ≠ 0) ∨ (stream ∧ (segStart s e ≠ 0 ∨ segLoop s e ≠ 0))
  if fieldBad then 1
  else if segLenG s e < 4 then 2
  else if vecCount < (if stream then 0 else segStart s e) + 64 * segLenG s e then 3
  else if segPer s e < 320 then 4
  else 0

/-- Whether an entry is in use: named by a job in CHECKING, ARMED or RUNNING (R198). -/
def entryInUse (s : State) (e : Nat) : Bool :=
  (slotsIn s JobSt.active).any fun i => (slotAt s i).desc.list.contains e

/-- Codes an entry's check takes in a load: 20 ns (R196). -/
def segCheckTime : Nat := 20 * cNs

/-- A write that reaches an entry at or after the cycle of its own check in a running load is noted with the code that check
found (R199). -/
def noteDirty (e : Nat) (s : State) : State :=
  match s.seg.load with
  | none => s
  | some l =>
    if l.first ≤ e ∧ e < l.first + l.count ∧ cycleOf (l.begun + (e - l.first) * segCheckTime) ≤ cycleOf s.now ∧
        !(l.dirty.any fun d => d.1 == e) then
      { s with seg := { s.seg with load := some { l with dirty := (e, loadCheck s e) :: l.dirty } } }
    else s

/-- A write of word `ix` of the segment table (R195, R198): word 7 takes no write, an entry in use refuses it, and any other
write leaves the entry unloaded. -/
def segWrite (ix : Nat) (val : Word) (s : State) : State × BusRes :=
  let e := ix / 8
  if 32768 ≤ ix then (s, .address)
  else if ix % 8 = 7 then (s, .done)
  else if entryInUse s e then (bump rgSeg 0 16 1 s, .access)
  else
    let s1 := noteUndo false ix (rdWord s.seg.mem ix) (segStat s e) (noteDirty e s)
    (setStat e (0, 0) { s1 with seg := { s1.seg with mem := wrWord s1.seg.mem ix val } }, .done)

/-- The answer given to a write that is refused after all. -/
def refuseBus (addr : Nat) (s : State) : State :=
  match s.bus with
  | some b => if b.write ∧ b.addr = addr ∧ b.res = .done then { s with bus := some { b with res := .access } } else s
  | none => s

/-- A write of the present cycle is refused after all: what it replaced is back, and the refusal is counted (07 R186, R198). -/
def takeBack (u : SegUndo) (s : State) : State :=
  if u.tset then
    refuseBus (0x100000 + 4 * u.ix) (bump rgTset 16 16 1 { s with seg := { s.seg with tset := wrWord s.seg.tset u.ix u.old } })
  else
    let ld := s.seg.load.map fun l => { l with dirty := l.dirty.filter fun d => d.1 != u.ix / 8 }
    refuseBus (0x200000 + 4 * u.ix) (bump rgSeg 0 16 1 (setStat (u.ix / 8) u.stat
      { s with seg := { s.seg with mem := wrWord s.seg.mem u.ix u.old, load := ld } }))

/-- The writes of the present cycle to the timing sets of a mask and to the entries listed, the latest first, are refused. -/
def takeBackFor (sets : Nat) (es : List Nat) (s : State) : State :=
  if sameCycle s.seg.undoAt s.now then
    let hit := fun (u : SegUndo) => if u.tset then sets.testBit (u.ix / 512) else es.contains (u.ix / 8)
    (s.seg.undo.filter hit).foldl (fun s u => takeBack u s)
      { s with seg := { s.seg with undo := s.seg.undo.filter fun u => !hit u } }
  else s

/-- Word `ix` of the segment table as read: word 7 is STATUS. -/
def segRead (s : State) (ix : Nat) : Word :=
  if ix % 8 = 7 then word ((segStat s (ix / 8)).1 + 16 * (segStat s (ix / 8)).2) else rdWord s.seg.mem ix

/-- A write of G_SEG_LOAD (R196): refused while a load runs. -/
def segLoadWrite (val : Word) (s : State) : State × BusRes :=
  match s.seg.load with
  | some _ => (s, .access)
  | none =>
    let first := fld val 0 12
    let cnt := fld val 16 12 + 1
    ({ s with seg := { s.seg with
        load := some ⟨first, min cnt (4096 - first), decide (4096 < first + cnt), s.now, []⟩ } }, .done)

/-- Entry `e` as the running load leaves it: unloaded where a write came at or after its check, else loaded or refused. -/
def loadEntry (dirty : List (Nat × Nat)) (e : Nat) (s : State) : State :=
  if dirty.any fun d => d.1 == e then s
  else setStat e (if loadCheck s e = 0 then (1, 0) else (2, loadCheck s e)) s

/-- The codes the checks of a load found, by entry. -/
def loadCodes (s : State) (l : SegLoad) : List (Nat × Nat) :=
  (List.range l.count).map fun j =>
    let e := l.first + j
    match l.dirty.find? fun d => d.1 == e with
    | some d => (e, d.2)
    | none => (e, loadCheck s e)

/-- A load completes once its entries' checks have run (R196). -/
def segLoadDone (s : State) : State :=
  match s.seg.load with
  | none => s
  | some l =>
    if l.begun + l.count * segCheckTime ≤ s.now then
      let bad := (loadCodes s l).filter fun x => x.2 != 0
      let s1 := (List.range l.count).foldl (fun s j => loadEntry l.dirty (l.first + j) s) s
      { s1 with seg := { s1.seg with
          load := none
          chk := { trunc := l.trunc, fail := !bad.isEmpty, code := (bad.headD (0, 0)).2, entry := (bad.headD (0, 0)).1,
                   refused := bad.length } } }
    else s

/-! ### Vector store (R192, R193) -/

/-- Bytes of vector store a segment entry plays from, as first and past-last byte; none for a stream segment. -/
def segBytes (s : State) (e : Nat) : Option (Nat × Nat) :=
  if segStream s e then none
  else some (24 * segStart s e, 24 * (segStart s e + 64 * segLenG s e))

/-- Whether bytes `a` to `b - 1` overlap the vectors of a segment that a running job names (R193): a job whose entries are in
use (R198). -/
def vstoreBusy (s : State) (a b : Nat) : Bool :=
  (slotsIn s JobSt.active).any fun i => (slotAt s i).desc.list.any fun e =>
    match segBytes s e with
    | some r => decide (a < r.2) && decide (r.1 < b)
    | none => false

/-- Bytes of the vector-store region. -/
def vstoreSize : Nat := 2 ^ 31

/-- A vector-store write (R193): refused whole beyond the region, or where it overlaps a running job's vectors. -/
def vstoreWrite (a : Nat) (bs : List Byte) (s : State) : State × BusRes :=
  if vstoreSize < a + bs.length then (s, .address)
  else if bs ≠ [] ∧ vstoreBusy s a (a + bs.length) then (bump rgSeg 0 16 1 s, .access)
  else ({ s with seg := { s.seg with vstore := wrBytes s.seg.vstore a bs } }, .done)

/-- Vector `v` of the store (R189, R192). -/
def vectorAt (s : State) (v : Nat) : Vec192 := BitVec.ofNat 192 (leNat (rdBytes s.seg.vstore (24 * v) 24))

/-! ### Underrun holds (R206) -/

/-- Every pin held under modes 1 to 4 returns to idle. -/
def urReleaseAll (s : State) : State :=
  { s with pins := vmap s.pins fun _ p => if p.hold.isSome then p.toIdle else p }

/-- Octets of which a pin holds an underrun state (UR_OCT). -/
def urOct (s : State) : Nat :=
  maskOf ((List.range 8).filter fun k => (List.range 8).any fun i => (pinAt s (8 * k + i)).hold.isSome)

/-- A write of G_SEG_CTRL: CACHE_EN is stored, and 1 in UR_RELEASE releases held pins (Table 8-10). -/
def segCtrlWrite (val : Word) (s : State) : State × BusRes :=
  let s1 := { s with r := { s.r with segCtrl := val &&& 0x100 } }
  (if bit val 0 then urReleaseAll s1 else s1, .done)

/-! ### Commands -/

/-- SEGMENT_ENTRY_WRITE (R195). -/
def execSegmentEntryWrite (t : Instant) (port : Port) (ix : Nat) (val : Word) (s : State) :
    Host.Outcome State Fault Refusal :=
  .next (portWrite port (0x200000 + 4 * ix) val (segWrite ix val) (advance t s))

/-- SEG_LOAD_WRITE (R196). -/
def execSegLoadWrite (t : Instant) (port : Port) (val : Word) (s : State) : Host.Outcome State Fault Refusal :=
  .next (portWrite port 0x3A0 val (segLoadWrite val) (advance t s))

/-- SEG_LOAD_DONE (R196). -/
def execSegLoadDone (t : Instant) (s : State) : Host.Outcome State Fault Refusal :=
  .next (segLoadDone (advance t s))

/-- UR_RELEASE (R206). -/
def execUrRelease (t : Instant) (port : Port) (val : Word) (s : State) : Host.Outcome State Fault Refusal :=
  .next (portWrite port 0x3A8 val (segCtrlWrite val) (advance t s))

end Sys2Proof.Machine
end

