-- ==== Sys2Proof/Machine/Pins.lean ====
section
/-!
DEFINITION. Pins.lean: the registers of pins and octets, the load timer, the wave table and the driver trip (06 R154 to R168), and the commands
OCT_LOAD_WRITE, LOAD_TIMER_EXPIRY, WAVE_TICK, WAVE_TABLE_WRITE, DRIVER_OVERCURRENT and SAFE_RELEASE_WRITE.
-/

namespace Sys2Proof.Machine

/-! ### Registers of a pin and an octet -/

/-- Writable bits of PIN_CFG (Table 6-7). -/
def pinCfgMask : Word := 0x001F3373

/-- A write of register `r` (0 PIN_CFG, 1 drive, 2 compare, 3 VTT) of pin `n` changes only the register (R162). -/
def pinRegWrite (n r : Nat) (val : Word) (s : State) : State :=
  let p := pinAt s n
  let old := match r with | 0 => p.cfg | 1 => p.lvlDrv | 2 => p.lvlCmp | _ => p.lvlTt
  let s1 := modPin n (fun p => match r with
    | 0 => { p with cfg := val &&& pinCfgMask }
    | 1 => { p with lvlDrv := val }
    | 2 => { p with lvlCmp := val }
    | _ => { p with lvlTt := val &&& 0xFFFF }) s
  modOct (n / 8) (noteFresh s.now (4 * (n % 8) + r) old) s1

/-- A write of OCT_WAVE_FTW, OCT_WAVE_LVL or OCT_WAVE_CTRL (R162). -/
def waveRegWrite (k r : Nat) (val : Word) (s : State) : State :=
  let o := octAt s k
  let old := match r with | 0 => o.waveFtw | 1 => o.waveLvl | _ => o.waveCtrl
  modOct k (fun o => noteFresh s.now (32 + r) old (match r with
    | 0 => { o with waveFtw := val }
    | 1 => { o with waveLvl := val }
    | _ => { o with waveCtrl := val &&& 0x800003FF })) s

/-- A write of OCT_LOAD_CTRL (R163, Table 6-10). -/
def loadCtrlWrite (k : Nat) (val : Word) (s : State) : State × BusRes :=
  let s1 := noteRange (0x1000 + 0x40 * k) 0 (subsOct 0 (val &&& 0x03FFFFFF))
    (modOct k (fun o => { o with loadCtrl := val &&& 0x03FFFFFF }) s)
  (if bit val 31 then strobeOrDefer k 1 s1 else s1, .done)

/-- A write of PIN_STATUS (R156, R8): 1 in SAFE returns the pin of an active octet (R165) to idle in Day, unless it was made safe in this
cycle, its octet is in a window, or the octet is stopped (17 R400); 1 in OVC clears it unless set in this cycle. -/
def pinStatusWrite (n : Nat) (val : Word) (s : State) : State × BusRes :=
  let p := pinAt s n
  let rel := bit val 15 && inDay s && octOn s (n / 8) && p.safe && !sameCycle p.safeAt s.now && (octAt s (n / 8)).win.isNone &&
    !(stoppedMask s).testBit (n / 8)
  let clr := bit val 14 && !(p.ovc && sameCycle p.ovcAt s.now)
  (modPin n (fun p =>
    let p1 := if clr then { p with ovc := false } else p
    if rel then p1.toIdle else p1) s, .done)

/-- PIN_STATUS as read (Table 6-9). -/
def pinStatus (s : State) (n : Nat) : Word :=
  let p := pinAt s n
  let o := octAt s (n / 8)
  let served := match o.served with | some i => i.val == n % 8 | none => false
  word (2 ^ 16 * b2n served + 2 ^ 15 * b2n (p.safe && pinsOn s) + 2 ^ 14 * b2n p.ovc + 2 ^ 13 * b2n p.drv +
    2 ^ 12 * b2n p.term + 2 ^ 9 * b2n (decide (dacLevel o.code p 3 < dacLevel o.code p 4)) +
    2 ^ 8 * b2n (decide (dacLevel o.code p 0 < dacLevel o.code p 1)) + 2 ^ 7 * b2n p.hi + 2 ^ 6 * b2n p.lo + p.clipBits.toNat)

/-- A write of word `ix` of the wave tables (R168): refused while RUN of its octet is loaded as 1. -/
def waveTabWrite (ix : Nat) (val : Word) (s : State) : State × BusRes :=
  if 4096 ≤ ix then (s, .address)
  else if (octAt s (ix / 512)).ldRun then (s, .access)
  else (modOct (ix / 512) (fun o => { o with wave := sset waveReset o.wave (ix % 512) val }) s, .done)

/-! ### Happenings -/

/-- A driver trip (R157): the pin goes safe, OVC is set, an event of PIN_OVC is counted. Only a pin that drives trips. -/
def overcurrent (n peakMa : Nat) (s : State) : State :=
  if (pinAt s n).drv ∧ pinsOn s then
    fault ⟨16, n / 8, some (n % 8)⟩ peakMa []
      (modPin n (fun p => { p.toSafe s.now with ovc := true, ovcAt := s.now }) s)
  else s

/-- The load timer counts max(25, TMR_PERIOD) periods of 80 ns from the latest strobe (R164). -/
def timerDue (s : State) (k : Nat) : Bool :=
  let o := octAt s k
  bit o.loadCtrl 25 && decide (o.lastStrobe + max 25 (fld o.loadCtrl 0 24) * (80 * cNs) ≤ s.now)

/-- A tick of the 12.5 MHz generator (R166): due 80 ns after the last, in Day, while RUN is loaded as 1. -/
def waveTick (k : Nat) (s : State) : State :=
  let o := octAt s k
  if inDay s ∧ octOn s k ∧ o.ldRun ∧ o.waveAt + 80 * cNs ≤ s.now then
    let o1 := waveOut { o with acc := o.acc + o.ldFtw, waveAt := o.waveAt + 80 * cNs }
    let before := clipsOf s k
    let sample := fun (_ : Nat) (p : PinCh) =>
      if ldWaveSel p = 0 then p
      else
        let p1 := p.clips o1.code true false
        cmpAt s.now o1.code p1.inp p1
    let s1 := mapPins (2 ^ k) sample s
    clipEvents k before (modOct k (fun _ => o1) s1)
  else s

/-! ### Commands -/

/-- OCT_LOAD_WRITE (R163). -/
def execOctLoadWrite (t : Instant) (port : Port) (oct : Fin 8) (val : Word) (s : State) :
    Host.Outcome State Fault Refusal :=
  .next (portWrite port (0x1000 + 0x40 * oct.val) val (loadCtrlWrite oct.val val) (advance t s))

/-- LOAD_TIMER_EXPIRY (R164). -/
def execLoadTimerExpiry (t : Instant) (oct : Fin 8) (s : State) : Host.Outcome State Fault Refusal :=
  let s := advance t s
  .next (if timerDue s oct.val then strobeOrDefer oct.val 3 s else s)

/-- WAVE_TICK (R166). -/
def execWaveTick (t : Instant) (oct : Fin 8) (s : State) : Host.Outcome State Fault Refusal :=
  .next (waveTick oct.val (advance t s))

/-- WAVE_TABLE_WRITE (R168). -/
def execWaveTableWrite (t : Instant) (port : Port) (ix : Nat) (val : Word) (s : State) :
    Host.Outcome State Fault Refusal :=
  .next (portWrite port (0x300000 + 4 * ix) val (waveTabWrite ix val) (advance t s))

/-- DRIVER_OVERCURRENT (R157). -/
def execDriverOvercurrent (t : Instant) (pin : Fin 64) (peakMa : Nat) (s : State) :
    Host.Outcome State Fault Refusal :=
  .next (overcurrent pin.val peakMa (advance t s))

/-- SAFE_RELEASE_WRITE (R156). -/
def execSafeReleaseWrite (t : Instant) (port : Port) (pin : Fin 64) (val : Word) (s : State) :
    Host.Outcome State Fault Refusal :=
  .next (portWrite port (0x2010 + 0x20 * pin.val) val (pinStatusWrite pin.val val) (advance t s))

end Sys2Proof.Machine
end

