-- ==== Sys2Proof/Machine/Notes.lean ====
section
/-!
DEFINITION. Notes.lean: EVENT notifications (10 R252): the SPI notification queue and area (15 R354, R355), TASP datagrams
with their tags (16 R376 to R378) and EVENT notes (R385, R386), and the measured latency (01 R25).
-/

namespace Sys2Proof.Machine

/-- The latency of a notified record at its handover: the largest in ns rounded up, and the count above 3 600 ns (R25). -/
def noteLatency (strobe : Option Instant) (s : State) : State :=
  match strobe with
  | none => s
  | some k =>
    let s1 := bumpMax rgLatMax 0 16 ((s.now - k + 255) / 256) s
    if 3600 * cNs < s.now - k then bump rgLatMax 16 16 1 s1 else s1

/-! ### SPI (R354) -/

def spiNotifyEn (s : State) : Bool := bit s.r.spiCfg 4

/-- The handover of the notification in the mailbox: HIRQ is asserted with it, which needs HPRES high (01 R22, 02 R47). -/
def spiHandover (s : State) : State :=
  if s.spi.running ∧ s.spi.note.isSome ∧ s.encl.hpres then
    noteLatency s.spi.noteStrobe { s with spi := { s.spi with noteStrobe := none } }
  else s

/-- The head of the queue moves into the empty notification area while the port runs (R355). -/
def spiNoteMove (s : State) : State :=
  if s.spi.running ∧ s.spi.note.isNone then
    match s.spi.queue with
    | [] => s
    | q :: rest => spiHandover { s with spi := { s.spi with note := some q.1, noteStrobe := q.2, queue := rest } }
  else s

/-- A byte string in words, its first byte in bits [31:24] of the first, padded with zero bytes (15 R348). -/
def strWords : List Byte → List Word
  | [] => []
  | [a] => [word (2 ^ 24 * a.toNat)]
  | [a, b] => [word (2 ^ 24 * a.toNat + 2 ^ 16 * b.toNat)]
  | [a, b, c] => [word (2 ^ 24 * a.toNat + 2 ^ 16 * b.toNat + 2 ^ 8 * c.toNat)]
  | a :: b :: c :: d :: l => word (2 ^ 24 * a.toNat + 2 ^ 16 * b.toNat + 2 ^ 8 * c.toNat + d.toNat) :: strWords l

/-- The twelve words of a notification (R354): 64-bit values bits [63:32] first, the record in its stored byte order (R348). -/
def spiNoteWords (count recNo : Nat) (r : Rec) : List Word :=
  [0x5A20000B, word (0x50000000 + count % 65536), word (recNo / 2 ^ 32), word recNo] ++ strWords (recBytes r)

/-- A notification offered to the SPI queue of 64 entries (R252, R354); its TAG counts the notifications made (log 16). -/
def spiNotify (recNo : Nat) (r : Rec) (strobe : Option Instant) (s : State) : State :=
  if !spiNotifyEn s then s
  else if s.spi.queue.length < 64 then
    let n := s.spi.noteCount + 1
    spiNoteMove { s with spi := { s.spi with
      noteCount := n, queue := s.spi.queue ++ [(spiNoteWords n recNo r, strobe)] } }
  else faultU 26 1 (bump rgEvid 24 8 1 s)

/-! ### TASP datagrams (Table 16-1) -/

/-- A datagram the unit sends: header, body and tag (R376 to R378), under the operator key and OPKEY_ID in force. -/
def taspDatagram (tp : Tasp) (flags op result session seq : Nat) (body : List Byte) : List Byte :=
  let d := [(0x54 : Byte), 0x41, 1] ++ beBytes 1 flags ++ beBytes 1 op ++ beBytes 1 result ++ beBytes 2 body.length ++
    beBytes 4 tp.keyId ++ beBytes 4 session ++ beBytes 4 seq ++ beBytes 4 0 ++ body
  d ++ (hmacSha256 tp.key d).take 16

/-- Whether the port has an address to send from to a destination: IPv4 while one is held, IPv6 while an address is valid. -/
def haveSource (s : State) (d : NetAddr) : Bool :=
  if d.v6 then s.eth.ipv6.any (·.2) else decide (s.eth.ipv4 ≠ 0)

/-- Whether an IPv4 destination lies in the unit's prefix, is a broadcast or group address, or a gateway is known (R373). -/
def routed (s : State) (d : NetAddr) : Bool :=
  let sh := 32 - s.eth.mask
  d.v6 || d.ip.toNat / 2 ^ sh == s.eth.ipv4.toNat / 2 ^ sh || decide (0xE0000000 ≤ d.ip.toNat) || s.eth.router != 0

/-- The successor of a notification number (R385). -/
def nextNseq (n : Nat) : Nat := if n = 0xFFFFFFFF then 1 else n + 1

/-- One EVENT for the session at a position (R386, R387): its number is used and the note held even where it is dropped. -/
def taspEvent (i : Nat) (body : List Byte) (strobe : Option Instant) (s : State) : State :=
  match vget s.tasp.sess i none with
  | none => s
  | some x =>
    if x.sub then
      let x1 := { x with nseq := nextNseq x.nseq, notes := ((x.notes ++ [(x.nseq, body)]).drop (x.notes.length + 1 - 256)) }
      let s1 := { s with tasp := { s.tasp with sess := vmod s.tasp.sess i fun _ => some x1 } }
      if s1.tasp.queue.length < 64 ∧ haveSource s x.src then
        { s1 with tasp := { s1.tasp with
            queue := s1.tasp.queue ++ [⟨x.src, taspDatagram s.tasp 2 0x50 0 x.num x.nseq body, strobe⟩] } }
      else faultU 26 0 (bump rgEvid 24 8 1 s1)
    else s

/-- The EVENT notification of a chained record marked for it, on each port that has notifications enabled (R252). -/
def notifyRec (recNo : Nat) (r : Rec) (strobe : Option Instant) (s : State) : State :=
  if recNotify r then
    let body := beBytes 8 recNo ++ recBytes r
    (List.range 4).foldl (fun s i => taspEvent i body strobe s) (spiNotify recNo r strobe s)
  else s

/-- A note moves to the MAC's priority transmit queue, empty when this happens, which is the handover (R386; log 25). One that no
gateway takes is dropped (R373). -/
def taspHandover (s : State) : State :=
  match s.tasp.queue with
  | [] => s
  | q :: rest =>
    let s1 := { s with tasp := { s.tasp with queue := rest } }
    if routed s q.dst then noteLatency q.strobe { s1 with eth := { s1.eth with txPri := [⟨0, q.dst, q.body⟩] } }
    else bump rgEthRx 24 8 1 s1

end Sys2Proof.Machine
end

