-- ==== Sys2Proof/Machine/Chain.lean ====
section
/-!
DEFINITION. Chain.lean: the merge, the chain step, evidence memory, FULL and suspension, exports and releases (10 R234 to
R236, R252 to R258; 12 R273 to R277, R280, R285), and the commands CHAIN_STEP, LOSS_CLOSE and EVID_RELEASE_WRITE.
-/

namespace Sys2Proof.Machine

/-! ### Space (R253) -/

def evFree (s : State) : Nat := evCap - (s.evid.count - s.evid.oldest)

/-- H(COUNT - 1), or H(-1) while COUNT is 0 (R273, R274). -/
def chainHead (s : State) : List Byte := s.evid.head.getD (chainOrigin s.boot.serial.toNat)

/-- HEAD, COUNT and OLDEST are written into Nightwatch (R274). -/
def chainCopy (s : State) : State :=
  { s with nw := { s.nw with chain := ⟨s.evid.head, s.evid.count, s.evid.oldest⟩ } }

/-! ### FULL (R254) -/

/-- FREE at or below 65 536 sets FULL: running jobs are ordered to end at their next vector cycle boundary, and jobs in CHECKING
or ARMED end at once. -/
def fullSet (s : State) : State :=
  if evFree s ≤ 65536 ∧ !s.evid.full then
    let s1 := setCond 24 0 true { s with evid := { s.evid with full := true } }
    let s2 := (slotsIn s1 (· == .running)).foldl (fun s i => orderStop false 6 0 false i s) (faultU 24 0 s1)
    endJobs 6 0 false (slotsIn s2 fun x => x == .checking || x == .armed) s2
  else s

/-- FULL clears when FREE exceeds 131 072. -/
def fullClear (s : State) : State :=
  if s.evid.full ∧ 131072 < evFree s then setCond 24 0 false { s with evid := { s.evid with full := false } } else s

/-! ### Suspension (R256) -/

/-- A formed JOB_END record goes back to pending. -/
def unformEnds (s : State) : State :=
  { s with
    seqr := { s.seqr with slots := vmap s.seqr.slots fun _ x => if x.endSt = 2 then { x with endSt := 1 } else x }
    evid := { s.evid with unitQ := s.evid.unitQ.filter fun q => recType q.body != 0x11 } }

/-- The chain is suspended: JOB_END records wait with their slots, a seal that has no room is not taken, and triggers that are
due are discarded (R276). Records already formed stay queued in their order (log 17). -/
def suspend (s : State) : State :=
  let s1 := unformEnds s
  faultU 25 0 (setCond 25 0 true { s1 with
    evid := { s1.evid with
      suspended := true, suspendTime := tamNow s, unitQ := s1.evid.unitQ.filter fun q => recType q.body != 0x30 }
    sl := { s1.sl with part0Wait := false, due := [], waited := false } })

/-- Slots whose JOB_END record waits are due to form it from the next cycle on, in slot order. -/
def endsNext (s : State) : State :=
  { s with seqr := { s.seqr with slots := vmap s.seqr.slots fun _ x =>
      if x.st = .ending ∧ x.endSt = 1 then { x with endAt := max x.endAt ((cycleOf s.now + 1) * 320) } else x } }

/-- The suspension ends: a GAP of cause 3, a TIME_STATE of SUB 2, and after them the pending JOB_END records in slot order (R256). -/
def resume (s : State) : State :=
  if s.evid.suspended ∧ 65536 < evFree s then
    let s1 := setCond 25 0 false { s with evid := { s.evid with suspended := false } }
    let s2 := pushUnit (mkRec 0x21 3 0 0 0 (tamNow s) (timeCode s.evid.suspendTime)) s.now s1
    let s3 := pushUnit (mkRec 0x20 2 0 0 0 (tamNow s) (timeBits s.tim)) s.now s2
    let s4 := s.evid.endWait.foldl (fun s r => pushUnit r ((cycleOf s.now + 1) * 320) s) s3
    endsNext { s4 with evid := { s4.evid with endWait := [] } }
  else s

/-! ### Seals falling due (12 R275) -/

/-- A trigger falls due from an instant; while the chain is suspended it is discarded. -/
def sealDue (trig : Nat) (k : Instant) (s : State) : State :=
  if s.evid.suspended ∨ s.sl.due.any (fun d => d.1 == trig) then s
  else { s with sl := { s.sl with due := s.sl.due ++ [(trig, k)] } }

/-- REC_LOG2, where 1 to 9 and above 24 are taken as 16, and 0 disables. -/
def recLog2 (s : State) : Nat :=
  let v := fld s.r.sealCfg 16 8
  if v = 0 then 0 else if v < 10 ∨ 24 < v then 16 else v

/-- INT_MS, 1 000 where it is out of range. -/
def intMs (s : State) : Nat :=
  let v := fld s.r.sealCfg 0 16
  if v < 100 ∨ 60000 < v then 1000 else v

/-- The record-count and job-end triggers after a record is chained: a JOB_END makes one due in the cycle after (Table 12-1). -/
def sealTriggers (r : Rec) (s : State) : State :=
  let s1 := if recLog2 s ≠ 0 ∧ s.sl.recs = 2 ^ recLog2 s then sealDue 2 s.now s else s
  if recType r = 0x11 ∧ bit s.r.sealCfg 24 then sealDue 3 ((cycleOf s.now + 1) * 320) s1 else s1

/-! ### The chain step (R236, R273, R274) -/

/-- One record is numbered, chained, copied to Nightwatch, held, and queued for its requester (0 to 7 CE, 8 SE) to write; while
the octet clocks are off the sealing engine writes it at once (log 18). -/
def chainRec (w : Nat) (r : Rec) (s : State) : State :=
  let n := s.evid.count
  let h := sha256 (chainHead s ++ recBytes r)
  chainCopy { s with
    evid := { s.evid with
      head := some h, count := n + 1, held := s.evid.held ++ [r]
      unwritten := if coreLocked s then s.evid.unwritten ++ [(n, w)] else s.evid.unwritten }
    sl := { s.sl with recs := s.sl.recs + 1 } }

/-- The slot whose JOB_END record is formed with a job number waits for nothing more but its results (R226). -/
def endChained (jobNo : Nat) (s : State) : State :=
  { s with seqr := { s.seqr with slots := vmap s.seqr.slots fun _ x =>
      if x.st = .ending ∧ x.endSt = 2 ∧ x.jobNo = jobNo then { x with endSt := 3 } else x } }

/-- What chaining a record brings with it: its notification, FULL, seal triggers, and the slot of a JOB_END. -/
def chained (w : Nat) (r : Rec) (strobe : Option Instant) (s : State) : State :=
  let n := s.evid.count
  let s1 := notifyRec n r strobe (chainRec w r s)
  let s2 := if recType r = 0x11 then endChained r.jobNo.toNat s1 else s1
  fullSet (sealTriggers r s2)

/-! ### Checkpoints (12 R284 to R286) -/

/-- MRAM address of a checkpoint slot (Table 5-3). -/
def ckptAddr (slot : Nat) : Nat := 0x280000 + 0x10000 * slot

/-- The 72 bytes of a checkpoint (Table 12-5). -/
def ckptBytes (cpSeq count : Nat) (head : List Byte) (jobNo time : Nat) : List Byte :=
  let b := leBytes 4 0x54504B43 ++ leBytes 4 cpSeq ++ leBytes 8 count ++ head ++ leBytes 4 jobNo ++ leBytes 12 time ++
    leBytes 4 0
  b ++ leBytes 4 (crc32c b)

/-- A valid checkpoint of a slot: its CP_SEQ (R284). -/
def ckptSeqAt (m : List Host.Cell) (slot : Nat) : Option Nat :=
  let b := rdBytes m (ckptAddr slot) 72
  let q := leNat ((b.drop 4).take 4)
  if leNat (b.take 4) = 0x54504B43 ∧ q ≠ 0 ∧ leNat (b.drop 68) = crc32c (b.take 68) then some q else none

/-- The newest valid checkpoint slot as CKPT_SLOT codes it: 0 none, 1 slot 0, 2 slot 1 (R286). -/
def newestCkpt (m : List Host.Cell) : Nat :=
  match ckptSeqAt m 0, ckptSeqAt m 1 with
  | none, none => 0
  | some _, none => 1
  | none, some _ => 2
  | some a, some b =>
    if a = 0xFFFFFFFF ∧ b = 1 then 2
    else if b = 0xFFFFFFFF ∧ a = 1 then 1
    else if a < b then 2 else 1

/-! ### The port of the configuration memory (05 R121) -/

/-- Codes of a chunk of 256 bytes at 25 MB/s: 10.24 µs. -/
def cChunk : Nat := 2621440

/-- Chunks of a length. -/
def chunks (n : Nat) : Nat := (n + 255) / 256

/-- Whether a store has come to its commit record, which outranks a commit: its write and its read-back are its last two chunks. -/
def MramJob.atRecord (j : MramJob) : Bool := decide (j.left ≤ 2)

/-- A list of trims in the snapshot: their number, then each as 32 bits. The layout is no port's to see (DESIGN CHOICE, log 79). -/
def trimField (l : List Int) : List Byte := leBytes 2 l.length ++ l.flatMap fun v => leBytes 4 (twos 32 v)

/-- The trims of the trim memory (R294): level, timing and skew of each channel, then the octet phases. -/
def trimGroups (s : State) : List (List Int) :=
  s.cal.ch.toList.flatMap (fun x => [x.lvlTrim, x.timTrim, x.skewTrim]) ++ s.octs.toList.map fun o => [o.phaseTrim]

/-- The snapshot a store writes: 98 304 bytes of the trim memory (R294). -/
def trimSnapshot (s : State) : List Byte :=
  let b := (trimGroups s).flatMap trimField
  b.take 98304 ++ List.replicate (98304 - b.length) 0

/-- The trims of a list that a snapshot holds. -/
def trimValues (n : Nat) (b : List Byte) : List Int := (List.range n).map fun i => sgn 32 (leNat ((b.drop (4 * i)).take 4))

/-- The first `n` lists of a snapshot. -/
def trimSplit : Nat → List Byte → List (List Int)
  | 0, _ => []
  | n + 1, b =>
    let m := leNat (b.take 2)
    trimValues m (b.drop 2) :: trimSplit n (b.drop (2 + 4 * m))

/-- Codes of the 16 bytes of a store's step 1 at 25 MB/s: 0.64 µs. -/
def cStep1 : Nat := 163840

/-- Whether step 2 of a store has started: its step 1 has taken the port and ended. -/
def stepTwo (s : State) (j : MramJob) : Bool :=
  decide (j.left ≤ 2 * chunks 98304 + 2) ||
    (s.sl.ckptWrite.isNone && s.boot.commit.isNone && decide (max j.begun s.boot.portAt + cStep1 ≤ s.now))

/-- The store's data are taken as its step 2 starts. -/
def takeSnap (s : State) : State :=
  match s.boot.store with
  | some j =>
    if !j.snap ∧ stepTwo s j then { s with boot := { s.boot with store := some { j with data := trimSnapshot s, snap := true } } } else s
  | none => s

/-- The operation with `n` more of its chunks carried out. -/
def MramJob.run (n : Nat) (j : MramJob) : MramJob := { j with left := j.left - n }

/-- The chunks carried out up to now, but for the snapshot of a store: between chunks the port goes to the checkpoint, then to the commit record of a store, then to a
commit, then to the data of a store. -/
def portSettle (s : State) : State :=
  let t := (s.now - s.boot.portAt) / cChunk
  let ck := ((s.sl.ckptWrite.map (·.left)).getD 0)
  let st := ((s.boot.store.map (·.left)).getD 0)
  let co := ((s.boot.commit.map (·.left)).getD 0)
  let rec' := (s.boot.store.map (·.atRecord)).getD false
  let a := min t ck
  let b := if rec' then min (t - a) st else 0
  let c := min (t - a - b) co
  let d := if rec' then 0 else min (t - a - b - c) st
  { s with
    sl := { s.sl with ckptWrite := s.sl.ckptWrite.map fun w => { w with left := w.left - a } }
    boot := { s.boot with
      store := s.boot.store.map (·.run (b + d)), commit := s.boot.commit.map (·.run c)
      portAt := if a + b + c + d < t then s.now else s.now - (s.now - s.boot.portAt) % cChunk } }

/-- The chunks carried out up to now. -/
def mramSettle (s : State) : State := takeSnap (portSettle s)

/-- Whether an operation has been holding the port back from those below it for at least the chunk it may wait. -/
def holdsPort (s : State) (begun : Instant) (left : Nat) : Bool := left != 0 && decide (begun + cChunk ≤ s.now)

/-- Whether the checkpoint holds the port, and whether the checkpoint or the commit record of a store does. -/
def ckptHolds (s : State) : Bool := s.sl.ckptWrite.any fun w => holdsPort s w.begun w.left
def recordHolds (s : State) : Bool := ckptHolds s || s.boot.store.any fun j => j.atRecord && holdsPort s j.begun j.left

/-- A checkpoint write begins (R285): zeros over the target's CRC word, then the data. It records the state after the latest
seal written, which is SEALED_END and its chain value. One that is due while another runs waits for the next seal. -/
def startCkpt (dusk : Bool) (s0 : State) : State :=
  let s := mramSettle s0
  match s.sl.ckptWrite with
  | some _ => { s with sl := { s.sl with ckptForce := true } }
  | none =>
    let slot := if newestCkpt s.mram = 1 then 1 else 0
    let cpSeq := if s.sl.ckptSeq = 0xFFFFFFFF then 1 else s.sl.ckptSeq + 1
    let d := ckptBytes cpSeq s.evid.sealedEnd (s.sl.ckptHead.getD (chainHead s)) s.nw.jobNo (timeCode s.tim.codes)
    { s with
      mram := wrBytes s.mram (ckptAddr slot + 68) (leBytes 4 0)
      sl := { s.sl with
        ckptWrite := some ⟨slot, d, s.evid.sealedEnd, s.now, dusk, 3⟩, ckptSince := 0, ckptForce := false } }

/-- CKPT_SEALS, where 0 is taken as 64. -/
def ckptSeals (s : State) : Nat := if fld s.r.ckptCfg 0 16 = 0 then 64 else fld s.r.ckptCfg 0 16

/-- Seals whose nine parts SE has written end as SEALED_END, in order, and count towards the next checkpoint (R280, R285). -/
def sealsWritten : Nat → State → State
  | 0, s => s
  | n + 1, s =>
    match s.sl.writing with
    | [] => s
    | w :: rest =>
      if s.evid.unwritten.any fun u => u.2 == 8 && decide (u.1 < w.1) then s
      else
        let s1 := { s with
          evid := { s.evid with sealedEnd := w.1 }
          sl := { s.sl with writing := rest, ckptHead := some w.2, ckptSince := s.sl.ckptSince + 1 } }
        sealsWritten n (if ckptSeals s1 ≤ s1.sl.ckptSince ∨ s1.sl.ckptForce then startCkpt false s1 else s1)

/-! ### The merge (R235) -/

/-- A record's place in the chain order: its formation cycle, its class, and its place within the class. -/
structure MKey where
  cyc : Nat
  cls : Nat
  sub : Nat
  ord : Nat
  deriving DecidableEq, Repr

def MKey.lt (a b : MKey) : Bool :=
  decide (a.cyc < b.cyc) || (a.cyc == b.cyc && (decide (a.cls < b.cls) || (a.cls == b.cls &&
    (decide (a.sub < b.sub) || (a.sub == b.sub && decide (a.ord < b.ord))))))

/-- A JOB_END precedes a JOB_START, and all others follow in issue order. -/
def unitRank (r : Rec) : Nat := if recType r = 0x11 then 0 else if recType r = 0x10 then 1 else 2

/-- A candidate of the merge: its key, the octet whose FIFO holds it (none: the unit queue), and the record. -/
structure Cand where
  key : MKey
  oct : Option Nat
  q : QRec
  deriving DecidableEq, Repr

/-- The record of an octet's FIFO that goes next: among those of the first formation cycle, one closed by an event first. -/
def fifoNext (l : List QRec) : Option QRec :=
  match l with
  | [] => none
  | x :: _ =>
    if recType x.body = 6 then some x
    else match l.find? fun q => sameCycle q.at_ x.at_ && q.closed with
    | some q => some q
    | none => some x

/-- The candidates whose formation cycle is over, so that the order within it is decided. -/
def candidates (s : State) : List Cand :=
  ((List.range 8).filterMap fun k =>
    match fifoNext (capAt s k).fifo with
    | some q => if cycleOf q.at_ < cycleOf s.now then
        some ⟨⟨cycleOf q.at_, if q.closed then 0 else if recType q.body = 6 then 0 else 2, k, 0⟩, some k, q⟩ else none
    | none => none) ++
  (s.evid.unitQ.filter fun q => decide (cycleOf q.at_ < cycleOf s.now)).map fun q =>
    ⟨⟨cycleOf q.at_, 1, unitRank q.body, q.ord⟩, none, q⟩

/-- The least of a list of candidates. -/
def leastCand : List Cand → Option Cand
  | [] => none
  | c :: l =>
    match leastCand l with
    | none => some c
    | some d => if d.key.lt c.key then some d else some c

/-- The record leaves its queue. -/
def takeCand (c : Cand) (s : State) : State :=
  match c.oct with
  | some k => modCap k (fun x => { x with fifo := x.fifo.erase c.q }) s
  | none => { s with evid := { s.evid with unitQ := s.evid.unitQ.erase c.q } }

/-- Part 0 of a seal with its own record number as COUNT (R277). -/
def fillPart0 (k : Nat) (r : Rec) : Rec := { r with p0 := w96 k 0, p1 := w96 k 1 }

/-- Part 0 of a seal is chained: CHAIN_HEAD is the chain value before it, and the seal forms (R277, R280). -/
def chainPart0 (c : Cand) (s : State) : State :=
  let k := s.evid.count
  let r := fillPart0 k c.q.body
  chained 8 r none { takeCand c s with
    sl := { s.sl with part0Wait := false, forming := some ⟨k, r, chainHead s⟩ } }

/-- One record taken from the merge (R235, R236). While a seal forms, nothing else is chained; a unit record that finds no
space, a seal counting as nine, suspends the chain. -/
def chainStep (s0 : State) : State :=
  let s := formEnds s0
  if s.evid.suspended ∨ s.sl.forming.isSome ∨ !fastOn s then s
  else
    match leastCand (candidates s) with
    | none => s
    | some c =>
      let need := if c.oct.isSome then 0 else if recType c.q.body = 0x30 then 9 else 1
      if evFree s < need then suspend s
      else if c.oct.isSome ∧ evFree s = 0 then s
      else if recType c.q.body = 0x30 then chainPart0 c s
      else chained (c.oct.getD 8) c.q.body c.q.strobe (takeCand c s)

/-- CHAIN_STEP (R236). -/
def execChainStep (t : Instant) (s : State) : Host.Outcome State Fault Refusal :=
  .next (chainStep (advance t s))

/-- LOSS_CLOSE (R251). -/
def execLossClose (t : Instant) (oct : Fin 8) (s : State) : Host.Outcome State Fault Refusal :=
  .next (formEnds (lossCloseAt oct.val (advance t s)))

/-! ### Export and release (R257, R258) -/

/-- Result of an export request: refused with GONE or UNSEALED, or the number of records from FROM. -/
inductive ExpRes where
  | gone | unsealed
  | records (n : Nat)
  deriving DecidableEq, Repr

def exportJudge (s : State) (first cnt : Nat) : ExpRes :=
  if first < s.evid.oldest then .gone
  else if s.evid.sealedEnd < first then .unsealed
  else if cnt = 0xFFFFFFFF then .records (s.evid.sealedEnd - first)
  else .records (min cnt (s.evid.sealedEnd - first))

/-- Every refusal of an export is counted. -/
def exportCount (r : ExpRes) (s : State) : State :=
  match r with
  | .records _ => s
  | _ => bump rgEvid 16 8 1 s

/-- Records `first` to `first + n - 1` as held. -/
def heldRecs (s : State) (first n : Nat) : List Rec := (s.evid.held.drop (first - s.evid.oldest)).take n

/-- Every record below `upto` is released; FULL and a suspension may end. -/
def applyRelease (upto : Nat) (s : State) : State :=
  if upto ≤ s.evid.oldest then s
  else
    let s1 := assureLapse s
    resume (fullClear (chainCopy { s1 with
      evid := { s1.evid with held := s1.evid.held.drop (upto - s1.evid.oldest), oldest := upto } }))

/-- Whether a release up to `upto` covers records of an export in progress. -/
def exportCovered (s : State) (upto : Nat) : Bool :=
  s.evid.exports.any fun e => decide (e.first < upto) && decide (s.evid.oldest < e.stop)

/-- A release (R258): clipped to SEALED_END, and held while it covers records of an export in progress. The answer is TO as
applied. -/
def release (upto : Nat) (s : State) : State × Nat :=
  let t := min upto s.evid.sealedEnd
  let s1 := if s.evid.sealedEnd < upto then bump rgEvid 8 8 1 s else s
  if t ≤ s1.evid.oldest then (s1, t)
  else if exportCovered s1 t then ({ s1 with evid := { s1.evid with relWait := s1.evid.relWait ++ [t] } }, t)
  else (applyRelease t s1, t)

/-- Releases that no export in progress covers any more take effect. -/
def releaseWaiting (s : State) : State :=
  let go := s.evid.relWait.filter fun t => !exportCovered s t
  go.foldl (fun s t => applyRelease t s)
    { s with evid := { s.evid with relWait := s.evid.relWait.filter fun t => exportCovered s t } }

/-- An export begins on a port, or its export ends. -/
def exportBegin (port : Port) (first n : Nat) (s : State) : State :=
  { s with evid := { s.evid with exports := ⟨port, first, first, first + n⟩ :: s.evid.exports } }
def exportEnd (port : Port) (s : State) : State :=
  releaseWaiting { s with evid := { s.evid with exports := s.evid.exports.filter fun e => e.port != port } }

/-- A write of G_EVID_RELEASE_LO applies the release with the upper word written before (R258). -/
def evidReleaseWrite (val : Word) (s : State) : State × BusRes :=
  ((release (2 ^ 32 * s.r.evidRelHi.toNat + val.toNat) s).1, .done)

/-- EVID_RELEASE_WRITE (R258). -/
def execEvidReleaseWrite (t : Instant) (port : Port) (val : Word) (s : State) : Host.Outcome State Fault Refusal :=
  .next (portWrite port 0x420 val (evidReleaseWrite val) (advance t s))

end Sys2Proof.Machine
end

