-- ==== Sys2Proof/Machine/Seals.lean ====
section
/-!
DEFINITION. Seals.lean: the nonce pool, seals and checkpoint writes (12 R275 to R281, R285), and the commands
SEAL_INTERVAL_EXPIRY, SEAL_FORM, SEAL_SIGNED, NONCE_REFILL and CHECKPOINT_WRITE_DONE.
-/

namespace Sys2Proof.Machine

/-- The interval trigger (Table 12-1): INT_MS after the previous part 0 a seal falls due where a record has been chained since
part 8; otherwise the interval restarts. -/
def sealInterval (s : State) : State :=
  if s.sl.intStart + cMs * intMs s ≤ s.now ∧ fastOn s ∧ !(s.sl.due.any fun d => d.1 == 1) then
    if s.sl.recs = 0 ∨ s.evid.suspended then
      { s with sl := { s.sl with intStart := s.sl.intStart + cMs * intMs s } }
    else sealDue 1 s.now s
  else s

/-- SEAL_INTERVAL_EXPIRY (R275). -/
def execSealIntervalExpiry (t : Instant) (s : State) : Host.Outcome State Fault Refusal :=
  .next (sealInterval (advance t s))

/-- Triggers that are due now. -/
def dueNow (s : State) : List Nat := (s.sl.due.filter fun d => decide (d.2 ≤ s.now)).map (·.1)

/-- Whether 5 µs have passed since the previous part 0 and that seal's part 8 has been chained (R276). -/
def sealSpaced (s : State) : Bool :=
  s.sl.forming.isNone && !s.sl.part0Wait &&
    (match s.sl.lastPart0 with | none => true | some k => decide (5 * cUs + k ≤ s.now))

/-- A due seal that waits for the nonce pool is counted once (R276). -/
def sealWaits (s : State) : State :=
  if dueNow s ≠ [] ∧ sealSpaced s ∧ s.sl.pool = 0 ∧ !s.sl.waited then
    bump rgSeal 16 8 1 { s with sl := { s.sl with waited := true } }
  else s

/-- Part 0 of a seal is formed (R276, R277): runs and groups end before it, the interval restarts, and its TRIGGER is the lowest
code due. Its COUNT is filled in when its number is known, at its place in the chain. -/
def sealForm (s : State) : State :=
  if dueNow s ≠ [] ∧ sealSpaced s ∧ s.sl.pool ≠ 0 ∧ !s.evid.suspended ∧ fastOn s then
    let trig := (dueNow s).foldl min 4
    let s1 := closeOcts s.now 0xFF s
    let p := mkRec 0x30 0 0 0 0 (tamNow s) (2 ^ 64 * (timeBits s.tim + 2 ^ 24 * trig))
    pushUnit p s.now { s1 with sl := { s1.sl with
      due := s1.sl.due.filter fun d => !decide (d.2 ≤ s.now), waited := false, part0Wait := true,
      lastPart0 := some s.now, intStart := s.now, recs := 0, lastTrigger := trig } }
  else sealWaits s

/-- SEAL_FORM (R276). -/
def execSealForm (t : Instant) (s : State) : Host.Outcome State Fault Refusal :=
  .next (sealForm (advance t s))

/-- The seal message M (Table 12-2). -/
def sealMessage (serial : Nat) (part0 : Rec) (head : List Byte) : List Byte :=
  ascii "TAMONG-CLOASH-S1" ++ leBytes 8 serial ++ recBytes part0 ++ head

/-- The 96-byte string CHAIN_HEAD, SIG_R, SIG_S: the signature is all zeros while KEY_OK is 0 (R278, R281; log 11). -/
def sealString (s : State) (f : SealForm) : List Byte :=
  if s.sl.keyOk then
    let sg := ecdsaSign unitKey (inGroup (Config.nonce s.sl.draws)) (beNat (sha256 (sealMessage s.boot.serial.toNat f.part0 f.headB)))
    f.headB ++ beBytes 32 sg.1 ++ beBytes 32 sg.2
  else f.headB ++ List.replicate 64 0

/-- Part `p` of a seal: the TIME of part 0 and twelve bytes of the string (Table 10-5). -/
def sealPart (f : SealForm) (str : List Byte) (p : Nat) : Rec :=
  let b := leNat ((str.drop (12 * (p - 1))).take 12)
  { f.part0 with head := word (0x30 + 2 ^ 8 * p), p0 := w96 b 0, p1 := w96 b 1, p2 := w96 b 2 }

/-- Parts 1 to 8 are formed and chained after part 0 (R280). The nonce is used and erased (R279), and a seal with zero signature
counts an event of source 27 (R281). -/
def sealSigned (s : State) : State :=
  match s.sl.forming with
  | none => s
  | some f =>
    let str := sealString s f
    let s1 := { s with sl := { s.sl with
      forming := none, pool := s.sl.pool - 1, draws := s.sl.draws + 1, count := (s.sl.count + 1) % 2 ^ 32, lastK := f.k } }
    let s2 := (List.range 8).foldl (fun s j => chained 8 (sealPart f str (j + 1)) none s) s1
    let s3 := { s2 with sl := { s2.sl with recs := 0, writing := s2.sl.writing ++ [(f.k + 9, chainHead s2)] } }
    let s4 := sealsWritten 1 s3
    if s.sl.keyOk then s4 else faultU 27 0 s4

/-- SEAL_SIGNED (R280). -/
def execSealSigned (t : Instant) (s : State) : Host.Outcome State Fault Refusal :=
  .next (sealSigned (advance t s))

/-- One nonce per 120 µs while the core synthesiser is locked, to at most 16 (R279). A seal that waits is counted first. -/
def nonceRefill (s : State) : State :=
  if coreLocked s ∧ 120 * cUs + s.sl.poolAt ≤ s.now then
    let s1 := sealWaits s
    { s1 with sl := { s1.sl with pool := min 16 (s1.sl.pool + 1), poolAt := s.now } }
  else s

/-- NONCE_REFILL (R279). -/
def execNonceRefill (t : Instant) (s : State) : Host.Outcome State Fault Refusal :=
  .next (nonceRefill (advance t s))

/-! ### Checkpoint writes (R285) -/

/-- An MRAM violation: row of Table 5-4 (R120). -/
def mramViol (row : Nat) (s : State) : State := faultU 29 (row * 256) (bump rgBoot 8 8 1 s)

/-- A slot whose write did not end whole: invalid, since its MAGIC does not match (R284, R285; log 78). -/
def ckptSpoil (slot : Nat) (m : List Host.Cell) : List Host.Cell := wrBytes m (ckptAddr slot) (List.replicate 72 0)

/-- A checkpoint write that is cut off or fails: the target stays invalid, and the next seal writes a checkpoint (R285). -/
def ckptFail (s : State) : State :=
  match s.sl.ckptWrite with
  | none => s
  | some w => bump rgSeal 24 8 1 { s with
      mram := ckptSpoil w.slot s.mram, sl := { s.sl with ckptWrite := none, ckptForce := true } }

/-- A checkpoint write that loss of power cuts off: an event of source 29 that names no row of Table 5-4 (R285; log 78). -/
def ckptCut (s : State) : State := if s.sl.ckptWrite.isSome then faultU 29 0 (ckptFail s) else s

/-- CP_SEQ and COUNT of the newest valid checkpoint, as the unit holds them. -/
def ckptLoad (s : State) : State :=
  let n := newestCkpt s.mram
  let b := rdBytes s.mram (ckptAddr (n - 1)) 72
  { s with sl := { s.sl with
    ckptSlot := n
    ckptSeq := if n = 0 then 0 else leNat ((b.drop 4).take 4)
    ckptCount := if n = 0 then 0 else leNat ((b.drop 8).take 8) } }

/-- The write and its read-back complete: the slot holds the checkpoint, or the write has failed (R285, Table 5-4 row 3). -/
def ckptDone (ok : Bool) (s : State) : State :=
  match s.sl.ckptWrite with
  | none => s
  | some w =>
    if ok then
      bump rgSeal 0 16 1 (ckptLoad { s with
        mram := wrBytes s.mram (ckptAddr w.slot) w.data, sl := { s.sl with ckptWrite := none } })
    else mramViol 3 (ckptFail s)

/-- CHECKPOINT_WRITE_DONE (R285). -/
def execCheckpointWriteDone (t : Instant) (readBackOk : Bool) (s : State) : Host.Outcome State Fault Refusal :=
  .next (ckptDone readBackOk (advance t s))

end Sys2Proof.Machine
end

