-- ==== Sys2Proof/Machine/Jobs.lean ====
section
/-!
DEFINITION. Jobs.lean: job descriptors, submission and placement (09 R209 to R215), admission against energy (03 R68 to
R71), decisions, judgement, start and cancellation (04 R109 to R112; 09 R216 to R226), and the job commands.
-/

namespace Sys2Proof.Machine

/-! ### Free values (log 3) -/

/-- The next free value, with the unit after its draw. -/
def drawFree (s : State) : Nat × State := (Config.freeNat s.free, { s with free := s.free + 1 })

/-! ### Energy (R68 to R70), in mJ, mW and codes -/

/-- BANK_MJ: the usable energy 0.8 F (V² - 25 V²) of the bank, 0.8 V² J less 20 J, less 400 mJ, truncated and never below 0 (R68);
the largest value it can report is 59 600 mJ (R70). -/
def bankMj (s : State) : Nat := min 59600 (8 * (s.pwr.bankUv * s.pwr.bankUv) / 10000000000 - 20400)

/-- P_B of the tier in mW (Table 3-1). -/
def pbMw (s : State) : Nat :=
  match tier s with | 3 => 64000 | 2 => 45000 | 1 => 22000 | _ => 11000

/-- Octets active. -/
def octCount (s : State) : Nat := (bitsOf 8 s.pwr.octActive.toNat).length

/-- P_I, the Day idle draw, in mW. -/
def piMw (s : State) : Nat := 12000 + 2000 * octCount s

/-- X of a power class in mW (Table 3-7). -/
def classMw : Nat → Nat
  | 0 => 0 | 1 => 2000 | 2 => 4000 | 3 => 6000 | 4 => 9000 | 5 => 12000 | 6 => 18000 | 7 => 26000 | 8 => 34000
  | 9 => 43000 | 10 => 51000 | 11 => 60000 | 12 => 68000 | _ => 0

/-- Codes since a job started; 0 before. -/
def ranFor (s : State) (x : Slot) : Nat :=
  match x.st, x.start with
  | .running, some c => s.tim.codes - c
  | _, _ => 0

/-- What running jobs and windows declare: X in mW and the remaining part of a declared length in codes, none where no
length is declared (R70, R301). -/
def runningDecl (s : State) : List (Nat × Option Nat) :=
  ((slotsIn s JobSt.active).map fun i =>
    let x := slotAt s i
    (classMw x.desc.cls, if x.desc.tUs = 0 then none else some (cUs * x.desc.tUs - ranFor s x))) ++
  ((List.range 8).filterMap fun k => (octAt s k).win.map fun w => (6000, some (38 * cMs - (s.now - w.begun))))

inductive Admit where
  | yes | no | refused
  deriving DecidableEq, Repr

/-- The admission procedure of R70 for an excess `x` in mW and a declared length `t` in µs. -/
def admission (s : State) (x t : Nat) : Admit :=
  let e := bankMj s
  let run := (runningDecl s).filter fun d => d.1 != 0
  let d := piMw s + x + (run.map (·.1)).sum - pbMw s
  if e < 20000 then .no
  else if d = 0 then .yes
  else if t = 0 ∨ run.any (fun r => r.2.isNone) then .refused
  else
    let h := run.foldl (fun m r => max m (r.2.getD 0)) (cUs * t)
    if (59600 - 20000) * cS < d * h then .refused
    else if d * h ≤ cS * (e - 20000) then .yes
    else .no

/-! ### Stream rings as configured (R227) -/

def sringSize (s : State) (r : Nat) : Nat := fld (vget s.r.sringCfg r 0) 16 12
def sringBase (s : State) (r : Nat) : Nat := fld (vget s.r.sringCfg r 0) 0 12

/-- Whether two enabled rings overlap. -/
def sringOverlap (s : State) (a b : Nat) : Bool :=
  a != b && decide (sringBase s a < sringBase s b + sringSize s b) && decide (sringBase s b < sringBase s a + sringSize s a)
    && sringSize s a != 0 && sringSize s b != 0

/-- CFG_ERR of a ring. -/
def sringErr (s : State) (r : Nat) : Bool :=
  sringSize s r != 0 && (decide (2730 < sringBase s r + sringSize s r) || (List.range 4).any fun q => sringOverlap s r q)

/-- Whether a ring is enabled. -/
def sringOn (s : State) (r : Nat) : Bool := sringSize s r != 0 && !sringErr s r

/-! ### Descriptors (Table 9-1) -/

/-- A descriptor as submitted: little-endian in an image, network order in messages. -/
structure RawDesc where
  be : Bool
  bytes : List Byte
  deriving DecidableEq, Repr

/-- The field of `n` bytes at an offset. -/
def RawDesc.fd (d : RawDesc) (off n : Nat) : Nat :=
  let b := (d.bytes.drop off).take n
  if d.be then beNat b else leNat b

def RawDesc.list (d : RawDesc) : List Nat := (List.range (d.fd 2 2)).map fun i => d.fd (64 + 4 * i) 4

/-- DESC_FORMAT: a break of Table 9-1 or Table 10-7. START is reserved but for kinds 1 and 2, and all but the first four bytes
of it for kind 2. -/
def RawDesc.badFormat (d : RawDesc) : Bool :=
  let n := d.fd 2 2
  decide (d.bytes.length < 64) || decide (d.fd 0 2 ≠ 64 + 4 * n) || decide (d.bytes.length ≠ d.fd 0 2) ||
  n == 0 || decide (224 < n) || d.fd 4 1 == 0 || decide (16 ≤ d.fd 5 1) ||
  (decide (16 ≤ d.fd 7 1) && d.fd 7 1 != 255) || decide (d.fd 28 4 / 4096 ≠ 0) || decide (d.fd 28 4 / 16 % 16 ≠ 0) ||
  d.fd 36 28 != 0 || d.list.any (fun w => decide (4096 ≤ w)) ||
  (match d.fd 6 1 with
   | 1 => false
   | 2 => d.fd 20 8 != 0
   | k => decide (k < 5) && d.fd 16 12 != 0)

/-- UNIT_NO and RING_SIZE, and whether both are valid (14 R317, Table 14-8). -/
def unitNo (s : State) : Nat := fld s.r.ringCfg 8 5
def ringSize (s : State) : Nat := fld s.r.ringCfg 16 5
def ringValid (s : State) : Bool :=
  decide (2 ≤ ringSize s) && decide (ringSize s ≤ 16) && decide (1 ≤ unitNo s) && decide (unitNo s ≤ ringSize s)

/-- Whether the ring is closed at this unit (14 R323). -/
def ringClosed (s : State) : Bool :=
  ringValid s && s.ring.pa.aligned && s.ring.pb.aligned && s.ring.surveyOk && !s.ring.selfLoop &&
  s.ring.seen == 2 ^ ringSize s - 1 && s.ring.dup == 0

/-- Whether this unit is ring time master. -/
def isMaster (s : State) : Bool := s.ring.master == some (unitNo s - 1) && ringValid s

/-- The linear fit of offset samples, the oldest and the newest alike, extrapolated to `x`: least squares, rounded down to a code (14 R327;
DEDUCED, log 13). -/
def ringFit (l : List (Nat × Int)) (x : Nat) : Int :=
  let n : Int := l.length
  let st : Int := (l.map fun q => (q.1 : Int)).sum
  let so : Int := (l.map fun q => q.2).sum
  let stt : Int := (l.map fun q => (q.1 : Int) * q.1).sum
  let sto : Int := (l.map fun q => (q.1 : Int) * q.2).sum
  let den := n * stt - st * st
  if den = 0 then so / n else (so * stt - st * sto + x * (n * sto - st * so)) / den

/-- O, the offset to the master at the present instant (14 R327): 0 at the master itself (log 24). -/
def ringOfs (s : State) : Int :=
  if isMaster s ∨ s.ring.samples = [] then 0 else ringFit s.ring.samples s.tim.codes

/-- Whether the ring accepts a submission of kind 2 (14 R330). -/
def ringTakes (s : State) (trig : Nat) : Bool := ringValid s && ringClosed s && s.ring.sync && trig != 0

/-- START_KIND: a reserved kind, kind 4 from another source than the routine table, a bad START of kind 1, or a kind 2
that the ring does not accept. -/
def RawDesc.badKind (s : State) (d : RawDesc) (routine : Bool) : Bool :=
  match d.fd 6 1 with
  | 0 => false
  | 1 => decide (999999999 < d.fd 16 12 / 2 ^ 18 % 2 ^ 30) || decide (d.fd 16 12 % 1024 ≠ 0)
  | 2 => !ringTakes s (d.fd 16 4)
  | 3 => false
  | 4 => !routine
  | _ => true

/-- The job a descriptor describes; S of kind 4 comes from the routine table. -/
def RawDesc.job (d : RawDesc) : JobDesc :=
  { octMask := d.fd 4 1, cls := d.fd 5 1, kind := d.fd 6 1, slotReq := d.fd 7 1, tUs := d.fd 8 4, tolUs := d.fd 12 4
    start := if d.fd 6 1 = 1 then timeOfCode (d.fd 16 12) else 0
    trig := if d.fd 6 1 = 2 then d.fd 16 4 else 0
    policy := d.fd 28 4, tag := d.fd 32 4, list := d.list }

/-! ### Submission (R212, R213) -/

/-- CLOSED of Table 9-3 and G_SEQ_STATE. -/
def seqClosed (s : State) : Bool :=
  match s.pwr.st with
  | .evening | .day => false
  | .dawn => s.pwr.target == .night
  | _ => true

/-- The checks of codes 4 to 8 on a job. -/
def submitCheck (s : State) (d : JobDesc) : Nat :=
  if 13 ≤ d.cls then 4
  else if d.octMask &&& s.pwr.octActive.toNat ≠ d.octMask then 5
  else if d.octMask &&& s.clk.octFailed.toNat ≠ 0 ∨ coreFailed s then 6
  else if (bitsOf 4 (jobRings s d)).any (fun r => !sringOn s r) then 7
  else if d.list.any (fun e => (segStat s e).1 != 1) then 8
  else 0

/-- Whether a slot is free for placement (R214). -/
def slotFree (s : State) (i : Nat) : Bool := (slotAt s i).st == .free || (slotAt s i).st == .ended

/-- The slot a job takes, or its refusal code 10 or 11. -/
def slotFor (s : State) (req : Nat) : Nat × Nat :=
  if req < 16 then (if slotFree s req then (0, req) else (10, 0))
  else match (List.range 16).find? fun i => slotFree s i with
    | some i => (0, i)
    | none => (11, 0)

/-- The outcome of a submission: 0 and the slot with the job number, or a code of Table 9-3. -/
structure SubRes where
  code : Nat
  slot : Nat
  jobNo : Nat
  deriving DecidableEq, Repr

/-- A refusal is counted, and that of a routine or ring submission is an event of source 45 (R212). Sources are coded as
SOURCE of Table 9-10. -/
def refuse (source code : Nat) (s : State) : State × SubRes :=
  let s1 := bump rgJob 24 8 1 (if code = 9 then bump rgTset 8 8 1 s else s)
  (if 2 ≤ source then faultU 45 (source * 256 + code) s1 else s1, ⟨code, 0, 0⟩)

/-- Job numbers rise by one and skip 0 (R215). -/
def nextJobNo (n : Nat) : Nat := if n = 0xFFFFFFFF then 1 else n + 1

/-- Slots taken by placements already made in this cycle. -/
def placedNow (s : State) : List Nat := if sameCycle s.seqr.placeAt.1 s.now then s.seqr.placeAt.2 else []

/-- Whether a placement was open to a submission as the cycle began: the slot it names, or any slot, was free then. -/
def openAtStart (s : State) (req : Nat) : Bool :=
  let was := fun i => slotFree s i || (placedNow s).contains i
  if req < 16 then was req else (List.range 16).any was

/-- Stalls of a placement: one cycle behind each source that placed before it in the same cycle (R214); a submission that finds no
free slot as the cycle begins is refused before any placement. -/
def stalls (s : State) (req : Nat) : Nat := if openAtStart s req then (placedNow s).length else 0

/-- A job is placed in slot `i` in one cycle, stalled one cycle behind each source that placed before it in the same cycle
(R214, R215). Kinds 0 and 3 are due at placement (Table 9-2). -/
def place (source : Nat) (d : JobDesc) (i : Nat) (s : State) : State :=
  let l := placedNow s
  let at_ := s.now + 320 * l.length
  let no := nextJobNo s.nw.jobNo
  let x : Slot :=
    { st := .queued, source := source, desc := d, jobNo := no, order := s.seqr.nextOrder, placedAt := at_
      dueAt := if d.kind = 0 ∨ d.kind = 3 then some at_ else none
      start := if d.kind = 1 ∨ d.kind = 4 then some d.start else none }
  { s with
    nw := { s.nw with jobNo := no }
    seqr := { s.seqr with
      slots := vmod s.seqr.slots i fun _ => x, nextOrder := s.seqr.nextOrder + 1, placeAt := (s.now, i :: l) } }

/-- The edge-order check of a submission reports in G_TSET_CHECK; the slot of one refused before it has a slot is a free value
(log 3). -/
def submitEdge (d : JobDesc) (f : Option TFail) (s : State) : State :=
  let sl := slotFor s d.slotReq
  if d.slotReq < 16 ∨ (f = none ∧ sl.1 = 0) then
    { s with seg := { s.seg with tchk := checkReport false (if d.slotReq < 16 then d.slotReq else sl.2) f } }
  else
    let v := drawFree s
    { v.2 with seg := { v.2.seg with tchk := checkReport false (v.1 % 16) f } }

/-! ### Readiness (R109, R218, R300, R400) -/

/-- Stream rings selected by jobs in CHECKING, ARMED or RUNNING. -/
def ringsBusy (s : State) : Nat :=
  (slotsIn s JobSt.active).foldl (fun m i => m ||| jobRings s (slotAt s i).desc) 0

/-- Whether a job is ready to start. -/
def ready (s : State) (d : JobDesc) : Bool :=
  coreLocked s && (bitsOf 8 d.octMask).all (fun k =>
    octLocked s k && (octAt s k).win.isNone && !((octAt s k).calOverdue && (octAt s k).calPend.isSome)) &&
  decide (d.octMask &&& stoppedMask s = 0) && decide (d.octMask &&& octBusy s = 0) &&
  decide (jobRings s d &&& ringsBusy s = 0)

/-! ### Decisions (R217) -/

/-- The local start instant of a ring trigger: S - O of its latest assignment while SYNC is 1, otherwise as last computed
(14 R330). -/
def trigStart (s : State) (x : Slot) : Option Nat :=
  if s.ring.sync then
    match s.ring.trigs.find? fun a => a.1 == x.desc.trig with
    | some a => some ((a.2 : Int) - ringOfs s).toNat
    | none => x.start
  else x.start

/-- The first cycle origin at or after an instant. -/
def cycleUp (k : Instant) : Instant := (k + 319) / 320 * 320

/-- Kernel instant 10 µs before a Tamong time. -/
def judgeAt (s : State) (c : Nat) : Instant := kernOf s c - 10 * cUs

/-- A queued job becomes due at its instant (Table 9-2); while VALID is 0, kinds 1 and 4 are held (R112). -/
def markDue (i : Nat) (s : State) : State :=
  let x := slotAt s i
  if x.st = .queued ∧ x.dueAt = none then
    let c := if x.desc.kind = 2 then trigStart s x else x.start
    match c with
    | none => s
    | some c =>
      if (x.desc.kind = 2 ∨ s.tim.valid) ∧ judgeAt s c ≤ s.now then
        modSlot i (fun x => { x with start := some c, dueAt := some (max (judgeAt s c) x.placedAt) }) s
      else modSlot i (fun x => { x with start := some c }) s
  else s

/-- Queued jobs that are due, in the order in which they became so, then in placement order. -/
def dueJobs (s : State) : List Nat :=
  let key := fun i => (cycleOf ((slotAt s i).dueAt.getD 0), (slotAt s i).order)
  ((slotsIn s (· == .queued)).filter fun i =>
    match (slotAt s i).dueAt with | some k => decide (cycleOf k ≤ cycleOf s.now) | none => false).mergeSort
    fun a b => decide ((key a).1 < (key b).1) || ((key a).1 == (key b).1 && decide ((key a).2 ≤ (key b).2))

/-- Whether a job has a start instant S (kinds 1, 2 and 4). -/
def timed (d : JobDesc) : Bool := d.kind == 1 || d.kind == 2 || d.kind == 4

/-- The start instant of a job decided now, with whether it is late; none where it may not start (R111, R211). -/
def startFor (s : State) (x : Slot) : Option (Option Nat × Bool) :=
  if timed x.desc then
    match x.start with
    | none => none
    | some c =>
      if s.now < cycleUp (judgeAt s c) + 320 then some (some c, false)
      else if x.desc.tolUs ≠ 0 ∧ 10 * cUs + s.now ≤ kernOf s c + cUs * x.desc.tolUs then
        some (some (tamOf s (10 * cUs + s.now)), true)
      else none
  else if x.desc.kind = 0 then some (some (tamOf s (10 * cUs + s.now)), false)
  else some (none, false)

/-- Fetching from the rings of a mask starts at their first piece not yet consumed. -/
def ringsFromRd (mask : Nat) (s : State) : State :=
  let f := fun (r : Nat) (x : SRing) => if mask.testBit r then { x with fetched := x.rd } else x
  { s with seqr := { s.seqr with srings := vmap s.seqr.srings f } }

/-- A job moves to CHECKING: its entries and timing sets enter use in this cycle, so that a write of the same cycle to one of them is
refused (R186, R198, R219), and its vectors are fetched from here (R184, R202). -/
def beginCheck (i : Nat) (st : Option Nat) (late : Bool) (s00 : State) : State :=
  let d := (slotAt s00 i).desc
  let s0 := takeBackFor (d.list.foldl (fun m e => m ||| 2 ^ segTset s00 e) 0) d.list s00
  let s := ringsFromRd (jobRings s0 d) s0
  modSlot i (fun x => { x with
    st := .checking, readySeen := true, lateDue := late, checkAt := s.now, start := st, judged := true, headSince := none
    play := {} }) s

/-- The head of the queue waits; one of kind 0 or 3 that is not admitted, or that names a stopped octet, runs the limit of
R221 (R400). -/
def atHead (i : Nat) (a : Admit) (s : State) : State :=
  let x := slotAt s i
  let counts := (x.desc.kind = 0 ∨ x.desc.kind = 3) ∧ (a ≠ .yes ∨ x.desc.octMask &&& stoppedMask s ≠ 0)
  let s1 := { s with seqr := { s.seqr with
    head := (if h : i < 16 then some ⟨i, h⟩ else none), admitWait := ready s x.desc && decide (a ≠ .yes) } }
  modSlot i (fun x => { x with headSince := if counts then (match x.headSince with | some k => some k | none => some s.now) else none }) s1

/-- The decision of one due job (R217, R218, R221): the unit after it, and whether the next due job is decided as well. -/
def decideOne (i : Nat) (s : State) : State × Bool :=
  let x := slotAt s i
  let a := admission s (classMw x.desc.cls) x.desc.tUs
  if s.evid.full then (endJob 6 0 false i s, true)
  else match a, startFor s x with
    | .refused, _ => (endJob 12 0 false i s, true)
    | .yes, some st => if ready s x.desc then (beginCheck i st.1 st.2 s, true) else (atHead i a s, false)
    | _, _ => (atHead i a s, false)

/-- The due jobs in order: each that is ready and admitted moves to CHECKING, each decided while FULL is 1 ends, each refused
for energy ends, and the first that is not ready and admitted is the head (R71, R217, R254). -/
def decideDue : List Nat → State → State
  | [], s => { s with seqr := { s.seqr with head := none, admitWait := false } }
  | i :: l, s => if (decideOne i s).2 then decideDue l (decideOne i s).1 else (decideOne i s).1

/-- Jobs become due and the due jobs are decided, while admission is open (R66, R217). -/
def jobDue (s : State) : State :=
  let s1 := (List.range 16).foldl (fun s i => markDue i s) s
  if seqClosed s1 then s1 else decideDue (dueJobs s1) s1

/-- JOB_DUE (R217). -/
def execJobDue (t : Instant) (s : State) : Host.Outcome State Fault Refusal := .next (jobDue (advance t s))

/-- A submission (R212 to R214): the checks of Table 9-3 in order, then placement and the decision of the same cycle. `occ` gives
a routine occurrence: its entry and its S. -/
def submit (source : Nat) (raw : RawDesc) (occ : Option (Nat × Nat)) (s : State) : State × SubRes :=
  if seqClosed s then refuse source 1 s
  else if raw.badFormat then refuse source 2 s
  else if raw.badKind s occ.isSome then refuse source 3 s
  else
    let d0 := raw.job
    let d := match occ with | some o => { d0 with kind := 4, start := o.2 } | none => d0
    let d := if 2 ≤ source then { d with slotReq := 255 } else d
    let c := submitCheck s d
    if c ≠ 0 then refuse source c s
    else
      let f := jobEdgeCheck s d
      let s1 := submitEdge d f s
      let sl := slotFor s1 d.slotReq
      let stalled := fun (s : State) => if stalls s d.slotReq = 0 then s else bump rgJob 0 8 (stalls s d.slotReq) s
      if f.isSome then refuse source 9 s1
      else if sl.1 ≠ 0 then refuse source sl.1 (stalled s1)
      else
        let s2 := place source d sl.2 (stalled s1)
        (jobDue s2, ⟨0, sl.2, s2.nw.jobNo⟩)

/-! ### Start check, judgement and start -/

/-- The start check completes (R184, R185, R198): it reports in G_TSET_CHECK, and the job is ARMED or ends. -/
def startCheckDone (i : Nat) (s : State) : State :=
  let x := slotAt s i
  if x.st = .checking then
    let f := jobEdgeCheck s x.desc
    let s1 := { s with seg := { s.seg with tchk := checkReport false i f } }
    match f with
    | some f => jobDue (endJob 10 f.rule false i s1)
    | none =>
      if x.desc.list.any fun e => (segStat s e).1 != 1 then jobDue (endJob 11 0 false i s1)
      else modSlot i (fun x => { x with st := .armed }) s1
  else s

/-- START_CHECK_DONE (R219). -/
def execStartCheckDone (t : Instant) (slot : Fin 16) (s : State) : Host.Outcome State Fault Refusal :=
  .next (startCheckDone slot.val (advance t s))

/-- Whether a slot still waits for its decision: queued, or ended in this cycle by a cause that a lower code may replace. -/
def undecided (s : State) (x : Slot) : Bool :=
  x.st == .queued || (x.st == .ending && !x.readySeen && sameCycle x.endAt s.now)

/-- At S - 10 µs a timed job that is not ready and admitted ends with LATE_START where its tolerance is 0, and otherwise may start
late (R111). -/
def judge (i : Nat) (s : State) : State :=
  let x := slotAt s i
  match x.start with
  | none => s
  | some c =>
    if timed x.desc ∧ undecided s x ∧ x.dueAt.isSome ∧ judgeAt s c ≤ s.now ∧ !x.judged then
      if x.desc.tolUs = 0 then endJob 8 0 false i s
      else modSlot i (fun x => { x with judged := true }) s
    else s

/-- JOB_JUDGEMENT (R111): the decision of this cycle, then the judgement. -/
def execJobJudgement (t : Instant) (slot : Fin 16) (s : State) : Host.Outcome State Fault Refusal :=
  .next (judge slot.val (jobDue (advance t s)))

/-- The JOB_START record of slot `i` (Table 10-5), at the job's start time. -/
def jobStartRec (i : Nat) (x : Slot) (c : Nat) : Rec :=
  mkRec 0x10 0 0 (b2n (x.desc.policy.testBit 11) * hNotify) x.jobNo c
    (x.desc.policy + 2 ^ 32 * x.desc.tag + 2 ^ 64 * x.desc.octMask + 2 ^ 72 * i + 2 ^ 76 * x.desc.kind +
     2 ^ 79 * b2n x.lateDue + 2 ^ 80 * x.desc.cls)

/-- The lowest source whose stop octet reaction covers an octet of the mask. -/
def stopCauseOf (s : State) (mask : Nat) : Nat :=
  ((List.range 48).find? fun src => fltReact s src == 1 && (scopesOf src).any fun o =>
    (scopeAt s src o).severe && decide (covered s src o &&& mask ≠ 0)).getD 0

/-- The pins of a job as it starts: those of its octets leave the safe state and underrun holds, but for pins of a stopped
octet, which stay safe (R156, R206, R400). -/
def startPins (mask : Nat) (s : State) : State :=
  let stop := stoppedMask s
  let f := fun (n : Nat) (p : PinCh) => if stop.testBit (n / 8) then p.toSafe s.now else p.toIdle
  mapPins mask f s

/-- The unit as it stands before a start of slot `i` is kept while the cycle lasts, in case a cancel takes the start back (R223). -/
def noteStart (i : Nat) (s : State) : State :=
  { s with seqr := { s.seqr with
      starts := ⟨i, s.now, slotAt s i, s.pins, s.octs, s.caps⟩ :: s.seqr.starts.filter fun u => sameCycle u.at_ s.now } }

/-- An armed job reaches its start instant: RUNNING, with its JOB_START record at the origin of cycle 0; one that names a
stopped octet ends with FAULT_STOP at the end of cycle 0 (R219, R234, R400). -/
def jobStart (i : Nat) (s : State) : State :=
  let x := slotAt s i
  match x.start with
  | none => s
  | some c =>
    if x.st = .armed ∧ c ≤ s.tim.codes then
      let s1 := startPins x.desc.octMask (modSlot i (fun x => { x with
        st := .running, late := x.lateDue, play := { x.play with name := 0, play := 0, cyc := 0, n := 0, org := c, cacheEn := bit s.r.segCtrl 8 } }) (noteStart i s))
      let s2 := pushUnit (jobStartRec i x c) s.now s1
      if x.desc.octMask &&& stoppedMask s ≠ 0 then
        orderStop false 14 (stopCauseOf s x.desc.octMask) false i s2
      else s2
    else s

/-- JOB_START_INSTANT (R219). -/
def execJobStartInstant (t : Instant) (slot : Fin 16) (s : State) : Host.Outcome State Fault Refusal :=
  .next (jobStart slot.val (advance t s))

/-- A timed job still not ready and admitted at S + U ends with LATE_START (R111). -/
def lateExpiry (i : Nat) (s : State) : State :=
  let x := slotAt s i
  match x.start with
  | none => s
  | some c =>
    if timed x.desc ∧ x.st = .queued ∧ (x.desc.kind = 2 ∨ s.tim.valid) ∧ kernOf s c + cUs * x.desc.tolUs ≤ s.now then
      jobDue (endJob 8 0 false i s)
    else s

/-- LATE_START_EXPIRY (R111). -/
def execLateStartExpiry (t : Instant) (slot : Fin 16) (s : State) : Host.Outcome State Fault Refusal :=
  .next (lateExpiry slot.val (advance t s))

/-- HOLD_MAX_S in codes (Table 4-10). -/
def holdMax (s : State) : Nat := cS * fld s.r.timeSrc 16 16

/-- The hold of a job passes HOLD_MAX_S: kinds 1 and 4 while VALID is 0, kind 2 without an assignment, and kind 3 that has
seen no PPS edge (R112, R219; 14 R330). -/
def holdExpiry (i : Nat) (s : State) : State :=
  let x := slotAt s i
  let waits :=
    (x.st == .queued && x.dueAt.isNone && (((x.desc.kind == 1 || x.desc.kind == 4) && !s.tim.valid) ||
      (x.desc.kind == 2 && (trigStart s x).isNone))) ||
    (x.desc.kind == 3 && (x.st == .queued || x.st == .checking || (x.st == .armed && x.start.isNone)))
  if waits ∧ x.placedAt + holdMax s ≤ s.now then jobDue (endJob 8 0 false i s) else s

/-- HOLD_LIMIT_EXPIRY (R112). -/
def execHoldLimitExpiry (t : Instant) (slot : Fin 16) (s : State) : Host.Outcome State Fault Refusal :=
  .next (holdExpiry slot.val (advance t s))

/-- ADMIT_MAX_S in codes, where 0 is taken as 60 (Table 9-9). -/
def admitMax (s : State) : Nat := cS * (if fld s.r.seqCfg 0 16 = 0 then 60 else fld s.r.seqCfg 0 16)

/-- A due job of kind 0 or 3 has stayed at the head, not admitted, for ADMIT_MAX_S (R221). -/
def admitExpiry (i : Nat) (s : State) : State :=
  let x := slotAt s i
  match x.headSince with
  | none => s
  | some k => if x.st = .queued ∧ k + admitMax s ≤ s.now then jobDue (endJob 13 0 false i s) else s

/-- ADMIT_TIMEOUT_EXPIRY (R221). -/
def execAdmitTimeoutExpiry (t : Instant) (slot : Fin 16) (s : State) : Host.Outcome State Fault Refusal :=
  .next (admitExpiry slot.val (advance t s))

/-- In Evening a queued job's start condition wakes the unit towards Day: kinds 0 and 3 when due, timed kinds at S - 5 ms
(R220). -/
def wakeCondition (i : Nat) (s : State) : State :=
  let x := slotAt s i
  let c := if x.desc.kind = 2 then trigStart s x else x.start
  let holds : Bool := match c with
    | some c => timed x.desc && (x.desc.kind == 2 || s.tim.valid) && decide (kernOf s c ≤ 5 * cMs + s.now)
    | none => !timed x.desc
  if (s.pwr.st = .evening ∨ s.pwr.st = .dusk) ∧ x.st = .queued ∧ holds then pwrRequest .day 6 0 s else s

/-- JOB_WAKE_CONDITION (R220). -/
def execJobWakeCondition (t : Instant) (slot : Fin 16) (s : State) : Host.Outcome State Fault Refusal :=
  .next (wakeCondition slot.val (advance t s))

/-! ### Cancellation (R222, R223) -/

/-- A pin as it was before a start that is taken back: its drive, its loaded values and what it held; its registers and its input stay. -/
def PinCh.back (old p : PinCh) : PinCh :=
  { old with cfg := p.cfg, lvlDrv := p.lvlDrv, lvlCmp := p.lvlCmp, lvlTt := p.lvlTt, inp := p.inp, ovc := p.ovc, ovcAt := p.ovcAt }

/-- An octet as it was before: what strobes of the cycle loaded is back; its registers stay. -/
def OctCh.back (old o : OctCh) : OctCh :=
  { o with
    strobes := old.strobes, lastSrc := old.lastSrc, lastStrobe := old.lastStrobe, ldFtw := old.ldFtw, ldLvl := old.ldLvl
    ldRun := old.ldRun, ldPhase := old.ldPhase, acc := old.acc, code := old.code, waveSat := old.waveSat, waveAt := old.waveAt
    pending := old.pending || o.pending }

/-- A start of this very cycle taken back, with its JOB_START record and all its cycle 0 has done (R223): the slot is armed as before,
and the pins, octets and capture engines of the job are as they were. -/
def unstart (i : Nat) (s : State) : State :=
  match s.seqr.starts.find? fun u => u.slot == i && sameCycle u.at_ s.now with
  | none => s
  | some u =>
    let x := slotAt s i
    if x.st = .running ∨ (x.st = .ending ∧ x.endSt = 1 ∧ !x.endLine) then
      let m := u.x.desc.octMask
      let s0 := if x.st = .ending then { s with evPend := dropEnd x.endCode x.cause s.evPend } else s
      let s1 := dropActs u.x.jobNo m (modSlot i (fun _ => u.x) s0)
      { s1 with
        seqr := { s1.seqr with starts := s1.seqr.starts.filter fun v => v.slot != i }
        pins := vmap s1.pins fun n p => if m.testBit (n / 8) then (vget u.pins n {}).back p else p
        octs := vmap s1.octs fun k o => if m.testBit k then (vget u.octs k {}).back o else o
        caps := vmap s1.caps fun k c => if m.testBit k then { c with run := (vget u.caps k {}).run, grp := (vget u.caps k {}).grp } else c
        evid := { s1.evid with unitQ := s1.evid.unitQ.filter fun q =>
          !(recType q.body == 0x10 && q.body.jobNo.toNat == u.x.jobNo && sameCycle q.at_ s.now) } }
    else s

/-- A cancel of slot `i`: the decisions of its cycle come first, so that READY_SEEN tells of a job it finds ready and admitted; a start
or a later end cause of the same cycle gives way to it (R223, R225). -/
def cancelSlot (i : Nat) (s00 : State) : State :=
  let s0 := if (slotAt s00 i).st = .queued then jobDue s00 else s00
  let s := unstart i s0
  let seen := modSlot i (fun x => { x with cancelSeen := true }) s
  match (slotAt s i).st with
  | .queued | .checking | .armed => endJob 2 0 false i seen
  | .running => orderStop true 3 0 false i seen
  | .ending =>
    let x := slotAt s i
    if sameCycle x.endAt s.now ∧ x.endSt = 1 ∧ !x.endLine ∧ x.play.n = 0 ∧ 2 < x.endCode then endJob 2 0 false i seen else s
  | _ => s

/-- The slots of a mask are cancelled. -/
def cancelMask (mask : Nat) (s : State) : State := (bitsOf 16 mask).foldl (fun s i => cancelSlot i s) s

/-- JOB_CANCEL_WRITE (R222). -/
def execJobCancelWrite (t : Instant) (port : Port) (val : Word) (s : State) : Host.Outcome State Fault Refusal :=
  .next (portWrite port 0x314 val (fun s => (cancelMask (fld val 0 16) s, .done)) (advance t s))

/-- The slot whose end record is chained moves to ENDED, and the due jobs are decided again. -/
def jobEndChained (i : Nat) (s : State) : State :=
  let x := slotAt s i
  if x.st = .ending ∧ x.endSt = 3 then jobDue (modSlot i (fun x => { x with st := .ended }) s) else s

/-- JOB_END_CHAINED (R226). -/
def execJobEndChained (t : Instant) (slot : Fin 16) (s : State) : Host.Outcome State Fault Refusal :=
  .next (jobEndChained slot.val (advance t s))

/-! ### Stream ring reset (R231) -/

/-- A host reset has no effect on a ring that a job in CHECKING, ARMED or RUNNING selects, and is then reported as refused; the
other rings it names are reset (log 19). -/
def sringResetWrite (val : Word) (s : State) : State × BusRes :=
  let m := fld val 0 4
  if m &&& ringsBusy s ≠ 0 then (resetRings (m - (m &&& ringsBusy s)) s, .access) else (resetRings m s, .done)

/-- SRING_RESET_WRITE (R231). -/
def execSringResetWrite (t : Instant) (port : Port) (val : Word) (s : State) : Host.Outcome State Fault Refusal :=
  .next (portWrite port 0x320 val (sringResetWrite val) (advance t s))

end Sys2Proof.Machine
end

