-- ==== Sys2Proof/Machine/Player.lean ====
section
/-!
DEFINITION. Player.lean: the vectors of a running job: what one cycle queues for its instants (06 R154; 07 R174 to R181; 10 R233),
underrun (08 R204, R205), the fetch of granules and the cache (08 R202, R203), stops (09 R224), and the command VECTOR_CYCLE.
-/

namespace Sys2Proof.Machine

/-! ### What one cycle queues -/

/-- The levels a formatter sets at D1, D2 and D3 with data `d` (Table 7-4): none where the edge sets no level. -/
def fmtLevels (fmt : Nat) (d : Bool) : Option Bool × Option Bool × Option Bool :=
  match fmt with
  | 0 => (none, some d, none)
  | 1 => (none, some !d, none)
  | 2 => (some false, some d, some false)
  | 3 => (some true, some d, some true)
  | 4 => (some !d, some d, some !d)
  | 5 => (none, some d, some !d)
  | _ => (none, none, none)

/-- The drive edges of one cycle of a state under an entry (Tables 7-2, 7-4, 7-5 and 6-2; R175, R176, R179, R180): D1, D2 and, where the
formatter uses it, D3 in a drive cycle; D4 in any other. Under HOLD no edge of a drive cycle acts. -/
def edgesOf (fmt c : Nat) (e : TEntry) : List DrvEdge :=
  if stDrives c then
    match fmtLevels fmt (c == 3) with
    | (l1, some l2, l3) =>
      [⟨e.d1, false, true, l1, l2, false⟩, ⟨e.d2, false, false, some l2, l2, false⟩] ++
        (match l3 with | some l => [⟨e.d3, false, false, some l, l, false⟩] | none => [])
    | _ => []
  else [⟨e.d4, true, false, none, false, c == 1⟩]

/-- The compare or capture of a state under an entry (R181): none in a state that does neither. -/
def winOf (a : CycAt) (c : Nat) (e : TEntry) : Option PinWin :=
  if stCompares c || stCaptures c then some { st := c, strobe := e.strobe, c1 := e.c1, c2 := e.c2, a := a } else none

/-- What a cycle queues for pin `n` in state `c`: its drive edges, C1 and C2, each at its code from the cycle's origin (R174). In strobe
mode a compare has no C2. -/
def pinActs (a : CycAt) (n c : Nat) (e : TEntry) : List Act :=
  ((edgesOf e.fmt c e).map fun d => ⟨a.korg + d.code, a.jobNo, .edge n d⟩) ++
  (if stCompares c || stCaptures c then [⟨a.korg + e.c1, a.jobNo, .c1 n⟩] else []) ++
  (if (stCompares c && !e.strobe) || stCaptures c then [⟨a.korg + e.c2, a.jobNo, .c2 n⟩] else [])

/-- The steps of the pins' inputs from an instant on. -/
def inputActs (k : Instant) (obs : List PinObs) : List Act :=
  obs.flatMap fun o => o.steps.map fun x => ⟨k + x.at_, 0, .input o.pin.val x.u⟩

/-- Happenings queued, each in its place. -/
def scheduleAll (l : List Act) (s : State) : State :=
  { s with seqr := { s.seqr with acts := l.foldl (fun m a => actPut a m) s.seqr.acts } }

/-! ### Fetch (R203) -/

/-- Vectors in the prefetch buffer, of all jobs. -/
def buffered (s : State) : Nat :=
  (slotsIn s JobSt.active).foldl (fun m i => m + (slotAt s i).play.buf.length) 0

/-- Granules of the cache in use. -/
def cacheUsed (s : State) : Nat :=
  (slotsIn s JobSt.active).foldl (fun m i => m + (slotAt s i).play.cacheG) 0

/-- The entry a naming of a job names. -/
def nameAt (x : Slot) (k : Nat) : Option Nat := x.desc.list[k]?

/-- Pieces of ring `r` that a fetch takes: to the end of the granule, as far as they are written (log 20). -/
def piecesReady (s : State) (r : Nat) : Nat :=
  let q := vget s.seqr.srings r {}
  min (2 - q.fetched % 2) ((2 ^ 32 + q.wr - q.fetched) % 2 ^ 32)

/-- Whether the first play of a naming is served from the cache later: none where the naming has not begun, so that it is not
known yet; its later plays are not fetched before (R203). -/
def fetchOnce (x : Slot) (s : State) (k e : Nat) : Option Bool :=
  if 1 ≤ segLoop s e ∧ !segStream s e then
    (if x.play.name = k ∧ (0 < x.play.cyc ∨ 0 < x.play.play) then some (x.play.cacheG != 0) else none)
  else some false

/-- The position fetched next, moved past what needs no fetch: none where nothing is left or the cache is not yet decided. -/
def fetchPos (x : Slot) (s : State) : Option (Nat × Nat × Nat) :=
  let p := x.play
  match nameAt x p.fName with
  | none => none
  | some e =>
    if p.fGran < segLenG s e ∧ p.fPlay = 0 then some (p.fName, p.fPlay, p.fGran)
    else
      match fetchOnce x s p.fName e with
      | none => none
      | some once =>
        if p.fGran < segLenG s e then some (p.fName, p.fPlay, p.fGran)
        else if p.fPlay < segLoop s e ∧ !segStream s e ∧ !once then some (p.fName, p.fPlay + 1, 0)
        else if p.fName + 1 < x.desc.list.length then some (p.fName + 1, 0, 0) else none

/-- Whether a job has a granule to fetch now. -/
def canFetch (s : State) (i : Nat) : Bool :=
  let x := slotAt s i
  match fetchPos x s with
  | none => false
  | some f =>
    match nameAt x f.1 with
    | none => false
    | some e => if segStream s e then decide (piecesReady s (segRing s e) ≠ 0) else true

/-- The 32 vectors of a piece. -/
def pieceVecs (b : List Byte) : List Vec192 :=
  (List.range 32).map fun j => BitVec.ofNat 192 (leNat ((b.drop (24 * j)).take 24))

/-- The bytes of piece `q` of a ring. -/
def pieceAt (x : SRing) (q : Nat) : List Byte := ((x.pieces.find? fun p => p.1 == q).map (·.2)).getD []

/-- One granule of job `i` fetched into its buffer. -/
def fetchInto (i : Nat) (s : State) : State :=
  let x := slotAt s i
  match fetchPos x s with
  | none => s
  | some f =>
    match nameAt x f.1 with
    | none => s
    | some e =>
      if segStream s e then
        let r := segRing s e
        let q := vget s.seqr.srings r {}
        let n := piecesReady s r
        let vs := (List.range n).flatMap fun j => pieceVecs (pieceAt q (q.fetched + j))
        let s1 := { s with seqr := { s.seqr with srings := vmod s.seqr.srings r fun q => { q with fetched := (q.fetched + n) % 2 ^ 32 } } }
        modSlot i (fun x => { x with play := { x.play with
          buf := x.play.buf ++ vs, fName := f.1, fPlay := f.2.1
          fGran := if (q.fetched + n) % 2 = 0 then f.2.2 + 1 else f.2.2 } }) s1
      else
        let vs := (List.range 64).map fun j => vectorAt s (segStart s e + 64 * f.2.2 + j)
        modSlot i (fun x => { x with play := { x.play with
          buf := x.play.buf ++ vs, fName := f.1, fPlay := f.2.1, fGran := f.2.2 + 1 } }) s

/-- A VF transfer brings one granule to the running job with the fewest vectors buffered, the lowest slot among equals, while
the buffer of 16 384 vectors has room (log 20). -/
def vfFetch (s : State) : State :=
  if buffered s + 64 ≤ 16384 then
    let c := (slotsIn s JobSt.active).filter fun i => canFetch s i
    match c with
    | [] => s
    | i :: l => fetchInto (l.foldl (fun m j =>
        if (slotAt s j).play.buf.length < (slotAt s m).play.buf.length then j else m) i) s
  else s

/-! ### Underrun (R204, R205) -/

/-- Word 5 of an entry: UR_MODE; word 4: LOAD_OCT and LOAD_EVERY. -/
def segUr (s : State) (e : Nat) : Nat := fld (segWord s e 5) 0 3
def segLoadOct (s : State) (e : Nat) : Nat := fld (segWord s e 4) 0 8
def segLoadEvery (s : State) (e : Nat) : Bool := bit (segWord s e 4) 8

/-- A pin under an underrun mode (Table 8-5); a pin in the safe state stays so. -/
def urPin (now : Instant) (mode : Nat) (p : PinCh) : PinCh :=
  if mode = 0 then p.toSafe now
  else if p.safe then p
  else if p.drv ∧ mode ≠ 2 then
    { p with hold := some mode, lvl := if mode = 3 then false else if mode = 4 then true else p.lvl }
  else { p with hold := some mode, drv := false, term := ldTerm p, dz := false }

/-- The cause of a missing vector of entry `e`: stream where its piece is not written, else fetch (R230). -/
def missCause (e : Nat) (s : State) : Nat :=
  let q := vget s.seqr.srings (segRing s e) {}
  if segStream s e ∧ q.rd = q.wr then 1 else 2

/-- The job in slot `i` underruns at the origin of a cycle of entry `e`, with cause 1 stream or 2 fetch. -/
def underrun (i e cause : Nat) (s : State) : State :=
  let x := slotAt s i
  let ring := segRing s e
  let notes := (vget s.seqr.srings ring {}).notes
  let mode := segUr s e
  let s1 := endJob 5 cause false i s
  let s2 := mapPins x.desc.octMask (fun _ p => urPin s.now mode p) s1
  let s3 := { s2 with seg := { s2.seg with urMode := mode, urCause := cause, urSlot := i } }
  if cause = 1 then faultU 22 (ring * 4096 + i * 256 + min notes 255) s3 else faultU 23 i s3

/-! ### One cycle -/

/-- The vector of the present cycle: from the cache in later plays of a cached naming, otherwise from the buffer. -/
def curVec (p : Play) : Option Vec192 :=
  if 0 < p.play ∧ p.cacheG ≠ 0 then p.cacheV[p.cyc]? else p.buf.head?

/-- The cache is allocated as the first play of a naming begins (R203). -/
def allocCache (i e : Nat) (s : State) : State :=
  let x := slotAt s i
  if x.play.cyc = 0 ∧ x.play.play = 0 then
    let ok := x.play.cacheEn && decide (1 ≤ segLoop s e) && !segStream s e && decide (cacheUsed s + segLenG s e ≤ 5461)
    modSlot i (fun x => { x with play := { x.play with cacheG := if ok then segLenG s e else 0, cacheV := [] } }) s
  else s

/-- Load strobes requested at cycle 0 of a play, for octets the job names (R201). -/
def segStrobes (i e : Nat) (s : State) : State :=
  let x := slotAt s i
  if x.play.cyc = 0 ∧ (x.play.play = 0 ∨ segLoadEvery s e) then
    (bitsOf 8 (segLoadOct s e &&& x.desc.octMask)).foldl (fun s k =>
      if bit (octAt s k).loadCtrl 24 then strobe k 2 s else s) s
  else s

/-- The cycle of slot `i` played before ends: the piece whose last vector it played is consumed (R229), and after the last cycle of a
naming the cache is free again (R203). -/
def cycleEnds (i : Nat) (s : State) : State :=
  let x := slotAt s i
  let s1 := match x.play.eats with
    | none => s
    | some r =>
      let f := fun (q : SRing) => { q with rd := (q.rd + 1) % 2 ^ 32, pieces := q.pieces.filter fun p => p.1 != q.rd }
      { s with seqr := { s.seqr with srings := vmod s.seqr.srings r f } }
  modSlot i (fun x => { x with play := { x.play with
    eats := none, lastOf := false
    cacheG := if x.play.lastOf then 0 else x.play.cacheG, cacheV := if x.play.lastOf then [] else x.play.cacheV } }) s1

/-- The job goes on to its next cycle: the next of the play, the next play, or the next naming (R200 to R202). -/
def nextCycle (e : Nat) (v : Vec192) (s : State) (p : Play) : Play :=
  let fromCache := 0 < p.play ∧ p.cacheG ≠ 0
  let p1 := { p with
    n := p.n + 1, org := p.org + segPer s e, per := segPer s e
    buf := if fromCache then p.buf else p.buf.drop 1
    cacheV := if p.cacheG ≠ 0 ∧ p.play = 0 then p.cacheV ++ [v] else p.cacheV
    eats := if segStream s e ∧ p.cyc % 32 = 31 then some (segRing s e) else none }
  if p.cyc + 1 < 64 * segLenG s e then { p1 with cyc := p.cyc + 1 }
  else if p.play < segLoop s e ∧ !segStream s e then { p1 with cyc := 0, play := p.play + 1 }
  else { p1 with cyc := 0, play := 0, name := p.name + 1, lastOf := true }

/-- Octet `k` comes to a cycle of vector `v`: its capture engine opens the cycle (R233). -/
def octOpens (a : CycAt) (v : Vec192) (k : Nat) (s : State) : State :=
  let js := (List.range 8).filter fun j => stCompares (stateOf v (8 * k + j))
  openCycle k a (maskOf js) js.length s

/-- Entry `e` plays vector `v` in one cycle of slot `i`: the strobes of its first cycle, and its drive edges, compares, captures and
input steps queued for their instants (R174, R201, R233). -/
def playCycle (i e : Nat) (v : Vec192) (obs : List PinObs) (s0 : State) : State :=
  let s := segStrobes i e s0
  let x := slotAt s i
  let a : CycAt := ⟨x.jobNo, x.play.n, x.play.org, kernOf s x.play.org, x.desc.policy⟩
  let te := fun (n : Nat) => tsetEntry s (segTset s e) n
  let s1 := (bitsOf 8 x.desc.octMask).foldl (fun s k => octOpens a v k s) s
  let s2 := mapPins x.desc.octMask (fun n p => { p with win := winOf a (stateOf v n) (te n), wave := [] }) s1
  let s3 := scheduleAll (inputActs a.korg (obs.map fun o => { o with steps := o.steps.filter fun x => decide (x.at_ < segPer s e) }) ++
    (pinsOf x.desc.octMask).flatMap fun n => pinActs a n (stateOf v n) (te n)) s2
  modSlot i (fun y => { y with play := nextCycle e v s y.play }) s3

/-- The stop that takes effect at the origin of the present cycle, with the line loss first, then the lowest code and cause
(R224, R225): one ordered in an earlier cycle, at a granule boundary where it asks for one. -/
def stopNow (s : State) (x : Slot) : Option Stop :=
  let l := x.stops.filter fun t =>
    decide (cycleOf t.at_ < cycleOf (kernOf s x.play.org)) && (!t.gran || x.play.n % 64 == 0)
  l.foldl (fun m t => match m with
    | none => some t
    | some u =>
      if t.line && !u.line then some t
      else if u.line && !t.line then some u
      else if t.code < u.code ∨ (t.code = u.code ∧ t.cause < u.cause) then some t else some u) none

/-- The origin of a cycle of the job in slot `i` is reached: the cycle before it ends, and a stop takes effect, or the job has played its
last cycle, or its vector is missing, or the cycle is played (R204, R224, R230). Of causes that meet the lower code wins (R225; log 21). -/
def vectorOrigin (i : Nat) (obs : List PinObs) (s0 : State) : State :=
  let s := cycleEnds i s0
  let x := slotAt s i
  let st := stopNow s x
  match st with
  | some ⟨_, code, cause, _, true⟩ => jobDue (endJob code cause true i s)
  | _ =>
    match nameAt x x.play.name with
    | none => jobDue (endJob 1 0 false i s)
    | some e =>
      let s1 := allocCache i e s
      match curVec (slotAt s1 i).play with
      | some v =>
        (match st with
         | some t => jobDue (endJob t.code t.cause false i s)
         | none => playCycle i e v obs s1)
      | none =>
        match st with
        | some t =>
          if t.code < 5 then jobDue (endJob t.code t.cause false i s)
          else jobDue (underrun i e (missCause e s1) s1)
        | none => jobDue (underrun i e (missCause e s1) s1)

/-- VECTOR_CYCLE for slot `i`: a cycle of its job, or, where the slot plays none, only what the pins' inputs do from here (log 72). -/
def vectorCycle (i : Nat) (obs : List PinObs) (s : State) : State :=
  let x := slotAt s i
  if x.st = .running ∧ x.play.org ≤ s.tim.codes then vectorOrigin i obs s
  else scheduleAll (inputActs s.now obs) s

/-- VECTOR_CYCLE (R233). -/
def execVectorCycle (t : Instant) (slot : Fin 16) (obs : List PinObs) (s : State) : Host.Outcome State Fault Refusal :=
  .next (vectorCycle slot.val obs (advance t s))

end Sys2Proof.Machine
end

