-- ==== Sys2Proof/Machine/Arbiter.lean ====
section
/-!
DEFINITION. Arbiter.lean: the memory port arbiter (11 R260 to R272): credits, decisions, the pass limit, refresh, debug access,
preemption and the grant watchdog, and the arbiter commands. Cycles are numbered by `cycleOf`.
-/

namespace Sys2Proof.Machine

/-- The unit with its arbiter changed. -/
def modArb (f : Arb → Arb) (s : State) : State := { s with arb := f s.arb }

def arbCycle (s : State) : Nat := cycleOf s.now

/-- Weight of requester `i` as written in G_ARB_WEIGHT_0 to _6 (Table 11-5). -/
def weightReg (s : State) (i : Nat) : Nat := fld (vget s.r.arbWeight (i / 2) 0) (16 * (i % 2)) 12

/-- HOLDOFF in force (Table 11-4). -/
def holdoffN (s : State) : Nat := max 1 (fld s.r.arbCfg 16 8)

/-- Whether requester `i`, 14 for DBG, is held off (R270). -/
def heldOff (s : State) (i : Nat) : Bool := vget s.arb.held i 0 != 0

/-! ### Candidates and the pass limit (R263, R264) -/

/-- An assured requester: a CE whose weight in force is at least 256. -/
def assured (s : State) (i : Nat) : Bool := decide (1 ≤ i) && decide (i ≤ 8) && decide (256 ≤ vget s.arb.weight i 0)

/-- Requesters barred: those granted since the request of an assured requester that still waits for its grant. -/
def barredMask (s : State) : Nat :=
  (s.arb.reqs.filter fun r => !r.granted && assured s r.req && !heldOff s r.req).foldl (fun m r => m ||| r.since) 0

/-- Requests that a decision in cycle `d` may grant. -/
def arbCands (s : State) (d : Nat) : List ArbReq :=
  s.arb.reqs.filter fun r => decide (r.at_ < d) && !heldOff s r.req && !(barredMask s).testBit r.req

/-- The candidate with the largest counter, the lower index on equal counters. -/
def arbBest (s : State) : List ArbReq → Option ArbReq
  | [] => none
  | r :: l =>
    match arbBest s l with
    | none => some r
    | some q =>
      let a := vget s.arb.cnt r.req 0
      let b := vget s.arb.cnt q.req 0
      if b < a ∨ (a = b ∧ r.req < q.req) then some r else some q

/-! ### Grants -/

/-- Requester `r` owns the port from cycle `d + 1`. Its wait is measured at the first grant of a CE request (Table 11-10), and
it counts as granted for every request that waits (R264). -/
def arbGrant (d : Nat) (r : ArbReq) (s : State) : State :=
  let w := d + 1 - r.at_
  let s1 := if !r.granted ∧ 1 ≤ r.req ∧ r.req ≤ 8 then
      bumpMax rgArbWait 0 16 w (if 1120 < w then bump rgArbWait 16 16 1 s else s)
    else s
  let upd := fun (q : ArbReq) =>
    if q.req = r.req then { q with granted := true } else { q with since := q.since ||| 2 ^ r.req }
  modArb (fun a => { a with
    owner := .norm r.req, ownerAt := d + 1, ownerBeats := r.beats, reqs := a.reqs.map upd, done := false, prev := a.owner }) s1

/-- REF owns the port from cycle `c`. -/
def refTake (c : Nat) (s : State) : State :=
  modArb (fun a => { a with owner := .ref, ownerAt := c, ownerBeats := 286, refDue := none, done := false, prev := a.owner }) s

/-- DBG owns the port from cycle `c`. -/
def dbgGrant (c : Nat) (q : DbgReq) (s : State) : State :=
  modArb (fun a => { a with
    owner := .dbg, ownerAt := c, ownerBeats := q.left, done := false, prev := a.owner
    dbgReq := some { q with first := some (q.first.getD c) } }) s

/-- The DBG request that a decision in cycle `d` serves: one raised in an earlier cycle (R263). -/
def dbgSeen (s : State) (d : Nat) : Option DbgReq :=
  match s.arb.dbgReq with
  | some q => if q.at_ < d ∧ !heldOff s 14 then some q else none
  | none => none

/-- The decision of cycle `d` (R263): REF, DBG, the best candidate, or the port stays idle. -/
def arbDecide (d : Nat) (s : State) : State :=
  if s.arb.refDue.isSome then refTake (d + 1) s
  else match dbgSeen s d with
  | some q => dbgGrant (d + 1) q s
  | none =>
    match arbBest s (arbCands s d) with
    | some r => arbGrant d r s
    | none => modArb (fun a => { a with owner := .idle, ownerAt := d + 1, ownerBeats := 0, done := false, prev := a.owner }) s

/-- The first cycle of an idle port in which a decision finds something to serve. -/
def idleDecision (s : State) : Option Nat :=
  let free := s.arb.reqs.filter fun r => !heldOff s r.req && !(barredMask s).testBit r.req
  let l := free.map (fun r => r.at_ + 1) ++
    (match s.arb.dbgReq with | some q => if heldOff s 14 then [] else [q.at_ + 1] | none => [])
  match l with
  | [] => none
  | x :: l => some (max s.arb.ownerAt (l.foldl min x))

/-- Last beat of the owner's transfer. -/
def ownerEnd (s : State) : Nat := s.arb.ownerAt + s.arb.ownerBeats - 1

/-- The decision made in the cycle of a last beat, once that cycle is over, so that it sees whatever fell due in it. -/
def settleEnd (s : State) : State := if s.arb.done ∧ ownerEnd s < arbCycle s then arbDecide (ownerEnd s) s else s

/-- The decision an idle port has made in a cycle before the present one. -/
def settleIdle (s : State) : State :=
  if s.arb.owner = .idle then
    match idleDecision s with
    | some d => if d < arbCycle s then arbDecide d s else s
    | none => s
  else s

/-- DBG has taken the port after a beat of a normal transfer in a cycle before the present one, the first in which its request is seen;
REF first where it is due too (R263, R267, R268). -/
def settleDbg (s : State) : State :=
  match s.arb.owner, s.arb.dbgReq with
  | .norm _, some q =>
    let c := max (q.at_ + 1) s.arb.ownerAt
    if heldOff s 14 ∨ s.arb.done ∨ arbCycle s ≤ c ∨ ownerEnd s ≤ c then s
    else if s.arb.refDue.isSome then refTake (c + 1) s
    else dbgGrant (c + 1) q s
  | _, _ => s

/-- What the arbiter has decided in cycles before the present one. -/
def arbSettle (s : State) : State := if coreLocked s then settleDbg (settleIdle (settleEnd s)) else s

/-! ### What a transfer moves -/

/-- The first `n` unwritten records of a requester are in evidence memory. -/
def dropUnwritten (w : Nat) : Nat → List (Nat × Nat) → List (Nat × Nat)
  | 0, l => l
  | _ + 1, [] => []
  | n + 1, u :: l => if u.2 = w then dropUnwritten w n l else u :: dropUnwritten w (n + 1) l

/-- The effect of a completed transfer of `b` beats (Table 11-1): VF brings a granule, CE and SE write records. -/
def transferred (i b : Nat) (s : State) : State :=
  if i = 0 then vfFetch s
  else if i ≤ 9 then
    let s1 := { s with evid := { s.evid with unwritten := dropUnwritten (i - 1) b s.evid.unwritten } }
    if i = 9 then sealsWritten s1.sl.writing.length s1 else s1
  else s

/-- The owner's transfer completes in the cycle of its last beat: it is charged and its request drops (R261, R262). -/
def transferComplete (s : State) : State :=
  if arbCycle s < ownerEnd s ∨ s.arb.done then s
  else match s.arb.owner with
  | .norm i =>
    let b := s.arb.ownerBeats
    transferred i b (modArb (fun a => { a with
      cnt := vmod a.cnt i fun c => c - b, used := vmod a.used i fun u => u + b
      reqs := a.reqs.filter fun r => r.req != i, done := true }) s)
  | .dbg => modArb (fun a => { a with dbgReq := none, done := true }) s
  | _ => s

/-- WR_SEQ past every contiguous piece held from `w` (R228); `n` bounds the pieces. -/
def pastHeld (ps : List (Nat × List Byte)) : Nat → Nat → Nat
  | 0, w => w
  | n + 1, w => if ps.any fun p => p.1 == w then pastHeld ps n ((w + 1) % 2 ^ 32) else w

/-- FILL of a ring. -/
def sringFill (q : SRing) : Nat := (2 ^ 32 + q.wr - q.rd) % 2 ^ 32

/-- Piece `n` is written in place; WR_SEQ advances past every contiguous piece, and a gap that is filled ends its notes (R228). -/
def SRing.put (n : Nat) (bytes : List Byte) (q : SRing) : SRing :=
  let ps := (q.pieces.filter fun p => p.1 != n) ++ [(n, bytes)]
  if n = q.wr then { q with pieces := ps, wr := pastHeld ps ps.length q.wr, gap := none, gaveUp := none, notes := 0 }
  else { q with pieces := ps }

/-- The pieces that waited while SW was held off are written, where the ring still takes them (R271). -/
def swFlush (s : State) : State :=
  s.seqr.rxBuf.foldl (fun s x =>
    let q := vget s.seqr.srings x.1 {}
    if sringOn s x.1 ∧ (2 ^ 32 + x.2.1 - q.wr) % 2 ^ 32 < 128 * sringSize s x.1 - sringFill q then
      { s with seqr := { s.seqr with srings := vmod s.seqr.srings x.1 fun q => q.put x.2.1 x.2.2 } }
    else s) { s with seqr := { s.seqr with rxBuf := [] } }

/-- Cycle 0 of a window (R262, R268, R270): the weights written come into force, every counter is refilled, hold-offs count
down. -/
def arbWindow (s0 : State) : State :=
  if coreLocked s0 ∧ s0.arb.winAt + 4096 ≤ arbCycle s0 then
    let s := assureLapse s0
    let w : Vector Nat 14 := Vector.ofFn fun i => weightReg s i.val
    let at_ := s.arb.winAt + 4096
    let freed := (List.range 15).any fun i => vget s.arb.held i 0 == 1
    let s1 := if vget s.arb.held 10 0 = 1 then swFlush s else s
    modArb (fun a => { a with
      weight := w, cnt := vmap a.cnt fun i c => min 4095 (c + vget w i 0)
      held := vmap a.held fun _ h => h - 1
      used := Vector.replicate 14 0, usedLast := a.used, winAt := at_
      ownerAt := if freed ∧ a.owner = .idle then max a.ownerAt at_ else a.ownerAt
      dbgReq := a.dbgReq.map fun q => if vget a.held 14 0 = 1 then { q with at_ := max q.at_ (at_ - 1) } else q
      dbgWin := if a.dbgReq.isSome then some at_ else a.dbgWin }) s1
  else s0

/-- The arbiter brought up to the present cycle, in which a refill comes before a charge (R262). -/
def arbReady (s : State) : State := arbWindow (arbSettle s)

/-! ### Commands -/

/-- Fewest beats of a requester's transfer (Table 11-1): VF brings 1 536 bytes, SW 768, MC at least 64. -/
def leastBeats (i : Nat) : Nat := if i = 0 then 48 else if i = 10 then 24 else if i = 13 then 2 else 1

/-- Beats of a transfer of `len` bytes (R260). -/
def beatsOf (i len : Nat) : Nat := max (leastBeats i) ((len + 31) / 32)

/-- The requesters that count as granted for a request raised in the present cycle (R264): the owner, and one granted the port from the
next cycle. -/
def ownersNow (s : State) : Nat :=
  let m := fun (o : ArbOwner) => match o with | .norm j => 2 ^ j | _ => 0
  if arbCycle s < s.arb.ownerAt then m s.arb.owner ||| m s.arb.prev else m s.arb.owner

/-- A requester raises its request for a transfer of `len` bytes (R260, R261, R264). -/
def arbRaise (i len : Nat) (s : State) : State :=
  if !coreLocked s ∨ s.arb.reqs.any (fun r => r.req == i) then s
  else modArb (fun a => { a with reqs := a.reqs ++ [⟨i, beatsOf i len, arbCycle s, false, ownersNow s⟩] }) s

/-- ARB_REQUEST_RAISED (R263). -/
def execArbRequestRaised (t : Instant) (req : Fin 14) (len : Nat) (s : State) : Host.Outcome State Fault Refusal :=
  .next (arbRaise req.val len (arbReady (advance t s)))

/-- MEMORY_TRANSFER_COMPLETE (R260). -/
def execMemoryTransferComplete (t : Instant) (s : State) : Host.Outcome State Fault Refusal :=
  .next (transferComplete (arbReady (advance t s)))

/-- ARB_WINDOW_START (R262). -/
def execArbWindowStart (t : Instant) (s : State) : Host.Outcome State Fault Refusal :=
  .next (arbReady (advance t s))

/-- REF falls due at cycles 0 and 2 048 of a window, and takes an idle port at once; otherwise it waits for the end of the transfer, which
may be in this very cycle (R267). -/
def refDue (s : State) : State :=
  if coreLocked s ∧ (arbCycle s - s.arb.winAt) % 2048 = 0 ∧ s.arb.refDue.isNone ∧ s.arb.owner ≠ .ref then
    if s.arb.owner = .idle then refTake (arbCycle s) s
    else modArb (fun a => { a with refDue := some (arbCycle s) }) s
  else s

/-- REFRESH_DUE (R267). -/
def execRefreshDue (t : Instant) (s : State) : Host.Outcome State Fault Refusal :=
  .next (refDue (arbReady (advance t s)))

/-- The beats a DBG access that is interrupted after the present beat has still to carry out. -/
def dbgCut (s : State) : State :=
  match s.arb.owner with
  | .dbg => modArb (fun a => { a with dbgReq := a.dbgReq.map fun q =>
      { q with left := q.left - (arbCycle s + 1 - a.ownerAt) } }) s
  | _ => s

/-- 64 cycles after REF fell due a transfer that has not ended is interrupted after its current beat (R267). -/
def refInterrupt (s : State) : State :=
  match s.arb.refDue with
  | none => s
  | some c =>
    match s.arb.owner with
    | .idle | .ref => s
    | _ =>
      if c + 64 ≤ arbCycle s ∧ arbCycle s < ownerEnd s ∧ s.arb.ownerAt ≤ arbCycle s then
        bump rgArb 16 8 1 (refTake (arbCycle s + 1) (dbgCut s))
      else s

/-- REFRESH_INTERRUPT (R267). -/
def execRefreshInterrupt (t : Instant) (s : State) : Host.Outcome State Fault Refusal :=
  .next (refInterrupt (arbReady (advance t s)))

/-- After 286 cycles the refresh ends, and the port is decided in its last cycle (R267). -/
def refDone (s : State) : State :=
  if s.arb.owner = .ref ∧ ownerEnd s ≤ arbCycle s then modArb (fun a => { a with done := true }) s else s

/-- REFRESH_DONE (R267). -/
def execRefreshDone (t : Instant) (s : State) : Host.Outcome State Fault Refusal :=
  .next (refDone (arbReady (advance t s)))

/-- A DBG request (R268): it clears DBG_IDLE, and takes the port after the beat in which it is seen. -/
def dbgRaise (beats : Nat) (s0 : State) : State :=
  if coreLocked s0 ∧ s0.arb.dbgReq.isNone then
    let s := assureLapse s0
    assureLapse (modArb (fun a => { a with
      dbgReq := some ⟨arbCycle s, beats, beats, none⟩, dbgWin := some a.winAt }) s)
  else s0

/-- DBG_REQUEST (R268). -/
def execDbgRequest (t : Instant) (beats : Nat) (s : State) : Host.Outcome State Fault Refusal :=
  .next (dbgRaise beats (arbReady (advance t s)))

/-- In preemptive mode the fullest candidate whose counter exceeds the owner's takes the port after the current beat (R269). -/
def arbPreempt (s : State) : State :=
  match s.arb.owner with
  | .norm i =>
    if bit s.r.arbCfg 28 ∧ arbCycle s < ownerEnd s ∧ s.arb.ownerAt ≤ arbCycle s then
      let c := (arbCands s (arbCycle s)).filter fun r =>
        r.req != i && decide (vget s.arb.cnt i 0 < vget s.arb.cnt r.req 0)
      match arbBest s c with
      | some r => bump rgArb 0 16 1 (arbGrant (arbCycle s) r s)
      | none => s
    else s
  | _ => s

/-- ARB_PREEMPT (R269). -/
def execArbPreempt (t : Instant) (s : State) : Host.Outcome State Fault Refusal :=
  .next (arbPreempt (arbReady (advance t s)))

/-- The grant the watchdog counts: its requester and the cycle of its first beat; that of a DBG access runs on through
refreshes (R267, R270). -/
def gwdCounts (s : State) : Option (Nat × Nat) :=
  match s.arb.owner with
  | .norm i => some (i, s.arb.ownerAt)
  | .idle => none
  | _ => match s.arb.dbgReq with
    | some q => q.first.map fun f => (14, f)
    | none => none

/-- The watchdog fires on a grant held for GWD_US (R270): withdrawn and abandoned, held off, and an event of GRANT_WD. -/
def gwdFire (s : State) : State :=
  match gwdCounts s with
  | none => s
  | some g =>
    if bit s.r.arbCfg 31 ∧ g.2 + gwdUs s * 800 ≤ arbCycle s + 1 ∧ (s.arb.owner = .ref ∨ (!s.arb.done ∧ arbCycle s ≠ ownerEnd s)) then
      let s1 := modArb (fun a => { a with
        held := vmod a.held g.1 fun _ => holdoffN s + 1
        dbgReq := if g.1 = 14 then a.dbgReq.map fun q => { q with left := q.total, first := none } else a.dbgReq }) s
      let s2 := if s.arb.owner = .ref then s1
        else modArb (fun a => { a with ownerBeats := arbCycle s + 1 - a.ownerAt, done := true }) s1
      faultU 32 g.1 (bump rgArb 24 8 1 (bumpSet rgArbFault g.1 s2))
    else s

/-- GRANT_WATCHDOG_EXPIRY (R270). -/
def execGrantWatchdogExpiry (t : Instant) (s : State) : Host.Outcome State Fault Refusal :=
  .next (gwdFire (arbReady (advance t s)))

/-! ### Clock start and registers -/

/-- A clock start (R86, R262): the counters take the weights written, windows begin, and nothing is requested. -/
def arbClockStart (s : State) : State :=
  let w : Vector Nat 14 := Vector.ofFn fun i => weightReg s i.val
  modArb (fun a => { a with
    weight := w, cnt := w, reqs := [], done := false, prev := .idle, owner := .idle, ownerAt := arbCycle s, ownerBeats := 0, winAt := arbCycle s
    used := Vector.replicate 14 0, usedLast := Vector.replicate 14 0, refDue := none, dbgReq := none, dbgWin := none }) s

/-- Records that no transfer has written yet are written as the port loses its clock (log 18). -/
def arbClockStop (s : State) : State :=
  sealsWritten s.sl.writing.length (modArb (fun a => { a with
    reqs := [], done := false, prev := .idle, owner := .idle, ownerBeats := 0, refDue := none, dbgReq := none })
    { s with evid := { s.evid with unwritten := [] } })

/-- OWNER code of Table 11-6. -/
def ArbOwner.code : ArbOwner → Nat
  | .norm i => i
  | .ref => 14
  | .dbg => 15
  | .idle => 31

/-- G_ARB_STATE as read. -/
def arbState (s0 : State) : Word :=
  let s := arbReady s0
  word ((if arbCycle s < s.arb.ownerAt then s.arb.prev else s.arb.owner).code + 2 ^ 8 * b2n (barredMask s != 0) +
    2 ^ 16 * maskOf ((List.range 15).filter fun i => heldOff s i))

/-- G_ARB_MON as read. -/
def arbMon (s0 : State) : Word :=
  let s := arbReady s0
  let i := min 13 (fld s.r.arbMonSel 0 4)
  word (2 ^ 16 * vget s.arb.cnt i 0 + vget s.arb.usedLast i 0)

end Sys2Proof.Machine
end

