-- ==== Sys2Proof/Machine/Cert.lean ====
section
/-!
DEFINITION. Cert.lean: the certificate bundle of the MRAM's certificate area (12 R282, R283). The unit writes it only at manufacture,
so its bytes are a constant of the implementation. The DER and RFC 5280 forms are those of the standards the manual names
(PRESUMED, log 10).
-/

namespace Sys2Proof.Machine

/-- `n` bytes of the certificate area from an offset. -/
def certBytes (off n : Nat) : List Byte := (List.range n).map fun i => Config.certByte (off + i)

/-- TOTAL_LEN, at most 49 152 (Table 12-4). -/
def certTotal : Nat := min 49152 (leNat (certBytes 8 4))

/-- The certificates of a bundle from offset 0x10 on: for each LEN, the certificate, and bytes up to a multiple of 4. -/
def certList : Nat → List Byte → Option (List (List Byte))
  | 0, _ => some []
  | n + 1, bs =>
    let len := leNat (bs.take 4)
    if bs.length < 4 + len then none
    else (certList n (bs.drop (4 + (len + 3) / 4 * 4))).map ((bs.drop 4).take len :: ·)

/-- One DER element: its tag, its content and what follows it. -/
def derItem (bs : List Byte) : Option (Nat × List Byte × List Byte) :=
  match bs with
  | t :: l :: r =>
    let k := l.toNat % 128
    let long := 128 ≤ l.toNat
    let len := if long then beNat (r.take k) else l.toNat
    let body := if long then r.drop k else r
    if (long ∧ (k = 0 ∨ r.length < k)) ∨ body.length < len then none else some (t.toNat, body.take len, body.drop len)
  | _ => none

/-- What follows `n` elements. -/
def derSkip : Nat → List Byte → Option (List Byte)
  | 0, bs => some bs
  | n + 1, bs => (derItem bs).bind fun x => derSkip n x.2.2

/-- The subjectPublicKeyInfo of an X.509 v3 certificate: in its first element, after version, serialNumber, signature, issuer, validity and
subject. -/
def certSpki (c : List Byte) : Option (List Byte) := do
  let cert ← derItem c
  let tbs ← derItem cert.2.1
  let rest ← derSkip 6 tbs.2.1
  let info ← derItem rest
  if cert.1 = 0x30 ∧ tbs.1 = 0x30 ∧ info.1 = 0x30 then some info.2.1 else none

/-- The content of the subjectPublicKeyInfo of a P-256 key: id-ecPublicKey on prime256v1, and the uncompressed point. -/
def p256Spki (key : List Byte) : List Byte :=
  beBytes 21 0x301306072A8648CE3D020106082A8648CE3D030107 ++ beBytes 4 0x03420004 ++ key

/-- Whether a certificate holds a public key. -/
def certHolds (key c : List Byte) : Bool := certSpki c == some (p256Spki key)

/-- Whether a bundle of TOTAL_LEN bytes is valid: MAGIC, CERTS from 1 to 4 certificates below TOTAL_LEN, and CRC; and whether its
first certificate holds a public key (R282, R283; log 78). -/
def bundleOk (key bundle : List Byte) : Bool :=
  let n := leNat ((bundle.drop 4).take 2)
  leNat (bundle.take 4) == 0x54524543 && decide (1 ≤ n) && decide (n ≤ 4) &&
    leNat ((bundle.drop 12).take 4) == crc32c (bundle.drop 16) &&
    match certList n (bundle.drop 16) with
    | some (c :: _) => certHolds key c
    | _ => false

/-- CERT_MATCH (R283): the bundle is valid and its unit certificate holds the unit's own public key. -/
def certOk : Bool :=
  decide (16 ≤ leNat (certBytes 8 4)) && decide (leNat (certBytes 8 4) ≤ 49152) && bundleOk (publicKey unitKey) (certBytes 0 certTotal)

end Sys2Proof.Machine
end

