-- ==== Sys2Proof/Machine/Store.lean ====
section
/-!
DEFINITION. Store.lean: writes to the configuration memory: the calibration store, image commits and their failures (05 R118 to
R121, R143 to R149; 13 R294, R315), and the commands CAL_STORE_COMPLETE, IMAGE_COMMIT_COMPLETE and MRAM_BUSY_TIMEOUT.
-/

namespace Sys2Proof.Machine

/-- MRAM addresses of the image banks and calibration slots (Table 5-3). -/
def bankAddr : Bank → Nat
  | .a => 0
  | .b => 0x100000
def slotAddr : Bank → Nat
  | .a => 0x200000
  | .b => 0x240000

/-- A store begins, or is held while one runs (R145, R315); it is refused where the SEQ in force is the last. -/
def storeBegin (s0 : State) : State :=
  let s := mramSettle s0
  match s.boot.store with
  | some _ => { s with boot := { s.boot with storeHeld := true } }
  | none =>
    if s.boot.calSeq = 0xFFFFFFFF then s
    else
      let tgt : Bank := if s.boot.calSrc = 1 then .b else .a
      { s with
        mram := wrBytes s.mram (0x3FFF0 + slotAddr tgt) (List.replicate 16 0)
        boot := { s.boot with store := some ⟨tgt, [], s.now, 1 + 2 * chunks 98304 + 2, false⟩ } }

/-- The running store ends with a LAST_STORE code; a held one starts. -/
def storeEnd (last : Nat) (s : State) : State :=
  let s1 := { s with boot := { s.boot with store := none, storeHeld := false, lastStore := last } }
  if s.boot.storeHeld then storeBegin s1 else s1

/-- A store is abandoned (R146): 2 at line loss, 3 on a failure. -/
def storeAbandon (last : Nat) (s : State) : State :=
  match s.boot.store with
  | none => s
  | some _ => storeEnd last (faultU 31 last (bump rgBoot 0 8 1 s))

/-- The commit record of a store (R143, R145). -/
def storeRecord (calSeq : Nat) (data : List Byte) : List Byte :=
  let b := leBytes 4 (calSeq + 1) ++ leBytes 4 data.length ++ leBytes 4 (crc32c data)
  b ++ leBytes 4 (crc32c b)

/-- The last write and read-back of the store complete (R145, R146); not while a checkpoint holds the port (R121). -/
def storeDone (ok : Bool) (s0 : State) : State :=
  let s := mramSettle s0
  match s.boot.store with
  | none => s
  | some j0 =>
    if ckptHolds s then s
    else
    let j := if j0.snap then j0 else { j0 with data := trimSnapshot s }
    let s1 := { s with mram := wrBytes s.mram (slotAddr j.target) j.data }
    if ok then
      storeEnd 1 { s1 with mram := wrBytes s1.mram (0x3FFF0 + slotAddr j.target) (storeRecord s.boot.calSeq j.data) }
    else storeAbandon 3 (mramViol 3 s1)

/-- CAL_STORE_COMPLETE (R145). -/
def execCalStoreComplete (t : Instant) (readBackOk : Bool) (s : State) : Host.Outcome State Fault Refusal :=
  .next (storeDone readBackOk (advance t s))

/-- A commit is abandoned: the target header stays zero. STATE after it is unstated: staged or refused (log 3). -/
def commitAbandon (s : State) : State :=
  let v := drawFree s
  { v.2 with boot := { v.2.boot with commit := none, stageState := if v.1 % 2 = 0 then 2 else 6 } }

/-- The header write and read-back of a commit complete (R149); not while an operation above it holds the port (R121). -/
def commitDone (ok : Bool) (s0 : State) : State :=
  let s := mramSettle s0
  match s.boot.commit with
  | none => s
  | some j =>
    if recordHolds s then s
    else if ok then
      { s with mram := wrBytes s.mram (bankAddr j.target) j.data
               boot := { s.boot with commit := none, stageState := 5 } }
    else
      mramViol 3 (commitAbandon { s with mram := wrBytes s.mram (bankAddr j.target + 64) (j.data.drop 64) })

/-- IMAGE_COMMIT_COMPLETE (R149). -/
def execImageCommitComplete (t : Instant) (readBackOk : Bool) (s : State) : Host.Outcome State Fault Refusal :=
  .next (commitDone readBackOk (advance t s))

/-- A write of the enrolment or of the network copy fails (Table 5-4 row 2): whether the old content stands is unstated (log 3). -/
def smallFail (w : SmallWrite) (s : State) : State :=
  let v := drawFree s
  mramViol 2 { v.2 with
    mram := if v.1 % 2 = 0 then wrBytes v.2.mram w.addr w.old else v.2.mram, boot := { v.2.boot with small := none } }

/-- Busy for more than 1 ms after a write (Table 5-4 row 2): the operation on the port is abandoned, which is the one of the highest
priority that runs (R121); with none of these, a write of the enrolment or of the network copy made in this Dawn. -/
def mramBusy (s0 : State) : State :=
  let s := mramSettle s0
  match s.sl.ckptWrite, s.boot.store, s.boot.commit with
  | some _, _, _ => mramViol 2 (ckptFail s)
  | none, some j, c =>
    if j.atRecord ∨ c.isNone then storeAbandon 3 (mramViol 2 s) else mramViol 2 (commitAbandon s)
  | none, none, some _ => mramViol 2 (commitAbandon s)
  | none, none, none => match s.boot.small with
    | some w => if s.pwr.st = .dawn ∧ cMs + w.at_ ≤ s.now then smallFail w s else s
    | none => s

/-- Line loss during a store (R146): abandoned in its steps 1 to 3; a commit-record write already begun completes. -/
def storeLine (s0 : State) : State :=
  let s := mramSettle s0
  match s.boot.store with
  | none => s
  | some j =>
    if j.atRecord then
      { s with mram := wrBytes (wrBytes s.mram (slotAddr j.target) j.data) (0x3FFF0 + slotAddr j.target) (storeRecord s.boot.calSeq j.data) }
    else storeAbandon 2 s

/-- MRAM_BUSY_TIMEOUT (R120). -/
def execMramBusyTimeout (t : Instant) (s : State) : Host.Outcome State Fault Refusal :=
  .next (mramBusy (advance t s))

end Sys2Proof.Machine
end

