-- ==== Sys2Proof/Machine/Calib.lean ====
section
/-!
DEFINITION. Calib.lean: Twilight windows, the whole-unit sequence, checks and outcomes, and rolling calibration through the spare
lane (13 R294 to R316; 06 R169, R170), and the calibration commands.
-/

namespace Sys2Proof.Machine

/-! ### Settings -/

def autoStore (s : State) : Bool := bit s.r.calCfg 31
def recoverEn (s : State) : Bool := bit s.r.calCfg 30
def autoTemp (s : State) : Bool := bit s.r.calCfg 29
def tempDelta (s : State) : Nat := if fld s.r.calCfg 16 8 = 0 then 10 else fld s.r.calCfg 16 8
def waitS (s : State) : Nat := fld s.r.calCfg 0 16

/-- The unit with channel `c` changed. -/
def modChan (c : Nat) (f : Chan → Chan) (s : State) : State := { s with cal := { s.cal with ch := vmod s.cal.ch c f } }

/-! ### Checks (R305, Table 13-4) -/

/-- The verdict on a quantity: its outcome of R306. -/
def verdict (plausible inSpec : Bool) : Nat := if !plausible then 2 else if !inSpec then 3 else 1

def within (v : Int) (lim : Nat) : Bool := decide (v.natAbs ≤ lim)

/-- Whether the DACs meet the level accuracy of Table 6-1, 0.1 % of V and 2 mV, at the three check codes of each span (codes 1 and 2). -/
def levelsOk (m : ChMeas) : Bool :=
  (List.range 60).all fun i =>
    let x := vget m.levels i (0, 0)
    let v := clipLevel (rawLevel (i / 3 % 4) x.1)
    decide (10000 * (x.2 - v).natAbs ≤ 10 * v.natAbs + 16384000)

/-- The checks of a group with their codes, in code order. -/
def levelChecks (m : ChMeas) : List (Nat × Nat) :=
  [(1, verdict (m.dac.all fun x => within x.1 15000) (levelsOk m)), (2, verdict (m.dac.all fun x => within x.2 5000) (levelsOk m)),
   (3, verdict (m.cmpOff.all fun x => within x 20000) (m.cmpResid.all fun x => within x 5000)),
   (4, verdict (decide (45000 ≤ m.termMilli) && decide (m.termMilli ≤ 55000))
      (decide (49000 ≤ m.termTrimMilli) && decide (m.termTrimMilli ≤ 51000)))]
def timingChecks (m : ChMeas) : List (Nat × Nat) :=
  [(5, verdict (m.drvDelay.all fun x => within x 2500) (decide (m.resid ≤ 300))),
   (6, verdict (m.cmpDelay.all fun x => within x 2500) (decide (m.resid ≤ 300))),
   (7, verdict (m.bins.all fun b => decide (25 ≤ b) && decide (b ≤ 175)) (within m.inl 100)),
   (8, verdict true (decide (1000 ≤ m.eyePs)))]
def skewChecks (m : ChMeas) : List (Nat × Nat) := [(9, verdict (within m.skew 1000) (within m.skewResid 150))]

/-- The outcome of a group: 1, or that of the first check that fails with its code. -/
def groupOut (l : List (Nat × Nat)) : Nat × Nat :=
  match l.find? fun x => x.2 != 1 with
  | some x => (x.2, x.1)
  | none => (1, 0)

/-- A channel group with outcome 2 or 3 counts in CHECK_FAIL and is an event of CAL_CHECK (R306). -/
def checkFail (group c : Nat) (o : Nat × Nat) (s : State) : State :=
  if o.1 = 1 then s
  else fault ⟨18, if c < 64 then c / 8 else c - 64, if c < 64 then some (c % 8) else none⟩
    (group * 4096 + o.2 * 256 + c) [] (bump rgCal 8 8 1 s)

/-- Trims a measurement gives to each group. -/
def lvlTrims (m : ChMeas) : List Int :=
  m.dac.toList.flatMap (fun x => [x.1, x.2]) ++ m.cmpOff.toList ++ [(m.termTrimMilli : Int)]
def timTrims (m : ChMeas) : List Int := m.drvDelay.toList ++ m.cmpDelay.toList ++ m.bins.map fun b => (b : Int)

/-- The level group of channel `c` ends. -/
def endLevel' (c : Nat) (m : ChMeas) (s : State) : State :=
  let o := groupOut (levelChecks m)
  modChan c (fun x => { x with
    lvlOut := o.1, lvlChk := o.2
    lvlTrim := if o.1 = 1 then lvlTrims m else x.lvlTrim, lvlAt := if o.1 = 1 then some s.now else x.lvlAt }) s

/-- The quality of a timing measurement of channel `c`, reported whether or not it is applied (R306). -/
def noteQual (c : Nat) (m : ChMeas) (s : State) : State :=
  modChan c (fun x => { x with resid := min m.resid 0xFFFF, eye := min m.eyePs 0xFFFF }) s

/-- The timing group of channel `c` ends, from a source (2 window, 3 rolling). -/
def endTiming (src c : Nat) (m : ChMeas) (s : State) : State :=
  let o := groupOut (timingChecks m)
  modChan c (fun x => { x with
    timOut := o.1, timChk := o.2
    timTrim := if o.1 = 1 then timTrims m else x.timTrim, timAt := if o.1 = 1 then some s.now else x.timAt
    timSrc := if o.1 = 1 then src else x.timSrc }) (noteQual c m s)

/-- The skew group of pin channel `c` ends. -/
def endSkew (c : Nat) (m : ChMeas) (s : State) : State :=
  let o := groupOut (skewChecks m)
  modChan c (fun x => { x with
    skewOut := o.1, skewTrim := if o.1 = 1 then [m.skew] else x.skewTrim }) s

/-- A timing or skew group of the rolling cycle ends; a store's snapshot that is due is taken before (R294). -/
def rollTiming (c : Nat) (m : ChMeas) (s : State) : State :=
  checkFail 2 c (groupOut (timingChecks m)) (endTiming 3 c m (mramSettle s))
def rollSkew (c : Nat) (m : ChMeas) (s : State) : State :=
  checkFail 3 c (groupOut (skewChecks m)) (endSkew c m (mramSettle s))

/-! ### Rolling: start and order of pins (R308) -/

/-- Whether the octet runs the cycle; a stopped octet pauses it (17 R399). -/
def rollOn (s : State) (k : Nat) : Bool :=
  let o := octAt s k
  bit o.rollCfg 31 && o.spareOk && !o.xptInhibit && octOn s k && inDay s && o.win.isNone && !(stoppedMask s).testBit k

/-- A pin that the cycle skips. -/
def rollSkips (s : State) (n : Nat) : Bool :=
  let p := pinAt s n
  p.safe || (p.hold.isSome && p.drv)

/-- The first pin from index `i` on, going round, that the cycle does not skip. -/
def rollPin (s : State) (k i : Nat) : Option Nat :=
  ((List.range 8).map fun j => (i + j) % 8).find? fun j => !rollSkips s (8 * k + j)

/-- Phase 1 begins on the next pin, where the octet runs the cycle and has one. -/
def rollBegin (k : Nat) (s : State) : State :=
  if rollOn s k then
    match rollPin s k (octAt s k).roll.next with
    | some i => modOct k (fun o => { o with roll := ⟨1, i, s.now, none⟩ }) s
    | none => modOct k (fun o => { o with roll := { o.roll with phase := 0 } }) s
  else s

/-- The rolling cycle as it stands now: not running where it may not run and no pin is served, and with the next pin where the one it
was about to serve has become one that it skips (R308; DEDUCED, log 80). -/
def rollNow (s : State) (k : Nat) : Roll :=
  let r := (octAt s k).roll
  if (octAt s k).served.isSome then r
  else if !rollOn s k then r.cut
  else if (r.phase = 1 ∨ r.phase = 2 ∨ r.phase = 3) ∧ rollSkips s (8 * k + r.next) then
    match rollPin s k (r.next + 1) with
    | some i => if r.phase = 1 then { r with next := i } else ⟨1, i, s.now, none⟩
    | none => r.cut
  else r

/-- The cycle brought up to now. -/
def rollSettle (k : Nat) (s : State) : State := modOct k (fun o => { o with roll := rollNow s k }) s

/-- The cycle starts where it is not running. -/
def rollStart (k : Nat) (s : State) : State := if (octAt s k).roll.phase = 0 then rollBegin k s else s

/-! ### Windows (R295 to R304) -/

/-- Durations of steps 1 to 8 in codes (Table 13-1). -/
def stepDur : Nat → Nat
  | 1 => 200 * cUs
  | 2 => 14400 * cUs
  | 3 => 4500 * cUs
  | 4 => 450 * cUs
  | 5 => 14400 * cUs
  | 6 => 2000 * cUs
  | 7 => 1500 * cUs
  | _ => 50 * cUs

/-- The measurement of a channel after a step has brought its part. -/
def mergeMeas (step : Nat) (a b : ChMeas) : ChMeas :=
  match step with
  | 2 => { a with dac := b.dac }
  | 3 => { a with cmpOff := b.cmpOff }
  | 4 => { a with termMilli := b.termMilli, termTrimMilli := b.termTrimMilli }
  | 5 => { a with drvDelay := b.drvDelay, cmpDelay := b.cmpDelay, bins := b.bins }
  | 6 => { a with skew := b.skew }
  | 7 => { a with levels := b.levels, cmpResid := b.cmpResid, inl := b.inl, resid := b.resid, eyePs := b.eyePs,
                  skewResid := b.skewResid }
  | _ => a

/-- The nine channels of an octet: eight pins and the spare lane. -/
def octChans (k : Nat) : List Nat := (List.range 8).map (fun i => 8 * k + i) ++ [64 + k]

/-- Whether a window on `k` may begin, but for admission (R299); none begins on a stopped octet (17 R399). -/
def windowFree (s : State) (k : Nat) : Bool :=
  inDay s && octOn s k && (octAt s k).calPend.isSome && (octAt s k).win.isNone && !octHeld s k && !(stoppedMask s).testBit k

/-- A window begins (R299, Table 13-2): the jobs of this cycle are decided first. -/
def windowBegin (k : Nat) (s0 : State) : State :=
  let s := jobDue s0
  if windowFree s k ∧ admission s 6000 38000 = .yes then
    let safe := BitVec.ofNat 8 (maskOf ((List.range 8).filter fun i => (pinAt s (8 * k + i)).safe))
    let s1 := modOct k (fun o => { o with
      calPend := none, calOverdue := false, roll := o.roll.cut
      win := some ⟨s.now, 1, s.now, List.replicate 9 default, safe, s.encl.dieC⟩ }) (returnXpt (2 ^ k) (rollSettle k s))
    calRec 2 (2 ^ k) 0 false 0xFFFF (safePins (2 ^ k) s1)
  else if octHeld s k ∧ (octAt s k).calPend.isSome then unitAdvance k s
  else s

/-- TWILIGHT_WINDOW_BEGIN (R299). -/
def execTwilightWindowBegin (t : Instant) (oct : Fin 8) (s : State) : Host.Outcome State Fault Refusal :=
  .next (windowBegin oct.val (advance t s))

/-- A measuring step completes and the next starts (R295). The level step records the temperature of R314. -/
def windowStep (k : Nat) (meas : List ChMeas) (s : State) : State :=
  match (octAt s k).win with
  | none => s
  | some w =>
    if w.step < 8 ∧ w.stepAt + stepDur w.step ≤ s.now then
      let ms := (List.range 9).map fun i => mergeMeas w.step (w.meas.getD i default) (meas.getD i default)
      modOct k (fun o => { o with win := some { w with
        step := w.step + 1, stepAt := w.stepAt + stepDur w.step, meas := ms
        temp := if w.step = 2 then s.encl.dieC else w.temp } }) s
    else s

/-- TWILIGHT_STEP_DONE (R295). -/
def execTwilightStepDone (t : Instant) (oct : Fin 8) (meas : List ChMeas) (s : State) :
    Host.Outcome State Fault Refusal :=
  .next (windowStep oct.val meas (advance t s))

/-- Every group of the nine channels that fails counts and is an event of CAL_CHECK (R306). -/
def windowChecks (k : Nat) (ms : List ChMeas) (s : State) : State :=
  let m := fun (i : Nat) => ms.getD i default
  let s1 := (List.range 9).foldl (fun s i => checkFail 2 ((octChans k).getD i 0) (groupOut (timingChecks (m i)))
    (checkFail 1 ((octChans k).getD i 0) (groupOut (levelChecks (m i))) s)) s
  if (groupOut (timingChecks (m 8))).1 = 1 then
    (List.range 8).foldl (fun s i => checkFail 3 (8 * k + i) (groupOut (skewChecks (m i))) s) s1
  else s1

/-- Each group of the nine channels is judged and applied (R305). A spare lane whose timing group fails is unusable, so that the
skew groups are skipped (R306 outcome 5; log 22). -/
def windowGroups (k : Nat) (ms : List ChMeas) (s : State) : State :=
  let m := fun (i : Nat) => ms.getD i default
  let s1 := (List.range 9).foldl (fun s i =>
    endTiming 2 ((octChans k).getD i 0) (m i) (endLevel' ((octChans k).getD i 0) (m i) s)) s
  if (groupOut (timingChecks (m 8))).1 = 1 then (List.range 8).foldl (fun s i => endSkew (8 * k + i) (m i) s) s1
  else (List.range 8).foldl (fun s i => modChan (8 * k + i) (fun x => { x with skewOut := 5 }) s) s1

/-- The pin with the largest residual among those whose timing group was applied. -/
def worstPin (ms : List ChMeas) : Option Nat :=
  (List.range 8).foldl (fun b i =>
    if (groupOut (timingChecks (ms.getD i default))).1 = 1 then
      match b with
      | none => some i
      | some j => if (ms.getD j default).resid < (ms.getD i default).resid then some i else b
    else b) none

/-- A window ends without abandonment (R296, R303, R307, R312, R315). -/
def windowApply (k : Nat) (w : Win) (s0 : State) : State :=
  let s := mramSettle s0
  let ms := w.meas
  let lvl := fun (i : Nat) => (groupOut (levelChecks (ms.getD i default))).1 == 1
  let tim := fun (i : Nat) => (groupOut (timingChecks (ms.getD i default))).1 == 1
  let skw := fun (i : Nat) => (groupOut (skewChecks (ms.getD i default))).1 == 1
  let allL := (List.range 9).all lvl
  let allT := (List.range 9).all tim
  let allS := tim 8 && (List.range 8).all skw
  let any := (List.range 9).any lvl || (List.range 9).any tim
  let okSL := allS
  let s1 := windowGroups k ms s
  let s2 := modOct k (fun o => { o with
    win := none, lastOut := if allL && allT && allS then 1 else 2
    lvlFail := BitVec.ofNat 8 (maskOf ((List.range 8).filter fun i => !lvl i))
    timFail := BitVec.ofNat 8 (maskOf ((List.range 8).filter fun i => !tim i))
    lvlTemp := if (List.range 9).any lvl then some w.temp else o.lvlTemp
    phaseTrim := if allT then o.unitPhase.getD o.phaseTrim else o.phaseTrim, unitPhase := none
    spareOk := o.spareOk || okSL, rollFails := if okSL then [] else o.rollFails }) s1
  let s3 := if okSL then setCond 19 k false s2 else s2
  let s4 := mapPins (2 ^ k) (fun n p => if w.wasSafe.getLsbD (n % 8) then p else p.toIdle) s3
  let q := worstPin ms
  let s5 := bump rgCal 24 8 1 (calRec 3 (2 ^ k) (match q with | some i => 8 * k + i | none => 0) q.isSome
    (match q with | some i => min (ms.getD i default).resid 0xFFFF | none => 0xFFFF) s4)
  let s6 := rollBegin k (strobeAfter k (unitAdvance k s5))
  jobDue (if any ∧ autoStore s6 then storeBegin s6 else s6)

/-- The end of a window: its checks are judged first, and one that the reaction to a failed check abandons writes nothing (R304). -/
def windowDone (k : Nat) (w : Win) (s : State) : State :=
  let s1 := windowChecks k w.meas s
  if (octAt s1 k).win.isSome then windowApply k w s1 else jobDue s1

/-- TWILIGHT_WINDOW_END (R296): 0.05 ms after its last step begins. -/
def execTwilightWindowEnd (t : Instant) (oct : Fin 8) (s : State) : Host.Outcome State Fault Refusal :=
  let s := advance t s
  .next (match (octAt s oct.val).win with
    | some w => if w.step = 8 ∧ w.stepAt + stepDur 8 ≤ s.now then windowDone oct.val w s else s
    | none => s)

/-! ### Requests (R297, R298, R300, R315) -/

/-- Pending requests of the octets of a mask are discarded. -/
def calCancel (mask : Nat) (s : State) : State :=
  { s with octs := vmap s.octs fun k o => if mask.testBit k then { o with calPend := none, calOverdue := false } else o }

/-- A whole-unit calibration begins with its unit step; while one is in progress the request merges with it. -/
def unitBegin (s : State) : State :=
  if s.cal.unitStep.isSome ∨ s.cal.unitNext.isSome then s
  else { s with cal := { s.cal with unitStep := some s.now } }

/-- A write of G_CAL_REQ: refused outside Day where it requests a window; cancels act before requests, and make jobs that an
overdue request holds ready again. -/
def calReqWrite (val : Word) (s : State) : State × BusRes :=
  let oct := fld val 0 8
  if (oct ≠ 0 ∨ bit val 31) ∧ !inDay s then (s, .access)
  else
    let s1 := calCancel (fld val 8 8) s
    let s2 := if oct = 0 then s1 else calRequest oct s1
    let s3 := if bit val 31 then unitBegin s2 else s2
    let s4 := if bit val 30 then storeBegin s3 else s3
    (if fld val 8 8 = 0 then s4 else jobDue s4, .done)

/-- CAL_REQ_OCT (R298). -/
def execCalReqOct (t : Instant) (port : Port) (val : Word) (s : State) : Host.Outcome State Fault Refusal :=
  .next (portWrite port 0xA00 val (calReqWrite val) (advance t s))

/-- CAL_REQ_UNIT (R297). -/
def execCalReqUnit (t : Instant) (port : Port) (val : Word) (s : State) : Host.Outcome State Fault Refusal :=
  .next (portWrite port 0xA00 val (calReqWrite val) (advance t s))

/-- CAL_REQ_STORE (R315). -/
def execCalReqStore (t : Instant) (port : Port) (val : Word) (s : State) : Host.Outcome State Fault Refusal :=
  .next (portWrite port 0xA00 val (calReqWrite val) (advance t s))

/-- CAL_REQ_CANCEL (R298). -/
def execCalReqCancel (t : Instant) (port : Port) (val : Word) (s : State) : Host.Outcome State Fault Refusal :=
  .next (portWrite port 0xA00 val (calReqWrite val) (advance t s))

/-- The unit step ends after 6 ms with the measured phases, and a window on the lowest active octet is requested (R297). -/
def unitStepDone (phases : List Int) (s : State) : State :=
  match s.cal.unitStep with
  | none => s
  | some k =>
    if 6 * cMs + k ≤ s.now then
      unitRequest (List.range 8) { s with
        cal := { s.cal with unitStep := none }
        octs := vmap s.octs fun j o => { o with unitPhase := if octOn s j then phases[j]? else none } }
    else s

/-- CAL_UNIT_STEP_DONE (R297). -/
def execCalUnitStepDone (t : Instant) (phases : List Int) (s : State) : Host.Outcome State Fault Refusal :=
  .next (unitStepDone phases (advance t s))

/-- A request pending for WAIT_S becomes overdue (R300). -/
def calOverdueAt (k : Nat) (s : State) : State :=
  match (octAt s k).calPend with
  | none => s
  | some p => if waitS s ≠ 0 ∧ p + cS * waitS s ≤ s.now then modOct k (fun o => { o with calOverdue := true }) s else s

/-- CAL_REQUEST_OVERDUE (R300). -/
def execCalRequestOverdue (t : Instant) (oct : Fin 8) (s : State) : Host.Outcome State Fault Refusal :=
  .next (calOverdueAt oct.val (advance t s))

/-- Windows that the die temperature asks for (R314). -/
def tempRequests (s : State) : State :=
  if autoTemp s ∧ inDay s then
    (List.range 8).foldl (fun s k =>
      if octOn s k ∧ tempDelta s < (s.encl.dieC - (octAt s k).lvlTemp.getD s.cal.dawnTemp).natAbs then calRequest (2 ^ k) s
      else s) s
  else s

/-! ### Rolling calibration (R308 to R312) -/

/-- A recovery case requests a window while RECOVER_EN is 1 (R312). -/
def recover (k : Nat) (s : State) : State := if recoverEn s ∧ inDay s then calRequest (2 ^ k) s else s

/-- A spare lane whose phase 1 or 2 fails: SPARE_OK reads 0 and the cycle stops. -/
def spareFails (k phase : Nat) (s : State) : State :=
  recover k (setCond 19 k true (fault ⟨19, k, none⟩ phase []
    (modOct k (fun o => { o with spareOk := false, roll := { o.roll with phase := 0, meas := none } }) s)))

/-- A measuring phase of the rolling cycle completes: 1 the spare lane's timing, 2 its skew, 4 the pin's channel. -/
def rollPhase (k : Nat) (m : ChMeas) (s0 : State) : State :=
  let s := rollSettle k s0
  let r := (octAt s k).roll
  let put := fun (r : Roll) (s : State) => modOct k (fun o => { o with roll := r }) s
  match r.phase with
  | 1 =>
    if 2000 * cUs + r.at_ ≤ s.now then
      if (groupOut (timingChecks m)).1 = 1 then put { r with phase := 2, at_ := s.now, meas := some m } (noteQual (64 + k) m s)
      else spareFails k 1 (rollTiming (64 + k) m s)
    else s
  | 2 =>
    if 250 * cUs + r.at_ ≤ s.now then
      let s1 := rollSkew (8 * k + r.next) m s
      if (groupOut (skewChecks m)).1 = 1 then
        put { r with phase := 3, at_ := s.now, meas := none } (rollTiming (64 + k) (r.meas.getD default) s1)
      else spareFails k 2 s1
    else s
  | 4 => if 2000 * cUs + r.at_ ≤ s.now then put { r with phase := 5, at_ := s.now, meas := some m } s else s
  | _ => s

/-- ROLL_PHASE_DONE (R308). -/
def execRollPhaseDone (t : Instant) (oct : Fin 8) (m : ChMeas) (s : State) : Host.Outcome State Fault Refusal :=
  .next (rollPhase oct.val m (advance t s))

/-- The slot of the job in CHECKING, ARMED or RUNNING that names octet `k`. -/
def octJob (s : State) (k : Nat) : Option Nat :=
  (slotsIn s JobSt.active).find? fun i => (slotAt s i).desc.octMask.testBit k

/-- An edge of a pin that acts below 512 codes in a cycle of state `c` (R309). -/
def edgeBelow (c : Nat) (e : TEntry) : Bool :=
  (stDrives c && e.usesD12 && decide (e.d1 < 512)) ||
  ((stCompares c || stCaptures c) && decide (e.c1 < 512)) || (c == 1 && decide (e.d4 < 512))

/-- Whether a swap of pin `n` is permitted at the cycle origin of the present instant (R309): with a job on the octet only at
cycle 0 of a play, before that cycle is played. -/
def swapOk (s : State) (n : Nat) : Bool :=
  !(pinAt s n).drv && (pinAt s n).win.isNone &&
  match octJob s (n / 8) with
  | none => (pinAt s n).hold.isNone
  | some i =>
    let x := slotAt s i
    x.st == .running && x.play.cyc == 0 && sameCycle (kernOf s x.play.org) s.now &&
    match nameAt x x.play.name, curVec x.play with
    | some e, some v => !edgeBelow (stateOf v n) (tsetEntry s (segTset s e) n)
    | _, _ => false

/-- The spare lane takes over the next pin (R308, R309). A hand-back that is due goes first. -/
def swapIn (k : Nat) (s0 : State) : State :=
  let s := rollSettle k s0
  let r := (octAt s k).roll
  if r.phase = 3 ∧ (octAt s k).served = none ∧ swapOk s (8 * k + r.next) then
    modOct k (fun o => { o with
      served := (if h : r.next < 8 then some ⟨r.next, h⟩ else none), roll := { r with phase := 4, at_ := s.now } }) (swapMade k s)
  else s

/-- SPARE_SWAP_IN (R309). -/
def execSpareSwapIn (t : Instant) (oct : Fin 8) (s : State) : Host.Outcome State Fault Refusal :=
  .next (swapIn oct.val (advance t s))

/-- The result of the measurement of phase 4 at the hand-back of pin index `i` (R310, R312). -/
def rollResult (k i : Nat) (m : ChMeas) (s : State) : State :=
  let n := 8 * k + i
  let s1 := rollTiming n m s
  if (groupOut (timingChecks m)).1 = 1 then
    calRec 1 (2 ^ k) n true (min m.resid 0xFFFF)
      (modOct k (fun o => { o with rollFails := o.rollFails.filter fun j => j != i }) s1)
  else
    let s2 := bump rgCal 0 8 1 s1
    if (octAt s2 k).rollFails.contains i then recover k s2
    else modOct k (fun o => { o with rollFails := i :: o.rollFails }) s2

/-- The pin goes back to its own channel at a permitted origin, after phase 4 or as INHIBIT asks (R170, R309, R310). -/
def handBack (k : Nat) (s : State) : State :=
  let r := (octAt s k).roll
  match (octAt s k).served with
  | none => s
  | some i =>
    if swapOk s (8 * k + i.val) ∧ (r.phase = 5 ∨ (octAt s k).xptInhibit) then
      let s1 := match r.phase, r.meas with
        | 5, some m => rollResult k i.val m (swapMade k s)
        | _, _ => swapMade k s
      modOct k (fun o => { o with
        served := none
        roll := ⟨if r.phase = 5 then 6 else 0, (i.val + 1) % 8, s.now, none⟩ }) s1
    else s

/-- SPARE_HAND_BACK (R310). -/
def execSpareHandBack (t : Instant) (oct : Fin 8) (s : State) : Host.Outcome State Fault Refusal :=
  .next (handBack oct.val (advance t s))

/-- The gap of GAP_MS ends and the cycle starts on the next pin; a cycle that stands still starts where it may run (R308). -/
def rollGap (k : Nat) (s0 : State) : State :=
  let s := rollSettle k s0
  let o := octAt s k
  if o.roll.phase = 6 then
    if o.roll.at_ + cMs * fld o.rollCfg 0 16 ≤ s.now then rollBegin k s else s
  else rollStart k s

/-- ROLL_GAP_EXPIRY (R308). -/
def execRollGapExpiry (t : Instant) (oct : Fin 8) (s : State) : Host.Outcome State Fault Refusal :=
  .next (rollGap oct.val (advance t s))

/-! ### Reports (R306, R313, R316) -/

/-- The channel G_CAL_SEL selects. -/
def calChan (s : State) : Chan := vget s.cal.ch (if 72 ≤ fld s.r.calSel 0 7 then 0 else fld s.r.calSel 0 7) default

/-- An age in units of `u` codes, saturating at 0xFFFF, which also stands for none. -/
def ageIn (s : State) (u : Nat) : Option Instant → Nat
  | none => 0xFFFF
  | some k => min ((s.now - k) / u) 0xFFFF

def calState (s : State) : Word :=
  let m := fun (p : OctCh → Bool) => maskOf ((List.range 8).filter fun k => p (octAt s k))
  word (m (fun o => o.calPend.isSome) + 2 ^ 8 * m (fun o => o.win.isSome) + 2 ^ 16 * b2n s.cal.unitStep.isSome +
    2 ^ 17 * b2n (s.cal.unitStep.isSome || s.cal.unitNext.isSome) +
    2 ^ 24 * m (fun o => o.calOverdue && o.calPend.isSome))

def calResult (s : State) : Word :=
  let x := calChan s
  word (2 ^ 28 * x.lvlOut + 2 ^ 24 * x.lvlChk + 2 ^ 20 * x.timOut + 2 ^ 16 * x.timChk + 2 ^ 12 * x.skewOut + 2 ^ 6 * x.timSrc)

def calQual (s : State) : Word := word (2 ^ 16 * (calChan s).eye + (calChan s).resid)

def calAge (s : State) : Word :=
  word (2 ^ 16 * ageIn s (60 * cS) (calChan s).lvlAt + ageIn s cS (calChan s).timAt)

def octCalStat (s : State) (k : Nat) : Word :=
  let o := octAt s k
  word (2 ^ 24 * o.lvlFail.toNat + 2 ^ 16 * o.timFail.toNat + 2 ^ 15 * b2n o.spareOk + 2 ^ 12 * o.lastOut +
    twos 8 (o.lvlTemp.getD 0))

def octRollStat (s : State) (k : Nat) : Word :=
  let at_ := (List.range 8).map fun i => (vget s.cal.ch (8 * k + i) default).timAt
  -- Its reset value stands until an age is known (R424; log 41).
  let old := if at_.all Option.isNone then 0 else (at_.map (ageIn s cS)).foldl max 0
  word (2 ^ 16 * old + 2 ^ 8 * (rollNow s k).next + 2 ^ 4 * (rollNow s k).phase)

end Sys2Proof.Machine
end

