-- ==== Sys2Proof/Machine/Line.lean ====
section
/-!
DEFINITION. Line.lean: what the Ababel ring's line carries (14 R318 to R320): frames with their CRC, the scrambler, and the search for
frame alignment. Bits are numbers, the first bit on the line being the most significant.
-/

namespace Sys2Proof.Machine

/-! ### The scrambler (R319) -/

/-- `n` bits of the sequence of x^15 + x^14 + 1 after the bits `acc`: the register `r` gives the bit of its x^15 stage (DEDUCED, log 81). -/
def scrambleBits : Nat → Nat → Nat → Nat
  | 0, _, acc => acc
  | n + 1, r, acc => scrambleBits n (2 * (r % 2 ^ 14) + (r / 2 ^ 14 + r / 2 ^ 13) % 2) (2 * acc + r / 2 ^ 14)

/-- The 224 bits of the sequence after a MARKER, from a register of ones. -/
def scramble : Nat := scrambleBits 224 (2 ^ 15 - 1) 0

/-! ### Frames (R318, Table 14-1) -/

def ringMarker : Nat := 0x47A91E6D

/-- The header of a frame as a word (Table 14-1). -/
def hdrWord (h : RingHdr) : Nat :=
  2 ^ 24 * h.type + 2 ^ 20 * h.src + 2 ^ 16 * h.hops + 2 ^ 8 * h.seq + 2 ^ 7 * b2n h.dirUp + h.rsvd.toNat

/-- The header a word spells. -/
def hdrOf (w : Nat) : RingHdr :=
  ⟨w / 2 ^ 24 % 256, w / 2 ^ 20 % 16, w / 2 ^ 16 % 16, w / 2 ^ 8 % 256, w.testBit 7, BitVec.ofNat 7 w⟩

/-- HEADER, PAYLOAD and CRC of a frame, 224 bits before scrambling. -/
def framePlain (h : RingHdr) (body : List Byte) : Nat :=
  let b := beBytes 4 (hdrWord h) ++ (body ++ List.replicate 20 0).take 20
  2 ^ 32 * beNat b + crc32c b

/-- A frame on the line: MARKER, then 224 scrambled bits. -/
def frameLine (h : RingHdr) (body : List Byte) : Nat := 2 ^ 224 * ringMarker + (framePlain h body ^^^ scramble)

/-- The 224 bits of a received frame, descrambled. -/
def descramble (w : Nat) : Nat := w % 2 ^ 224 ^^^ scramble

/-- Whether the CRC of a frame of 256 bits holds. -/
def crcHolds (w : Nat) : Bool := crc32c (beBytes 24 (descramble w / 2 ^ 32)) == descramble w % 2 ^ 32

/-- Whether a frame of 256 bits has MARKER and a valid CRC. -/
def frameHolds (w : Nat) : Bool := w / 2 ^ 224 == ringMarker && crcHolds w

/-- HEADER and PAYLOAD of a received frame. -/
def lineHdr (w : Nat) : RingHdr := hdrOf (descramble w / 2 ^ 192)
def lineBody (w : Nat) : List Byte := beBytes 20 (descramble w / 2 ^ 32)

/-- TYPE values of Table 14-2. -/
def frameTypes : List Nat := [0x00, 0x01, 0x02, 0x03, 0x10, 0x11, 0x12, 0x20, 0x21, 0x30, 0x31, 0x32, 0x33]

/-- The wake tone (R336): 2 ms of the pattern 1100 at 50 Mbit/s. -/
def toneLine : Nat := 12 * ((2 ^ 100000 - 1) / 15)

/-! ### The search for alignment (R320) -/

/-- A search over `n` received bits `w`: the candidate positions followed, and the position found. -/
structure AlignSearch where
  cands : List Nat := []
  found : Option Nat := none
  deriving DecidableEq, Repr

/-- MARKER, and a valid CRC after it, at a bit position. -/
def markAt (n w p : Nat) : Bool := w >>> (n - p - 32) % 2 ^ 32 == ringMarker
def crcAt (n w p : Nat) : Bool := crcHolds (w >>> (n - p - 256) % 2 ^ 256)

/-- What candidate `p` has to pass once `b` bits have come: its own CRC, then MARKER and CRC at 256 and at 512 bits after it. -/
def candPasses (n w b p : Nat) : Bool :=
  (b != p + 256 || crcAt n w p) && (b != p + 288 || markAt n w (p + 256)) && (b != p + 512 || crcAt n w (p + 256)) &&
  (b != p + 544 || markAt n w (p + 512)) && (b != p + 768 || crcAt n w (p + 512))

/-- The search once `b` bits have come: candidates that fail are dropped, one that has passed is found, and a MARKER at any other
position opens a candidate while fewer than four are followed. -/
def searchBit (n w : Nat) (x : AlignSearch) (b : Nat) : AlignSearch :=
  let keep := x.cands.filter (candPasses n w b)
  match x.found, keep.find? fun p => p + 768 == b with
  | some p, _ => { cands := [], found := some p }
  | none, some p => { cands := [], found := some p }
  | none, none =>
    let p := b - 32
    if 32 ≤ b ∧ markAt n w p ∧ !(keep.any fun c => p == c + 256 || p == c + 512) ∧ keep.length < 4 then { cands := keep ++ [p] }
    else { cands := keep }

/-- The position at which a search finds alignment in `n` received bits. -/
def searchLine (n w : Nat) : Option Nat := ((List.range (n + 1)).foldl (searchBit n w) {}).found

end Sys2Proof.Machine
end

