-- ==== Sys2Proof/Machine/Ring.lean ====
section
/-!
DEFINITION. Ring.lean: the Ababel ring: alignment, survey, link delays, mastership and time, triggers (14 R317 to R331, R341,
R342), and the commands of these.
-/

namespace Sys2Proof.Machine

/-! ### Settings and ports -/

def masterEn (s : State) : Bool := bit s.r.ringCfg 3
def runEn (s : State) : Bool := bit s.r.ringCfg 2
def sleepEn (s : State) : Bool := bit s.r.ringCfg 1
def linkAsym (s : State) : Int := sgn 16 (fld s.r.ringAsym 0 16)

/-- CFG_ERR (R317, Table 14-8): UNIT_NO 0 is not configured, and no error with a valid RING_SIZE. -/
def ringCfgErr (s : State) : Bool :=
  !ringValid s && (unitNo s != 0 || (ringSize s != 0 && !(decide (2 ≤ ringSize s) && decide (ringSize s ≤ 16))))

/-- Whether the unit takes part in the ring: a unit looped back to itself joins none (R317, R325). -/
def ringOn (s : State) : Bool := ringValid s && !s.ring.selfLoop

def modRing (f : Ring → Ring) (s : State) : State := { s with ring := f s.ring }

def portAt (s : State) : RingPort → RPort
  | .a => s.ring.pa
  | .b => s.ring.pb

def modPort (rp : RingPort) (f : RPort → RPort) (s : State) : State :=
  match rp with
  | .a => modRing (fun r => { r with pa := f r.pa }) s
  | .b => modRing (fun r => { r with pb := f r.pb }) s

/-- Whether the transmitters are on: not before local T_w in the Dawn of a sleep agreement's alarm (R317, R337). -/
def ringTxOn (s : State) : Bool := fastOn s && !s.ring.agree.quiet

/-! ### Frames sent (R318, R322) -/

/-- Order in which queued frames leave (R322). -/
def txRank (type : Nat) : Nat :=
  match type with
  | 0x100 => 0
  | 0x02 => 1
  | 0x03 => 1
  | 0x11 => 2
  | 0x33 => 3
  | 0x30 => 4
  | 0x31 => 4
  | 0x32 => 4
  | 0x20 => 5
  | 0x21 => 5
  | 0x10 => 6
  | 0x12 => 6
  | 0x01 => 7
  | _ => 8

/-- Codes of a frame, 5.12 µs, and of the slots a frame or a wake tone takes up. -/
def cFrame : Nat := 1310720
def RFrame.lasts (f : RFrame) : Nat := if f.type = 0x100 then 391 * cFrame else cFrame

/-- The first slot at or after an instant (log 81). -/
def slotFrom (k : Instant) : Instant :=
  let p := Config.ringSlot % cFrame
  if k ≤ p then p else p + (k - p + cFrame - 1) / cFrame * cFrame

/-- A frame that leaves at `k`: MTIME of a TIME frame is the master time of that instant (R327). -/
def RFrame.leave (s : State) (k : Instant) (f : RFrame) : RFrame :=
  { f with at_ := k, body := match f.mt with
    | some o => beBytes 12 (timeCode ((tamOf s k : Int) + o).toNat) ++ f.body.drop 12
    | none => f.body }

/-- Frames in the slots in which they leave by RING A from `ka` on and by RING B from `kb` on. -/
def placeTx (s : State) : Instant → Instant → List RFrame → List RFrame
  | _, _, [] => []
  | ka, kb, f :: l =>
    if f.outA then f.leave s ka :: placeTx s (ka + f.lasts) kb l else f.leave s kb :: placeTx s ka (kb + f.lasts) l

/-- Frames handed to the ports at `k`, in the order in which they leave. -/
def txPut (k : Instant) (fs : List RFrame) (s : State) : State :=
  if ringTxOn s then modRing (fun r => { r with
    tx := placeTx s (slotFrom k) (slotFrom k) ((r.tx ++ fs).mergeSort fun a b => decide (txRank a.type ≤ txRank b.type)) }) s
  else s

/-- The next SEQ of a TYPE (Table 14-1). -/
def seqOf (s : State) (type : Nat) : Nat := ((s.ring.seqs.find? fun q => q.1 == type).map (·.2)).getD 0

/-- The unit originates a frame on one port or both, to leave from instant `k` on. -/
def originateAt (k : Instant) (type : Nat) (outA outB : Bool) (body : List Byte) (mt : Option Int) (s : State) : State :=
  let q := seqOf s type
  let f := fun (a : Bool) => RFrame.mk a type (unitNo s - 1) 0 q body 0 mt
  txPut k ((if outA then [f true] else []) ++ (if outB then [f false] else []))
    (modRing (fun r => { r with seqs := (type, (q + 1) % 256) :: r.seqs.filter fun x => x.1 != type }) s)

/-- The unit originates a frame now. -/
def originate (type : Nat) (outA outB : Bool) (body : List Byte) (s : State) : State :=
  originateAt s.now type outA outB body none s

/-- A received frame's last bit comes a frame's length after its MARKER. It goes on out of the other port (R322). -/
def forwardTime (rp : RingPort) (h : RingHdr) (body : List Byte) (mt : Option Int) (s : State) : State :=
  txPut (s.now + cFrame) [⟨rp == .b, h.type, h.src, h.hops + 1, h.seq, body, 0, mt⟩] s
def forward (rp : RingPort) (h : RingHdr) (body : List Byte) (s : State) : State := forwardTime rp h body none s

/-- Reserved bytes. -/
def zeros (n : Nat) : List Byte := List.replicate n 0

/-! ### Violations (R341) -/

/-- A violation of Table 14-6: its row. -/
def ringViol (row : Nat) (h : RingHdr) (s : State) : State :=
  fault ⟨40, 0, none⟩ row [hdrWord h] (bump rgRingErr 0 8 1 s)

/-! ### Mastership and synchronisation (R326, R327) -/

/-- SYNC falls to 0: an event of RING_SYNC with the lost master's unit number; kind-2 jobs not yet judged keep the local instant last
computed, and are logged (R330). -/
def syncLost (s : State) : State :=
  let lost := match s.ring.master with | some m => m + 1 | none => 0
  if s.ring.sync then
    let waits := fun (x : Slot) => x.st == .queued && x.desc.kind == 2 && !x.judged
    let s1 := (List.range 16).foldl (fun s i =>
      let x := slotAt s i
      match trigStart s x with
      | some c => if waits x then notice 0x0A x.jobNo [] (modSlot i (fun x => { x with start := some c }) s) else s
      | none => s) s
    let s2 := modRing (fun r => { r with sync := false }) s1
    if ringValid s2 then faultU 43 lost s2 else s2
  else s

/-- The selected master is given up or changes. -/
def masterSet (m : Option Nat) (s : State) : State :=
  modRing (fun r => { r with
    master := m, samples := [], sampleCount := 0
    pa := { r.pa with hops := none }, pb := { r.pb with hops := none } }) (syncLost s)

/-- The master resigns (R326). -/
def resign (s : State) : State :=
  if isMaster s then masterSet none (originate 0x12 true true (zeros 20) s) else s

/-- Whether a standing master has to resign. -/
def mustResign (s : State) : Bool := !s.tim.valid || s.tim.todSrc == 3 || !masterEn s

/-- What a ring happening leaves to be judged: a master that must resign, the ring becoming open, and the conditions of sources 41
and 43 (Table 17-1). -/
def ringWatch (old s0 : State) : State :=
  let s := if isMaster s0 && mustResign s0 then resign s0 else s0
  let s1 := if ringClosed old && !ringClosed s && ringValid s then faultU 41 s.ring.seen s else s
  setCond 43 0 (ringValid s1 && !s1.ring.sync) (setCond 41 0 (ringValid s1 && !ringClosed s1) s1)

/-- A ring happening: the frames of earlier ones have left. In Night and without line power the ring stands still. -/
def ringCmd (f : State → State) (s : State) : State :=
  if fastOn s then ringWatch s (f (modRing (fun r => { r with tx := [] }) s)) else s

/-! ### Reception (R320 to R322) -/

/-- A frame that an aligned port received: discarded, come back to its originator, or to be acted on and forwarded. -/
inductive FrameAct where
  | drop | mine | take
  deriving DecidableEq, Repr

/-- The judgement of R322 and the first two rows of Table 14-6. -/
def frameAct (s : State) (h : RingHdr) : FrameAct × Option Nat :=
  if !ringOn s then (.drop, none)
  else if h.rsvd ≠ 0 then (.drop, some 1)
  else if h.src + 1 = unitNo s then (.mine, none)
  else if ringSize s ≤ h.src ∨ 15 ≤ h.hops then (.drop, some 2)
  else (.take, none)

/-- A received frame: `mine` acts on the unit's own frame come round, `take` on any other. -/
def frameIn (rp : RingPort) (h : RingHdr) (mine take : State → State) (s0 : State) : State :=
  ringCmd (fun s =>
    let s1 := modPort rp (fun p => { p with bad := 0 }) s
    match frameAct s1 h with
    | (.drop, some row) => ringViol row h s1
    | (.drop, none) => s1
    | (.mine, _) => mine s1
    | (.take, _) => take s1) s0

/-- A port leaves alignment. -/
def alignLost (rp : RingPort) (s : State) : State :=
  modRing (fun r => { r with surveyOk := false })
    (modPort rp (fun p => { p with aligned := false, bad := 0 }) (bump rgRingErr 8 8 1 s))

/-- A frame of link type, which is not forwarded: the first two rows of Table 14-6. -/
def linkIn (rp : RingPort) (h : RingHdr) (take : State → State) (s0 : State) : State :=
  ringCmd (fun s =>
    let s1 := modPort rp (fun p => { p with bad := 0 }) s
    if !ringOn s1 then s1
    else if h.rsvd ≠ 0 then ringViol 1 h s1
    else if ringSize s1 ≤ h.src ∨ 15 ≤ h.hops then ringViol 2 h s1
    else take s1) s0

/-- The 256 bits that an aligned port received at the expected position, where the frame is to be discarded (R321, Table 14-6). -/
def frameDiscard (rp : RingPort) (line : Nat) (s : State) : State :=
  let h := lineHdr line
  if !(portAt s rp).aligned then s
  else if !frameHolds line then
    let n := (portAt s rp).bad + 1
    let s1 := modPort rp (fun p => { p with bad := n }) (bump rgRingErr 16 16 1 s)
    if 4 ≤ n then alignLost rp s1 else s1
  else
    let s1 := modPort rp (fun p => { p with bad := 0 }) s
    if h.rsvd ≠ 0 ∨ !frameTypes.contains h.type then ringViol 1 h s1
    else if ringOn s1 ∧ h.src + 1 ≠ unitNo s1 ∧ (ringSize s1 ≤ h.src ∨ 15 ≤ h.hops) then ringViol 2 h s1
    else s1

/-- RING_FRAME_DISCARDED (R321). -/
def execRingFrameDiscarded (t : Instant) (rp : RingPort) (marker : BitVec 32) (rest : BitVec 224) (s : State) :
    Host.Outcome State Fault Refusal :=
  .next (ringCmd (frameDiscard rp (marker ++ rest).toNat) (advance t s))

/-- A port that is not aligned finds alignment in the bits it has received, where three frames in a row confirm a candidate (R320). -/
def alignIn (rp : RingPort) (n line : Nat) (s : State) : State :=
  if (portAt s rp).aligned then s
  else if (searchLine n line).isSome then modPort rp (fun p => { p with aligned := true, bad := 0 }) s
  else s

/-- RING_ALIGNMENT_FOUND (R320). -/
def execRingAlignmentFound (t : Instant) (x : LineBits) (s : State) : Host.Outcome State Fault Refusal :=
  .next (ringCmd (alignIn x.rp x.n x.bits) (advance t s))

/-! ### Survey (R323) -/

def ownBit (s : State) : Nat := 2 ^ (unitNo s - 1)

/-- A SURVEY is sent downstream. -/
def surveySend (s : State) : State :=
  if ringOn s then
    originate 0x01 false true (beBytes 2 (ownBit s) ++ zeros 18) (modRing (fun r => { r with surveyAt := some s.now }) s)
  else s

/-- SURVEY_SEND (R323). -/
def execSurveySend (t : Instant) (s : State) : Host.Outcome State Fault Refusal :=
  .next (ringCmd surveySend (advance t s))

/-- The unit's own SURVEY returns within 1 ms. -/
def surveyBack (h : RingHdr) (seen dup : Nat) (s : State) : State :=
  match s.ring.surveyAt with
  | none => s
  | some k =>
    if s.now ≤ cMs + k then
      let ok := seen == 2 ^ ringSize s - 1 && dup == 0
      let s1 := modRing (fun r => { r with seen := seen, dup := dup, surveyOk := ok, surveyAt := none }) s
      if dup = 0 then s1 else ringViol 8 h s1
    else s

/-- SEEN and DUP after this unit's mark. -/
def surveyMark (s : State) (seen dup : Nat) : List Byte :=
  if seen.testBit (unitNo s - 1) then beBytes 2 seen ++ beBytes 2 (dup ||| ownBit s)
  else beBytes 2 (seen ||| ownBit s) ++ beBytes 2 dup

/-- SURVEY_RECEIVED (R323). -/
def execSurveyReceived (t : Instant) (rp : RingPort) (h : RingHdr) (seen dup : BitVec 16) (s : State) :
    Host.Outcome State Fault Refusal :=
  .next (frameIn rp h (surveyBack h seen.toNat dup.toNat)
    (fun s => forward rp h (surveyMark s seen.toNat dup.toNat ++ zeros 16) s) (advance t s))

/-- A SURVEY has not returned within 1 ms. -/
def surveyMissing (s : State) : State :=
  match s.ring.surveyAt with
  | none => s
  | some k => if cMs + k ≤ s.now then modRing (fun r => { r with surveyOk := false, surveyAt := none }) s else s

/-- SURVEY_TIMEOUT (R323). -/
def execSurveyTimeout (t : Instant) (s : State) : Host.Outcome State Fault Refusal :=
  .next (ringCmd surveyMissing (advance t s))

/-! ### Link delays (R324, R325) -/

/-- A DELAY_REQ leaves by RING B: t1 is the instant it does (R324). -/
def delaySend (s : State) : State :=
  if ringOn s then
    let s1 := originate 0x02 false true (beBytes 4 s.ring.linkB ++ zeros 16) s
    modRing (fun r => { r with reqAt := (r.tx.find? fun f => !f.outA && f.type == 2).map (·.at_) }) s1
  else s

/-- DELAY_REQ_SEND (R324). -/
def execDelayReqSend (t : Instant) (s : State) : Host.Outcome State Fault Refusal := .next (ringCmd delaySend (advance t s))

/-- A DELAY_REQ on RING A (R324): LAST_D becomes LINK_A; the answer carries RESIDENCE, t3 less t2, t3 being the slot it leaves in. -/
def delayIn (lastD : Nat) (s : State) : State :=
  originateAt (s.now + cFrame) 0x03 true false (beBytes 8 (slotFrom (s.now + cFrame) - s.now) ++ zeros 12) none
    (modRing (fun r => { r with linkA := lastD % 2 ^ 32 }) s)

/-- DELAY_REQ_RECEIVED (R324). -/
def execDelayReqReceived (t : Instant) (h : RingHdr) (lastD : Nat) (s : State) : Host.Outcome State Fault Refusal :=
  .next (linkIn .a h (delayIn lastD) (advance t s))

/-- A measurement of the RING B link completes. -/
def delayDone (h : RingHdr) (residence : Int) (s : State) : State :=
  match s.ring.reqAt with
  | none => ringViol 3 h s
  | some t1 =>
    let s1 := modRing (fun r => { r with reqAt := none }) s
    if residence < 0 ∨ (100 * cUs : Nat) < residence then ringViol 3 h s1
    else
      let rt : Int := (s.now : Int) - t1 - residence
      let d := (rt + linkAsym s) / 2
      let l := (d :: s1.ring.linkSamples).take 16
      modRing (fun r => { r with linkSamples := l, linkB := (l.sum / l.length).toNat, dUp := rt - d }) s1

/-- DELAY_RESP_RECEIVED (R324). -/
def execDelayRespReceived (t : Instant) (x : DelayResp) (s : State) : Host.Outcome State Fault Refusal :=
  .next (linkIn .b x.hdr (delayDone x.hdr x.residence) (advance t s))

/-- LOOP_MEASURE_DONE (R325): 1 s after the unit found itself looped back. -/
def execLoopMeasureDone (t : Instant) (asym : Int) (s : State) : Host.Outcome State Fault Refusal :=
  let f := fun (s : State) =>
    if s.ring.selfLoop ∧ cS + s.ring.loopAt ≤ s.now then modRing (fun r => { r with loopValid := true, loopAsym := asym }) s
    else s
  .next (ringCmd f (advance t s))

/-! ### Time (R326, R327) -/

/-- A TIME frame's payload, but for its MTIME. -/
def timeBody (s : State) : List Byte :=
  zeros 12 ++ beBytes 1 s.tim.st.code ++ beBytes 1 (b2n s.tim.valid) ++ beBytes 1 s.tim.todSrc ++ zeros 5

/-- Whether no TIME frame has arrived for `d` codes. -/
def noTimeFor (s : State) (d : Nat) : Bool :=
  match s.ring.lastTime with
  | none => true
  | some k => decide (k + d ≤ s.now)

/-- Whether the unit may claim (R326). -/
def mayClaim (s : State) : Bool :=
  masterEn s && ringClosed s && s.tim.valid && s.tim.todSrc != 3 && noTimeFor s (3 * cMs) && s.ring.claiming.isNone &&
  !isMaster s

/-- A ring tick (R326): the master sends TIME, another unit may claim. -/
def ringTick (s : State) : State :=
  if !ringOn s then s
  else if isMaster s then (if mustResign s then s else originateAt s.now 0x11 true true (timeBody s) (some 0) s)
  else if mayClaim s then
    originate 0x10 true true (beBytes 1 1 ++ beBytes 1 s.tim.todSrc ++ zeros 18)
      (modRing (fun r => { r with claiming := some s.now }) s)
  else s

/-- RING_TICK (R326). -/
def execRingTick (t : Instant) (s : State) : Host.Outcome State Fault Refusal := .next (ringCmd ringTick (advance t s))

/-- A CLAIM from another unit (R326): a lower one withdraws the unit's own claim, a higher one is discarded against it. A master
whose TIME frames have been missing for 3 ms gives way (log 24). -/
def claimIn (rp : RingPort) (h : RingHdr) (body : List Byte) (s : State) : State :=
  if s.ring.claiming.isSome ∧ unitNo s ≤ h.src then s
  else
    let s1 := modRing (fun r => { r with claiming := none }) s
    let s2 := if !isMaster s1 && s1.ring.master.isSome && noTimeFor s1 (3 * cMs) then masterSet none s1 else s1
    forward rp h body s2

/-- CLAIM_RECEIVED (R326). -/
def execClaimReceived (t : Instant) (rp : RingPort) (h : RingHdr) (valid : Bool) (todSrc : Nat) (s : State) :
    Host.Outcome State Fault Refusal :=
  .next (frameIn rp h id (claimIn rp h (beBytes 1 (b2n valid) ++ beBytes 1 todSrc ++ zeros 18)) (advance t s))

/-- A claim that no lower one has withdrawn within 1 ms makes the unit master; SYNC reads 1 there (log 24). -/
def claimDone (s : State) : State :=
  match s.ring.claiming with
  | none => s
  | some k =>
    if cMs + k ≤ s.now ∧ ringOn s then
      modRing (fun r => { r with claiming := none, sync := true, mValid := false }) (masterSet (some (unitNo s - 1)) s)
    else s

/-- CLAIM_TIMEOUT (R326). -/
def execClaimTimeout (t : Instant) (s : State) : Host.Outcome State Fault Refusal := .next (ringCmd claimDone (advance t s))

/-- RESIGN_RECEIVED (R326). -/
def execResignReceived (t : Instant) (rp : RingPort) (h : RingHdr) (s : State) : Host.Outcome State Fault Refusal :=
  .next (frameIn rp h id (fun s =>
    forward rp h (zeros 20) (if s.ring.master = some h.src then masterSet none s else s)) (advance t s))

/-- Whether TIME frames of a port are used: fewer hops, RING A on equal hops (R327). -/
def timeUsed (s : State) (rp : RingPort) (hops : Nat) : Bool :=
  let other := match rp with | .a => s.ring.pb.hops | .b => s.ring.pa.hops
  match other with
  | none => true
  | some o => decide (3 * cMs + o.2 ≤ s.now) || decide (hops < o.1) || (hops == o.1 && rp == .a)

/-- A TIME frame from the selected master: an offset sample, and its regeneration out of the other port (R327). -/
def timeSample (rp : RingPort) (h : RingHdr) (mtime st : Nat) (valid : Bool) (tod : Nat) (s : State) : State :=
  let s1 := modPort rp (fun p => { p with hops := some (h.hops, s.now) }) (modRing (fun r => { r with lastTime := some s.now }) s)
  if timeUsed s rp h.hops then
    let d : Int := match rp with | .a => (s.ring.linkA : Int) | .b => s.ring.dUp
    let o : Int := (timeOfCode mtime : Int) + d - s.tim.codes
    let s2 := modRing (fun r => { r with
      samples := ((s.tim.codes, o) :: r.samples).take 16, sampleCount := r.sampleCount + 1
      sync := r.sync || decide (16 ≤ r.sampleCount + 1), mValid := valid }) s1
    forwardTime rp h (zeros 12 ++ beBytes 1 st ++ beBytes 1 (b2n valid) ++ beBytes 1 tod ++ zeros 5) (some (ringOfs s2)) s2
  else s1

/-- A TIME frame: from the master, or from another unit, which is a violation unless the master's have been missing for 3 ms. -/
def timeIn (rp : RingPort) (h : RingHdr) (mtime st : Nat) (valid : Bool) (tod : Nat) (s : State) : State :=
  if s.ring.master = some h.src then timeSample rp h mtime st valid tod s
  else if isMaster s ∨ (s.ring.master.isSome ∧ !noTimeFor s (3 * cMs)) then ringViol 4 h s
  else jobDue (timeSample rp h mtime st valid tod (masterSet (some h.src) s))

/-- TIME_RECEIVED (R327). -/
def execTimeReceived (t : Instant) (rp : RingPort) (h : RingHdr) (mtime state : Nat) (valid : Bool) (todSrc : Nat) (s : State) :
    Host.Outcome State Fault Refusal :=
  .next (frameIn rp h id (timeIn rp h mtime state valid todSrc) (advance t s))

/-- RING_SYNC_TIMEOUT (R327): 8 ms without a TIME frame. -/
def execRingSyncTimeout (t : Instant) (s : State) : Host.Outcome State Fault Refusal :=
  .next (ringCmd (fun s => if !isMaster s && noTimeFor s (8 * cMs) then masterSet none s else s) (advance t s))

/-! ### Triggers (R329, R330) -/

/-- The present master time. -/
def masterNow (s : State) : Nat := ((s.tim.codes : Int) + ringOfs s).toNat

/-- An assignment is kept among the latest eight, and queued jobs are decided with it. -/
def trigKeep (trig start : Nat) (s : State) : State :=
  jobDue (modRing (fun r => { r with trigs := ((trig, start) :: r.trigs).take 8 }) s)

/-- A template submitted as a ring job: START_KIND 2 and START the TRIG_ID (R329). A template that is not loaded has no bytes. -/
def ringRaw (s : State) (tmpl trig : Nat) : RawDesc :=
  let b := ((s.rt.templates.find? fun x => x.1 == tmpl).map (·.2)).getD []
  if b.length < 64 then ⟨false, []⟩
  else ⟨false, b.take 6 ++ [2] ++ (b.drop 7).take 9 ++ leBytes 4 trig ++ zeros 8 ++ b.drop 28⟩

def runSubmit (tmpl trig : Nat) (s : State) : State :=
  if runEn s then (submit 3 (ringRaw s tmpl trig) none s).1 else s

/-- The unit originates a TRIG or RUN (R329): S is the present master time plus the lead. The answer is S. -/
def trigOriginate (run : Bool) (trig leadMs tmpl : Nat) (s : State) : State × Nat :=
  let c := masterNow s + cMs * (if leadMs = 0 then 20 else leadMs)
  let body := beBytes 4 trig ++ beBytes 12 (timeCode c) ++ (if run then beBytes 1 tmpl else zeros 1) ++ zeros 3
  let s1 := trigKeep trig c (originate (if run then 0x21 else 0x20) false true body s)
  (if run then runSubmit tmpl trig s1 else s1, c)

/-- The body of a TRIG or RUN as forwarded (Table 14-2). -/
def trigBody (trig start : Nat) (tmpl : Option Nat) : List Byte :=
  beBytes 4 trig ++ beBytes 12 start ++ (match tmpl with | some x => beBytes 1 x | none => zeros 1) ++ zeros 3

/-- A RUN submits its template. -/
def runTemplate (trig : Nat) (tmpl : Option Nat) (s : State) : State :=
  match tmpl with
  | some x => runSubmit x trig s
  | none => s

/-- A TRIG or RUN with S more than 60 s ahead is a violation; any other is kept and forwarded. -/
def trigIn (rp : RingPort) (h : RingHdr) (trig start : Nat) (tmpl : Option Nat) (s : State) : State :=
  if 60 * cS + masterNow s < timeOfCode start then ringViol 5 h s
  else runTemplate trig tmpl (forward rp h (trigBody trig start tmpl) (trigKeep trig (timeOfCode start) s))

/-- TRIG_RECEIVED (R329). -/
def execTrigReceived (t : Instant) (rp : RingPort) (h : RingHdr) (trigId start : Nat) (s : State) :
    Host.Outcome State Fault Refusal :=
  .next (frameIn rp h id (trigIn rp h trigId start none) (advance t s))

/-- RUN_RECEIVED (R329). -/
def execRunReceived (t : Instant) (rp : RingPort) (h : RingHdr) (trigId start template : Nat) (s : State) :
    Host.Outcome State Fault Refusal :=
  .next (frameIn rp h id (trigIn rp h trigId start (some template)) (advance t s))

end Sys2Proof.Machine
end

