-- ==== Sys2Proof/Machine/Sleep.lean ====
section
/-!
DEFINITION. Sleep.lean: sleep agreements, wake calls and the rendezvous after sleep (14 R332 to R342), the ring commands of
G_RING_CMD, and the commands of these.
-/

namespace Sys2Proof.Machine

def modAgree (f : Agree → Agree) (s : State) : State := modRing (fun r => { r with agree := f r.agree }) s

/-- LEAD_MS and LISTEN_S in force (Table 14-9). -/
def ringLeadMs (s : State) : Nat := if fld s.r.ringSleep 0 12 < 20 then 100 else fld s.r.ringSleep 0 12
def listenS (s : State) : Nat :=
  if fld s.r.ringSleep 12 4 = 0 ∨ 10 < fld s.r.ringSleep 12 4 then 5 else fld s.r.ringSleep 12 4

/-! ### Wake calls (R334 to R336) -/

/-- The call acts as wake source 2. -/
def wakeAct (s : State) : State := pwrRequest .day 2 0 s

/-- A wake call that reaches the unit (R335). -/
def wakeReach (s : State) : State :=
  match s.ring.agree.st with
  | 3 => modAgree (fun a => { a with held := true }) s
  | 4 => modAgree (fun a => { a with latched := true }) { s with nw := { s.nw with wakeLatch := true } }
  | _ => modRing (fun r => { r with toneDue := true }) (wakeAct s)

/-- A call that a proposer meets before its COMMIT returns was before the commit (R334). -/
def wakeBefore (s : State) : State :=
  if s.ring.agree.proposer ∧ (s.ring.agree.st = 1 ∨ s.ring.agree.st = 3) then
    modAgree (fun a => { a with wakeBefore := true }) s
  else s

/-- The AGREE_ID of the agreement in force, 0 if none (Table 14-2): from its CONFIRM on, for as long as its beacons go on (R337; DEDUCED,
log 81). -/
def agreeInForce (s : State) : Nat := if [4, 6, 7, 8, 10].contains s.ring.agree.st then s.ring.agree.id else 0

/-- The wake tone on the ports that are not aligned (R336). -/
def sendTone (s : State) : State :=
  txPut s.now ((if s.ring.pa.aligned then [] else [⟨true, 0x100, 0, 0, 0, [], 0, none⟩]) ++
    (if s.ring.pb.aligned then [] else [⟨false, 0x100, 0, 0, 0, [], 0, none⟩])) s

/-- A tone that is due is sent, once the transmitters are on. -/
def toneNow (s : State) : State :=
  if s.ring.toneDue ∧ ringTxOn s ∧ ringOn s then modRing (fun r => { r with toneDue := false }) (sendTone s) else s

/-- The unit originates a wake call (R336). -/
def wakeCall (s : State) : State :=
  let q := (s.ring.wakeSeq + 1) % 65536
  if !ringOn s then s
  else wakeBefore (originate 0x33 true true
    (beBytes 1 (unitNo s) ++ zeros 1 ++ beBytes 2 q ++ beBytes 2 (agreeInForce s) ++ zeros 14)
    (sendTone (modRing (fun r => { r with wakeSeq := q }) s)))

/-- A WAKE frame: forwarded once each way, acted on once, and discarded beyond 16 new calls per second from one origin. -/
def wakeIn (rp : RingPort) (h : RingHdr) (origin wakeSeq agreeId : Nat) (s0 : State) : State :=
  let s := if rp = .a then wakeBefore s0 else s0
  if s.ring.wakeSeen.any fun w => w.1 == origin && w.2.1 == wakeSeq && w.2.2 == (rp == .b) then s
  else
    let isNew := !(s.ring.wakeSeen.any fun w => w.1 == origin && w.2.1 == wakeSeq)
    let recent := s.ring.wakeTimes.filter fun w => decide (s.now < cS + w.2)
    if isNew ∧ 16 ≤ (recent.filter fun w => w.1 == origin).length then ringViol 7 h s
    else
      let s1 := modRing (fun r => { r with
        wakeSeen := (origin, wakeSeq, rp == .b) :: r.wakeSeen
        wakeTimes := if isNew then (origin, s.now) :: recent else r.wakeTimes }) s
      let s2 := forward rp h (beBytes 1 origin ++ zeros 1 ++ beBytes 2 wakeSeq ++ beBytes 2 agreeId ++ zeros 14) s1
      if isNew then wakeReach s2 else s2

/-- WAKE_RECEIVED (R335). -/
def execWakeReceived (t : Instant) (rp : RingPort) (h : RingHdr) (origin wakeSeq agreeId : Nat) (s : State) :
    Host.Outcome State Fault Refusal :=
  .next (frameIn rp h id (wakeIn rp h origin wakeSeq agreeId) (advance t s))

/-- WAKE_TONE_DETECTED (R336): a receiver in Night. -/
def execWakeToneDetected (t : Instant) (s : State) : Host.Outcome State Fault Refusal :=
  let s := advance t s
  .next (if s.pwr.st = .night then modRing (fun r => { r with toneDue := true }) (wakeAct s) else s)

/-! ### Agreements (R332, R333) -/

/-- Whether the unit holds an agreement. -/
def agreeHeld (s : State) : Bool := [1, 2, 3, 4, 6, 7].contains s.ring.agree.st

/-- SLEEP_S or TARGET of a proposal out of range (R332, Table 14-12). -/
def proposalBad (sleepS target : Nat) : Bool :=
  decide (sleepS = 0 ∨ 86400 < sleepS) || (target != 1 && target != 2)

/-- The least veto code of Table 14-5 that applies to a proposal, 0 where none does; `own` leaves out code 5. -/
def vetoCode (s : State) (own : Bool) (sleepS target tn : Nat) : Nat :=
  if !sleepEn s then 1
  else if s.encl.vbus && usbEn s then 2
  else if (slotsIn s JobSt.active) ≠ [] then 3
  else if (List.range 8).any (fun k => (octAt s k).win.isSome) ∨ s.boot.store.isSome then 4
  else if !own && agreeHeld s then 5
  else if s.pwr.st = .dawn ∨ s.pwr.st = .dusk then 6
  else if !s.ring.sync ∨ tn < 10 * cMs + masterNow s then 7
  else if proposalBad sleepS target then 8
  else 0

/-- The payload of PROPOSE and COMMIT (Table 14-2). -/
def agreeBody (id target veto accept vetoed sleepS tn : Nat) : List Byte :=
  beBytes 2 id ++ beBytes 1 target ++ beBytes 1 veto ++ beBytes 2 accept ++ beBytes 2 vetoed ++ beBytes 4 sleepS ++
  beBytes 4 (tn / cS % 2 ^ 32) ++ beBytes 4 (tn % cS / 256)

/-- A verdict: RESULT 0 confirms, any other is the abort code (log 26). -/
def sendVerdict (id result : Nat) (s : State) : State :=
  originate 0x32 false true (beBytes 2 id ++ beBytes 1 result ++ zeros 17) s

/-- The agreement ends here with an abort or veto code; a held call then acts (R335). -/
def agreeAbort (code : Nat) (s : State) : State :=
  let s1 := bump rgRing 0 8 1 (modAgree (fun a => { a with st := 5, veto := code, held := false }) s)
  if s.ring.agree.held then modRing (fun r => { r with toneDue := true }) (wakeAct s1) else s1

/-- A proposal of this unit (R332): its own acceptance is checked first. One that it vetoes leaves an agreement it holds as it stands. -/
def propose (sleepS target : Nat) (s : State) : State :=
  let id := (unitNo s - 1) * 4096 + s.ring.agreeSeq % 4096
  let tn := (masterNow s + cMs * ringLeadMs s) / 256 * 256
  let code := vetoCode s false sleepS target tn
  let s1 := modRing (fun r => { r with agreeSeq := (r.agreeSeq + 1) % 4096 }) s
  let a : Agree := { id := id, st := 1, proposer := true, target := target, sleepS := sleepS, tn := tn, accept := ownBit s
                     sentAt := s.now }
  if !ringOn s then s
  else if code = 0 then
    originate 0x30 false true (agreeBody id target 0 (ownBit s) 0 sleepS tn) (modAgree (fun _ => a) s1)
  else if agreeHeld s then bump rgRing 0 8 1 s1
  else agreeAbort code (modAgree (fun _ => a) s1)

/-- T_n of a message in codes, its upper second bits taken from the present time. -/
def msgTn (s : State) (a : AgreeMsg) : Nat :=
  cS * (2 ^ 32 * (masterNow s / cS / 2 ^ 32) + a.tnSec % 2 ^ 32) + a.tnNs * 256

/-- The unit's own PROPOSE returns (Table 14-4 step 3). -/
def proposeBack (a : AgreeMsg) (s : State) : State :=
  let g := s.ring.agree
  if g.proposer ∧ g.st = 1 ∧ g.id = a.agreeId then
    let code := vetoCode s true g.sleepS g.target g.tn
    if a.accept.toNat = 2 ^ ringSize s - 1 ∧ a.vetoed = 0 ∧ code = 0 then
      originate 0x31 false true (agreeBody g.id g.target a.veto a.accept.toNat 0 g.sleepS g.tn)
        (modAgree (fun x => { x with st := 3, accept := a.accept.toNat, sentAt := s.now }) s)
    else
      let r := if a.accept.toNat = 2 ^ ringSize s - 1 ∧ a.vetoed = 0 then code else 12
      agreeAbort r (sendVerdict g.id r s)
  else s

/-- Whether a proposal displaces the agreement that the unit holds (R333): from a lower-numbered proposer, before COMMIT. -/
def displaces (s : State) (id : Nat) : Bool :=
  (s.ring.agree.st == 1 || s.ring.agree.st == 2) && decide (id / 4096 < s.ring.agree.id / 4096)

/-- The agreement held ends as vetoed with code 5; a proposer aborts it round the ring. -/
def displace (s : State) : State :=
  agreeAbort 5 (if s.ring.agree.proposer then sendVerdict s.ring.agree.id 5 s else s)

/-- A PROPOSE of another unit (Table 14-4 step 2): accepted or vetoed, and forwarded. One out of range is a violation, vetoed with
code 8 (Table 14-6), whatever other code applies. -/
def proposeIn (rp : RingPort) (h : RingHdr) (a : AgreeMsg) (s : State) : State :=
  let tn := msgTn s a
  let dis := displaces s a.agreeId
  let code := if proposalBad a.sleepS a.target then 8 else vetoCode s dis a.sleepS a.target tn
  let send := fun (veto acc vet : Nat) (s : State) =>
    forward rp h (agreeBody a.agreeId a.target veto acc vet a.sleepS tn) s
  if code = 0 then
    let s1 := if dis then displace s else s
    send a.veto (a.accept.toNat ||| ownBit s) a.vetoed.toNat (modAgree (fun _ =>
      { id := a.agreeId, st := 2, target := a.target, sleepS := a.sleepS, tn := tn, accept := a.accept.toNat ||| ownBit s }) s1)
  else
    let s1 := if code = 8 then ringViol 6 h s else s
    let s2 := bump rgRing 0 8 1 (if agreeHeld s1 then s1
      else modAgree (fun _ => { id := a.agreeId, st := 5, veto := code, target := a.target, sleepS := a.sleepS, tn := tn }) s1)
    send (if a.veto = 0 then code else a.veto) a.accept.toNat (a.vetoed.toNat ||| ownBit s) s2

/-- PROPOSE_RECEIVED (R333). -/
def execProposeReceived (t : Instant) (rp : RingPort) (h : RingHdr) (a : AgreeMsg) (s : State) :
    Host.Outcome State Fault Refusal :=
  .next (frameIn rp h (proposeBack a) (proposeIn rp h a) (advance t s))

/-! ### Confirmation (R334, R335, R337, R338) -/

/-- The computed guard in µs. -/
def guardComputed (sleepS : Nat) : Nat := max 2000 (50 * sleepS + 500)

/-- GUARD_OVR in µs. -/
def guardOvrUs (s : State) : Nat := fld s.r.ringSleep 16 16 * 100

/-- A Tamong time as a Nightwatch counter value in codes, through the present relation of the two. -/
def nwOf (s : State) (c : Nat) : Nat := s.nw.codes + c - s.tim.codes

/-- Ticks of the Nightwatch counter in codes of time. -/
def ticksOf (c : Nat) : Nat := 32768 * c / cS

/-- CONFIRM (R335, R337, R338): local T_n and T_w, the alarm value, the guard; a held call is latched. -/
def agreeConfirm (s : State) : State :=
  let g := s.ring.agree
  let tn := ((g.tn : Int) - ringOfs s).toNat
  let tw := ((g.tn : Int) + (cS * g.sleepS : Nat) - ringOfs s).toNat
  let comp := guardComputed g.sleepS
  let ovr := guardOvrUs s
  let short := ovr != 0 && decide (ovr < comp)
  let s1 := modAgree (fun a => { a with
    st := 4, tn := tn, tw := tw, guardUs := if ovr = 0 then comp else ovr, guardShort := short
    alarm := ticksOf (nwOf s tw - 3 * cS), latched := g.held, held := false }) s
  let s2 := if g.held then { s1 with nw := { s1.nw with wakeLatch := true } } else s1
  if short then fault ⟨47, 0, none⟩ g.id [ovr, comp] s2 else s2

/-- The unit's own COMMIT returns: it judges wake calls and sends its verdict (R334). -/
def commitBack (a : AgreeMsg) (s : State) : State :=
  let g := s.ring.agree
  if g.proposer ∧ g.st = 3 ∧ g.id = a.agreeId then
    if g.wakeBefore then agreeAbort 10 (sendVerdict g.id 10 s) else agreeConfirm (sendVerdict g.id 0 s)
  else s

/-- A COMMIT of another unit's agreement commits the unit and goes on. -/
def commitIn (rp : RingPort) (h : RingHdr) (a : AgreeMsg) (s : State) : State :=
  let s1 := if s.ring.agree.st = 2 ∧ s.ring.agree.id = a.agreeId then modAgree (fun x => { x with st := 3 }) s else s
  forward rp h (agreeBody a.agreeId a.target a.veto a.accept.toNat a.vetoed.toNat a.sleepS (msgTn s a)) s1

/-- COMMIT_RECEIVED (R334). -/
def execCommitReceived (t : Instant) (rp : RingPort) (h : RingHdr) (a : AgreeMsg) (s : State) :
    Host.Outcome State Fault Refusal :=
  .next (frameIn rp h (commitBack a) (commitIn rp h a) (advance t s))

/-- A VERDICT on the agreement held (R335). -/
def verdictIn (rp : RingPort) (h : RingHdr) (id result : Nat) (s : State) : State :=
  let g := s.ring.agree
  let s1 := forward rp h (beBytes 2 id ++ beBytes 1 result ++ zeros 17) s
  if g.id = id ∧ (g.st = 2 ∨ g.st = 3) then
    if result = 0 then (if g.st = 3 then agreeConfirm s1 else s1) else agreeAbort result s1
  else s1

/-- VERDICT_RECEIVED (R335). -/
def execVerdictReceived (t : Instant) (rp : RingPort) (h : RingHdr) (agreeId result : Nat) (s : State) :
    Host.Outcome State Fault Refusal :=
  .next (frameIn rp h id (verdictIn rp h agreeId result) (advance t s))

/-- PROPOSE or COMMIT has not returned within LEAD_MS / 4 (R333). -/
def returnTimeout (s : State) : State :=
  let g := s.ring.agree
  if g.proposer ∧ (g.st = 1 ∨ g.st = 3) ∧ g.sentAt + cMs * ringLeadMs s / 4 ≤ s.now then
    agreeAbort 9 (sendVerdict g.id 9 s)
  else s

/-- AGREE_RETURN_TIMEOUT (R333). -/
def execAgreeReturnTimeout (t : Instant) (s : State) : Host.Outcome State Fault Refusal :=
  .next (ringCmd returnTimeout (advance t s))

/-- No verdict by local T_n - 10 ms (R335). -/
def verdictTimeout (s : State) : State :=
  let g := s.ring.agree
  if (g.st = 2 ∨ g.st = 3) ∧ (g.tn : Int) - ringOfs s ≤ (10 * cMs + s.tim.codes : Nat) then agreeAbort 11 s else s

/-- VERDICT_TIMEOUT (R335). -/
def execVerdictTimeout (t : Instant) (s : State) : Host.Outcome State Fault Refusal :=
  .next (ringCmd verdictTimeout (advance t s))

/-- Local T_n after CONFIRM (Table 14-4 step 7): Dusk towards Night with cause 2, and the alarm for the rendezvous. -/
def sleepInstant (s : State) : State :=
  let g := s.ring.agree
  if g.st = 4 ∧ !g.slept ∧ g.tn ≤ s.tim.codes then
    pwrRequest .night 0 2 { s with nw := { s.nw with alarmRdv := some g.alarm } }
  else s

/-- SLEEP_INSTANT (R332). -/
def execSleepInstant (t : Instant) (s : State) : Host.Outcome State Fault Refusal :=
  .next (ringCmd sleepInstant (advance t s))

/-! ### Rendezvous (R337 to R340) -/

/-- G_RING_STATE's code of a port (Table 14-10). -/
def linkCode (p : RPort) : Nat := if p.aligned then 2 else if p.carrier then 1 else 0

/-- The continuation of R414. -/
def rdvWords (s : State) : List Nat :=
  let g := s.ring.agree
  [g.guardUs, (s.tim.codes - g.tw) / cUs % 2 ^ 32, linkCode s.ring.pb * 4 + linkCode s.ring.pa]

/-- Local T_w: the window opens and the transmitters start (R337). -/
def rendezvousStart (s : State) : State :=
  if s.ring.agree.st = 4 ∧ s.ring.agree.tw ≤ s.tim.codes then
    toneNow (modAgree (fun a => { a with st := 6, slept := false, quiet := false }) s)
  else s

/-- RENDEZVOUS_START (R337). -/
def execRendezvousStart (t : Instant) (s : State) : Host.Outcome State Fault Refusal :=
  .next (ringCmd rendezvousStart (advance t s))

/-- No rendezvous by local T_w + G: a lost rendezvous, and the listen (R339, R340). -/
def rendezvousLost (s : State) : State :=
  let g := s.ring.agree
  if g.st = 6 ∧ g.tw + cUs * g.guardUs ≤ s.tim.codes then
    let s1 := bump rgRing 24 8 1 (modAgree (fun a => { a with st := 7, listenAt := s.now }) s)
    timeStateRec 3 0 (fault ⟨42, 0, none⟩ g.id (rdvWords s1) s1)
  else s

/-- RENDEZVOUS_GUARD_EXPIRY (R339). -/
def execRendezvousGuardExpiry (t : Instant) (s : State) : Host.Outcome State Fault Refusal :=
  .next (ringCmd rendezvousLost (advance t s))

/-- The target of an agreement. -/
def agreeTarget (s : State) : PwrSt := if s.ring.agree.target = 2 then .evening else .day

/-- No rendezvous within LISTEN_S: failed (R339, R340). -/
def listenFail (s : State) : State :=
  let g := s.ring.agree
  if g.st = 7 ∧ g.listenAt + cS * listenS s ≤ s.now then
    let s1 := modAgree (fun a => { a with st := 9 }) (bump rgRing 8 8 1 (wakeCall s))
    pwrRequest (agreeTarget s) 1 0 (timeStateRec 3 0 (notice 0x0B (9 * 2 ^ 16 + g.id) (rdvWords s1) s1))
  else s

/-- LISTEN_EXPIRY (R339). -/
def execListenExpiry (t : Instant) (s : State) : Host.Outcome State Fault Refusal := .next (ringCmd listenFail (advance t s))

/-- A beacon of the agreement on an aligned port makes the rendezvous in the window, and resynchronises in the listen (R337,
R339, R340). -/
def beacon (rp : RingPort) (agreeId : Nat) (s : State) : State :=
  let g := s.ring.agree
  if ringOn s ∧ agreeId = g.id ∧ (portAt s rp).aligned ∧ (g.st = 6 ∨ g.st = 7) then
    if g.st = 6 then modAgree (fun a => { a with st := 10 }) s
    else
      let s2 := bump rgRing 16 8 1 (modAgree (fun a => { a with st := 8 }) s)
      timeStateRec 3 0 (notice 0x0B (8 * 2 ^ 16 + g.id) (rdvWords s2) s2)
  else s

/-- An IDLE frame (R325, R337): the unit's own serial number on RING A is a loop back, and the unit leaves its ring. -/
def idleIn (rp : RingPort) (serial : BitVec 64) (agreeId : Nat) (s : State) : State :=
  let s1 := modPort rp (fun p => { p with bad := 0 }) s
  let s2 := if rp = .a then
      (if serial = s.boot.serial then
        (if s.ring.selfLoop then s1
         else modRing (fun r => { r with
           selfLoop := true, loopAt := s.now, loopValid := false, claiming := none, surveyAt := none, reqAt := none }) (masterSet none s1))
       else modRing (fun r => { r with selfLoop := false }) s1)
    else s1
  beacon rp agreeId s2

/-- RING_IDLE_RECEIVED (R337). -/
def execRingIdleReceived (t : Instant) (rp : RingPort) (serial : BitVec 64) (agreeId : Nat) (s : State) :
    Host.Outcome State Fault Refusal :=
  .next (ringCmd (idleIn rp serial agreeId) (advance t s))

/-! ### G_RING_CMD (R329, R332, R336, R342) -/

/-- Whether a command of G_RING_CMD is refused. -/
def ringCmdRefused (s : State) (cmd : Nat) : Bool :=
  let arg := s.r.ringArg.toNat
  match cmd with
  | 1 => !ringValid s
  | 2 => !ringValid s || !s.ring.sync || arg == 0 || decide (86400 < arg) || agreeHeld s
  | 3 => !ringValid s || !s.ring.sync || arg == 0
  | 4 => !ringValid s || !s.ring.sync || arg == 0
  | _ => false

/-- What a value of CMD makes the unit do (Table 14-12): 1 WAKE, 2 PROPOSE, 3 TRIG, 4 RUN; the others nothing. -/
def ringCmdAct (val : Word) (s : State) : State :=
  match fld val 29 3 with
  | 1 => wakeCall s
  | 2 => propose s.r.ringArg.toNat (fld val 16 8) s
  | 3 => (trigOriginate false s.r.ringArg.toNat (fld val 0 16) 0 s).1
  | 4 => (trigOriginate true s.r.ringArg.toNat (fld val 0 16) (fld val 16 8) s).1
  | _ => s

/-- A write of G_RING_CMD (Table 14-12). -/
def ringCmdWrite (val : Word) (s : State) : State × BusRes :=
  if ringCmdRefused s (fld val 29 3) then (s, .access) else (ringCmd (ringCmdAct val) s, .done)

/-- RING_CMD_WAKE (R336). -/
def execRingCmdWake (t : Instant) (port : Port) (val : Word) (s : State) : Host.Outcome State Fault Refusal :=
  .next (portWrite port 0x82C val (ringCmdWrite val) (advance t s))

/-- RING_CMD_PROPOSE (R332). -/
def execRingCmdPropose (t : Instant) (port : Port) (val : Word) (s : State) : Host.Outcome State Fault Refusal :=
  .next (portWrite port 0x82C val (ringCmdWrite val) (advance t s))

/-- RING_CMD_TRIG (R329). -/
def execRingCmdTrig (t : Instant) (port : Port) (val : Word) (s : State) : Host.Outcome State Fault Refusal :=
  .next (portWrite port 0x82C val (ringCmdWrite val) (advance t s))

/-- RING_CMD_RUN (R329). -/
def execRingCmdRun (t : Instant) (port : Port) (val : Word) (s : State) : Host.Outcome State Fault Refusal :=
  .next (portWrite port 0x82C val (ringCmdWrite val) (advance t s))

/-! ### The line (R317, R318, R336, R337) -/

/-- The payload of an IDLE frame (Table 14-2): a beacon while it carries an agreement's AGREE_ID. -/
def idleBody (s : State) : List Byte :=
  beBytes 1 (unitNo s) ++ beBytes 1 (ringSize s) ++ beBytes 1 s.pwr.st.code ++ zeros 1 ++ beBytes 8 s.boot.serial.toNat ++
  beBytes 2 (agreeInForce s) ++ zeros 6

/-- What a port sends in the slot that begins at `k`, as a number of bits and the bits: nothing while the transmitters are off, the frame or
tone handed to it for that slot, or an IDLE frame, whose SEQ is `seq`. -/
def ringLine (s : State) (outA : Bool) (k : Instant) (seq : Nat) : Option (Nat × Nat) :=
  if !ringTxOn s then none
  else match s.ring.tx.find? fun f => f.outA == outA && f.at_ == k with
    | some f => if f.type = 0x100 then some (100000, toneLine)
                else some (256, frameLine ⟨f.type, f.src, f.hops, f.seq, f.outA, 0⟩ f.body)
    | none => some (256, frameLine ⟨0x00, unitNo s - 1, 0, seq % 256, outA, 0⟩ (idleBody s))

/-! ### Registers (Tables 14-10 to 14-13) -/

def ringState (s : State) : Word :=
  let cnt := ((List.range 16).filter fun i => s.ring.seen.testBit i).length
  word ((match s.ring.master with | some m => 2 ^ 27 + 2 ^ 28 * m | none => 0) + 2 ^ 26 * b2n (isMaster s) +
    2 ^ 25 * b2n s.ring.sync + 2 ^ 24 * b2n (ringClosed s) + 2 ^ 16 * cnt + 2 ^ 7 * b2n (ringCfgErr s) +
    2 ^ 6 * b2n s.ring.selfLoop + linkCode s.ring.pb * 4 + linkCode s.ring.pa)

def ringMembers (s : State) : Word := word (2 ^ 16 * s.ring.dup + s.ring.seen)

def ringLoop (s : State) : Word := word (2 ^ 31 * b2n s.ring.loopValid + twos 16 s.ring.loopAsym)

def ringAgree (s : State) : Word :=
  let g := s.ring.agree
  word (2 ^ 16 * g.id + 2 ^ 12 * g.st + 2 ^ 11 * b2n g.latched + 2 ^ 10 * b2n g.guardShort + 2 ^ 4 * (g.veto % 16))

end Sys2Proof.Machine
end

