-- ==== Sys2Proof/Machine/Routine.lean ====
section
/-!
DEFINITION. Routine.lean: the routine table (05 R138 to R142): occurrences, their actions, what is skipped, and the Nightwatch
alarm the table sets (03 R63).
-/

namespace Sys2Proof.Machine

/-! ### Occurrences (R139, R141) -/

def rtEntry (s : State) (i : Nat) : RtEntry := s.rt.entries.getD i default

/-- Occurrences an entry has; none where they are unbounded. -/
def rtTotal (e : RtEntry) : Option Nat := if e.periodS = 0 then some 1 else if e.times = 0 then none else some e.times

/-- S of occurrence `k`. -/
def rtS (e : RtEntry) (k : Nat) : Nat := e.first + cS * (k * e.periodS)

/-- The first occurrence at or after a Tamong time. -/
def rtFirst (e : RtEntry) (c : Nat) : Nat :=
  if c ≤ e.first then 0 else if e.periodS = 0 then 1 else (c - e.first + cS * e.periodS - 1) / (cS * e.periodS)

/-- S of the next occurrence of entry `i`, while VALID is 1. -/
def rtNext (s : State) (i : Nat) : Option Nat :=
  let e := rtEntry s i
  let k := s.rt.next.getD i 0
  let left := match rtTotal e with | some n => decide (k < n) | none => true
  if s.tim.valid && decide (i < s.rt.entries.length) && e.action != 0 && left then some (rtS e k) else none

/-- Occurrences of an entry skipped: one event of source 44 with how many, and ROUTINE_SKIP (R141, R142). -/
def rtSkip (i n : Nat) (s : State) : State :=
  if n = 0 then s else faultU 44 (2 ^ 16 * i + min n 0xFFFF) (bump rgBoot 24 8 n s)

/-- The ready bound of the state the unit is in (R63): 3.0 s in Night, 5 ms otherwise. -/
def readyBound (s : State) : Nat := if s.pwr.st = .night then 3 * cS else 5 * cMs

/-- The state an entry wakes for: as a STATE entry says, Day for the others; none for Night (Table 3-4; log 27). -/
def rtTarget (e : RtEntry) : Option PwrSt :=
  match e.action, e.arg with
  | 0, _ => none
  | 2, 1 => some .day
  | 2, 2 => some .evening
  | 2, _ => none
  | _, _ => some .day

/-- Entries that wake the unit, each with the S of its next occurrence. -/
def rtWakes (s : State) : List (Nat × Nat) :=
  (List.range s.rt.entries.length).filterMap fun i =>
    match rtTarget (rtEntry s i), rtNext s i with
    | some _, some c => some (c, i)
    | _, _ => none

/-- The least of a list of instants with an index. -/
def leastPair : List (Nat × Nat) → Option (Nat × Nat)
  | [] => none
  | x :: l => match leastPair l with
    | none => some x
    | some y => if y.1 < x.1 then some y else some x

/-- The state the entries of instant `c` wake for: Day where one of them leads to it (R64). -/
def rtWakeFor (s : State) (c : Nat) : PwrSt :=
  if (rtWakes s).any fun x => x.1 == c && rtTarget (rtEntry s x.2) != some .evening then .day else .evening

/-- The alarm the routine table sets: the earliest entry's S less the ready bound, as a Nightwatch value (R63, R85), with the state it
wakes for, which Nightwatch keeps while the time base stands still. -/
def armAlarm (s : State) : State :=
  match leastPair (rtWakes s) with
  | none => { s with nw := { s.nw with alarm := none } }
  | some x => { s with nw := { s.nw with alarm := some (ticksOf (nwOf s x.1 - readyBound s)), alarmFor := rtWakeFor s x.1 } }

/-- Each entry's next occurrence is set to the first at or after the present time plus the ready bound; the earlier ones are skipped,
and counted where `count` says so (R141, R142). -/
def rtRecompute (count : Bool) (s : State) : State :=
  if s.tim.valid then
    let s1 := (List.range s.rt.entries.length).foldl (fun s i =>
      let e := rtEntry s i
      let k := rtFirst e (s.tim.codes + readyBound s)
      let lost := (match rtTotal e with | some n => min k n | none => k) - s.rt.next.getD i 0
      let s := if count ∧ e.action ≠ 0 then rtSkip i lost s else s
      { s with rt := { s.rt with next := s.rt.next.set i k } }) s
    armAlarm s1
  else s

/-- The occurrence due of an entry has been acted on. -/
def rtConsume (i : Nat) (s : State) : State :=
  armAlarm { s with rt := { s.rt with next := s.rt.next.set i (s.rt.next.getD i 0 + 1) } }

/-- NEXT of G_BOOT_ROUTINE: the entry due next, the lowest index on equal S. -/
def rtNextIndex (s : State) : Nat :=
  ((leastPair ((List.range s.rt.entries.length).filterMap fun i => (rtNext s i).map fun c => (c, i))).map (·.2)).getD 0xFF

/-- G_BOOT_ROUTINE (Table 5-12). -/
def bootRoutine (s : State) : Word :=
  word (2 ^ 31 * b2n (bit s.r.bootRoutine 31) + 2 ^ 24 * s.rt.templates.length + 2 ^ 16 * s.rt.entries.length +
    2 ^ 8 * rtNextIndex s)

/-! ### Actions (R139, R142) -/

def routineEn (s : State) : Bool := bit s.r.bootRoutine 31

/-- The instant an occurrence falls due: a JOB's at its submission, S - 1 s. -/
def rtDueAt (e : RtEntry) (c : Nat) : Nat := if e.action = 1 then c - cS else c

/-- What an occurrence does at S, for all actions but JOB; CALIBRATE acts in Day (Table 13-3). -/
def rtAct (e : RtEntry) (s : State) : State :=
  match e.action with
  | 2 => pwrRequest (match e.arg with | 1 => .day | 2 => .evening | _ => .night) 1 1 s
  | 3 => if inDay s then calRequest e.arg s else s
  | 4 => ringCmd (propose e.arg2 1) s
  | _ => s

/-- The entries that act with entry `i`, in ascending index: those below it whose next occurrence has the same S, then itself (R142). -/
def rtSame (s : State) (i : Nat) : List Nat := ((List.range i).filter fun j => (rtNext s j).isSome && rtNext s j == rtNext s i) ++ [i]

/-- An occurrence of entry `i` falls due: skipped while ROUTINE_EN is 0 and, for JOB and CALIBRATE, in maintenance Day;
a JOB otherwise waits for its submission. -/
def rtOccurOne (s : State) (i : Nat) : State :=
  let e := rtEntry s i
  match rtNext s i with
  | none => s
  | some c =>
    if s.tim.codes < rtDueAt e c ∨ !fastOn s then s
    else if !routineEn s ∨ (s.pwr.st = .maint ∧ (e.action = 1 ∨ e.action = 3)) then rtConsume i (rtSkip i 1 s)
    else if e.action = 1 then s
    else rtAct e (rtConsume i s)

/-- Occurrences of entry `i` and of the entries before it at the same S. -/
def rtOccur (i : Nat) (s : State) : State := (rtSame s i).foldl rtOccurOne s

/-- ROUTINE_OCCURRENCE (R139). -/
def execRoutineOccurrence (t : Instant) (entry : Nat) (s : State) : Host.Outcome State Fault Refusal :=
  .next (rtOccur entry (advance t s))

/-- The bytes of a job template. -/
def templateBytes (s : State) (n : Nat) : List Byte := ((s.rt.templates.find? fun x => x.1 == n).map (·.2)).getD []

/-- A JOB entry submits its template with start kind 4 at S - 1 s, or at the start of Day if that is later; one that finds the queue
full is skipped (R139, R142). -/
def rtSubmitOne (s : State) (i : Nat) : State :=
  let e := rtEntry s i
  match rtNext s i with
  | none => s
  | some c =>
    if e.action = 1 ∧ s.pwr.st = .day ∧ routineEn s ∧ c ≤ cS + s.tim.codes then
      let o := submit 2 ⟨false, templateBytes s e.arg⟩ (some (i, c)) (rtConsume i s)
      if o.2.code = 0 then
        (if e.after = 0 then o.1
         else { o.1 with rt := { o.1.rt with after := o.1.rt.after ++ [(i, o.2.jobNo, e.after)] } })
      else if o.2.code = 11 then rtSkip i 1 o.1
      else o.1
    else s

/-- The submissions of entry `i` and of the entries before it at the same S, in ascending index (R142). -/
def rtSubmit (i : Nat) (s : State) : State := (rtSame s i).foldl rtSubmitOne s

/-- ROUTINE_JOB_SUBMIT (R139). -/
def execRoutineJobSubmit (t : Instant) (entry : Nat) (s : State) : Host.Outcome State Fault Refusal :=
  .next (rtSubmit entry (advance t s))

/-- Whether the job with a number has ended. -/
def jobEnded (s : State) (no : Nat) : Bool :=
  !((List.range 16).any fun i =>
    let x := slotAt s i
    x.jobNo == no && (x.st == .queued || x.st == .checking || x.st == .armed || x.st == .running))

/-- At the first instant after a JOB entry's job at which no job runs and the queue is empty, AFTER is requested (R139). -/
def rtAfter (s : State) : State :=
  let busy := slotsIn s fun st => st == .queued || st == .checking || st == .armed || st == .running
  match s.rt.after.filter fun a => jobEnded s a.2.1 with
  | [] => s
  | a :: l =>
    if busy = [] then
      let last := (l.getLast?.getD a).2.2
      pwrRequest (if last = 2 then .evening else .night) 0 1 { s with rt := { s.rt with after := [] } }
    else s

/-- ROUTINE_AFTER_REQUEST (R139). -/
def execRoutineAfterRequest (t : Instant) (s : State) : Host.Outcome State Fault Refusal := .next (rtAfter (advance t s))

/-- A write of G_BOOT_ROUTINE; setting ROUTINE_EN from 0 to 1 recomputes the next occurrences (R142). -/
def bootRoutineWrite (val : Word) (s : State) : State :=
  let s1 := { s with r := { s.r with bootRoutine := setFld s.r.bootRoutine 31 1 (fld val 31 1) } }
  if bit val 31 ∧ !routineEn s then rtRecompute false s1 else s1

/-- ROUTINE_ENABLE_WRITE (R142). -/
def execRoutineEnableWrite (t : Instant) (port : Port) (val : Word) (s : State) : Host.Outcome State Fault Refusal :=
  .next (portWrite port 0x064 val (fun s => (bootRoutineWrite val s, .done)) (advance t s))

/-! ### The Nightwatch alarm as a wake source (R63, R85) -/

/-- Ticks the Nightwatch counter shows. -/
def nwTicks (s : State) : Nat := ticksOf s.nw.codes

/-- The alarm fires at the first tick at which the counter has reached its set value. It acts in Night and Evening, and in a Dusk
or Dawn under R432 and R115; set values reached are cleared. In the Dawn of a sleep agreement's alarm the ring's transmitters stay off
until local T_w (14 R337). -/
def alarmFire (s : State) : State :=
  let hit := fun (a : Option Nat) => match a with | some v => decide (v ≤ nwTicks s) | none => false
  let acts := s.pwr.st == .night || s.pwr.st == .evening || s.pwr.st == .dusk || s.pwr.st == .dawn
  let s1 := if hit s.nw.alarm then
      (let s2 := { s with nw := { s.nw with alarm := none } }
       if acts then pwrRequest s.nw.alarmFor 1 1 s2 else s2)
    else s
  if hit s.nw.alarmRdv then
    (let s2 := { s1 with nw := { s1.nw with alarmRdv := none } }
     let s3 := if s.pwr.st = .night ∧ s2.ring.agree.st = 4 then modAgree (fun a => { a with quiet := true }) s2 else s2
     if acts then pwrRequest (agreeTarget s3) 1 1 s3 else s3)
  else s1

/-- NIGHTWATCH_ALARM (R85). -/
def execNightwatchAlarm (t : Instant) (s : State) : Host.Outcome State Fault Refusal := .next (alarmFire (advance t s))

end Sys2Proof.Machine
end

