-- ==== Sys2Proof/Machine/Time.lean ====
section
/-!
DEFINITION. Time.lean: the time base: states (04 R98, R107), steps and slews (R101, R108), REF10 and PPS (R99 to R102), time of
day (R95 to R97), the second boundary (R83, R42), and the commands of these.
-/

namespace Sys2Proof.Machine

/-! ### Settings (Tables 4-16 to 4-18) -/

def srcMode (s : State) : Nat := fld s.r.timeSrc 0 2
def todRingEn (s : State) : Bool := bit s.r.timeSrc 2
def todHostEn (s : State) : Bool := bit s.r.timeSrc 3
/-- STEP_NS in codes; 0 is taken as 1. -/
def stepCodes (s : State) : Nat := cNs * max 1 (fld s.r.timeSrc 8 8)
def ppsComp (s : State) : Int := sgn 24 (fld s.r.ppsComp 0 24)
def ptpEn (s : State) : Bool := bit s.r.ptpCfg 11
/-- TRANSPORT; 3 is taken as 0. -/
def ptpTransport (s : State) : Nat := if fld s.r.ptpCfg 8 2 = 3 then 0 else fld s.r.ptpCfg 8 2
def ptpDomain (s : State) : Nat := fld s.r.ptpCfg 24 7
/-- ANN_TIMEOUT; out of range it is taken as 3. -/
def annTimeout (s : State) : Nat :=
  let n := fld s.r.ptpCfg 20 4
  if 2 ≤ n ∧ n ≤ 10 then n else 3
/-- ASYM in codes of 1/256 ns, from units of 0.1 ns. -/
def ptpAsym (s : State) : Int := sgn 16 (fld s.r.ptpAsym 0 16) * 256 / 10

def modTim (f : Tim → Tim) (s : State) : State := { s with tim := f s.tim }

/-- PPS_IN_OK (Table 2-11): the last three edges were 1 s ± 1 ppm apart, and none is overdue. -/
def ppsOk (s : State) : Bool := decide (2 ≤ s.tim.ppsGood)

/-- Whether the PTP port is active (16 R393): an IP transport needs an address of its version. -/
def ptpActive (s : State) : Bool :=
  s.eth.running && ptpEn s && (match ptpTransport s with
    | 0 => decide (s.eth.ipv4 ≠ 0)
    | 1 => s.eth.ipv6.any (·.2)
    | _ => true)

/-- Whether PTP is usable for time of day (Table 4-5): only masters with PTP_TIMESCALE 1 are ever selected. -/
def ptpUsable (s : State) : Bool := ptpActive s && s.ptp.best.isSome

/-- Whether the ring supplies time of day and may (Table 4-5, 14 R328). -/
def ringUsable (s : State) : Bool := todRingEn s && s.ring.sync && s.ring.mValid && !isMaster s

/-! ### States (R16, R19, R98, R107) -/

/-- Whether REF10 and PPS discipline the time base (Table 4-6). -/
def refDisc (s : State) : Bool :=
  s.tim.running && (srcMode s == 1 || (srcMode s == 0 && s.encl.ref10 && ppsOk s))

/-- Whether PTP disciplines it (Table 4-6); a lock to REF10 and PPS that still stands comes first. -/
def ptpDisc (s : State) : Bool :=
  s.tim.running && ptpUsable s && (srcMode s == 2 || (srcMode s == 0 && !(s.encl.ref10 && ppsOk s))) && s.tim.st != .pps

/-- Locked to a source. -/
def TimeSt.isLock : TimeSt → Bool
  | .pps => true
  | .ptp => true
  | _ => false

/-- Codes of the present continuous lock. -/
def lockFor (s : State) : Nat := match s.tim.lockSince with | some k => s.now - k | none => 0

/-- A change of state: its TIME_STATE record, the TIME_LOCK source, and the first boundary after it without a pulse at J4, which
completes one under way (R16, R42, R107; log 28). -/
def setSt (st : TimeSt) (s : State) : State :=
  if st = s.tim.st then s
  else
    let was := s.tim.st.isLock
    let s1 := modTim (fun t => { t with
      st := st
      lockLen := if was then lockFor s else t.lockLen
      lockSince := if st.isLock then some s.now else none
      holdSince := if st = .holdover then s.now else t.holdSince
      holdShort := decide (st = .holdover) && was && decide (lockFor s < 600 * cS)
      ppsOutliers := 0 }) s
    let s2 := { s1 with encl := { s1.encl with j4Skip := decide (st ≠ .unlocked) } }
    let s3 := setCond 12 0 (!st.isLock) (timeStateRec 0 0 s2)
    if was && !st.isLock then faultU 12 st.code s3 else s3

/-- Lock is lost: holdover after at least 10 minutes of lock, unlocked otherwise (R19). -/
def loseLock (s : State) : State :=
  if s.tim.st.isLock then setSt (if 600 * cS ≤ lockFor s then .holdover else .unlocked) s else s

/-- The frequency lock to REF10 begins or ends, and the state follows SRC_MODE: free run is unlocked, PTP gives way to REF10 and PPS
through holdover, a source the mode does not use is lost (R98, R99, Table 4-9; log 29). -/
def reviewDiscipline (s : State) : State :=
  let on' := refDisc s && s.encl.ref10
  let s1 := modTim (fun t => { t with
    ref10Since := if on' then (match t.ref10Since with | some k => some k | none => some s.now) else none }) s
  if !s1.tim.running then s1
  else if srcMode s1 = 3 then setSt .unlocked s1
  else match s1.tim.st with
    | .pps => if srcMode s1 = 2 then loseLock s1 else s1
    | .ptp =>
      if !ptpEn s1 then loseLock s1
      else if srcMode s1 = 1 ∨ refDisc s1 then setSt .holdover s1 else s1
    | _ => s1

/-! ### Steps (R101, R108) -/

/-- Whether a job runs. -/
def jobRuns (s : State) : Bool := !(slotsIn s (· == .running)).isEmpty

/-- The step that waits, in codes. -/
def waiting (s : State) : Int := s.tim.stepPhase + s.tim.stepSec * (cS : Nat)

/-- The parts of the step that waits: of phase in codes, of whole seconds. -/
def waits (s : State) : Int × Int := (s.tim.stepPhase, s.tim.stepSec)

/-- A Tamong time moved by a step. -/
def moved (a : Int) (c : Nat) : Nat := ((c : Int) + a).toNat

/-- The slots after a step of `a`: a start that a decision or a PPS edge has fixed as an instant keeps its instant. -/
def stepSlot (a : Int) (x : Slot) : Slot :=
  if (x.st == .checking || x.st == .armed) && (!timed x.desc || x.late) then { x with start := x.start.map (moved a) } else x

/-- What else the unit keeps in local Tamong time, moved by a step: PTP measurements, the ring's samples and a confirmed agreement, and
the last timed crossings of pins (log 30). -/
def stepKept (a : Int) (s : State) : State :=
  { s with
    ptp := { s.ptp with
      raw := s.ptp.raw.map (· + a), offset := s.ptp.offset.map (· + a)
      pendSync := s.ptp.pendSync.map fun x => { x with rx := x.rx + a }
      pendReq := s.ptp.pendReq.map (fun x => { x with tx := x.tx + a }) }
    ring := { s.ring with
      samples := s.ring.samples.map fun x => (moved a x.1, x.2 - a)
      agree := if 4 ≤ s.ring.agree.st then { s.ring.agree with tn := moved a s.ring.agree.tn, tw := moved a s.ring.agree.tw }
        else s.ring.agree }
    pins := vmap s.pins fun _ p => { p with lastTimed := p.lastTimed.map (moved a) } }

/-- An alarm that is set follows the relation of the counter to Tamong time. -/
def rearm (s : State) : State := if s.nw.alarm.isSome then armAlarm s else s

/-- VALID becomes 1: the routine table computes its occurrences, and held jobs are judged (R112, R141). -/
def becameValid (was : Bool) (s : State) : State :=
  jobDue (if s.tim.valid && !was then rtRecompute true s else rearm s)

/-- The waiting step is applied in one cycle, and `src` becomes the time-of-day source in force: the TIME_STATE record of the step,
STEP_COUNT, VALID where the step sets the second number, and one more record with SUB 0 where VALID or TOD_SRC changes (R16, R108).
The second the unit is in after the step counts as begun. -/
def applyStep (src : Nat) (s : State) : State :=
  let a := waiting s
  let was := s.tim.valid
  let s1 := modTim (fun t => { t with
    codes := moved a t.codes, valid := t.valid || t.secDue, todSrc := src, stepPhase := 0, stepSec := 0, secDue := false
    slew := if t.stepPhase = 0 then t.slew else 0, acquiring := decide (t.stepPhase = 0 ∧ t.slew ≠ 0)
    lastSecond := some (moved a t.codes / cS) }) s
  let s2 := stepKept a { s1 with seqr := { s1.seqr with slots := vmap s1.seqr.slots fun _ x => stepSlot a x } }
  let s3 := if a = 0 then s2 else timeStateRec 1 a (bump rgTime 24 8 1 s2)
  let s4 := if s3.tim.valid = was ∧ src = s.tim.todSrc then s3 else timeStateRec 0 0 s3
  ringWatch s (becameValid was s4)

/-- Notice of a step that falls due while a job runs, with the amount due (R101). -/
def stepNotice (a : Int) (s : State) : State := notice 7 (twos 64 a % 2 ^ 32) [twos 64 a / 2 ^ 32] s

/-- The waiting step is applied when no job runs; while one runs, the parts of it that fall due now, where `old` gives those that waited
before, are logged and ACQUIRING is 1 (R101). -/
def stepDue (old : Int × Int) (s : State) : State :=
  if s.tim.stepPhase = 0 ∧ s.tim.stepSec = 0 then s
  else if jobRuns s then
    let s1 := modTim (fun t => { t with acquiring := true }) s
    let a := if old.1 = 0 then s.tim.stepPhase else 0
    let b := if old.2 = 0 then s.tim.stepSec else 0
    if a = 0 ∧ b = 0 then s1 else stepNotice (a + b * (cS : Nat)) s1
  else applyStep s.tim.todSrc s

/-- STEP_APPLY (R101). -/
def execStepApply (t : Instant) (s : State) : Host.Outcome State Fault Refusal :=
  let s1 := advance t s
  .next (if (s1.tim.stepPhase = 0 ∧ s1.tim.stepSec = 0) ∨ jobRuns s1 then s1 else applyStep s1.tim.todSrc s1)

/-- The phase correction a measured offset `e` calls for (R101): a step beyond STEP_NS, a slew from 1 ns on. -/
def acquire (e : Int) (s : State) : State :=
  if stepCodes s < e.natAbs then modTim (fun t => { t with stepPhase := -e, slew := 0 }) s
  else modTim (fun t => { t with
    stepPhase := 0, slew := if cNs ≤ e.natAbs then -e else 0, slewAcc := 0
    acquiring := decide (cNs ≤ e.natAbs) || decide (t.stepSec ≠ 0) }) s

/-! ### PPS and REF10 (R99, R100, R102) -/

/-- Armed jobs of kind 3 start 2 µs after the compensated timestamp of an edge at least 10 µs after their check began (Table 9-2). -/
def ppsStarts (ts : Int) (s : State) : State :=
  { s with seqr := { s.seqr with slots := vmap s.seqr.slots fun _ x =>
    if x.desc.kind == 3 && (x.st == .checking || x.st == .armed) && x.start.isNone && decide (10 * cUs + x.checkAt ≤ s.now) then
      { x with start := some (ts + (2 * cUs : Nat)).toNat }
    else x } }

/-- An accepted host set becomes SEC at an instant at which second `n` of the local scale begins (R97). -/
def hostApply (n : Int) (s : State) : State :=
  match s.tim.hostSet with
  | none => s
  | some v =>
    let d := (v : Int) - n
    let was := s.tim.valid
    let s1 := modTim (fun t => { t with
      hostSet := none, stepSec := d, secDue := decide (d ≠ 0), valid := t.valid || decide (d = 0) }) s
    if s1.tim.valid = was then s1 else ringWatch s (becameValid was (timeStateRec 0 0 s1))

/-- Nearest second number and phase error of a timestamp. -/
def nearest (ts : Int) : Int × Int :=
  let n := (ts + (cS / 2 : Nat)) / (cS : Nat)
  (n, ts - n * (cS : Nat))

/-- Whether lock to REF10 and PPS is declared at an edge with the error counted (R100). -/
def ppsLocks (s : State) (counted : Int) : Bool :=
  s.tim.st != .pps && refDisc s && s.tim.valid && decide (counted.natAbs < cNs) &&
  (match s.tim.ref10Since with | some k => decide (10 * cMs + k ≤ s.now) | none => false) &&
  (match s.tim.ppsPrev with | some p => decide (p.natAbs < cNs) | none => false)

/-- An edge that is no outlier: acquisition, a due step, and the lock. -/
def ppsMeasured (e : Int) (old : Int × Int) (s : State) : State :=
  let s1 := if refDisc s && s.encl.ref10 then acquire e s else s
  let stepped := s1.tim.stepPhase ≠ 0 ∧ !jobRuns s1
  let s2 := stepDue old s1
  let c := if stepped then 0 else e
  let s3 := if ppsLocks s2 c then setSt .pps s2 else s2
  modTim (fun t => { t with ppsPrev := some c, ppsOutliers := 0 }) s3

/-- The compensated timestamp of the edge of the present happening (R99). -/
def ppsStamp (s : State) : Int := (tamNow s : Int) - ppsComp s

/-- An edge beyond 10 ns that is ignored: PPS_OUTLIER and an event of source 15 (R102). -/
def ppsOutlier (e : Int) (s : State) : State :=
  faultU 15 (twos 24 (max (-0x800000) (min 0x7FFFFF (e.tdiv 256))))
    (modTim (fun t => { t with ppsOutliers := t.ppsOutliers + 1, ppsPrev := if t.st = .pps then t.ppsPrev else some e })
      (bump rgTime 16 8 1 s))

/-- An edge that is timestamped (SRC_MODE 0, 1 and 3): starts, a host set, the outlier rule, acquisition and lock. Edges are judged for
outliers in lock and while REF10 is not valid (R99). DESIGN CHOICE (log 75): the third edge in a row beyond 10 ns, which ends lock, is
measured as any other and counts neither in PPS_OUTLIER nor as an event of source 15; the manual does not say whether it counts. -/
def ppsTimed (s : State) : State :=
  let ts := ppsStamp s
  let old := waits s
  let e := (nearest ts).2
  let s1 := ppsStarts ts s
  let s2 := if ppsOk s1 then hostApply (nearest ts).1 s1 else s1
  if (s2.tim.st = .pps ∨ !s2.encl.ref10) ∧ 10 * cNs < e.natAbs then
    if s2.tim.st ≠ .pps ∨ s2.tim.ppsOutliers < 2 then stepDue old (ppsOutlier e s2)
    else ppsMeasured e old (loseLock s2)
  else ppsMeasured e old s2

/-- A rising edge at J3 (R99). In SRC_MODE 2 it counts for PPS_IN_OK, and an accepted host set becomes SEC at it (R97). -/
def ppsEdge (s : State) : State :=
  if s.tim.running then
    let good := match s.tim.ppsLast with
      | some k => if ((s.now : Int) - k - (cS : Nat)).natAbs ≤ cUs then s.tim.ppsGood + 1 else 0
      | none => 0
    let s1 := reviewDiscipline (modTim (fun t => { t with ppsLast := some s.now, ppsGood := good }) s)
    if srcMode s1 = 2 then
      (if ppsOk s1 then stepDue (waits s1) (hostApply (nearest (ppsStamp s1)).1 s1) else s1)
    else ppsTimed s1
  else s

/-- PPS_EDGE (R99). -/
def execPpsEdge (t : Instant) (s : State) : Host.Outcome State Fault Refusal := .next (ppsEdge (advance t s))

/-- No edge within 1 s + 10 µs of the previous one: PPS_IN_OK reads 0 and lock to REF10 and PPS is lost (R102). -/
def ppsMissing (s : State) : State :=
  match s.tim.ppsLast with
  | none => s
  | some k =>
    if 10 * cUs + (cS + k) ≤ s.now then
      let s1 := if s.tim.st = .pps then loseLock s else s
      reviewDiscipline (modTim (fun t => { t with ppsLast := none, ppsGood := 0, ppsPrev := none }) s1)
    else s

/-- PPS_MISSING (R102). -/
def execPpsMissing (t : Instant) (s : State) : Host.Outcome State Fault Refusal := .next (ppsMissing (advance t s))

/-- REF10_IN_OK has read 0 for 10 ms of updates: lock to REF10 and PPS is lost (R102). -/
def ref10Lost (s : State) : State :=
  match s.tim.ref10Bad with
  | none => s
  | some k => if 10 * cMs + k ≤ s.now ∧ s.tim.st = .pps then loseLock s else s

/-- REF10_LOSS_TIMEOUT (R102). -/
def execRef10LossTimeout (t : Instant) (s : State) : Host.Outcome State Fault Refusal := .next (ref10Lost (advance t s))

/-- A holdover passes 60 s (R19). -/
def holdExpired (s : State) : State :=
  if s.tim.st = .holdover ∧ 60 * cS + s.tim.holdSince ≤ s.now then setSt .unlocked s else s

/-- HOLDOVER_EXPIRY (R19). -/
def execHoldoverExpiry (t : Instant) (s : State) : Host.Outcome State Fault Refusal := .next (holdExpired (advance t s))

/-! ### Time of day (R95 to R97) -/

/-- Second number of a source less that of local time, for an offset `o` of local time against it. -/
def secDiff (o : Int) : Int := -((o + (cS / 2 : Nat)) / (cS : Nat))

/-- A usable source as the comparison sees it: TOD_SRC code, its second number less SEC, and what remains of that once the waiting phase
step is applied. -/
structure TodCmp where
  src : Nat
  diff : Int
  rest : Int
  deriving DecidableEq, Repr

def todCmp (s : State) (src : Nat) (o : Int) : TodCmp := ⟨src, secDiff o, secDiff (o + s.tim.stepPhase)⟩

/-- Usable sources with a second number, the highest priority first. -/
def todUsable (s : State) : List TodCmp :=
  (match ptpUsable s, s.ptp.offset with
   | true, some o => [todCmp s 4 o]
   | _, _ => []) ++
  (if ringUsable s then [todCmp s 3 (-ringOfs s)] else [])

/-- Whether the source in force has become unusable. -/
def todGone (s : State) : Bool :=
  match s.tim.todSrc with
  | 4 => !ptpUsable s
  | 3 => !ringUsable s
  | 2 => !todHostEn s
  | _ => false

/-- TOD_SRC changes, or VALID, or both, with one TIME_STATE record (R16). -/
def setTod (src : Nat) (valid : Bool) (s : State) : State :=
  if src = s.tim.todSrc ∧ valid = s.tim.valid then s
  else
    let was := s.tim.valid
    ringWatch s (becameValid was (timeStateRec 0 0 (modTim (fun t => { t with todSrc := src, valid := valid }) s)))

/-- A disagreement of a source of equal or lower priority: both second numbers logged, SEC kept. -/
def todDisagree (c : Nat) (d : Int) (s : State) : State :=
  let sec := s.tim.codes / cS
  let other := ((sec : Int) + d).toNat
  fault ⟨13, 0, none⟩ c [sec % 2 ^ 32, sec / 2 ^ 32, other % 2 ^ 32, other / 2 ^ 32] s

/-- The source that the comparison puts in force, if it changes: one of higher priority, or the highest usable where the source in
force has become unusable. A host set that was accepted agrees with SEC from then on. -/
def todTakes (s : State) : Option TodCmp :=
  match todUsable s with
  | x :: _ => if s.tim.todSrc < x.src || todGone s then some x else none
  | [] => if todGone s && s.tim.hostSeen && todHostEn s then some ⟨2, 0, 0⟩ else none

/-- The other usable sources, of equal or lower priority than the one that was in force: each that differs from SEC is logged (R96). -/
def todOthers (taken prev : Nat) (us : List TodCmp) (s : State) : State :=
  us.foldl (fun s x => if x.diff ≠ 0 ∧ x.src ≠ taken ∧ x.src ≤ prev then todDisagree x.src x.diff s else s) s

/-- The comparison of every usable source with SEC (R96). -/
def todCompare (s : State) : State :=
  let old := waits s
  let us := todUsable s
  match todTakes s with
  | none => stepDue old (todOthers 0 s.tim.todSrc us s)
  | some x =>
    let s1 := todOthers x.src s.tim.todSrc us s
    if x.diff = 0 then
      stepDue old (setTod x.src (s.tim.valid || decide (x.src ≠ 2)) (modTim (fun t => { t with stepSec := 0, secDue := false }) s1))
    else
      let s2 := modTim (fun t => { t with stepSec := x.rest, secDue := true }) s1
      if jobRuns s2 then stepDue old (setTod x.src s2.tim.valid s2) else applyStep x.src s2

/-- A write of G_TIME_SET_LO (R97): refused and logged while the host set is not usable; accepted, it is the source in force at once
(R96). DESIGN CHOICE (log 76): SET_SEC_HI keeps its value after the write, for later sets too; Table 4-21 has it held until the next
write of G_TIME_SET_LO and does not say what it holds from then on. -/
def timeSetWrite (val : Word) (s : State) : State × BusRes :=
  let v := 2 ^ 32 * fld s.r.timeSetHi 0 16 + val.toNat
  if todHostEn s && !ptpUsable s && !ringUsable s then
    (setTod 2 s.tim.valid (modTim (fun t => { t with hostSet := some v, hostSeen := true }) s), .done)
  else (notice 6 val.toNat [v / 2 ^ 32] s, .access)

/-- TIME_SET_LO_WRITE (R97). -/
def execTimeSetLoWrite (t : Instant) (port : Port) (val : Word) (s : State) : Host.Outcome State Fault Refusal :=
  .next (portWrite port 0x22C val (timeSetWrite val) (advance t s))

/-! ### The second boundary (R83, R96, R97, R42) -/

/-- Codes in a tick of the Nightwatch counter. -/
def cTick : Nat := 7812500

/-- The Nightwatch counter is aligned at the first tick after a second boundary (R83): it reads SEC from that tick on. A step applied at
the boundary that leads away from it leaves no boundary to align to. -/
def alignNight (s : State) : State :=
  let sec := s.tim.codes / cS
  if s.tim.valid ∧ s.tim.st ≠ .unlocked ∧ s.tim.codes % cS < cTick then
    rearm { s with nw := { s.nw with
        codes := cS * sec - (cTick - s.nw.codes % cTick), alignSec := sec, aligned := true } }
  else s

/-- PPSO_EN. -/
def ppsoEn (s : State) : Bool := bit s.r.portCfg 1

/-- J4 rises at the boundary while it is enabled and the time base is locked or in holdover, but not at the first boundary after a
change of state (R42). -/
def ppsOut (s : State) : State :=
  if s.tim.st = .unlocked then s
  else if s.encl.j4Skip then { s with encl := { s.encl with j4Skip := false } }
  else if ppsoEn s then { s with encl := { s.encl with ppsOutHigh := true, ppsOutRise := s.now } }
  else s

/-- PPSO_WIDTH in codes (Table 2-15). -/
def ppsoWidth (s : State) : Nat :=
  match fld s.r.portCfg 3 2 with
  | 0 => 10 * cUs
  | 1 => cMs
  | 2 => 100 * cMs
  | _ => 200 * cMs

/-- J4 falls when the pulse width has passed. -/
def ppsOutFall (s : State) : State :=
  if s.encl.ppsOutHigh ∧ s.encl.ppsOutRise + ppsoWidth s ≤ s.now then
    { s with encl := { s.encl with ppsOutHigh := false } }
  else s

/-- PPS_OUT_FALL (R42). -/
def execPpsOutFall (t : Instant) (s : State) : Host.Outcome State Fault Refusal := .next (ppsOutFall (advance t s))

/-- A Tamong second boundary, the cycle in which a new second begins: J4, a host set, the comparison, and the alignment of Nightwatch to
the SEC they leave. -/
def secondBoundary (s : State) : State :=
  let sec := s.tim.codes / cS
  if s.tim.running ∧ s.tim.codes % cS < 320 ∧ s.tim.lastSecond ≠ some sec then
    let old := waits s
    let s1 := ppsOut (modTim (fun t => { t with lastSecond := some sec }) s)
    let s2 := if ppsOk s1 then s1 else hostApply sec s1
    alignNight (todCompare (stepDue old s2))
  else s

/-- TAMONG_SECOND_BOUNDARY (R83). -/
def execTamongSecondBoundary (t : Instant) (s : State) : Host.Outcome State Fault Refusal := .next (secondBoundary (advance t s))

end Sys2Proof.Machine
end

