-- ==== Sys2Proof/Machine/Ptp.lean ====
section
/-!
DEFINITION. Ptp.lean: the PTP port: master selection, the servo, its violations (04 R103 to R106, Tables 4-7 and 4-8; 16 R393).
PTP timestamps and corrections are operands in codes of 1/256 ns since the PTP epoch; a header's version is its octet
minorVersionPTP, versionPTP.
-/

namespace Sys2Proof.Machine

def modPtp (f : Ptp → Ptp) (s : State) : State := { s with ptp := f s.ptp }

/-- Codes of the interval 2^i s. -/
def logDur (i : Int) : Nat := if 0 ≤ i then cS * 2 ^ (min i.toNat 16) else cS / 2 ^ (min (-i).toNat 16)

/-! ### Headers and violations (R106, 17 R408) -/

/-- Words of a byte string, four bytes each, the first in the lowest byte. -/
def leWords : Nat → List Byte → List Nat
  | 0, _ => []
  | n + 1, b => leNat (b.take 4) :: leWords n (b.drop 4)

/-- The 34 bytes of a message header (IEEE 1588) as far as the command carries it, as the words of a continuation. -/
def ptpWords (type : Nat) (h : PtpHdr) (twoStep : Bool) (corr : Int) : List Nat :=
  leWords 9 (beBytes 1 (h.sdo / 256 % 16 * 16 + type) ++ beBytes 1 h.version ++ beBytes 2 h.msgLen ++ beBytes 1 h.domain ++
    beBytes 1 h.sdo ++ beBytes 1 (2 * b2n twoStep) ++ zeros 1 ++ beBytes 8 (twos 64 (corr * 256)) ++ zeros 4 ++
    beBytes 10 h.source ++ beBytes 2 h.seq ++ zeros 1 ++ beBytes 1 (twos 8 h.logInterval))

/-- A violation of Table 4-8: its row, with the message header. -/
def ptpViol (row : Nat) (ws : List Nat) (s : State) : State := fault ⟨14, 0, none⟩ row ws (bump rgTime 0 16 1 s)

/-- What becomes of a received message: ignored, in breach of row 1, or taken. -/
inductive PtpIn where
  | ignore | breach | take
  deriving DecidableEq, Repr

/-- The judgement of every message: version and length, then version, domain and SDO as Table 4-7 supports them. -/
def ptpJudge (s : State) (h : PtpHdr) : PtpIn :=
  if !ptpActive s then .ignore
  else if h.version % 16 ≠ 2 ∨ h.rxLen < h.msgLen then .breach
  else if 1 < h.version / 16 ∨ h.domain ≠ ptpDomain s ∨ h.sdo ≠ 0 then .ignore
  else .take

/-- A received message of a type. -/
def ptpMsg (type : Nat) (h : PtpHdr) (twoStep : Bool) (corr : Int) (f : State → State) (s : State) : State :=
  match ptpJudge s h with
  | .ignore => s
  | .breach => ptpViol 1 (ptpWords type h twoStep corr) s
  | .take => f s

/-! ### Master selection (R103, R105) -/

/-- The data set comparison: the smaller list is the better master. -/
def annKey (m : Master) : List Nat :=
  [m.ann.priority1, m.ann.clockClass, m.ann.accuracy, m.ann.variance, m.ann.priority2, m.ann.gmIdentity, m.ann.stepsRemoved, m.id]

def keyLt : List Nat → List Nat → Bool
  | [], _ => false
  | _ :: _, [] => false
  | a :: as, b :: bs => decide (a < b) || (a == b && keyLt as bs)

/-- Whether a foreign master is qualified: PTP_TIMESCALE 1, steps below 255, and two Announce messages within four intervals
(log 31). -/
def qualified (m : Master) : Bool :=
  m.ann.ptpTimescale && decide (m.ann.stepsRemoved < 255) &&
  (match m.prevAt with | some k => decide (m.lastAt ≤ k + 4 * logDur m.interval) | none => false)

def bestOf : List Master → Option Master
  | [] => none
  | m :: l => match bestOf l with
    | none => some m
    | some b => if keyLt (annKey b) (annKey m) then some b else some m

/-- The best master clock algorithm; another choice than before ends lock to PTP, and the servo starts afresh. PTP_EST is a free value
from then until 16 offsets are held: the manual forms it from the last 16 and gives no value before (log 3). -/
def ptpSelect (s : State) : State :=
  let b := (bestOf (s.ptp.masters.filter qualified)).map (·.id)
  if b = s.ptp.best then s
  else
    let s1 := if s.tim.st = .ptp then loseLock s else s
    let d := drawFree s1
    modTim (fun t => { t with ptpEst := d.1 % 0xFFFF }) (modPtp (fun p => { p with
      best := b, offsets := [], raw := none, delay := none, offset := none, bad := 0, lost := 0, good := 0
      pendSync := [], pendReq := [], lastSync := none, syncCount := 0 }) d.2)

/-- An Announce: the sender's entry is renewed, or takes a place while fewer than four are held; entries silent for four of their
intervals have gone (log 31). -/
def announceIn (h : PtpHdr) (a : PtpAnnounce) (s : State) : State :=
  let live := s.ptp.masters.filter fun m => m.id == h.source || some m.id == s.ptp.best || decide (s.now < m.lastAt + 4 * logDur m.interval)
  let old := live.find? fun m => m.id == h.source
  let m : Master := ⟨h.source, a, s.now, old.map (·.lastAt), h.logInterval⟩
  let rest := live.filter fun m => m.id != h.source
  ptpSelect (modPtp (fun p => { p with masters := if rest.length < 4 then m :: rest else rest }) s)

/-- PTP_ANNOUNCE (R103). -/
def execPtpAnnounce (t : Instant) (h : PtpHdr) (a : PtpAnnounce) (s : State) : Host.Outcome State Fault Refusal :=
  .next (ptpMsg 0xB h false 0 (announceIn h a) (advance t s))

/-- The selected master has been silent for ANN_TIMEOUT Announce intervals. -/
def announceTimeout (s : State) : State :=
  match s.ptp.masters.find? fun m => some m.id == s.ptp.best with
  | none => s
  | some m =>
    if m.lastAt + annTimeout s * logDur m.interval ≤ s.now then
      ptpSelect (modPtp (fun p => { p with masters := p.masters.filter fun x => x.id != m.id }) s)
    else s

/-- PTP_ANNOUNCE_TIMEOUT (R105). -/
def execPtpAnnounceTimeout (t : Instant) (s : State) : Host.Outcome State Fault Refusal := .next (announceTimeout (advance t s))

/-! ### The servo (R104, R105) -/

/-- Square root rounded up, by bits from the highest. -/
def sqrtBits (n : Nat) : Nat → Nat → Nat
  | 0, r => if r * r = n then r else r + 1
  | b + 1, r => if (2 ^ b + r) * (2 ^ b + r) ≤ n then sqrtBits n b (2 ^ b + r) else sqrtBits n b r

def sqrtUp (n : Nat) : Nat := sqrtBits n 64 0

/-- PTP_EST of 16 offsets in codes, in units of 0.1 ns rounded up: |mean| + 2 × standard deviation + ASYM_UNC (R104; log 32). -/
def ptpEstimate (s : State) (l : List Int) : Nat :=
  let m := l.sum
  let v := (16 * (l.map fun x => x * x).sum - m * m).toNat
  min 0xFFFE ((10 * m.natAbs + sqrtUp (400 * v) + 4095) / 4096 + fld s.r.ptpAsym 16 16)

/-- An offset sample; with fewer than 16 offsets held PTP_EST is a free value (log 3). -/
def ptpSample (o : Int) (ws : List Nat) (s : State) : State :=
  if s.tim.st = .ptp ∧ cUs < o.natAbs then
    let n := s.ptp.bad + 1
    let s1 := modPtp (fun p => { p with bad := n }) (ptpViol 7 ws s)
    if 4 ≤ n then modPtp (fun p => { p with bad := 0, good := 0 }) (loseLock s1) else s1
  else
    let l := (o :: s.ptp.offsets).take 16
    let s1 := modPtp (fun p => { p with
      offsets := l, offset := some o, bad := 0, good := if o.natAbs < 100 * cNs then p.good + 1 else 0 }) s
    let s2 := if l.length = 16 then modTim (fun t => { t with ptpEst := ptpEstimate s1 l }) s1
      else (let d := drawFree s1; modTim (fun t => { t with ptpEst := d.1 % 0xFFFF }) d.2)
    if ptpDisc s2 then
      let old := waits s2
      let s3 := stepDue old (acquire o s2)
      if s3.tim.st ≠ .ptp ∧ 16 ≤ s3.ptp.good ∧ s3.tim.stepPhase = 0 ∧ s3.tim.stepSec = 0 then setSt .ptp s3 else s3
    else s2

/-- The offset of a Sync with its origin time: receive time less origin and corrections gives offset plus delay; the latest mean path
delay and ASYM are taken off. Without a mean path delay there is no offset yet. -/
def ptpOffset (rx : Int) (origin : Nat) (corr : Int) (ws : List Nat) (s : State) : State :=
  let raw := rx - origin - corr
  let s1 := modPtp (fun p => { p with raw := some raw }) s
  match s1.ptp.delay with
  | none => s1
  | some d => ptpSample (raw - d - ptpAsym s) ws s1

/-- A Sync of the selected master: at most 128 in one second are taken (Table 4-8). A two-step Sync is valid once its Follow_Up is there:
without one it is discarded (R105, R106). -/
def syncIn (h : PtpHdr) (twoStep : Bool) (origin : Nat) (corr : Int) (s : State) : State :=
  let ws := ptpWords 0 h twoStep corr
  if some h.source ≠ s.ptp.best ∨ h.logInterval < -7 ∨ 1 < h.logInterval then s
  else
    let sec := s.now / cS
    let n := if s.ptp.syncSecond = sec then s.ptp.syncCount + 1 else 1
    let s1 := modPtp (fun p => { p with syncSecond := sec, syncCount := n }) s
    if 128 < n then ptpViol 6 ws s1
    else
      let rx := (tamNow s1 : Int) - Config.ptpPhyDelay
      let s2 := modPtp (fun p => { p with syncInterval := h.logInterval }) s1
      if twoStep then modPtp (fun p => { p with pendSync := ⟨h.seq, s.now, rx, corr, ws⟩ :: p.pendSync }) s2
      else ptpOffset rx origin corr ws (modPtp (fun p => { p with lastSync := some s.now }) s2)

/-- PTP_SYNC (R104). -/
def execPtpSync (t : Instant) (h : PtpHdr) (twoStep : Bool) (origin : Nat) (corr : Int) (s : State) :
    Host.Outcome State Fault Refusal :=
  .next (ptpMsg 0 h twoStep corr (syncIn h twoStep origin corr) (advance t s))

/-- A Follow_Up of the selected master completes its Sync, which arrived when it did. -/
def followUpIn (h : PtpHdr) (origin : Nat) (corr : Int) (s : State) : State :=
  if some h.source ≠ s.ptp.best then s
  else match s.ptp.pendSync.find? fun x => x.seq == h.seq with
    | none => ptpViol 3 (ptpWords 8 h false corr) s
    | some x =>
      ptpOffset x.rx origin (x.corr + corr) x.hdr
        (modPtp (fun p => { p with
          pendSync := p.pendSync.filter fun y => y.seq != h.seq, lastSync := some (max x.at_ (p.lastSync.getD 0)) }) s)

/-- PTP_FOLLOW_UP (R104). -/
def execPtpFollowUp (t : Instant) (h : PtpHdr) (origin : Nat) (corr : Int) (s : State) : Host.Outcome State Fault Refusal :=
  .next (ptpMsg 8 h false corr (followUpIn h origin corr) (advance t s))

/-- Two-step Syncs without a Follow_Up within the larger of 100 ms and one Sync interval are discarded (Table 4-8). -/
def followUpTimeout (s : State) : State :=
  let lim := max (100 * cMs) (logDur s.ptp.syncInterval)
  let due := s.ptp.pendSync.filter fun x => decide (x.at_ + lim ≤ s.now)
  due.foldl (fun s x => ptpViol 2 x.hdr s)
    (modPtp (fun p => { p with pendSync := p.pendSync.filter fun x => !decide (x.at_ + lim ≤ s.now) }) s)

/-- PTP_FOLLOW_UP_TIMEOUT (R106). -/
def execPtpFollowUpTimeout (t : Instant) (s : State) : Host.Outcome State Fault Refusal := .next (followUpTimeout (advance t s))

/-- No valid Sync for four Sync intervals ends lock to PTP. -/
def syncTimeout (s : State) : State :=
  match s.ptp.lastSync with
  | none => s
  | some k =>
    if k + 4 * logDur s.ptp.syncInterval ≤ s.now then
      modPtp (fun p => { p with lastSync := none, good := 0 }) (if s.tim.st = .ptp then loseLock s else s)
    else s

/-- PTP_SYNC_TIMEOUT (R105). -/
def execPtpSyncTimeout (t : Instant) (s : State) : Host.Outcome State Fault Refusal := .next (syncTimeout (advance t s))

/-! ### Path delay (Table 4-7, R104) -/

/-- Where PTP messages go: the multicast group of the transport, or PTP_MASTER of the NET record (16 R393). -/
def ptpDst (s : State) : NetAddr :=
  if bit s.r.ptpCfg 10 then
    let v6 := (beNat (s.boot.net.take 1)).testBit 3
    let b := (s.boot.net.drop 16).take 16
    ⟨v6, BitVec.ofNat 128 (if v6 then beNat b else beNat (b.take 4)), 319⟩
  else match ptpTransport s with
    | 0 => ⟨false, 0xE0000181, 319⟩
    | 1 => ⟨true, 0xFF0E0000000000000000000000000181, 319⟩
    | _ => ⟨false, 0x011B19000000, 0⟩

/-- A Delay_Req as sent (IEEE 1588; version 2.1). Its port identity is the EUI-64 of the MAC address with port 1. -/
def delayReqMsg (s : State) (seq : Nat) : List Byte :=
  let m := Config.mac.toNat
  [(0x01 : Byte), 0x12, 0, 44] ++ beBytes 1 (ptpDomain s) ++ zeros 15 ++ beBytes 3 (m / 2 ^ 24) ++ [0xFF, 0xFE] ++ beBytes 3 m ++
    beBytes 2 1 ++ beBytes 2 seq ++ [0x01, 0x7F] ++ zeros 10

/-- A Delay_Req, at the master's interval and never more than 16 in a second, through the priority transmit queue. -/
def delayReqOut (s : State) : State :=
  let gap := max (cS / 16) (logDur s.ptp.reqInterval)
  let free := match s.ptp.lastReq with | some k => decide (k + gap ≤ s.now) | none => true
  if ptpUsable s && free && s.tim.running then
    let q := s.ptp.reqSeq
    let s1 := modPtp (fun p => { p with
      reqSeq := (q + 1) % 65536, lastReq := some s.now
      pendReq := ⟨q, s.now, (tamNow s : Int) + Config.ptpPhyDelay⟩ :: p.pendReq }) s
    { s1 with eth := { s1.eth with txPri := [⟨if ptpTransport s = 2 then 8 else 1, ptpDst s, delayReqMsg s q⟩] } }
  else s

/-- PTP_DELAY_REQ_SEND (R103). -/
def execPtpDelayReqSend (t : Instant) (s : State) : Host.Outcome State Fault Refusal := .next (delayReqOut (advance t s))

/-- A Delay_Resp for an outstanding request gives the mean path delay: half of offset plus delay and delay less offset. -/
def delayRespIn (h : PtpHdr) (forUs : Bool) (rx : Nat) (corr : Int) (s : State) : State :=
  if some h.source ≠ s.ptp.best then s
  else match forUs, s.ptp.pendReq.find? fun x => x.seq == h.seq with
    | true, some q =>
      let s1 := modPtp (fun p => { p with
        pendReq := p.pendReq.filter fun x => x.seq != h.seq, lost := 0, reqInterval := h.logInterval }) s
      match s1.ptp.raw with
      | none => s1
      | some r => modPtp (fun p => { p with delay := some ((r + (rx - q.tx - corr)) / 2) }) s1
    | _, _ => ptpViol 4 (ptpWords 9 h false corr) s

/-- PTP_DELAY_RESP (R104). -/
def execPtpDelayResp (t : Instant) (h : PtpHdr) (forUs : Bool) (rx : Nat) (corr : Int) (s : State) :
    Host.Outcome State Fault Refusal :=
  .next (ptpMsg 9 h false corr (delayRespIn h forUs rx corr) (advance t s))

/-- Requests without a Delay_Resp for 1 s are lost; 8 in a row end lock to PTP (Table 4-8). -/
def delayRespTimeout (s : State) : State :=
  let due := s.ptp.pendReq.filter fun x => decide (cS + x.at_ ≤ s.now)
  let lose := fun (s : State) (x : PendReq) =>
    let n := s.ptp.lost + 1
    let s1 := modPtp (fun p => { p with lost := if 8 ≤ n then 0 else n }) (ptpViol 5 (leWords 9 ((delayReqMsg s x.seq).take 34)) s)
    if 8 ≤ n ∧ s1.tim.st = .ptp then loseLock s1 else s1
  due.foldl lose (modPtp (fun p => { p with pendReq := p.pendReq.filter fun x => !decide (cS + x.at_ ≤ s.now) }) s)

/-- PTP_DELAY_RESP_TIMEOUT (R106). -/
def execPtpDelayRespTimeout (t : Instant) (s : State) : Host.Outcome State Fault Refusal := .next (delayRespTimeout (advance t s))

/-! ### Registers of chapter 04 -/

/-- G_TIME_STATE (Table 4-14). -/
def timeState (s : State) : Word :=
  let len := if s.tim.st.isLock then lockFor s else s.tim.lockLen
  let hold := if s.tim.st = .holdover then min 0xFF ((s.now - s.tim.holdSince) / cS) else 0
  word (2 ^ 16 * min 0xFFFF (len / (60 * cS)) + 2 ^ 8 * hold + 2 ^ 5 * s.tim.todSrc + 2 ^ 4 * b2n s.tim.valid +
    2 ^ 3 * b2n s.tim.acquiring + s.tim.st.code)

/-- G_TIME_ERR (Table 4-15). -/
def timeErr (s : State) : Word :=
  let est := if ptpEn s && s.ptp.best.isSome then s.tim.ptpEst else 0xFFFF
  word (2 ^ 16 * est + boundB s.tim)

/-- G_CLK_STATE (Table 4-11). -/
def clkState (s : State) : Word :=
  word (2 ^ 24 * (maskOf ((List.range 8).filter (octLocked s))) + 2 ^ 16 * s.clk.octFailed.toNat + 2 ^ 11 * b2n s.clk.bandCalRan +
    2 ^ 10 * b2n s.clk.coreFailed + 2 ^ 9 * b2n (coreLocked s) + 2 ^ 8 * b2n s.clk.oscWarm + s.clk.lastLock)

end Sys2Proof.Machine
end

