-- ==== Sys2Proof/Machine/Clock.lean ====
section
/-!
DEFINITION. Clock.lean: the clock start, band calibration, lock attempts, loss of lock and relock (04 R86 to R91, Tables 4-2,
4-3), and the oven (R431). A synthesiser is named by its octet, or none for the core.
-/

namespace Sys2Proof.Machine

def modClk (f : Clk → Clk) (s : State) : State := { s with clk := f s.clk }

/-- State of a synthesiser. -/
def synthAt (s : State) : Option (Fin 8) → SynthSt
  | none => s.clk.core
  | some k => s.clk.oct[k]

def setSynth (w : Option (Fin 8)) (x : SynthSt) (s : State) : State :=
  modClk (fun c => match w with
    | none => { c with core := x }
    | some k => { c with oct := c.oct.set k x }) s

/-- Place of a synthesiser's band codes in Nightwatch SRAM. -/
def bandIx : Option (Fin 8) → Nat
  | none => 8
  | some k => k.val

/-- Duration of band calibration, attempt limit and shortest lock (Table 4-2, R87), in codes. -/
def bandDur (w : Option (Fin 8)) : Nat := if w.isNone then 1200 * cUs else 900 * cUs
def attemptLimit (w : Option (Fin 8)) : Nat := if w.isNone then 1000 * cUs else 500 * cUs
def lockLeast (w : Option (Fin 8)) : Nat := if w.isNone then 25600 * cNs else 2560 * cNs

/-- LOCK_TRIES in force (Table 4-12). -/
def lockTries (s : State) : Nat := max 1 (fld s.r.clkCfg 4 2)

/-- Whether band calibration precedes the first attempt (R88); a relock does not judge the cold start (log 34). -/
def bandNeeded (s : State) (w : Option (Fin 8)) : Bool :=
  (s.clk.coldStart && !s.clk.relock) || bit s.r.clkCfg 6 || s.clk.tried.getLsbD (bandIx w) ||
  (match vget s.nw.bands (bandIx w) none with
   | none => true
   | some c => decide (20 < (s.encl.dieC - c).natAbs))

/-- A synthesiser starts its first attempt, or the band calibration before it. -/
def synthStart (w : Option (Fin 8)) (s : State) : State :=
  if bandNeeded s w then
    setSynth w (.band s.now 1) (if s.clk.relock then s else modClk (fun c => { c with bandCalRan := true }) s)
  else setSynth w (.attempt s.now 1) s

/-- Active octets that have not failed. -/
def octStarts (s : State) : List (Fin 8) :=
  (List.finRange 8).filter fun k => octOn s k.val && !s.clk.octFailed.getLsbD k.val

/-- The clock step of a Dawn (R86): the core synthesiser first. -/
def clockStart (s : State) : State :=
  synthStart none (modClk (fun c => { c with
    clockStep := s.now, lastLock := 0, bandCalRan := false, relock := false, oct := Vector.replicate 8 .off }) s)

/-- All synthesisers stop, and the clock of the memory port with them (Table 4-1). -/
def clockStop (s : State) : State :=
  modClk (fun c => { c with core := .off, oct := Vector.replicate 8 .off }) (if coreLocked s then arbClockStop s else s)

/-! ### Band calibration and lock -/

/-- Band codes chosen: the attempt begins (Table 4-3). -/
def bandDone (w : Option (Fin 8)) (s : State) : State :=
  match synthAt s w with
  | .band b n =>
    if b + bandDur w ≤ s.now then
      setSynth w (.attempt s.now n)
        { s with nw := { s.nw with bands := vmod s.nw.bands (bandIx w) fun _ => some s.encl.dieC } }
    else s
  | _ => s

/-- BAND_CAL_DONE (R88). -/
def execBandCalDone (t : Instant) (which : Option (Fin 8)) (s : State) : Host.Outcome State Fault Refusal :=
  .next (bandDone which (advance t s))

/-- LAST_LOCK at a lock of a clock start (Table 4-11). -/
def noteLock (s : State) : State :=
  if s.clk.relock then s
  else modClk (fun c => { c with lastLock := min 0xFF ((s.now - c.clockStep) / (20 * cUs)) }) s

/-- The core has locked: the arbiter's clock starts, and the octets start together (R86). -/
def coreLock (s : State) : State :=
  let s1 := noteLock (arbClockStart { s with sl := { s.sl with poolAt := s.now } })
  (octStarts s1).foldl (fun s k => synthStart (some k) s) s1

/-- A synthesiser locks within its attempt; jobs may become ready (R109). -/
def synthLock (w : Option (Fin 8)) (s : State) : State :=
  match synthAt s w with
  | .attempt b _ =>
    if b + lockLeast w ≤ s.now ∧ s.now ≤ b + attemptLimit w then
      let s1 := setSynth w (.locked s.now) s
      jobDue (if w.isNone then coreLock s1 else noteLock s1)
    else s
  | _ => s

/-- SYNTH_LOCKED (R87). -/
def execSynthLocked (t : Instant) (which : Option (Fin 8)) (s : State) : Host.Outcome State Fault Refusal :=
  .next (synthLock which (advance t s))

/-! ### Failure (R89, R90) -/

/-- Every attempt on the core has failed (R89, R91). LAST_LOCK tells of the last clock start, so a relock leaves it. -/
def coreFail (s : State) : State :=
  let s1 := faultU 10 (2 ^ 12 + 2 ^ 8) (modClk (fun c => { c with
    core := .failed, coreFailed := true, lastLock := if c.relock then c.lastLock else 0 }) s)
  let s2 := endJobs 9 0 false (slotsIn s1 (· == .queued)) s1
  match s.pwr.st with
  | .dawn =>
    if s.pwr.target = .day then { s2 with pwr := { s2.pwr with target := if tier s = 0 then .maint else .evening } } else s2
  | .day => pwrRequest .evening 0 5 s2
  | _ => s2

/-- An octet is powered down and removed from OCT_ACTIVE at once: its window ends, its request is dropped, and the jobs queued for
it end with CLOCK_FAIL. -/
def octRemove (k : Nat) (s : State) : State :=
  let s1 := modOct k (fun o => { o with calPend := none, calOverdue := false }) (abandonWindow k s)
  let s2 := unitAdvance k { s1 with pwr := { s1.pwr with octActive := s1.pwr.octActive &&& ~~~(BitVec.ofNat 8 (2 ^ k)) } }
  endJobs 9 0 false ((slotsIn s2 (· == .queued)).filter fun i => (slotAt s2 i).desc.octMask.testBit k) s2

/-- A short Dawn is abandoned (R90): every job in a slot ends with CLOCK_FAIL, and a full Dawn runs from its start. -/
def abandonDawn (s : State) : State :=
  let s1 := endJobs 9 0 false (slotsIn s fun st => st == .queued || st.active) s
  clockStop { s1 with pwr := { s1.pwr with abandoned := true } }

/-- Every attempt on an octet has failed (R90, R91). -/
def octFail (k : Fin 8) (s : State) : State :=
  let s1 := faultU 10 (2 ^ 12 + 2 ^ k.val) (modClk (fun c => { c with
    oct := c.oct.set k .failed, octFailed := c.octFailed ||| BitVec.ofNat 8 (2 ^ k.val) }) s)
  if s.pwr.st = .dawn ∧ s.pwr.shortDawn then abandonDawn s1 else octRemove k.val s1

/-- An attempt that has not locked by its limit fails: band calibration and another attempt, or failure after LOCK_TRIES. -/
def attemptFail (w : Option (Fin 8)) (s : State) : State :=
  match synthAt s w with
  | .attempt b n =>
    if b + attemptLimit w ≤ s.now then
      let s1 := modClk (fun c => { c with tried := c.tried ||| BitVec.ofNat 9 (2 ^ bandIx w) }) s
      if n < lockTries s then
        setSynth w (.band s.now (n + 1)) (if s.clk.relock then s1 else modClk (fun c => { c with bandCalRan := true }) s1)
      else match w with
        | none => coreFail s1
        | some k => octFail k s1
    else s
  | _ => s

/-- LOCK_ATTEMPT_TIMEOUT (R89, R90). -/
def execLockAttemptTimeout (t : Instant) (which : Option (Fin 8)) (s : State) : Host.Outcome State Fault Refusal :=
  .next (attemptFail which (advance t s))

/-! ### Loss of lock (R91) -/

/-- Loss of lock in Day or Dusk: pins safe, windows abandoned, jobs of the octets end with CLOCK_FAIL, and the relock begins. -/
def lockLost (w : Option (Fin 8)) (s : State) : State :=
  if (s.pwr.st = .day ∨ s.pwr.st = .dusk) ∧ (synthAt s w).isLocked then
    let mask := match w with
      | none => s.pwr.octActive.toNat
      | some k => 2 ^ k.val
    let s1 := faultU 10 (2 * 2 ^ 12 + 2 ^ 8 * b2n w.isNone + mask) (assureLapse s)
    let s2 := abandonWindows mask (if pinsOn s1 then safePins mask s1 else s1)
    let s3 := endJobs 9 0 false
      ((slotsIn s2 JobSt.active).filter fun i => decide ((slotAt s2 i).desc.octMask &&& mask ≠ 0)) s2
    let s4 := modClk (fun c => { c with relock := true, tried := 0 }) s3
    match w with
    | none => synthStart none (clockStop s4)
    | some k => synthStart (some k) s4
  else s

/-- SYNTH_LOCK_LOSS (R91). -/
def execSynthLockLoss (t : Instant) (which : Option (Fin 8)) (s : State) : Host.Outcome State Fault Refusal :=
  .next (lockLost which (advance t s))

/-! ### The oven (R431) -/

/-- The oven oscillator starts: OSC_WARM is 0 until it is warm. -/
def ovenBegin (s : State) : State :=
  setCond 11 0 true (modClk (fun c => { c with oscWarm := false, ovenStart := some s.now }) s)

/-- OVEN_WARM. -/
def ovenWarmed (s : State) : State :=
  if !s.clk.oscWarm ∧ fastOn s then setCond 11 0 false (modClk (fun c => { c with oscWarm := true }) s) else s

def execOvenWarm (t : Instant) (s : State) : Host.Outcome State Fault Refusal := .next (ovenWarmed (advance t s))

/-- OSC_WARM still 0 at 180 s after the start. -/
def ovenLate (s : State) : State :=
  match s.clk.ovenStart with
  | none => s
  | some k => if !s.clk.oscWarm ∧ 180 * cS + k ≤ s.now then faultU 11 0 (modClk (fun c => { c with ovenStart := none }) s) else s

/-- OVEN_WARM_TIMEOUT (R431). -/
def execOvenWarmTimeout (t : Instant) (s : State) : Host.Outcome State Fault Refusal := .next (ovenLate (advance t s))

end Sys2Proof.Machine
end

