-- ==== Sys2Proof/Machine/Encl.lean ====
section
/-!
DEFINITION. Encl.lean: the enclosure's samples and what they set off (02 R36, R55; 13 R314; 17 sources 3 to 8 and 17), the
cell's signals (03 R79), the Nightwatch reset (R76, R82), and the wake lines (R63).
-/

namespace Sys2Proof.Machine

def modEncl (f : Encl → Encl) (s : State) : State := { s with encl := f s.encl }

/-! ### The 1 ms sample (R55) -/

/-- Whether the fans are commanded on (R55). -/
def fansOn (s : State) : Bool :=
  match s.pwr.st with
  | .dawn | .day | .maint | .dusk => true
  | _ => false

/-- The speed a fan is commanded to: as the management core sets it, at full speed with the other fan failed (R32), 0 while the fans
are off. -/
def fanCmd (s : State) (cmd : Nat) (otherFailed : Bool) : Nat :=
  if fansOn s then (if otherFailed then Config.fanFull else cmd) else 0

/-- Since when a fan is below 20 % of its commanded speed, and whether it is so for 2 s. -/
def fanJudge (s : State) (speed cmd : Nat) (low : Option Instant) : Option Instant × Bool :=
  if 5 * speed < cmd then
    match low with
    | none => (some s.now, false)
    | some k => (some k, decide (2 * cS + k ≤ s.now))
  else (none, false)

/-- G_ENCL_SENSE as the sample leaves it, PPS_IN_OK apart (Table 2-11). -/
def senseWord (s : State) (x : EnclSample) : Word :=
  word (2 ^ 14 * b2n s.encl.hpres + 2 ^ 13 * b2n s.encl.vbus + 2 ^ 12 * b2n x.carrierB + 2 ^ 11 * b2n x.carrierA +
    2 ^ 10 * b2n s.eth.link + 2 ^ 8 * b2n x.ref10 + x.pres.toNat)

/-- A thermal source: its event where the value comes to meet `ev`, its condition where it meets `hold`. -/
def thermJudge (src : Nat) (ev hold : Int → Bool) (old new : Int) (s : State) : State :=
  let s1 := if ev new && !ev old then faultU src (twos 8 new) s else s
  setCond src 0 (hold new) s1

/-- A fan that comes to fail. -/
def fanEvent (fan speed : Nat) (was now : Bool) (s : State) : State :=
  if now && !was then faultU 8 (fan * 4096 + min speed 0xFFF) s else s

/-- A change of PRES of octet `k`: an event with the new level; PRES high is the condition (R36). -/
def presJudge (k : Nat) (old new : Bool) (s : State) : State :=
  setCond 17 k (!new) (if old == new then s else fault ⟨17, k, none⟩ (b2n !new) [] s)

/-- What the sources of the enclosure judge: the values before are those of the last update, or below every threshold at the
first one of a full Dawn (R396). -/
def enclJudge (o n : Encl) (s : State) : State :=
  let old := fun (v : Int) => if o.onset then (-128 : Int) else v
  let s1 := thermJudge 5 (fun c => decide (40 < c)) (fun c => decide (38 < c)) (old o.inletC) n.inletC s
  let s2 := thermJudge 6 (fun c => decide (105 ≤ c)) (fun c => decide (100 ≤ c)) (old o.dieC) n.dieC s1
  let s3 := thermJudge 7 (fun c => decide (60 ≤ c)) (fun c => decide (55 ≤ c)) (old o.bankC) n.bankC s2
  let s4 := fanEvent 1 n.fanSpeed1 o.fanFail1 n.fanFail1 (fanEvent 0 n.fanSpeed0 o.fanFail0 n.fanFail0 s3)
  let s5 := setCond 8 0 (n.fanFail0 || n.fanFail1) s4
  (List.range 8).foldl (fun s k => presJudge k (o.onset || bit o.sense k) (bit n.sense k) s) s5

/-- The REF10 line as the time base sees it: the first update of a run of zeros is noted (R102). -/
def refJudge (ok : Bool) (s : State) : State :=
  reviewDiscipline (modTim (fun t => { t with
    ref10Bad := if ok then none else (match t.ref10Bad with | some k => some k | none => some s.now) }) s)

/-- An update of the enclosure registers. -/
def enclUpdate (x : EnclSample) (s : State) : State :=
  if fastOn s then
    let o := s.encl
    let f0 := fanJudge s x.fan0 (fanCmd s x.cmd0 o.fanFail1) o.fanLow0
    let f1 := fanJudge s x.fan1 (fanCmd s x.cmd1 o.fanFail0) o.fanLow1
    let n : Encl := { o with
      sense := senseWord s x, fanSpeed0 := x.fan0 % 4096, fanSpeed1 := x.fan1 % 4096, fanLow0 := f0.1, fanLow1 := f1.1
      fanFail0 := f0.2, fanFail1 := f1.2, fanCmd0 := fanCmd s x.cmd0 f1.2, fanCmd1 := fanCmd s x.cmd1 f0.2
      ref10 := x.ref10, dieC := x.dieC, inletC := x.inletC, bankC := x.bankC
      onset := false }
    let s1 := modEncl (fun _ => n) s
    let s2 := modRing (fun r => { r with
      pa := { r.pa with carrier := x.carrierA }, pb := { r.pb with carrier := x.carrierB } }) s1
    tempRequests (enclJudge o n (refJudge x.ref10 s2))
  else s

/-- ENCL_SENSE_UPDATE (R55). -/
def execEnclSenseUpdate (t : Instant) (x : EnclSample) (s : State) : Host.Outcome State Fault Refusal :=
  .next (enclUpdate x (advance t s))

/-! ### The backup cell (R79) -/

/-- CELL_LOW takes a value: becoming 1 is an event of source 3. -/
def setCellLow (low : Bool) (s : State) : State :=
  let s1 := { s with pwr := { s.pwr with cellLow := low } }
  setCond 3 0 low (if low && !s.pwr.cellLow then faultU 3 s.pwr.cellMv s1 else s1)

/-- CELL_LOW_SET: the cell has fallen to 2.50 V. -/
def execCellLowSet (t : Instant) (mv : Nat) (s : State) : Host.Outcome State Fault Refusal :=
  let s := advance t s
  .next (if mv ≤ 2500 ∧ !s.pwr.cellAbsent then setCellLow true { s with pwr := { s.pwr with cellMv := mv } } else s)

/-- CELL_LOW_CLEARED: the cell has charged above 2.50 V. -/
def execCellLowCleared (t : Instant) (mv : Nat) (s : State) : Host.Outcome State Fault Refusal :=
  let s := advance t s
  .next (if 2500 < mv then setCellLow false { s with pwr := { s.pwr with cellMv := mv } } else s)

/-- CELL_ABSENT takes a value: becoming 1 is an event of source 4; a cell that is not there is not low. -/
def cellPresence (present : Bool) (mv : Nat) (s : State) : State :=
  let s1 := { s with pwr := { s.pwr with cellAbsent := !present, cellMv := mv } }
  let s2 := setCond 4 0 (!present) (if !present && !s.pwr.cellAbsent then faultU 4 0 s1 else s1)
  setCellLow (present && decide (mv ≤ 2500)) s2

/-- CELL_PRESENCE_CHANGE (R395, source 4). -/
def execCellPresenceChange (t : Instant) (present : Bool) (mv : Nat) (s : State) : Host.Outcome State Fault Refusal :=
  .next (cellPresence present mv (advance t s))

/-- A Nightwatch reset zeroes the token, the counter and the held trip (R52, R76, R82). -/
def nwReset (s : State) : State :=
  { s with nw := { s.nw with
      token := 0, codes := 0, aligned := false, alignSec := 0, tripHeld := false, tripFound := false } }

/-- NIGHTWATCH_RESET (R53, R76): entry to ship mode is one, and only a unit without line power enters it. -/
def execNightwatchReset (t : Instant) (toShip : Bool) (s : State) : Host.Outcome State Fault Refusal :=
  let s1 := nwReset (advance t s)
  .next (if toShip ∧ s1.pwr.st = .absent ∧ !s1.pwr.linePresent then
    { s1 with nw := { s1.nw with shipMode := true }, pwr := { s1.pwr with lastStart := 0 } } else s1)

/-! ### Wake lines (R63) -/

/-- HSEL_WAKE: HSEL falls in Night while HPRES is high, wake source 4. -/
def execHselWake (t : Instant) (s : State) : Host.Outcome State Fault Refusal :=
  let s := advance t s
  .next (if s.pwr.st = .night ∧ s.encl.hpres then pwrRequest .evening 4 0 s else s)

/-- VBUS_RISE: wake source 5 in Night while USB_EN is 1; in a Dusk it is a wake source too, and VBUS holds the unit out of Night
(R65, R432); J8 connects where its port runs (15 R367). -/
def vbusRise (s : State) : State :=
  let s1 := usbConnect (modEncl (fun e => { e with vbus := true }) s)
  if !s.encl.vbus ∧ usbEn s ∧ (s.pwr.st = .night ∨ s.pwr.st = .dusk) then pwrRequest .evening 5 0 s1 else s1

/-- VBUS_RISE (R63). -/
def execVbusRise (t : Instant) (s : State) : Host.Outcome State Fault Refusal := .next (vbusRise (advance t s))

/-! ### Registers (Tables 2-11 to 2-13) -/

def enclSense (s : State) : Word := word (s.encl.sense.toNat + 2 ^ 9 * b2n (if fastOn s then ppsOk s else s.encl.ppsKept))
def enclTherm (s : State) : Word :=
  word (2 ^ 16 * twos 8 s.encl.bankC + 2 ^ 8 * twos 8 s.encl.dieC + twos 8 s.encl.inletC)
def enclFan (s : State) : Word :=
  word (2 ^ 25 * b2n s.encl.fanFail1 + 2 ^ 24 * b2n s.encl.fanFail0 + 2 ^ 12 * s.encl.fanSpeed1 + s.encl.fanSpeed0)

end Sys2Proof.Machine
end

