-- ==== Sys2Proof/Machine/Power.lean ====
section
/-!
DEFINITION. Power.lean: power states and their transitions (03 R56 to R68, R72 to R75, R430, R432; 05 R114 to R116): line
power, requests, the Dusk, the end of a Dawn, and the bank's updates and windows. The start of a full Dawn is in Boot.lean.
-/

namespace Sys2Proof.Machine

def modPwr (f : Pwr → Pwr) (s : State) : State := { s with pwr := f s.pwr }

/-! ### Domains losing power -/

/-- Unpowered pin channels present only their clamps, and SAFE reads 0 (R156). -/
def pinsOff (s : State) : State :=
  { s with pins := vmap s.pins fun _ p => { p with safe := false, drv := false, term := false, hold := none } }

/-- The fast domain without power (R52): in Night what Nightwatch and the DRAM hold is kept, with the timing sets, the segment table,
the stream rings and the trim memory (R59, 07 R178, 08 R195, 13 R294), without line power what Nightwatch holds; registers take their
reset values at the full Dawn that follows, but for those kept (Table 18-3). -/
def powerOff (st : PwrSt) (s : State) : State :=
  let dram := st == .night
  let ring : Ring := if dram then
      { agree := s.ring.agree, agreeSeq := s.ring.agreeSeq, wakeSeq := s.ring.wakeSeq, toneDue := s.ring.toneDue }
    else {}
  let p : Pwr :=
    { st := st, target := st, linePresent := s.pwr.linePresent, lastStart := s.pwr.lastStart
      classEvents := s.pwr.classEvents, bankUv := s.pwr.bankUv, wakeSource := s.pwr.wakeSource, duskCause := s.pwr.duskCause
      cellMv := s.pwr.cellMv, cellLow := s.pwr.cellLow, cellAbsent := s.pwr.cellAbsent, tokenRead := s.pwr.tokenRead }
  let nw := if dram then s.nw else { s.nw with wakeLatch := false }
  { pending := s.pending, now := s.now, hap := s.hap, free := s.free, bus := s.bus, r := s.r, nw := nw, mram := s.mram, rt := s.rt, pwr := p
    encl := { s.encl with
      ppsOutHigh := false, j4Skip := false, fanCmd0 := 0, fanCmd1 := 0, ppsKept := if fastOn s then ppsOk s else s.encl.ppsKept }
    seg := if dram then { s.seg with undo := [], load := none, probe := none } else {}
    seqr := { srings := if dram then s.seqr.srings else Vector.replicate 4 {} }
    octs := if dram then vmap s.octs fun _ o => { wave := o.wave, phaseTrim := o.phaseTrim } else Vector.replicate 8 {}
    cal := if dram then { s.cal with unitStep := none, unitNext := none } else {}
    evid := if dram then
        { head := s.evid.head, count := s.evid.count, oldest := s.evid.oldest, sealedEnd := s.evid.sealedEnd, held := s.evid.held }
      else {}
    ring := ring
    sl := { draws := s.sl.draws, ckptForce := s.sl.ckptForce, ckptHead := if dram then s.sl.ckptHead else none }
    tasp := { draws := s.tasp.draws } }

/-- Night (Table 3-3): the alarm is set with the ready bound of Night while the time base still runs, and a call or request latched
starts a full Dawn (R63, R335, R432). A sleep agreement's Night is that of its rendezvous unless a latched call cancels it, after
which STATE is unstated: none or aborted (log 3). -/
def enterNight (latched : Option Nat) (s : State) : State :=
  let later := s.pwr.pend
  let s1 := powerOff .night (armAlarm (modPwr (fun p => { p with st := .night }) s))
  let s2 := if s.nw.wakeLatch then
      let v := drawFree s1
      modAgree (fun a => { a with st := if v.1 % 2 = 0 then 0 else 5 })
        { v.2 with nw := { v.2.nw with alarmRdv := none } }
    else if s.ring.agree.st = 4 then modAgree (fun a => { a with slept := true }) s1
    else s1
  let src := if s.nw.wakeLatch then some 2 else latched
  let s3 := match src with
    | some k => modPwr (fun p => { p with pend := some ⟨.day, k, 0, s.now⟩ }) s2
    | none => s2
  match src, later with
  | none, some q => if (q.target = .day ∨ q.target = .evening) ∧ q.source ≠ 0 then modPwr (fun p => { p with pend := some q }) s3 else s3
  | _, _ => s3

/-- Line absent (R75): line power that came back during the Dusk starts a full Dawn with its own classification. -/
def enterAbsent (s : State) : State :=
  let s1 := powerOff .absent s
  match s.pwr.lineBack with
  | some n => modPwr (fun p => { p with lineDawn := true, linePresent := true, classEvents := n }) s1
  | none => s1

/-- Evening (R61 to R63): clocks and pin channels are off, and a Day request latched in the Dusk is made; it is logged and discarded
while CORE_FAILED or DAY_BLOCK is 1 (R89, R399). -/
def enterEvening (latched : Option Nat) (s : State) : State :=
  let s1 := clockStop (pinsOff s)
  let s2 := armAlarm (modPwr (fun p => { p with
    st := .evening, target := .evening, duskStep := 0, duskLatched := none, duskReq := none, duskPins := false }) s1)
  match latched with
  | some k => pwrRequest .day k 0 s2
  | none => s2

/-- The settings a full Dawn takes up are those in force as Day, Evening or maintenance Day ends (05 R114, R135). -/
def keepSettings (s : State) : State :=
  match s.pwr.st with
  | .day | .evening | .maint => { s with nw := { s.nw with
      kept := ⟨s.r.bootLimits, s.r.timeSrc, s.r.ppsComp, s.r.ptpCfg, s.r.ptpAsym⟩ } }
  | _ => s

/-- The hardware thermal trip (R52): no Dusk; Night, or line absent where nothing but the bank feeds the unit. In a Dusk after line loss
whose line power is back the unit is in Night with the tier of the new classification (DEDUCED, log 74). -/
def thermalTrip (dieC : Int) (s : State) : State :=
  if fastOn s ∧ 115 ≤ dieC then
    let s := ckptCut s
    let s1 := assureLapse (modEncl (fun e => { e with dieC := dieC })
      (let k := keepSettings s
       { k with nw := { k.nw with tripHeld := true, tripFound := true, wakeLatch := false } }))
    if s.pwr.linePresent then
      powerOff .night (modPwr (fun p => { p with classEvents := p.lineBack.getD p.classEvents }) s1)
    else enterAbsent s1
  else s

/-- HARDWARE_THERMAL_TRIP (R52). -/
def execHardwareThermalTrip (t : Instant) (dieC : Int) (s : State) : Host.Outcome State Fault Refusal :=
  .next (thermalTrip dieC (advance t s))

/-- THERMAL_TRIP_RELEASE (R52): below 95 °C; the full Dawn of a latched wake may then begin. G_ENCL_THERM keeps its values in Night
(R55). -/
def execThermalTripRelease (t : Instant) (dieC : Int) (s : State) : Host.Outcome State Fault Refusal :=
  let s := advance t s
  .next (if dieC < 95 then { s with nw := { s.nw with tripHeld := false } } else s)

/-! ### Line power (R56, R60, R75, R430) -/

/-- LINE_POWER_APPLIED: the class events fix the tier; ship mode ends with a Nightwatch reset (R53, R82), and a full Dawn is due. In
a Dusk after line loss the Dawn follows the Dusk. -/
def lineApplied (n : Nat) (s : State) : State :=
  match s.pwr.st with
  | .absent =>
    if s.pwr.linePresent then s
    else
      let s1 := if s.nw.shipMode then nwReset { s with nw := { s.nw with shipMode := false } } else s
      modPwr (fun p => { p with linePresent := true, lineDawn := true, classEvents := n }) s1
  | .dusk =>
    if s.pwr.target = .absent then modPwr (fun p => { p with linePresent := true, lineBack := some n }) s else s
  | _ => s

/-- LINE_POWER_APPLIED (R60). -/
def execLinePowerApplied (t : Instant) (classEvents : Nat) (s : State) : Host.Outcome State Fault Refusal :=
  .next (lineApplied classEvents (advance t s))

/-- An image commit stops without a word at line loss: its target header stays zero (R149). -/
def commitStop (s : State) : State := if s.boot.commit.isSome then commitAbandon s else s

/-- The staged image is discarded at every Dusk and full Dawn, and an open upload with it (R147). -/
def stageDiscard (s0 : State) : State :=
  let s := { s0 with usb := { s0.usb with upOn := false }, tasp := { s0.tasp with upSess := none } }
  if s.boot.commit.isSome then { s with boot := { s.boot with stage := [], stageLen := 0 } }
  else { s with boot := { s.boot with stage := [], stageLen := 0, stageState := 0, stageCode := 0 } }

/-- Windows end and pending calibration requests are discarded as Dusk begins; a whole-unit sequence ends, and so does a rolling cycle
but for the return of a pin that its spare lane serves (R297, R298, R304, R308). -/
def calDusk (s : State) : State :=
  let s1 := { s with
    cal := { s.cal with unitStep := none, unitNext := none }
    octs := vmap s.octs fun _ o => if o.served.isNone then { o with roll := o.roll.cut } else o }
  let s2 := abandonWindows 0xFF s1
  let m := maskOf ((List.range 8).filter fun k => (octAt s2 k).calPend.isSome)
  let s3 := { s2 with octs := vmap s2.octs fun _ o => { o with calPend := none, calOverdue := false } }
  if m = 0 then s3 else notice 9 (0x100 + m) [] s3

/-- Notice DUSK (Table 17-5). -/
def duskNotice (s : State) : State := notice 3 (s.pwr.target.code * 16 + s.pwr.duskCause) [] s

/-- Running jobs stop with ENERGY_STOP, cause LINE_LOST, at their next vector cycle boundary; those in CHECKING or ARMED at once
(R74). -/
def lineStops (s : State) : State :=
  let s1 := (slotsIn s (· == .running)).foldl (fun s i => orderStop false 7 1 true i s) s
  endJobs 7 1 true (slotsIn s1 fun st => st == .checking || st == .armed) s1

/-- Running jobs stop with DUSK_STOP at their next granule boundary, once (R66 step 2). -/
def duskStops (s : State) : State :=
  (slotsIn s (· == .running)).foldl (fun s i =>
    if (slotAt s i).stops.any fun x => x.code == 4 then s else orderStop true 4 0 false i s) s

/-- Every TASP session closes at the start of a Dusk towards Night (16 R380). -/
def closeSessions (target : PwrSt) (s : State) : State :=
  if target = .night then { s with tasp := { s.tasp with sess := Vector.replicate 4 none } } else s

/-- A Dusk begins (R66, R75): jobs in CHECKING or ARMED end, windows end, a ring master resigns, and DUSK_WAIT runs. -/
def duskBegin (target : PwrSt) (cause : Nat) (s : State) : State :=
  let s1 := keepSettings (assureLapse s)
  let wait := if target = .absent then 0 else fld s.r.pwrCfg 0 16
  let s2 := modPwr (fun p => { p with
    st := .dusk, target := target, duskCause := cause, duskStep := 2, duskStart := s.now, duskWaitMs := wait
    duskSealed := false, duskLatched := none, duskReq := none, duskPins := decide (s.pwr.st = .day), pend := none, abandoned := false }) s1
  let s3 := calDusk (duskNotice s2)
  let s4 := if target = .absent then lineStops { s3 with nw := { s3.nw with duskIncomplete := true } }
    else
      let x := endJobs 4 0 false (slotsIn s3 fun st => st == .checking || st == .armed) s3
      if wait = 0 then duskStops x else x
  closeSessions target (stageDiscard (resign s4))

/-- A stay below 36.0 V is declared from 1 µs on; between 0.5 µs and 1 µs it may be (R75; log 35). -/
def lossDeclared (ns : Nat) : Bool := decide (1000 ≤ ns) || (decide (500 ≤ ns) && Config.shortDip ns)

/-- Line loss (R60, R64, R75): in Night the unit is without line power at once; in a Dusk the target changes, jobs stop, and a
checkpoint is written whatever the target was; in every other state a Dusk towards line absent begins. -/
def lineLost (s : State) : State :=
  if !s.pwr.linePresent then s
  else
    let s0 := commitStop (storeLine (modPwr (fun p => { p with linePresent := false, lineBack := none }) s))
    match s.pwr.st with
    | .absent => modPwr (fun p => { p with linePresent := false, lineDawn := false }) s
    | .night => enterAbsent s0
    | .dusk =>
      if s.pwr.target = .absent then s0
      else
        let s1 := modPwr (fun p => { p with
          target := .absent, duskCause := 4, duskWaitMs := 0, duskLatched := none, duskReq := none, pend := none
          duskStep := if 5 ≤ p.duskStep then 5 else p.duskStep }) s0
        lineStops (duskNotice { s1 with nw := { s1.nw with duskIncomplete := true } })
    | _ => duskBegin .absent 4 s0

/-- LINE_LOSS (R75). -/
def execLineLoss (t : Instant) (belowNs : Nat) (s : State) : Host.Outcome State Fault Refusal :=
  let s := advance t s
  .next (if lossDeclared belowNs then lineLost s else s)

/-- BANK_EXHAUSTED (R430): the Dusk after line loss is cut off where it stands, and with it a checkpoint being written (12 R285). -/
def execBankExhausted (t : Instant) (s : State) : Host.Outcome State Fault Refusal :=
  let s := advance t s
  .next (if s.pwr.st = .dusk ∧ s.pwr.target = .absent then enterAbsent (ckptCut s) else s)

/-! ### Requests (R63, R64; Table 3-15) -/

/-- A write of G_PWR_REQ. -/
def pwrReqWrite (val : Word) (s : State) : State × BusRes :=
  (match fld val 0 2 with
   | 1 => pwrRequest .day 0 0 s
   | 2 => pwrRequest .evening 0 0 s
   | 3 => pwrRequest .night 0 0 s
   | _ => s, .done)

/-- PWR_REQ_DAY (R64). -/
def execPwrReqDay (t : Instant) (port : Port) (s : State) : Host.Outcome State Fault Refusal :=
  .next (portWrite port 0x104 1 (pwrReqWrite 1) (advance t s))

/-- PWR_REQ_EVENING (R64). -/
def execPwrReqEvening (t : Instant) (port : Port) (s : State) : Host.Outcome State Fault Refusal :=
  .next (portWrite port 0x104 2 (pwrReqWrite 2) (advance t s))

/-- PWR_REQ_NIGHT (R64, R65). -/
def execPwrReqNight (t : Instant) (port : Port) (s : State) : Host.Outcome State Fault Refusal :=
  .next (portWrite port 0x104 3 (pwrReqWrite 3) (advance t s))

/-! ### Dusk (R66) -/

/-- DUSK_ENTRY: a request for Evening or Night that waits begins its Dusk (Table 3-3), once every request of its cycle has been heard
(R64). -/
def duskEntry (s : State) : State :=
  match s.pwr.pend with
  | none => s
  | some p =>
    let go : Bool := match s.pwr.st with
      | .evening => decide (p.target = .night)
      | .day | .maint => decide (p.target = .night) || decide (p.target = .evening)
      | _ => false
    if go ∧ !sameCycle p.at_ s.now then duskBegin p.target p.cause s else s

/-- DUSK_ENTRY (R66). -/
def execDuskEntry (t : Instant) (s : State) : Host.Outcome State Fault Refusal := .next (duskEntry (advance t s))

/-- DUSK_WAIT has passed. -/
def duskWaited (s : State) : State :=
  if s.pwr.st = .dusk ∧ s.pwr.duskStep = 2 ∧ s.pwr.duskStart + cMs * s.pwr.duskWaitMs ≤ s.now then duskStops s else s

/-- DUSK_WAIT_EXPIRY (R66). -/
def execDuskWaitExpiry (t : Instant) (s : State) : Host.Outcome State Fault Refusal := .next (duskWaited (advance t s))

/-- Whether the Dusk leads to Night or line absent, where queued jobs are refused and a checkpoint is written. -/
def duskDeep (s : State) : Bool := s.pwr.target == .night || s.pwr.target == .absent

/-- Queued jobs end with NIGHT_REFUSED. -/
def nightRefuse (s : State) : State := endJobs 15 0 false (slotsIn s (· == .queued)) s

/-- No job runs: step 3, with the queue of a Dusk towards Night or line absent refused before the seal (R226); step 4 begins. -/
def duskJobs (s : State) : State :=
  if s.pwr.st = .dusk ∧ s.pwr.duskStep = 2 ∧ slotsIn s JobSt.active = [] then
    let s1 := returnXpt 0xFF (if pinsOn s then safePins 0xFF s else s)
    let s2 := if duskDeep s then nightRefuse s1 else s1
    modPwr (fun p => { p with duskStep := 4 }) s2
  else s

/-- DUSK_JOBS_ENDED (R66). -/
def execDuskJobsEnded (t : Instant) (s : State) : Host.Outcome State Fault Refusal := .next (duskJobs (advance t s))

/-- Whether nothing waits for the chain: no record in a FIFO or the unit queue, no run, group or loss open, no job ending. A
suspended chain takes nothing more (R256). -/
def drained (s : State) : Bool :=
  s.evid.suspended ||
    (s.evid.unitQ.isEmpty && (slotsIn s fun st => st == .ending).isEmpty &&
      (List.range 8).all fun k =>
        let c := capAt s k
        c.fifo.isEmpty && c.run.isNone && c.grp.isNone && c.loss.isNone)

/-- Step 5: the seal under the Dusk trigger; a Dusk towards Evening takes it while DUSK_EN is 1 (Table 12-1). -/
def duskSeal (s : State) : State :=
  if s.pwr.st = .dusk ∧ s.pwr.duskStep = 4 ∧ drained s then
    let seal' := duskDeep s || bit s.r.sealCfg 25
    let s1 := if seal' then sealDue 4 s.now s else s
    modPwr (fun p => { p with duskStep := 5, duskSealed := seal' }) s1
  else s

/-- DUSK_FIFOS_DRAINED (R66). -/
def execDuskFifosDrained (t : Instant) (s : State) : Host.Outcome State Fault Refusal := .next (duskSeal (advance t s))

/-- Whether the seal ordered is written; one that waits for a nonce while the core synthesiser is off has none to come (R279;
log 36). -/
def sealsDone (s : State) : Bool :=
  (s.sl.due.isEmpty || (s.sl.pool == 0 && !coreLocked s)) && s.sl.forming.isNone && !s.sl.part0Wait && s.sl.writing.isEmpty

/-- The seal is taken: step 6 where the Dusk leads to Night or line absent, step 7 otherwise. A target changed after step 5 began
leads through steps 4 and 5 again where jobs are still queued or no seal was ordered (R432; log 37). -/
def duskSealed (s : State) : State :=
  if s.pwr.st = .dusk ∧ s.pwr.duskStep = 5 ∧ sealsDone s ∧ s.sl.ckptWrite = none then
    if duskDeep s then
      if slotsIn s (· == .queued) ≠ [] ∨ !s.pwr.duskSealed then modPwr (fun p => { p with duskStep := 4 }) (nightRefuse s)
      else startCkpt true (modPwr (fun p => { p with duskStep := 6 }) s)
    else modPwr (fun p => { p with duskStep := 7 }) s
  else s

/-- DUSK_SEALED (R66). -/
def execDuskSealed (t : Instant) (s : State) : Host.Outcome State Fault Refusal := .next (duskSealed (advance t s))

/-- Step 7: the unit enters its target, Evening in place of Night while VBUS holds it out of Night (R65); writes to the configuration
memory end first where its domain loses power with the line present (log 38). -/
def duskDown (s : State) : State :=
  if s.pwr.st = .dusk ∧ stepSeven s then
    match nightOrEvening s s.pwr.target with
    | .evening => enterEvening s.pwr.duskLatched s
    | .night => if s.boot.store.isNone ∧ s.boot.commit.isNone then enterNight s.pwr.duskLatched (clockStop s) else s
    | .absent => enterAbsent (clockStop { s with nw := { s.nw with duskIncomplete := false } })
    | _ => s
  else s

/-- DUSK_POWER_DOWN (R66, R432). -/
def execDuskPowerDown (t : Instant) (s : State) : Host.Outcome State Fault Refusal := .next (duskDown (advance t s))

/-! ### Dawn, steps 9 and 10 (R60, R61, R114, R115) -/

/-- The target a Dawn at step 9 leads to (R65, R89, R115, R133, R134, R399). -/
def dawnTarget (s : State) : PwrSt :=
  if !s.boot.imageApplied then .maint
  else
    let t0 := match s.pwr.pend with
      | some p => if p.target = .day ∨ p.target = .evening ∨ p.target = .night then p.target else s.pwr.target
      | none => s.pwr.target
    let t1 := if t0 = .day ∧ (dayBlock s ∨ s.clk.coreFailed) then .evening else t0
    let t2 := nightOrEvening s t1
    if tier s = 0 ∧ t2 ≠ .night then .maint else t2

/-- Step 9: requests of earlier cycles take effect, the SPI port runs unless the target is Night (15 R356), and the clock step runs when the target is Day and the bank holds 20 J. -/
def dawnStep9 (s : State) : State :=
  if s.pwr.st = .dawn ∧ s.pwr.dawnReady ∧ !s.pwr.abandoned then
    let fresh := match s.pwr.pend with | some p => sameCycle p.at_ s.now | none => false
    let s0 := if fresh then s else modPwr (fun p => { p with target := dawnTarget s, pend := none }) s
    let s1 := if s0.pwr.target = .night then s0 else { s0 with spi := { s0.spi with running := true } }
    if s1.pwr.target = .day then
      if s1.clk.core = .off ∧ 20000 ≤ bankMj s1 then clockStart s1 else s1
    else if s1.clk.core = .off then s1 else clockStop s1
  else s

/-- SHORT_DAWN_BEGIN (R61): a request for Day in Evening; no image is read, and the configuration is that of Evening. A request that
waited while CORE_FAILED or DAY_BLOCK became 1 is logged and discarded (R89, R399). DESIGN CHOICE (log 74): LAST_STOP_CAUSE keeps its
value; Table 3-25 has 0 for none since Dawn and does not say whether a short Dawn clears it. -/
def shortDawn (s : State) : State :=
  match s.pwr.st, s.pwr.pend with
  | .evening, some p =>
    if p.target = .day ∧ (s.clk.coreFailed ∨ dayBlock s) then
      notice 4 ((if s.clk.coreFailed then 16 else 32) + p.source) [] (modPwr (fun q => { q with pend := none }) s)
    else if p.target = .day then
      dawnStep9 (modPwr (fun q => { q with
        st := .dawn, target := .day, shortDawn := true, dawnReady := true, fromLine := false, pend := none
        wakeSource := if p.source = 0 then 3 else p.source }) (modClk (fun c => { c with tried := 0 }) (keepSettings s)))
    else s
  | _, _ => s

/-- SHORT_DAWN_BEGIN (R61). -/
def execShortDawnBegin (t : Instant) (s : State) : Host.Outcome State Fault Refusal := .next (shortDawn (advance t s))

/-- Day entry: one strobe per active octet (R165), the pin channels powered and idle with their comparators fresh (R155, R158), and
work that waits for Day begins. -/
def enterDay (s : State) : State :=
  let mask := s.pwr.octActive.toNat
  let s1 := (bitsOf 8 mask).foldl (fun s k => dayStrobe k s) s
  let fresh := fun (n : Nat) (p : PinCh) => cmpFresh (octAt s1 (n / 8)).code p.toIdle
  let s2 := mapPins mask fresh s1
  let s3 := modPwr (fun p => { p with st := .day, target := .day, dawnReady := false }) s2
  let s4 := safePins (stoppedMask s3 &&& mask) s3
  jobDue ((List.range 8).foldl (fun s k => rollStart k s) s4)

/-- The conditions of Table 3-3 for Day. -/
def dayReady (s : State) : Bool :=
  decide (20000 ≤ bankMj s) && coreLocked s && (List.range 8).all fun k => !octOn s k || octLocked s k

/-- Inputs of pins as they stand at the present instant (R155, R158). -/
def inputsNow (ins : List (Fin 64 × Int)) (s : State) : State := ins.foldl (fun s x => inputStep x.1.val x.2 s) s

/-- The Dawn enters its target; `ins` are the inputs of the pins whose channels become powered. Night is entered once the jobs it refuses have ended and nothing waits for the chain (R66). -/
def dawnEnter (ins : List (Fin 64 × Int)) (s0 : State) : State :=
  let s := dawnStep9 (inputsNow ins s0)
  if s.pwr.st = .dawn ∧ s.pwr.dawnReady ∧ !s.pwr.abandoned then
    match s.pwr.target with
    | .day => if dayReady s then enterDay s else s
    | .evening => enterEvening none (modPwr (fun p => { p with dawnReady := false }) s)
    | .night =>
      if slotsIn s (· == .queued) ≠ [] then nightRefuse s
      else if drained s then enterNight none s else s
    | .maint =>
      let s1 := modPwr (fun p => { p with st := .maint, target := .maint, dawnReady := false, octActive := 0 }) (clockStop s)
      if s.boot.imageApplied then setCond 30 0 true { s1 with boot := { s1.boot with maintCause := 2 } } else s1
    | _ => s
  else s

/-- DAWN_ENTER_TARGET (R60). -/
def execDawnEnterTarget (x : Sight) (s : State) : Host.Outcome State Fault Refusal :=
  .next (dawnEnter x.ins (advance x.at_ s))

/-! ### The charger and the converter (R62, R67) -/

/-- Charger limit of the tier in mW (Table 3-1). -/
def chargerLimit (s : State) : Nat := match tier s with | 3 => 24000 | 2 => 16000 | 1 => 6000 | _ => 0

/-- Usable energy of the bank in mJ, 0.8 F × (V² − 25 V²), 0 below 5.0 V. -/
def bankEnergy (s : State) : Nat := 8 * (s.pwr.bankUv * s.pwr.bankUv) / 10000000000 - 20000

/-- Whether line power feeds the bus: not from the declaration of a line loss until its Dusk is over. -/
def lineFeeds (s : State) : Bool := s.pwr.linePresent && !(s.pwr.st == .dusk && s.pwr.target == .absent)

/-- What the charger may take in mW: its limit in Night while the bank holds less than 8 J, never more than the margin P_B less the bus
load in the other states, nothing at 10.0 V (60 J) and nothing without line power. -/
def chargeRoom (s : State) : Nat :=
  if !lineFeeds s ∨ 10000000 ≤ s.pwr.bankUv then 0
  else match s.pwr.st with
    | .absent => 0
    | .night => if bankEnergy s < 8000 then chargerLimit s else 0
    | _ => min (chargerLimit s) (pbMw s - s.pwr.busNow)

/-- Power the charger takes in mW: 3.0 A at the bank's voltage until that reaches what it may take. -/
def chargerMw (s : State) : Nat := min (3 * s.pwr.bankUv / 1000) (chargeRoom s)

/-- Power the bank supplies to the bus in mW: the load above P_B while the line feeds the bus, all of it after a line loss, none in
Night. -/
def bankSupplies (s : State) : Nat :=
  match s.pwr.st with
  | .absent | .night => 0
  | _ => if lineFeeds s then s.pwr.busNow - pbMw s else s.pwr.busNow

/-! ### The bank (R68, R72, R73) -/

/-- Cause of an ENERGY_STOP at the floor (Table 3-9). -/
def floorCause (s : State) (i : Nat) : Nat :=
  let x := slotAt s i
  if x.overDecl then 2 else if x.desc.tUs ≠ 0 ∧ cUs * x.desc.tUs < ranFor s x then 3 else 4

/-- The floor event (R73): running jobs end at their next granule boundary, those in CHECKING or ARMED at once, windows end. DESIGN
CHOICE (log 74): the cause of Table 3-9 is judged at the floor event, which orders the stop; the manual does not say whether it is
judged then or as the granule ends. -/
def bankFloor (s : State) : State :=
  let s1 := (slotsIn s (· == .running)).foldl (fun s i => orderStop true 7 (floorCause s i) false i s) s
  let s2 := (slotsIn s1 fun st => st == .checking || st == .armed).foldl (fun s i => endJob 7 (floorCause s i) false i s) s1
  abandonWindows 0xFF s2

/-- Whether the bank is expected to charge, as source 2 of Table 17-1 asks. -/
def chargeExpected (s : State) : Bool :=
  s.pwr.linePresent && tier s != 0 && !(s.pwr.st == .dusk && s.pwr.target == .absent) && decide (bankMj s < 50000) &&
    decide (s.pwr.busMw + 1000 ≤ pbMw s)

/-- Source 2: less than 1 J gained over 5 s in which charging was expected, judged on values 1 ms apart (log 39). -/
def chargeJudge (s : State) : State :=
  if chargeExpected s then
    let h := match s.pwr.bankHist with
      | [] => [(s.now, bankMj s)]
      | x :: l => if cMs + x.1 ≤ s.now then (s.now, bankMj s) :: x :: l else x :: l
    let slow := match h.find? fun x => decide (5 * cS + x.1 ≤ s.now) with
      | some x => decide (bankMj s < x.2 + 1000)
      | none => false
    let s1 := modPwr (fun p => { p with bankHist := h.take 5002 }) s
    let s2 := if slow && !(scopeAt s 2 0).cond then faultU 2 (s.pwr.bankUv / 1000) s1 else s1
    setCond 2 0 slow s2
  else setCond 2 0 false (modPwr (fun p => { p with bankHist := [] }) s)

/-- A sample of the power window (R72). -/
def winSample (busMw inputMw : Nat) (s : State) : State :=
  let run := slotsIn s (· == .running)
  let x := (run.map fun i => classMw (slotAt s i).desc.cls).sum
  let nos := run.map fun i => (slotAt s i).jobNo
  modPwr (fun p => { p with win := { p.win with
    samples := p.win.samples + 1, load := p.win.load + busMw, input := p.win.input + inputMw
    decl := p.win.decl + piMw s + x, excess := p.win.excess + x
    jobs := p.win.jobs ++ nos.filter fun n => !p.win.jobs.contains n } }) s

/-- COMMIT_CJ (Table 3-19) of the jobs running now. -/
def commitNow (s : State) : Nat :=
  let run := (runningDecl s).filter fun d => d.1 != 0
  let d := (run.map (·.1)).sum - (pbMw s - piMw s)
  let h := run.foldl (fun h x => max h (x.2.getD 0)) 0
  if d = 0 then 0 else if run.any fun x => x.2.isNone then 0xFFFF else min (d * h / (10 * cS)) 0xFFFF

/-- COMMIT_CJ is updated with BANK_MJ. -/
def commitUpdate (s : State) : State := modPwr (fun p => { p with commitCj := commitNow s }) s

/-- An update of the bank's values: the floor test comes before admission (03 Corners). -/
def bankUpdate (uv busMw inputMw : Nat) (s : State) : State :=
  if fastOn s then
    let s1 := winSample busMw inputMw (modPwr (fun p => { p with bankUv := uv, busNow := busMw }) s)
    let s2 := if s.pwr.st = .day ∧ bankMj s1 ≤ 20000 ∧ bankMj s1 < bankMj s then bankFloor s1 else s1
    commitUpdate (jobDue (dawnStep9 (chargeJudge s2)))
  else if s.pwr.st = .night then modPwr (fun p => { p with bankUv := uv }) s
  else s

/-- BANK_UPDATE (R68). -/
def execBankUpdate (t : Instant) (bankUv busMw inputMw : Nat) (s : State) : Host.Outcome State Fault Refusal :=
  .next (bankUpdate bankUv busMw inputMw (advance t s))

/-- The end of a 1 ms window of 100 samples (R72): over declaration where the average load exceeds the average declaration by more than
1 W and 3 % of the average excess declared. Every job that ran at a sample of the window is marked, one that has ended too. -/
def windowEnd (s : State) : State :=
  let w := s.pwr.win
  if fastOn s ∧ 100 ≤ w.samples then
    let s1 := modPwr (fun p => { p with win := {}, busMw := w.load / w.samples, inputMw := w.input / w.samples }) s
    if 100 * (w.decl + 1000 * w.samples) + 3 * w.excess < 100 * w.load then
      let s2 := { s1 with seqr := { s1.seqr with slots := vmap s1.seqr.slots fun _ x =>
        if x.st ≠ .free ∧ x.st ≠ .queued ∧ w.jobs.contains x.jobNo then { x with overDecl := true } else x } }
      faultU 0 ((w.load - w.decl) / w.samples / 100) (bump rgPwrStop 16 16 1 s2)
    else s1
  else s

/-- POWER_WINDOW_END (R72). -/
def execPowerWindowEnd (t : Instant) (s : State) : Host.Outcome State Fault Refusal := .next (windowEnd (advance t s))

/-! ### Registers (Tables 3-14 to 3-25) -/

def pwrState (s : State) : Word :=
  let tgt := match s.pwr.st with
    | .dawn | .dusk => s.pwr.target.code
    | st => st.code
  word (2 ^ 16 * s.pwr.octActive.toNat + 2 ^ 15 * b2n s.pwr.linePresent + 2 ^ 12 * s.pwr.lastStart + 2 ^ 10 * tier s +
    2 ^ 4 * tgt + 2 ^ 3 * b2n s.pwr.shortDawn + s.pwr.st.code)

/-- Octet limit and power at J1 in 0.1 W of the tier (Table 3-1). -/
def octLimit (s : State) : Nat := match tier s with | 3 => 8 | 2 => 4 | 1 => 1 | _ => 0
def inputLimit (s : State) : Nat := match tier s with | 3 => 713 | 2 => 510 | 1 => 255 | _ => 130

def pwrClass (s : State) : Word :=
  word (2 ^ 24 * (pbMw s / 1000) + 2 ^ 20 * octLimit s + 2 ^ 8 * inputLimit s + s.pwr.classEvents)

def pwrBank (s : State) : Word := word (2 ^ 16 * min (s.pwr.bankUv / 1000) 0x3FFF + bankMj s)

def pwrDraw (s : State) : Word := word (2 ^ 16 * min (s.pwr.inputMw / 100) 0xFFF + min (s.pwr.busMw / 100) 0xFFF)

/-- COMMIT_CJ and MARGIN_DW (Table 3-19); a margin below 0 reads 0. -/
def pwrAdmit (s : State) : Word := word (2 ^ 16 * s.pwr.commitCj + (pbMw s - piMw s) / 100)

def pwrCell (s : State) : Word :=
  let charging := s.pwr.linePresent && !s.pwr.cellAbsent && decide (s.pwr.cellMv < 3100)
  word (2 ^ 16 * min (Config.estDays s.pwr.cellMv s.now) 0xFFFF + 2 ^ 15 * b2n s.pwr.cellLow + 2 ^ 14 * b2n charging +
    2 ^ 13 * b2n s.pwr.cellAbsent + s.pwr.cellMv % 2 ^ 12)

def pwrWake (s : State) : Word := word (2 ^ 12 * s.pwr.stopCause + 2 ^ 8 * s.pwr.duskCause + s.pwr.wakeSource)

end Sys2Proof.Machine
end

