-- ==== Sys2Proof/Machine/FaultCmd.lean ====
section
/-!
DEFINITION. FaultCmd.lean: the exits and clears of severe scopes, writes of fault and watchdog settings, the end of a suppressed second
of the trouble log (17 R400 to R406, R410), and the fault and log registers' readings (R416).
-/

namespace Sys2Proof.Machine

/-! ### Exits and clears (R402, R403) -/

/-- Octets that a reaction's end released: their rolling cycles start again, and jobs that were not ready are decided again
(R400, 13 R308, 09 R217). -/
def afterRelease (s : State) : State := jobDue ((List.range 8).foldl (fun s k => rollStart k s) s)

/-- The automatic exit of a severe scope whose cause has not persisted for Q (R402). -/
def quietExit (src oct : Nat) (s : State) : State :=
  let o := if srcOct src then oct else 0
  let f := scopeAt s src o
  if fastOn s ∧ f.severe ∧ !fltSoft s src ∧ !persists s src o then
    let n := min (f.exits + 1) 0xFFFFFF
    let s1 := modScope src o (fun f => { f with exits := n }) s
    afterRelease (leaveSevere src o true n (bump (rgFltCount (scopeIx src o)) 0 16 1 s1))
  else s

/-- FAULT_QUIET_EXPIRY (R402). -/
def execFaultQuietExpiry (t : Instant) (src : Fin 48) (oct : Fin 8) (s : State) : Host.Outcome State Fault Refusal :=
  .next (quietExit src.val oct.val (advance t s))

/-- A clear of one scope: refused while its cause persists, without effect on a scope that is not severe (R403). -/
def clearScope (src oct : Nat) (x : State × BusRes) : State × BusRes :=
  if !(scopeAt x.1 src oct).severe then x
  else if persists x.1 src oct then (clearRefused src oct x.1, .access)
  else (afterRelease (leaveSevere src oct false 0 x.1), x.2)

/-- A write of G_FLT_CLEAR (R403, Table 17-11). -/
def faultClear (val : Word) (s : State) : State × BusRes :=
  let src := fld val 0 6
  if 48 ≤ src then (s, .done)
  else (if !srcOct src then [0] else if bit val 15 then List.range 8 else [fld val 8 3]).foldl
    (fun x o => clearScope src o x) (s, .done)

/-- FAULT_CLEAR_WRITE (R403). -/
def execFaultClearWrite (t : Instant) (port : Port) (val : Word) (s : State) : Host.Outcome State Fault Refusal :=
  .next (portWrite port 0x720 val (faultClear val) (advance t s))

/-! ### Settings (R401, R416) -/

/-- The source G_FLT_SEL selects, and the octet of its scope (Table 17-8). -/
def selSrc (s : State) : Nat := if 48 ≤ fld s.r.fltSel 0 6 then 0 else fld s.r.fltSel 0 6
def selOct (s : State) : Nat := if srcOct (selSrc s) then fld s.r.fltSel 8 3 else 0

/-- Writable bits of G_FLT_CFG. -/
def fltCfgMask : Word := 0xFFFFFFB0

/-- A write of G_FLT_CFG: a changed reaction acts at once for the scopes that are severe (R401). -/
def faultCfg (val : Word) (s : State) : State × BusRes :=
  let i := selSrc s
  let was := fltReact s i
  let w := wmask (vget s.r.fltCfg i 0) val fltCfgMask
  let s1 := noteRange 0x710 i (subsIn 0x710 w) { s with r := { s.r with fltCfg := vmod s.r.fltCfg i fun _ => w } }
  if fltReact s1 i = was then (s1, .done)
  else
    let s2 := (scopesOf i).foldl (fun s o => if (scopeAt s i o).severe then react i o true s else s) s1
    (afterRelease s2, .done)

/-- FAULT_CFG_WRITE (R401). -/
def execFaultCfgWrite (t : Instant) (port : Port) (val : Word) (s : State) : Host.Outcome State Fault Refusal :=
  .next (portWrite port 0x710 val (faultCfg val) (advance t s))

/-! ### The firmware watchdog's count (R405) -/

/-- FWD_MS in force. -/
def fwdMs (w : Word) : Nat := if fld w 0 16 < 10 ∨ 1000 < fld w 0 16 then 100 else fld w 0 16

/-- A write of G_FWD_CFG: its fields are RWL, and the count starts again when the watchdog is enabled or FWD_MS changes. -/
def fwdCfg (val : Word) (s : State) : State × BusRes :=
  if inDay s then (s, .access)
  else
    let w := wmask s.r.fwdCfg val 0x8000FFFF
    let again := (bit w 31 && !bit s.r.fwdCfg 31) || fld w 0 16 != fld s.r.fwdCfg 0 16
    let s1 := noteRange 0x728 0 (subsIn 0x728 w) { s with r := { s.r with fwdCfg := w } }
    (if again then { s1 with fw := { s1.fw with lastService := s1.now } } else s1, .done)

/-- FWD_CFG_WRITE (R405). -/
def execFwdCfgWrite (t : Instant) (port : Port) (val : Word) (s : State) : Host.Outcome State Fault Refusal :=
  .next (portWrite port 0x728 val (fwdCfg val) (advance t s))

/-- FW_WATCHDOG_SERVICE (R405). -/
def execFwWatchdogService (t : Instant) (s : State) : Host.Outcome State Fault Refusal :=
  let s1 := advance t s
  .next (if fastOn s1 then { s1 with fw := { s1.fw with lastService := s1.now } } else s1)

/-! ### The end of a suppressed second (R410) -/

/-- The SUPPRESSED entry of a scope, at the end of 1 000 ms after its EVENT entry. -/
def suppressEnd (src oct : Nat) (s : State) : State :=
  let o := if srcOct src then oct else 0
  let f := scopeAt s src o
  match f.logAt with
  | none => s
  | some k =>
    if fastOn s ∧ cS + k ≤ s.now ∧ f.unlogged ≠ 0 then
      modScope src o (fun f => { f with unlogged := 0 }) (scopeLog src o 6 (min f.unlogged 0xFFFFFF) s)
    else s

/-- LOG_SUPPRESS_PERIOD_END (R410). -/
def execLogSuppressPeriodEnd (t : Instant) (src : Fin 48) (oct : Fin 8) (s : State) : Host.Outcome State Fault Refusal :=
  .next (suppressEnd src.val oct.val (advance t s))

/-! ### Readings (Tables 17-7, 17-10, 17-13) -/

/-- Whether a source is severe in any scope. -/
def srcSevere (s : State) (i : Nat) : Bool := (scopesOf i).any fun o => (scopeAt s i o).severe

def fltSevere (s : State) (base n : Nat) : Word := word (maskOf ((List.range n).filter fun i => srcSevere s (base + i)))

def fltOctStop (s : State) : Word := word (2 ^ 8 * b2n (dayBlock s) + stoppedMask s % 256)

/-- QUIET_LEFT: time until Q is met, in units of 100 ms rounded up; 0 while a condition holds. -/
def quietLeft (s : State) (src oct : Nat) : Nat :=
  let f := scopeAt s src oct
  if f.cond then 0
  else match f.lastEv with
    | none => 0
    | some e => min ((100 * cMs + (max e (f.condEnd.getD 0) + fltQ s src - s.now) - 1) / (100 * cMs)) 0xFFFF

def fltStat (s : State) : Word :=
  let i := selSrc s
  let o := selOct s
  word (2 ^ 31 * b2n (scopeAt s i o).severe + 2 ^ 30 * b2n (persists s i o) + 2 ^ 28 * fltReact s i +
    2 ^ 16 * min (winCount s i o) 255 + quietLeft s i o)

def logState (s : State) : Word := word (2 ^ 31 * b2n (s.nw.log.length == 2048) + s.nw.log.length)

end Sys2Proof.Machine
end

