-- ==== Sys2Proof/Machine/Detach.lean ====
section
/-!
DEFINITION. Detach.lean: what ends the transfers of the USB maintenance port (15 R361 to R366);
used by the port commands, by a write of USB_EN and by a restart of the management core.
-/

namespace Sys2Proof.Machine

def modUsb (f : Usb → Usb) (s : State) : State := { s with usb := f s.usb }

/-- A control transfer that is cut: counted in ABANDONED and logged with its request and stage (R365, Table 17-5). The cause is 1 for a
bus reset, 2 for a loss of VBUS, 3 for USB_EN 0, and 0 where the table has none. -/
def usbCut (why : Nat) (cut : Option UsbCut) (s : State) : State :=
  match cut with
  | none => s
  | some c => notice 12 (2 ^ 10 * why + 2 ^ 8 * (c.stage % 4) + c.bRequest % 256) [] (bump rgUsb 16 8 1 s)

/-- A running bulk stream ends; an export completes with it (R361, R362). -/
def usbEndBulk (s : State) : State := exportEnd .usb (modUsb (fun u => { u with bulk := none }) s)

/-- An open upload ends, and its staging buffer is left empty (R364, R365). -/
def usbEndUpload (s : State) : State := if s.usb.upOn then stageDiscard s else s

/-- Bus reset, loss of VBUS, or disconnection (R365): transfers end, address and configuration return to 0. -/
def usbDetach (why dev : Nat) (cut : Option UsbCut) (s : State) : State :=
  modUsb (fun u => { u with dev := dev, addr := 0, suspended := false, haltIn := false, haltOut := false, test := 0 })
    (usbEndUpload (usbEndBulk (usbCut why cut s)))

end Sys2Proof.Machine
end

