-- ==== Sys2Proof/Machine/Bus.lean ====
section
/-!
DEFINITION. Bus.lean: the register bus (18 R417 to R426): which addresses exist, what each register reads as, what reads clear or latch
(00 R7, R8, R10), what writes change (R9, R421, R422), and the commands REGISTER_WRITE, RC_REGISTER_READ and
LATCHED_GROUP_LOW_READ.
-/

namespace Sys2Proof.Machine

/-! ### Addresses (R417, R419, R420) -/

/-- Whether an address lies in the register space: the blocks of Table 18-1 and the arrays of Table 18-4. -/
def inSpace (a : Nat) : Bool :=
  decide (a < 0xB00) || (decide (0x1000 ≤ a) && decide (a < 0x1200)) || (decide (0x2000 ≤ a) && decide (a < 0x2800)) ||
  (decide (0x100000 ≤ a) && decide (a < 0x110000)) || (decide (0x200000 ≤ a) && decide (a < 0x220000)) ||
  (decide (0x300000 ≤ a) && decide (a < 0x304000))

/-- The judgement of one address. -/
def addrJudge (a : Nat) : BusRes := if a % 4 ≠ 0 then .align else if inSpace a then .done else .address

/-- The judgement of a range of words as a whole (R419): alignment is that of its first word. -/
def rangeJudge (a n : Nat) : BusRes :=
  if a % 4 ≠ 0 then .align else if (List.range n).all fun i => inSpace (a + 4 * i) then .done else .address

/-! ### Readings without effect -/

/-- Code of a slot state (Table 9-4). -/
def JobSt.code : JobSt → Nat
  | .free => 0
  | .queued => 1
  | .checking => 2
  | .armed => 3
  | .running => 4
  | .ending => 5
  | .ended => 6

/-- G_JOB_STAT of slot `i` (Table 9-10). -/
def jobStat (s : State) (i : Nat) : Word :=
  let x := slotAt s i
  word (2 ^ 29 * x.st.code + 2 ^ 24 * x.endCode + 2 ^ 23 * b2n x.cancelSeen + 2 ^ 22 * b2n x.readySeen + 2 ^ 21 * b2n x.late +
    2 ^ 20 * b2n x.overDecl + 2 ^ 16 * x.desc.kind + 2 ^ 12 * x.source + x.desc.octMask)

/-- G_JOB_NO of slot `i`. -/
def jobNoOf (s : State) (i : Nat) : Word := word (slotAt s i).jobNo

def bootStatus (s : State) : Word :=
  let b := s.boot
  word (2 ^ 24 * b.maintCause + 2 ^ 20 * b.statB + 2 ^ 16 * b.statA + 2 ^ 4 * b.keyUsed + 2 ^ 3 * b2n b.fallback + b.bank)

def bootCalslot (s : State) : Word :=
  let b := s.boot
  word (2 ^ 16 * (b.calSeq % 65536) + 2 ^ 7 * b2n b.store.isSome + 2 ^ 5 * b.lastStore + 2 ^ 4 * b2n b.slotBValid +
    2 ^ 3 * b2n b.slotAValid + b.calSrc)

def bootStage (s : State) : Word :=
  let b := s.boot
  word (2 ^ 29 * b.stageState + 2 ^ 25 * b.stageCode + 2 ^ 24 * b.stageTarget + b.stage.length / 4)

/-- The slot at the head of the queue while its job is queued and due. -/
def headSlot (s : State) : Option (Fin 16) :=
  match s.seqr.head with
  | some i => if (slotAt s i.val).st = .queued ∧ (slotAt s i.val).dueAt.isSome then some i else none
  | none => none

def seqState (s : State) : Word :=
  let occ := slotsIn s fun st => st != .free && st != .ended
  word (2 ^ 16 * maskOf occ + 2 ^ 8 * octBusy s + (match headSlot s with | some i => 2 ^ 4 * i.val + 2 ^ 3 | none => 0) +
    2 ^ 2 * b2n (s.seqr.admitWait && (headSlot s).isSome) + b2n (seqClosed s) * 2)

def segCheck (s : State) : Word :=
  let c := s.seg.chk
  word (2 ^ 31 * b2n s.seg.load.isSome + 2 ^ 30 * b2n c.trunc + 2 ^ 29 * b2n c.fail + 2 ^ 25 * c.code + 2 ^ 13 * c.entry + c.refused)

def segUrReg (s : State) : Word :=
  word (2 ^ 16 * urOct s + 2 ^ 8 * s.seg.urMode + 2 ^ 4 * s.seg.urCause + s.seg.urSlot)

/-- G_VEC_CACHE: a running naming plays from the cache after its first play (R203). -/
def vecCache (s : State) : Word :=
  let on' := (slotsIn s (· == .running)).any fun i => (slotAt s i).play.cacheG != 0 && (slotAt s i).play.play != 0
  word (2 ^ 31 * b2n on' + cacheUsed s)

def tsetCheckReg (s : State) : Word :=
  let c := s.seg.tchk
  word (2 ^ 31 * b2n c.fail + 2 ^ 30 * b2n c.probe + 2 ^ 29 * b2n s.seg.probe.isSome + 2 ^ 24 * c.rule + 2 ^ 20 * c.edge +
    2 ^ 16 * c.slot + 2 ^ 8 * c.pin + c.set)

def evidState (s : State) : Word :=
  let n := s.evid.count - s.evid.oldest
  word (2 ^ 8 * (100 * n / evCap) + 2 ^ 2 * b2n s.evid.suspended + b2n s.evid.full * 2 + b2n (decide (4 * n < 3 * evCap)))

def sealState (s : State) : Word :=
  let l := s.sl
  word (2 ^ 16 * l.ckptSlot + 2 ^ 12 * l.lastTrigger + 2 ^ 10 * b2n (l.part0Wait || l.forming.isSome) + 2 ^ 9 * b2n l.certMatch +
    2 ^ 8 * b2n l.keyOk + l.pool)

/-- G_SEAL_KEYID: the first four bytes of the SHA-256 of the public key, byte 0 in [31:24] (R282). -/
def sealKeyId : Word := word (beNat ((sha256 ((0x04 : Byte) :: publicKey unitKey)).take 4))

/-- Whether HIRQ is asserted (15 R355): released while HPRES is low (02 R47). -/
def spiIrq (s : State) : Bool := s.spi.running && s.encl.hpres && (s.spi.ans.isSome || s.spi.note.isSome)

def spiState (s : State) : Word :=
  let p := s.spi
  word (2 ^ 25 * min p.queue.length 127 + 2 ^ 24 * b2n p.ovf + 2 ^ 23 * b2n p.ans.isSome + 2 ^ 22 * b2n p.note.isSome +
    2 ^ 21 * b2n p.rx.isSome + 2 ^ 20 * b2n p.exp.isSome + 2 ^ 19 * b2n (p.running && s.encl.hpres) + 2 ^ 18 * b2n (spiIrq s) +
    2 ^ 17 * b2n p.running + 2 ^ 8 * p.lastOp + p.lastResult)

def usbState (s : State) : Word :=
  let u := s.usb
  word (2 ^ 28 * (if u.suspended then 5 else u.dev) + 2 ^ 27 * b2n u.high + 2 ^ 24 * (match u.bulk with | some b => b.kind | none => 0) +
    2 ^ 23 * b2n u.upOn + 2 ^ 8 * u.addr + u.last)

/-- Transmit low-power idle (16 R371): only in Evening, on a link that advertised it. -/
def ethLpi (s : State) : Bool := s.eth.link && s.eth.eee && s.pwr.st == .evening

/-- Whether an IPv6 address is link-local. -/
def linkLocal (a : BitVec 128) : Bool := a.toNat / 2 ^ 118 == 0x3FA

def ethState (s : State) : Word :=
  let e := s.eth
  let sess := (List.range 4).filter fun i => (vget s.tasp.sess i none).isSome
  let sub := (List.range 4).filter fun i => match vget s.tasp.sess i none with | some x => x.sub | none => false
  let glob := (e.ipv6.filter fun a => a.2 && !linkLocal a.1).length
  word (2 ^ 31 * b2n (s.tasp.on && e.running) + 2 ^ 30 * b2n (ethLpi s) +
    2 ^ 28 * (if e.ipv4 = 0 then 0 else if e.dhcpSt = 0 then 1 else 2) +
    2 ^ 27 * b2n (e.ipv6.any fun a => a.2 && linkLocal a.1) + 2 ^ 25 * min glob 2 + 2 ^ 24 * b2n (ptpActive s) +
    2 ^ 16 * maskOf sub + 2 ^ 12 * maskOf sess)

/-! ### Event registers -/

/-- The event register whose RC or W1C fields lie at an offset. -/
def evReg (s : State) (a : Nat) : Option Nat :=
  match a with
  | 0x024 => some rgAssureHist
  | 0x028 => some rgLatMax
  | 0x06C => some rgBoot
  | 0x128 => some rgPwrStop
  | 0x234 => some rgTime
  | 0x318 => some rgJob
  | 0x31C => some rgSring
  | 0x3B4 => some rgSeg
  | 0x3C8 => some rgTset
  | 0x428 => some rgEvid
  | 0x52C => some rgArbFault
  | 0x530 => some rgArb
  | 0x534 => some rgArbWait
  | 0x624 => some rgSeal
  | 0x71C => some (rgFltCount (scopeIx (selSrc s) (selOct s)))
  | 0x724 => some rgFlt
  | 0x734 => some rgLog
  | 0x834 => some rgRing
  | 0x838 => some rgRingErr
  | 0x908 => some rgSpi
  | 0x918 => some rgUsb
  | 0x92C => some rgEthRx
  | 0x930 => some rgEthTx
  | 0xA1C => some rgCal
  | _ =>
    if 0x1000 ≤ a ∧ a < 0x1200 then
      match a % 0x40 with
      | 0x14 => some (rgXpt ((a - 0x1000) / 0x40))
      | 0x18 => some (rgCapHw ((a - 0x1000) / 0x40))
      | 0x1C => some (rgCapLoss ((a - 0x1000) / 0x40))
      | _ => none
    else none

/-- What an event register shows a reader: events of the present cycle are for the next reader (R8). -/
def evRead (s : State) (reg : Nat) : Word := vget s.ev reg 0

/-- Registers whose event fields are W1C, not RC. -/
def w1cAt (a : Nat) : Bool := a == 0x024 || a == 0x52C

/-! ### Live values -/

def readId (s : State) (a : Nat) : Word :=
  match a with
  | 0x000 => 0x0ADA0001
  | 0x004 => 0x7A4D0040
  | 0x008 => 0x00004243
  | 0x00C => word s.boot.serial.toNat
  | 0x010 => word (s.boot.serial.toNat / 2 ^ 32)
  | 0x020 => assureCond s
  | 0x030 => enclSense s
  | 0x034 => enclTherm s
  | 0x038 => enclFan s
  | 0x03C => s.r.ledCtrl
  | 0x040 => s.r.portCfg
  | 0x050 => bootStatus s
  | 0x054 => word s.boot.seqA
  | 0x058 => word s.boot.seqB
  | 0x05C => s.r.bootLimits
  | 0x060 => bootCalslot s
  | 0x064 => bootRoutine s
  | 0x068 => bootStage s
  | _ => 0

def readPwr (s : State) (a : Nat) : Word :=
  match a with
  | 0x100 => pwrState s
  | 0x108 => pwrClass s
  | 0x10C => pwrBank s
  | 0x110 => pwrDraw s
  | 0x114 => pwrAdmit s
  | 0x118 => s.r.pwrOctEn
  | 0x11C => s.r.pwrCfg
  | 0x120 => pwrCell s
  | 0x124 => s.pwr.tokenRead
  | 0x12C => pwrWake s
  | _ => 0

def readClk (s : State) (a : Nat) : Word :=
  match a with
  | 0x200 => clkState s
  | 0x204 => s.r.clkCfg
  | 0x208 => w96 (timeCode s.tim.codes) 0
  | 0x20C => w96 (timeCode s.tim.codes) 1
  | 0x210 => w96 (timeCode s.tim.codes) 2
  | 0x214 => timeState s
  | 0x218 => timeErr s
  | 0x21C => s.r.timeSrc
  | 0x220 => s.r.ppsComp
  | 0x224 => s.r.ptpCfg
  | 0x228 => s.r.ptpAsym
  | _ => 0

/-- G_SRING_CFG_r with CFG_ERR. -/
def sringCfgReg (s : State) (r : Nat) : Word := word ((vget s.r.sringCfg r 0).toNat + 2 ^ 30 * b2n (sringErr s r))

def readSeq (s : State) (a : Nat) : Word :=
  let sel := fld s.r.jobSel 0 4
  match a with
  | 0x300 => seqState s
  | 0x304 => s.r.seqCfg
  | 0x308 => s.r.jobSel
  | 0x30C => jobStat s sel
  | 0x310 => jobNoOf s sel
  | 0x3A4 => segCheck s
  | 0x3A8 => s.r.segCtrl
  | 0x3AC => segUrReg s
  | 0x3B0 => vecCache s
  | 0x3C0 => word (setsInUse s)
  | 0x3C4 => tsetCheckReg s
  | 0x3CC => s.r.tsetProbePer
  | _ =>
    if 0x330 ≤ a ∧ a < 0x370 then
      let r := (a - 0x330) / 16
      match a % 16 with
      | 0 => sringCfgReg s r
      | 4 => word (vget s.seqr.srings r {}).wr
      | 8 => word (vget s.seqr.srings r {}).rd
      | _ => 0
    else 0

def readEvid (s : State) (a : Nat) : Word :=
  match a with
  | 0x400 => evidState s
  | 0x404 => word (evFree s)
  | 0x408 => word s.evid.count
  | 0x40C => word (s.evid.count / 2 ^ 32)
  | 0x410 => word s.evid.oldest
  | 0x414 => word (s.evid.oldest / 2 ^ 32)
  | 0x418 => word s.evid.sealedEnd
  | 0x41C => word (s.evid.sealedEnd / 2 ^ 32)
  | _ => 0

def readArb (s : State) (a : Nat) : Word :=
  match a with
  | 0x500 => s.r.arbCfg
  | 0x520 => arbState s
  | 0x524 => s.r.arbMonSel
  | 0x528 => arbMon s
  | _ => if 0x504 ≤ a ∧ a < 0x520 then vget s.r.arbWeight ((a - 0x504) / 4) 0 else 0

def readSeal (s : State) (a : Nat) : Word :=
  match a with
  | 0x600 => s.r.sealCfg
  | 0x604 => s.r.ckptCfg
  | 0x608 => sealState s
  | 0x60C => word s.sl.count
  | 0x610 => sealKeyId
  | 0x614 => word s.sl.lastK
  | 0x618 => word (s.sl.lastK / 2 ^ 32)
  | 0x61C => word s.sl.ckptCount
  | 0x620 => word (s.sl.ckptCount / 2 ^ 32)
  | _ => 0

def readFlt (s : State) (a : Nat) : Word :=
  match a with
  | 0x700 => fltSevere s 0 32
  | 0x704 => fltSevere s 32 16
  | 0x708 => fltOctStop s
  | 0x70C => s.r.fltSel
  | 0x710 => vget s.r.fltCfg (selSrc s) 0
  | 0x714 => vget s.r.fltQuiet (selSrc s) 0
  | 0x718 => fltStat s
  | 0x728 => s.r.fwdCfg
  | 0x72C => logState s
  | 0x730 => word s.nw.logNext
  | _ => 0

def readRing (s : State) (a : Nat) : Word :=
  match a with
  | 0x800 => s.r.ringCfg
  | 0x804 => s.r.ringSleep
  | 0x808 => s.r.ringAsym
  | 0x80C => ringState s
  | 0x810 => ringMembers s
  | 0x814 => word s.ring.linkA
  | 0x818 => word s.ring.linkB
  | 0x81C => ringLoop s
  | 0x820 => word (twos 64 (ringOfs s))
  | 0x824 => word (twos 64 (ringOfs s) / 2 ^ 32)
  | 0x828 => s.r.ringArg
  | 0x830 => ringAgree s
  | _ => 0

def readPorts (s : State) (a : Nat) : Word :=
  match a with
  | 0x900 => s.r.spiCfg
  | 0x904 => spiState s
  | 0x90C => s.spi.viol
  | 0x910 => s.r.usbCfg
  | 0x914 => usbState s
  | 0x920 => s.r.ethCfg
  | 0x924 => ethState s
  | 0x928 => word s.eth.ipv4.toNat
  | 0x934 => s.tasp.viol
  | _ => 0

def readCal (s : State) (a : Nat) : Word :=
  match a with
  | 0xA04 => s.r.calCfg
  | 0xA08 => calState s
  | 0xA0C => s.r.calSel
  | 0xA10 => calResult s
  | 0xA14 => calQual s
  | 0xA18 => calAge s
  | _ => 0

/-- A register of octet `k` but for its event fields. -/
def readOct (s : State) (k off : Nat) : Word :=
  let o := octAt s k
  match off with
  | 0x00 => o.loadCtrl
  | 0x04 => word (2 ^ 16 * o.strobes + 2 ^ 8 * b2n o.pending + o.lastSrc)
  | 0x08 => o.waveFtw
  | 0x0C => o.waveLvl
  | 0x10 => word (o.waveCtrl.toNat + 2 ^ 30 * b2n o.waveSat)
  | 0x14 => word (2 ^ 31 * b2n o.xptInhibit + (match o.served with | some i => 2 ^ 8 + i.val | none => 0))
  | 0x18 => word (2 ^ 15 * b2n (capAt s k).loss.isSome + capFill s k)
  | 0x20 => octCalStat s k
  | 0x24 => o.rollCfg
  | 0x28 => octRollStat s k
  | _ => 0

def readPin (s : State) (n off : Nat) : Word :=
  match off with
  | 0x00 => (pinAt s n).cfg
  | 0x04 => (pinAt s n).lvlDrv
  | 0x08 => (pinAt s n).lvlCmp
  | 0x0C => (pinAt s n).lvlTt
  | 0x10 => pinStatus s n
  | _ => 0

/-- The word at an aligned address of the register space, its event fields apart. -/
def readPlain (s : State) (a : Nat) : Word :=
  if 0x300000 ≤ a then sget waveReset (octAt s ((a - 0x300000) / 0x800)).wave ((a - 0x300000) / 4 % 512)
  else if 0x200000 ≤ a then segRead s ((a - 0x200000) / 4)
  else if 0x100000 ≤ a then rdWord s.seg.tset ((a - 0x100000) / 4)
  else if 0x2000 ≤ a then readPin s ((a - 0x2000) / 0x20) (a % 0x20)
  else if 0x1000 ≤ a then readOct s ((a - 0x1000) / 0x40) (a % 0x40)
  else match a / 256 with
    | 0 => readId s a
    | 1 => readPwr s a
    | 2 => readClk s a
    | 3 => readSeq s a
    | 4 => readEvid s a
    | 5 => readArb s a
    | 6 => readSeal s a
    | 7 => readFlt s a
    | 8 => readRing s a
    | 9 => readPorts s a
    | _ => readCal s a

/-- The value of the register at an aligned address of the register space; unused offsets read 0 (R420). -/
def regVal (s : State) (a : Nat) : Word :=
  match evReg s a with
  | some r => readPlain s a ||| evRead s r
  | none => readPlain s a

/-! ### Reads (R7, R10) -/

/-- The latched groups of R10: the value a read of an upper word returns, where its group's latch is filled. -/
def latched (s : State) (a : Nat) : Option Word :=
  match a with
  | 0x010 => s.latch.serial
  | 0x20C => s.latch.time.map (·.1)
  | 0x210 => s.latch.time.map (·.2)
  | 0x40C => s.latch.evCount
  | 0x414 => s.latch.evOldest
  | 0x41C => s.latch.evSealed
  | 0x618 => s.latch.sealLast
  | 0x620 => s.latch.sealCkpt
  | 0x824 => s.latch.ringOfs
  | _ => none

/-- A read of the lowest word of a group latches its upper words. -/
def latch (a : Nat) (s : State) : State :=
  let hi := readPlain s (a + 4)
  match a with
  | 0x00C => { s with latch := { s.latch with serial := some hi } }
  | 0x208 => { s with latch := { s.latch with time := some (hi, readPlain s (a + 8)) } }
  | 0x408 => { s with latch := { s.latch with evCount := some hi } }
  | 0x410 => { s with latch := { s.latch with evOldest := some hi } }
  | 0x418 => { s with latch := { s.latch with evSealed := some hi } }
  | 0x614 => { s with latch := { s.latch with sealLast := some hi } }
  | 0x61C => { s with latch := { s.latch with sealCkpt := some hi } }
  | 0x820 => { s with latch := { s.latch with ringOfs := some hi } }
  | _ => s

/-- What a read leaves in the RC fields of a register: 0, but HIGH_WATER is the highest occupancy since the read, which is no less than
the occupancy at it (10 R259). -/
def readLeaves (s : State) (r : Nat) : Word :=
  if 31 ≤ r ∧ r < 39 then word (2 ^ 16 * capFill s (r - 31)) else 0

/-- A read clears the RC fields of its register, and keeps the events of the same cycle (R7, R8). -/
def readClear (a : Nat) (s : State) : State :=
  match evReg s a with
  | some r => if w1cAt a then s else { s with ev := vmod s.ev r fun _ => readLeaves s r }
  | none => s

/-- A read of an aligned address of the register space: the word, and what the read does. The arbiter's registers tell of the present
cycle (11 R272). -/
def busRead (a : Nat) (s0 : State) : State × Word :=
  let s := if 0x500 ≤ a ∧ a < 0x600 then arbReady (assureLapse s0) else assureLapse s0
  (readClear a (latch a s), (latched s a).getD (regVal s a))

/-! ### Writes (R7, R9, R421) -/

/-- A write of an RWL register: refused with ACCESS in Day (R9). -/
def rwl (s : State) (f : State → State) : State × BusRes := if inDay s then (s, .access) else (f s, .done)

/-- The register block after a write, with the watched fields of the register at an offset judged (17 R429). -/
def setReg (off : Nat) (w : Word) (f : Regs → Regs) (s : State) : State := noteRange off 0 (subsIn off w) { s with r := f s.r }

/-- A write of G_PORT_CFG: USB_EN becoming 0 disconnects J8 (15 R365), becoming 1 lets it connect (R367) and, with VBUS present, turns
a Dusk towards Night to Evening (03 R65); PPSO_EN 0 ends a pulse at J4 (02 R42). -/
def portCfgWrite (v : Word) (s : State) : State :=
  let s0 := { s with r := { s.r with portCfg := v &&& 0x3F } }
  let s1 := { s0 with
    encl := { s0.encl with ppsOutHigh := s0.encl.ppsOutHigh && ppsoEn s0 }
    pwr := if s0.pwr.st = .dusk then { s0.pwr with target := nightOrEvening s0 s0.pwr.target } else s0.pwr }
  if usbEn s ∧ !usbEn s1 then (if s1.usb.dev = 0 then s1 else usbDetach 3 0 none s1) else usbConnect s1

def writeId (a : Nat) (v : Word) (s : State) : State × BusRes :=
  match a with
  | 0x024 => ({ s with ev := vmod s.ev rgAssureHist fun w => w &&& ~~~v }, .done)
  | 0x03C => ({ s with r := { s.r with ledCtrl := v &&& 3 } }, .done)
  | 0x040 => rwl s (portCfgWrite v)
  | 0x05C => rwl s (setReg 0x05C (v &&& 0xFFFF0007) fun r => { r with bootLimits := v &&& 0xFFFF0007 })
  | 0x064 => (bootRoutineWrite v s, .done)
  | _ => (s, .done)

def writePwr (a : Nat) (v : Word) (s : State) : State × BusRes :=
  match a with
  | 0x104 => pwrReqWrite v s
  | 0x118 => rwl s fun s => { s with r := { s.r with pwrOctEn := v &&& 0xFF } }
  | 0x11C => rwl s (setReg 0x11C (v &&& 0x3FFFF) fun r => { r with pwrCfg := v &&& 0x3FFFF })
  | _ => (s, .done)

/-- A write of G_TIME_PTP_CFG: an instance that is disabled or moved to another domain or transport holds no master (log 31). -/
def ptpCfgWrite (v : Word) (s : State) : State :=
  let w := v &&& 0x7FF00F00
  let keep := bit w 11 && fld w 24 7 == fld s.r.ptpCfg 24 7 && fld w 8 3 == fld s.r.ptpCfg 8 3
  let s1 := setReg 0x224 w (fun r => { r with ptpCfg := w }) s
  reviewDiscipline (if keep then s1 else { s1 with ptp := { reqSeq := s1.ptp.reqSeq } })

def writeClk (a : Nat) (v : Word) (s : State) : State × BusRes :=
  match a with
  | 0x204 => rwl s (setReg 0x204 (v &&& 0x70) fun r => { r with clkCfg := v &&& 0x70 })
  | 0x21C => rwl s fun s => reviewDiscipline (setReg 0x21C (v &&& 0xFFFFFF0F) (fun r => { r with timeSrc := v &&& 0xFFFFFF0F }) s)
  | 0x220 => rwl s fun s => { s with r := { s.r with ppsComp := v &&& 0xFFFFFF } }
  | 0x224 => rwl s (ptpCfgWrite v)
  | 0x228 => rwl s fun s => { s with r := { s.r with ptpAsym := v } }
  | 0x22C => timeSetWrite v s
  | 0x230 => ({ s with r := { s.r with timeSetHi := v &&& 0xFFFF } }, .done)
  | _ => (s, .done)

def writeSeq (a : Nat) (v : Word) (s : State) : State × BusRes :=
  match a with
  | 0x304 => (setReg 0x304 (v &&& 0xFFFF) (fun r => { r with seqCfg := v &&& 0xFFFF }) s, .done)
  | 0x308 => ({ s with r := { s.r with jobSel := v &&& 0xF } }, .done)
  | 0x314 => (cancelMask (fld v 0 16) s, .done)
  | 0x320 => sringResetWrite v s
  | 0x330 => rwl s fun s => { s with r := { s.r with sringCfg := vmod s.r.sringCfg 0 fun _ => v &&& 0x0FFF0FFF } }
  | 0x340 => rwl s fun s => { s with r := { s.r with sringCfg := vmod s.r.sringCfg 1 fun _ => v &&& 0x0FFF0FFF } }
  | 0x350 => rwl s fun s => { s with r := { s.r with sringCfg := vmod s.r.sringCfg 2 fun _ => v &&& 0x0FFF0FFF } }
  | 0x360 => rwl s fun s => { s with r := { s.r with sringCfg := vmod s.r.sringCfg 3 fun _ => v &&& 0x0FFF0FFF } }
  | 0x3A0 => segLoadWrite v s
  | 0x3A8 => segCtrlWrite v s
  | 0x3CC => (setReg 0x3CC v (fun r => { r with tsetProbePer := v }) s, .done)
  | 0x3D0 => probeWrite v s
  | _ => (s, .done)

def writeEvid (a : Nat) (v : Word) (s : State) : State × BusRes :=
  match a with
  | 0x420 => evidReleaseWrite v s
  | 0x424 => ({ s with r := { s.r with evidRelHi := v } }, .done)
  | _ => (s, .done)

def writeArb (a : Nat) (v : Word) (s0 : State) : State × BusRes :=
  let s := arbReady s0
  match a with
  | 0x500 => rwl s (setReg 0x500 (v &&& 0x90FFFFFF) fun r => { r with arbCfg := v &&& 0x90FFFFFF })
  | 0x524 => (setReg 0x524 (v &&& 0xF) (fun r => { r with arbMonSel := v &&& 0xF }) s, .done)
  | 0x52C => ({ s with ev := vmod s.ev rgArbFault fun w => w &&& ~~~v }, .done)
  | _ =>
    if 0x504 ≤ a ∧ a < 0x520 then
      -- A window that starts in this cycle still refills with the old weight (11 Corners).
      ({ s with r := { s.r with arbWeight := vmod s.r.arbWeight ((a - 0x504) / 4) fun _ => v &&& 0x0FFF0FFF } }, .done)
    else (s, .done)

def writeSeal (a : Nat) (v : Word) (s : State) : State × BusRes :=
  match a with
  | 0x600 => rwl s (setReg 0x600 (v &&& 0x03FFFFFF) fun r => { r with sealCfg := v &&& 0x03FFFFFF })
  | 0x604 => rwl s (setReg 0x604 (v &&& 0xFFFF) fun r => { r with ckptCfg := v &&& 0xFFFF })
  | _ => (s, .done)

/-- A write of G_FLT_QUIET, for the source selected. -/
def fltQuietWrite (v : Word) (s : State) : State :=
  let i := selSrc s
  noteRange 0x714 i (subsIn 0x714 (v &&& 0xFFFF)) { s with r := { s.r with fltQuiet := vmod s.r.fltQuiet i fun _ => v &&& 0xFFFF } }

def writeFlt (a : Nat) (v : Word) (s : State) : State × BusRes :=
  match a with
  | 0x70C => (setReg 0x70C (v &&& 0x73F) (fun r => { r with fltSel := v &&& 0x73F }) s, .done)
  | 0x710 => faultCfg v s
  | 0x714 => (fltQuietWrite v s, .done)
  | 0x720 => faultClear v s
  | 0x728 => fwdCfg v s
  | _ => (s, .done)

/-- A write of G_RING_CFG: a unit that leaves its place in the ring has no master (14 R317). -/
def ringCfgWrite (v : Word) (s : State) : State :=
  let w := v &&& 0x001F1F0E
  let keep := fld w 8 5 == fld s.r.ringCfg 8 5 && fld w 16 5 == fld s.r.ringCfg 16 5
  ringWatch s (let s1 := if keep then s else masterSet none s
    { s1 with r := { s1.r with ringCfg := w } })

def writeRing (a : Nat) (v : Word) (s : State) : State × BusRes :=
  match a with
  | 0x800 => rwl s (ringCfgWrite v)
  | 0x804 => rwl s (setReg 0x804 v fun r => { r with ringSleep := v })
  | 0x808 => rwl s fun s => { s with r := { s.r with ringAsym := v &&& 0xFFFF } }
  | 0x828 => ({ s with r := { s.r with ringArg := v } }, .done)
  | 0x82C => ringCmdWrite v s
  | _ => (s, .done)

/-- A write of G_SPI_CFG: with NOTIFY_EN 0 the notification queue is emptied without counting (15 R354). -/
def spiCfgWrite (v : Word) (s : State) : State :=
  { s with r := { s.r with spiCfg := v &&& 0x13 }, spi := { s.spi with queue := if bit v 4 then s.spi.queue else [] } }

def writePorts (a : Nat) (v : Word) (s : State) : State × BusRes :=
  match a with
  | 0x900 => rwl s (spiCfgWrite v)
  | 0x910 => rwl s fun s => { s with r := { s.r with usbCfg := v &&& 3 } }
  | 0x920 => rwl s (setReg 0x920 (v &&& 0xFFFFFF87) fun r => { r with ethCfg := v &&& 0xFFFFFF87 })
  | _ => (s, .done)

def writeCal (a : Nat) (v : Word) (s : State) : State × BusRes :=
  match a with
  | 0xA00 => calReqWrite v s
  | 0xA04 => (setReg 0xA04 (v &&& 0xE0FFFFFF) (fun r => { r with calCfg := v &&& 0xE0FFFFFF }) s, .done)
  | 0xA0C => (setReg 0xA0C (v &&& 0x7F) (fun r => { r with calSel := v &&& 0x7F }) s, .done)
  | _ => (s, .done)

/-- A rolling cycle that may no longer run stands still unless its spare lane serves a pin; one that may run starts (13 R308). -/
def rollReview (k : Nat) (s : State) : State :=
  if rollOn s k then rollStart k s
  else if (octAt s k).served.isNone then modOct k (fun o => { o with roll := { o.roll with phase := 0 } }) s
  else s

def writeOct (k off : Nat) (v : Word) (s : State) : State × BusRes :=
  match off with
  | 0x00 => loadCtrlWrite k v s
  | 0x08 => (noteRange (0x1008 + 0x40 * k) 0 (subsOct 8 v) (waveRegWrite k 0 v s), .done)
  | 0x0C => (waveRegWrite k 1 v s, .done)
  | 0x10 => (waveRegWrite k 2 v s, .done)
  | 0x14 => (rollReview k (modOct k (fun o => { o with xptInhibit := bit v 31 }) s), .done)
  | 0x24 => (rollReview k (modOct k (fun o => { o with rollCfg := v &&& 0x8000FFFF }) s), .done)
  | _ => (s, .done)

def writePin (n off : Nat) (v : Word) (s : State) : State × BusRes :=
  match off with
  | 0x00 => (noteRange (0x2000 + 0x20 * n) 0 (subsPin 0 (v &&& pinCfgMask)) (pinRegWrite n 0 v s), .done)
  | 0x04 => (pinRegWrite n 1 v s, .done)
  | 0x08 => (pinRegWrite n 2 v s, .done)
  | 0x0C => (pinRegWrite n 3 v s, .done)
  | 0x10 => pinStatusWrite n v s
  | _ => (s, .done)

/-- A write of an aligned address of the register space. -/
def regWrite (a : Nat) (v : Word) (s : State) : State × BusRes :=
  if 0x300000 ≤ a then waveTabWrite ((a - 0x300000) / 4) v s
  else if 0x200000 ≤ a then segWrite ((a - 0x200000) / 4) v s
  else if 0x100000 ≤ a then tsetWrite ((a - 0x100000) / 4) v s
  else if 0x2000 ≤ a then writePin ((a - 0x2000) / 0x20) (a % 0x20) v s
  else if 0x1000 ≤ a then writeOct ((a - 0x1000) / 0x40) (a % 0x40) v s
  else match a / 256 with
    | 0 => writeId a v s
    | 1 => writePwr a v s
    | 2 => writeClk a v s
    | 3 => writeSeq a v s
    | 4 => writeEvid a v s
    | 5 => writeArb a v s
    | 6 => writeSeal a v s
    | 7 => writeFlt a v s
    | 8 => writeRing a v s
    | 9 => writePorts a v s
    | _ => writeCal a v s

/-- A write as the bus carries it out: the conditions of the guarantees are looked at before it (01 R26), and one whose address is
refused changes nothing (R419). -/
def busWrite (a : Nat) (v : Word) (s : State) : State × BusRes :=
  match addrJudge a with
  | .done => regWrite a v (assureLapse s)
  | r => (s, r)

/-! ### Several words (R352, R419, R423) -/

/-- The words of a REG_READ in ascending address. -/
def readWords : Nat → Nat → State → State × List Word
  | 0, _, s => (s, [])
  | n + 1, a, s =>
    let x := busRead a s
    let r := readWords n (a + 4) x.1
    (r.1, x.2 :: r.2)

/-- The values of a REG_WRITE in ascending address, stopping at the first refused: the number written, and the answer. -/
def writeWords : List Word → Nat → Nat → State → State × Nat × BusRes
  | [], _, n, s => (s, n, .done)
  | v :: vs, a, n, s =>
    let x := regWrite a v (assureLapse s)
    match x.2 with
    | .done => writeWords vs (a + 4) (n + 1) x.1
    | r => (x.1, n, r)

/-! ### Commands -/

/-- A read that a port or the management core makes; one whose address is refused clears and latches nothing (R419). -/
def portRead (port : Port) (a : Nat) (s : State) : State :=
  if portUp s port then
    match addrJudge a with
    | .done => answer port a false (busRead a s).2 .done (busRead a s).1
    | r => answer port a false 0 r s
  else s

/-- REGISTER_WRITE (R421). -/
def execRegisterWrite (t : Instant) (port : Port) (addr : Nat) (val : Word) (s : State) : Host.Outcome State Fault Refusal :=
  .next (portWrite port addr val (busWrite addr val) (advance t s))

/-- RC_REGISTER_READ (R7). -/
def execRcRegisterRead (t : Instant) (port : Port) (x : RegRead) (s : State) : Host.Outcome State Fault Refusal :=
  .next (portRead port x.addr (inputsNow x.ins (advance t s)))

/-- LATCHED_GROUP_LOW_READ (R10). -/
def execLatchedGroupLowRead (t : Instant) (port : Port) (addr : Nat) (s : State) : Host.Outcome State Fault Refusal :=
  .next (portRead port addr (advance t s))

end Sys2Proof.Machine
end

