-- ==== Sys2Proof/Machine/Image.lean ====
section
/-!
DEFINITION. Image.lean: the Isazezo image (05 R122 to R131, R136, R138, R140): its header, its records, the checks in their order
with the status codes of Table 5-8, and what its records hold.
-/

namespace Sys2Proof.Machine

/-- The unsigned little-endian integer of `n` bytes at an offset (R122). -/
def leAt (b : List Byte) (off n : Nat) : Nat := leNat ((b.drop off).take n)

/-- The unsigned big-endian integer of `n` bytes at an offset. -/
def beAt (b : List Byte) (off n : Nat) : Nat := beNat ((b.drop off).take n)

/-! ### The header (R123, R130) -/

/-- The status a header gives: 2 refused, 3 issue mismatch, 0 valid. -/
def headerStatus (h : List Byte) : Nat :=
  if leAt h 0 4 ≠ 0x4F5A5349 ∨ leAt h 0x3C 4 ≠ crc32c (h.take 0x3C) ∨ leAt h 4 2 ≠ 1 ∨ leAt h 6 2 ≠ 64 ∨
      0x100000 < leAt h 0x0C 4 ∨ leAt h 8 4 = 0 then 2
  else if (leAt h 0x14 1 ≠ 0x43 ∧ leAt h 0x14 1 ≠ 0) ∨ (leAt h 0x15 1 ≠ 0x42 ∧ leAt h 0x15 1 ≠ 0) then 3
  else 0

/-! ### Records (R124, R125) -/

/-- A record: TYPE, FLAGS, payload, its offset, and whether its CRC matches. -/
structure ImgRec where
  type : Nat
  flags : Nat
  body : List Byte
  off : Nat
  crcOk : Bool
  deriving DecidableEq, Repr

/-- The records that tile the bytes from an offset, and whether they tile them without gap to the end. -/
def imgRecs : Nat → Nat → List Byte → List ImgRec × Bool
  | 0, _, l => ([], l.isEmpty)
  | n + 1, off, l =>
    let len := leAt l 4 4
    if l.isEmpty then ([], true)
    else if l.length < 12 + len ∨ len % 4 ≠ 0 then ([], false)
    else
      let r : ImgRec := ⟨leAt l 0 2, leAt l 2 2, (l.drop 8).take len, off, leAt l (8 + len) 4 == crc32c (l.take (8 + len))⟩
      let x := imgRecs n (off + 12 + len) (l.drop (12 + len))
      (r :: x.1, x.2)

/-- Records of an image as read, from offset 0x40 to IMAGE_LEN. -/
def imageRecs (img : List Byte) : List ImgRec × Bool :=
  imgRecs (img.length / 12 + 1) 0x40 (img.drop 0x40)

/-- The record check with re-reads (R136): `fails` gives how often a record fails on read before it is read well. Re-reads made, and
whether every record passes within MRAM_RETRY re-reads. -/
def crcPass (retry : Nat) (fails : List (Nat × Nat)) : Nat → List ImgRec → Nat × Bool
  | _, [] => (0, true)
  | i, r :: l =>
    let f := if r.crcOk then ((fails.find? fun x => x.1 == i).map (·.2)).getD 0 else retry + 1
    if retry < f then (retry, false)
    else
      let x := crcPass retry fails (i + 1) l
      (f + x.1, x.2)

/-- Record types of Table 5-6. -/
def knownType (t : Nat) : Bool := [0x01, 0x10, 0x11, 0x12, 0x20, 0x21, 0x30, 0x40, 0xF0].contains t

/-- Whether a payload has the fixed size or the least size of its type (Table 5-6). -/
def bodyShape (r : ImgRec) : Bool :=
  let n := r.body.length
  match r.type with
  | 0x01 => n == 48
  | 0x10 => n % 8 == 0
  | 0x11 => decide (4 ≤ n)
  | 0x12 => decide (8 ≤ n)
  | 0x20 => decide (4 ≤ n)
  | 0x21 => decide (4 ≤ n)
  | 0x30 => n == 96
  | 0x40 => n == 68
  | 0xF0 => n == 104
  | _ => true

def countType (t : Nat) (rs : List ImgRec) : Nat := (rs.filter fun r => r.type == t).length

/-- The SIG record. -/
def sigRec (rs : List ImgRec) : ImgRec := rs.getLast?.getD ⟨0, 0, [], 0, false⟩

/-- Check 2 of R131: record count, order and counts, unknown mandatory types, payload sizes, and KEY_ID agreement. -/
def structureOk (img : List Byte) (rs : List ImgRec) : Bool :=
  rs.length == leAt img 0x10 4 && (rs.headD ⟨0, 0, [], 0, false⟩).type == 0x01 && (sigRec rs).type == 0xF0 &&
  countType 0x01 rs == 1 && countType 0xF0 rs == 1 &&
  [0x20, 0x21, 0x30, 0x40].all (fun t => decide (countType t rs ≤ 1)) &&
  rs.all (fun r => decide (r.flags < 2) && (knownType r.type || r.flags == 1) && bodyShape r) &&
  leAt (sigRec rs).body 0 4 == leAt img 0x18 4

/-! ### Content (R126, R140) -/

/-- Writable bits of a G_ register that a REGS record may name: its RW and RWL fields (18 R427). -/
def imgMaskG : Nat → Option Word
  | 0x03C => some 3
  | 0x040 => some 0x3F
  | 0x05C => some 0xFFFF0007
  | 0x064 => some 0x80000000
  | 0x118 => some 0xFF
  | 0x11C => some 0x3FFFF
  | 0x204 => some 0x70
  | 0x21C => some 0xFFFFFF0F
  | 0x220 => some 0xFFFFFF
  | 0x224 => some 0x7FF00F00
  | 0x228 => some 0xFFFFFFFF
  | 0x304 => some 0xFFFF
  | 0x308 => some 0xF
  | 0x330 => some 0x0FFF0FFF
  | 0x340 => some 0x0FFF0FFF
  | 0x350 => some 0x0FFF0FFF
  | 0x360 => some 0x0FFF0FFF
  | 0x3A8 => some 0x100
  | 0x3CC => some 0xFFFFFFFF
  | 0x500 => some 0x90FFFFFF
  | 0x504 => some 0x0FFF0FFF
  | 0x508 => some 0x0FFF0FFF
  | 0x50C => some 0x0FFF0FFF
  | 0x510 => some 0x0FFF0FFF
  | 0x514 => some 0x0FFF0FFF
  | 0x518 => some 0x0FFF0FFF
  | 0x51C => some 0x0FFF0FFF
  | 0x524 => some 0xF
  | 0x600 => some 0x03FFFFFF
  | 0x604 => some 0xFFFF
  | 0x70C => some 0x73F
  | 0x710 => some 0xFFFFFFB0
  | 0x714 => some 0xFFFF
  | 0x728 => some 0x8000FFFF
  | 0x800 => some 0x001F1F0E
  | 0x804 => some 0xFFFFFFFF
  | 0x808 => some 0xFFFF
  | 0x828 => some 0xFFFFFFFF
  | 0x900 => some 0x13
  | 0x910 => some 3
  | 0x920 => some 0xFFFFFF87
  | 0xA04 => some 0xE0FFFFFF
  | 0xA0C => some 0x7F
  | _ => none

/-- The same for the register of an octet. -/
def imgMaskOct : Nat → Option Word
  | 0x00 => some 0x03FFFFFF
  | 0x08 => some 0xFFFFFFFF
  | 0x0C => some 0xFFFFFFFF
  | 0x10 => some 0x800003FF
  | 0x14 => some 0x80000000
  | 0x24 => some 0x8000FFFF
  | _ => none

/-- The same for the register of a pin. -/
def imgMaskPin : Nat → Option Word
  | 0x00 => some pinCfgMask
  | 0x04 => some 0xFFFFFFFF
  | 0x08 => some 0xFFFFFFFF
  | 0x0C => some 0xFFFF
  | _ => none

def imgMask (a : Nat) : Option Word :=
  if 0x2000 ≤ a ∧ a < 0x2800 then imgMaskPin ((a - 0x2000) % 0x20)
  else if 0x1000 ≤ a ∧ a < 0x1200 then imgMaskOct ((a - 0x1000) % 0x40)
  else imgMaskG a

/-- The words of a byte string, little-endian. -/
def imgWords (b : List Byte) : List Nat := (List.range (b.length / 4)).map fun i => leAt b (4 * i) 4

/-- The pairs of OFFSET and VALUE of a REGS record. -/
def regsPairs (b : List Byte) : List (Nat × Nat) := (List.range (b.length / 8)).map fun i => (leAt b (8 * i) 4, leAt b (8 * i + 4) 4)

def regsOk (b : List Byte) : Bool :=
  (regsPairs b).all fun x => match imgMask x.1 with
    | some m => word x.2 &&& ~~~m == 0
    | none => false

/-- The arrays a record may write, as first and past-last address (Table 18-4). -/
def arrayExtents : List (Nat × Nat) := [(0x100000, 0x110000), (0x200000, 0x220000), (0x300000, 0x304000)]

def arrayOk (b : List Byte) : Bool :=
  let base := leAt b 0 4
  base % 4 == 0 && arrayExtents.any fun x => decide (x.1 ≤ base) && decide (base + b.length - 4 ≤ x.2)

/-- The segment table as the ARRAY records of an image leave it, over a table of zeros, and the entries they write. -/
def imageSegs (rs : List ImgRec) : List (Nat × Nat) :=
  (rs.filter fun r => r.type == 0x11).flatMap fun r =>
    let base := leAt r.body 0 4
    if 0x200000 ≤ base ∧ base < 0x220000 then
      (imgWords (r.body.drop 4)).zipIdx.filterMap fun x =>
        let ix := (base - 0x200000) / 4 + x.2
        if ix % 8 = 7 then none else some (ix, x.1)
    else []

/-- Entries the image writes. -/
def imageEntries (rs : List ImgRec) : List Nat := ((imageSegs rs).map fun x => x.1 / 8).eraseDups

/-- Every entry the image writes passes the load checks (08 R197). -/
def segsOk (rs : List ImgRec) : Bool :=
  let m := (imageSegs rs).foldl (fun m x => wrWord m x.1 (word x.2)) []
  let s : State := { seg := { mem := m } }
  (imageEntries rs).all fun e => loadCheck s e == 0

def vstoreOk (b : List Byte) : Bool :=
  let n := b.length - 8
  leAt b 0 8 % 24 == 0 && n % 24 == 0 && decide (leAt b 0 8 + n ≤ vstoreSize)

/-- The descriptors of a JOBTPL record: each of DESC_LEN bytes. -/
def tplSplit : Nat → List Byte → List (List Byte)
  | 0, _ => []
  | n + 1, b => b.take (leAt b 0 2) :: tplSplit n (b.drop (leAt b 0 2))

def tplList (b : List Byte) : List (List Byte) := tplSplit (leAt b 0 4) (b.drop 4)

/-- The words a REGS or ARRAY record carries, as register writes (R132). -/
def applyWords (r : ImgRec) (s : State) : State :=
  match r.type with
  | 0x10 => (regsPairs r.body).foldl (fun s x => (regWrite x.1 (word x.2) s).1) s
  | 0x11 => (imgWords (r.body.drop 4)).zipIdx.foldl (fun s x => (regWrite (leAt r.body 0 4 + 4 * x.2) (word x.1) s).1) s
  | _ => s

/-- The unit as the REGS and ARRAY records of an image set it up from reset values, the entries written loaded: what the template checks
see. -/
def imageState (rs : List ImgRec) : State :=
  (imageEntries rs).foldl (fun s e => setStat e (1, 0) s) (rs.foldl (fun s r => applyWords r s) { pwr := { st := .dawn } })

/-- A template meets Table 9-1, carries kind 0, and passes the submission checks (Table 9-3) over what the image sets up: power class,
stream rings, loaded entries and edge order. Octets, lock and slots are the unit's, not the image's (log 51). -/
def tplOk (rs : List ImgRec) (b : List Byte) : Bool :=
  let s := imageState rs
  decide (1 ≤ leAt b 0 4) && decide (leAt b 0 4 ≤ 32) && ((tplList b).map List.length).sum + 4 == b.length &&
  (tplList b).all fun d =>
    let r : RawDesc := ⟨false, d⟩
    let j := r.job
    !r.badFormat && r.fd 6 1 == 0 && decide (r.fd 5 1 < 13) && (bitsOf 4 (jobRings s j)).all (fun k => sringOn s k) &&
    j.list.all (fun e => (segStat s e).1 == 1) && (jobEdgeCheck s j).isNone

/-- Routine entries of a ROUTINE record (Table 5-7), each 32 bytes. -/
def rtRaw (b : List Byte) : List (List Byte) := (List.range (leAt b 0 4)).map fun i => (b.drop (4 + 32 * i)).take 32

def rtParse (e : List Byte) : RtEntry :=
  { first := timeOfCode (leAt e 0 12), periodS := leAt e 12 4, times := leAt e 16 4, action := leAt e 20 1, arg := leAt e 21 1
    after := leAt e 22 1, arg2 := leAt e 24 4 }

/-- R140 of an entry, for a number of templates. -/
def rtEntryOk (tpls : Nat) (e : List Byte) : Bool :=
  let x := rtParse e
  decide (leAt e 0 12 / 2 ^ 18 % 2 ^ 30 ≤ 999999999) && leAt e 0 12 % 1024 == 0 &&
  (x.action != 1 || decide (x.arg < tpls)) && (x.action != 3 || x.arg != 0) && (x.action != 4 || decide (1 ≤ x.arg2)) &&
  (x.action == 1 || x.after == 0) && (x.periodS != 0 || decide (x.times ≤ 1))

def routineOk (tpls : Nat) (b : List Byte) : Bool :=
  decide (1 ≤ leAt b 0 4) && decide (leAt b 0 4 ≤ 255) && b.length == 4 + 32 * leAt b 0 4 && (rtRaw b).all (rtEntryOk tpls)

def keyenrolOk (b : List Byte) : Bool :=
  (onCurve (b.take 64) || (b.take 64).all (· == 0)) && decide (leAt b 64 4 ≤ 1)

/-- Number of templates an image carries. -/
def imageTpls (rs : List ImgRec) : Nat := ((rs.find? fun r => r.type == 0x20).map fun r => leAt r.body 0 4).getD 0

/-- Check 6 of R131. -/
def contentOk (rs : List ImgRec) : Bool :=
  segsOk rs && rs.all fun r => match r.type with
    | 0x10 => regsOk r.body
    | 0x11 => arrayOk r.body
    | 0x12 => vstoreOk r.body
    | 0x20 => tplOk rs r.body
    | 0x21 => routineOk (imageTpls rs) r.body
    | 0x40 => keyenrolOk r.body
    | _ => true

/-! ### Keys (R128, R129) -/

/-- The enrolment area: KEY_X, KEY_Y and ACCEPT_OADALU as a KEYENROL record carries them. -/
def enrolAddr : Nat := 0x2CC000
def enrolment (m : List Host.Cell) : List Byte := rdBytes m enrolAddr 68
def enrolled (m : List Host.Cell) : Bool := (enrolment m).take 64 != List.replicate 64 0

/-- The key a KEY_ID names, where there is one. -/
def imageKey (m : List Host.Cell) (keyId : Nat) : Option (List Byte) :=
  if keyId = 0 then some Config.oadaluKey
  else if keyId = 1 ∧ enrolled m then some ((enrolment m).take 64)
  else none

def keyAccepted (m : List Host.Cell) (keyId : Nat) : Bool :=
  if keyId = 0 then !enrolled m || leAt (enrolment m) 64 4 == 1 else keyId == 1 && enrolled m

/-! ### Verification (R131) -/

/-- Checks 2 to 6 on an image whose records have passed their CRC: 1, or the status of the first failure. A signature whose KEY_ID names
no key the unit holds fails at key acceptance. -/
def verifyRest (m : List Host.Cell) (img : List Byte) : Nat :=
  let x := imageRecs img
  let sig := sigRec x.1
  let signed := img.take sig.off
  let keyId := leAt img 0x18 4
  if !x.2 ∨ !structureOk img x.1 then 5
  else if (sig.body.drop 8).take 32 ≠ sha256 signed then 6
  else
    let sigOk := match imageKey m keyId with
      | some k => sigValid k (beNat (sha256 signed)) ((sig.body.drop 40).take 32) ((sig.body.drop 72).take 32)
      | none => true
    if !sigOk then 7
    else if !keyAccepted m keyId then 8
    else if !contentOk x.1 then 9
    else 1

/-- The status of an image as a bank read finds it, with the re-reads made (R131, R136). -/
def verifyImage (m : List Host.Cell) (retry : Nat) (fails : List (Nat × Nat)) (img : List Byte) : Nat × Nat :=
  let p := crcPass retry fails 0 (imageRecs img).1
  (if p.2 then verifyRest m img else 4, p.1)

end Sys2Proof.Machine
end

