-- ==== Sys2Proof/Machine/Boot.lean ====
section
/-!
DEFINITION. Boot.lean: the full Dawn (05 R114, R130 to R144; 03 R58, R76 to R78; 04 R84, R107; 12 R283, R287 to R289; 17 R396, R413;
18 R424) and the commands FULL_DAWN_BEGIN, IMAGE_BANK_READ_DONE and IMG_TIMEOUT_EXPIRY.
-/

namespace Sys2Proof.Machine

/-! ### The continuity token (03 R76, R77) -/

def tokenCrc (n : Nat) : Nat := crc16 (beBytes 2 n)
def tokenIntact (w : Word) : Bool := fld w 16 16 != 0 && fld w 0 16 == tokenCrc (fld w 16 16)
def tokenOf (n : Nat) : Word := word (2 ^ 16 * n + tokenCrc n)
/-- COUNT of the token a warm start writes: 0xFFFF wraps to 1. -/
def tokenNext (w : Word) : Nat := if fld w 16 16 = 0xFFFF then 1 else fld w 16 16 + 1

/-- What a full Dawn follows (Table 12-6): Night, line absent with a warm or a cold start, or an abandoned short Dawn. -/
inductive DawnKind where
  | night | warm | cold | restart
  deriving DecidableEq, Repr

def dawnKind (s : State) : DawnKind :=
  match s.pwr.st with
  | .absent => if tokenIntact s.nw.token then .warm else .cold
  | .night => .night
  | _ => .restart

/-- Whether a full Dawn is due (R52, R60, R90). -/
def dawnDue (s : State) : Bool :=
  !s.nw.tripHeld && (match s.pwr.st with
    | .absent => s.pwr.lineDawn
    | .night => s.pwr.pend.isSome
    | .dawn => s.pwr.abandoned
    | _ => false)

/-- Code of the notice START. -/
def DawnKind.code : DawnKind → Nat
  | .warm => 1
  | .cold => 2
  | _ => 0

def DawnKind.fromAbsent (k : DawnKind) : Bool := k == .warm || k == .cold

/-- Step 1 after line absent: the token is read and written, and a cold start clears what Nightwatch kept (R77, R78). -/
def tokenStep (k : DawnKind) (s : State) : State :=
  match k with
  | .warm => { s with nw := { s.nw with token := tokenOf (tokenNext s.nw.token) }
                      pwr := { s.pwr with tokenRead := s.nw.token, lastStart := 1 } }
  | .cold => { s with nw := { s.nw with token := tokenOf 1, codes := 0, aligned := false, alignSec := 0, alarm := none
                                        alarmRdv := none, log := [], logNext := 0 }
                      pwr := { s.pwr with tokenRead := s.nw.token, lastStart := 2 } }
  | _ => s

/-- The wake source of a Dawn: 0 for line power applied (Table 3-25), that of the request otherwise. -/
def dawnSource (k : DawnKind) (s : State) : Nat :=
  match k with
  | .restart => s.pwr.wakeSource
  | .night => match s.pwr.pend with
    | some p => if p.source = 0 then 3 else p.source
    | none => 0
  | _ => 0

/-- The target a Dawn begins with; after line power is applied the image gives it at step 7 (R60). -/
def dawnGoal (k : DawnKind) (s : State) : PwrSt :=
  match k, s.pwr.pend with
  | .night, some p => p.target
  | _, _ => .day

/-! ### Step 2: reset values (18 R424, Table 18-3; 17 R396) -/

/-- Registers at step 2: their reset values, but for those kept in Nightwatch (R114, R135); after Evening the time base keeps the settings
in force. -/
def dawnRegs (k : DawnKind) (q : KeptRegs) (r : Regs) : Regs :=
  match k with
  | .cold => {}
  | .restart => { bootLimits := q.bootLimits, timeSrc := r.timeSrc, ppsComp := r.ppsComp, ptpCfg := r.ptpCfg, ptpAsym := r.ptpAsym }
  | _ => { bootLimits := q.bootLimits, timeSrc := q.timeSrc, ppsComp := q.ppsComp, ptpCfg := q.ptpCfg, ptpAsym := q.ptpAsym }

/-- The start-up block at step 2; a store or commit that an abandoned short Dawn leaves goes on. -/
def dawnBoot (b : Boot) : Boot :=
  { store := b.store, storeHeld := b.storeHeld, commit := b.commit
    stageState := if b.commit.isSome then b.stageState else 0, stageTarget := if b.commit.isSome then b.stageTarget else 0
    nextCal := b.nextCal, portAt := b.portAt }

/-- The unit at step 2 of a full Dawn of kind `k`. An SPI frame discarded while the port was stopped is kept for its counter and for the next
status word (15 R357). -/
def dawnBase (k : DawnKind) (x : DawnInput) (s : State) : State :=
  let again := k == .restart
  { pending := s.pending, now := s.now, free := s.free, bus := s.bus, hap := s.hap, r := dawnRegs k s.nw.kept s.r, nw := { s.nw with alarm := none, kept := if k = .cold then {} else s.nw.kept }, mram := s.mram
    encl := { s.encl with sense := 0, fanSpeed0 := 0, fanSpeed1 := 0, fanFail0 := false, fanFail1 := false, fanLow0 := none,
                          fanLow1 := none, dieC := x.dieC, inletC := 0, bankC := 0, onset := true }
    pwr := { st := .dawn, target := dawnGoal k s, linePresent := s.pwr.linePresent, fromLine := k.fromAbsent
             lastStart := s.pwr.lastStart, classEvents := s.pwr.classEvents, bankUv := s.pwr.bankUv
             wakeSource := dawnSource k s, pend := if again then s.pwr.pend else none
             cellMv := x.cellMv, cellAbsent := s.pwr.cellAbsent, tokenRead := s.pwr.tokenRead }
    clk := if again then { s.clk with core := .off, oct := Vector.replicate 8 .off, bandCalRan := false, lastLock := 0
                                      coreFailed := false, relock := false, tried := 0 }
      else { coldStart := k == .cold }
    tim := if again then s.tim else {}
    ptp := if again then s.ptp else {}
    boot := dawnBoot s.boot
    rt := { past := if s.rt.entries = [] then s.rt.past else if k = .cold then [] else s.rt.entries.zip s.rt.next }
    seg := { vstore := s.seg.vstore }
    ev := if again then Vector.replicate 431 0 else vmod (Vector.replicate 431 0) rgSpi fun _ => evNow s rgSpi
    spi := if again then {} else { disc := s.spi.disc }
    evid := s.evid
    sl := { s.sl with count := 0, lastK := 0, lastTrigger := 0, keyOk := x.keyOk, intStart := s.now, ckptForce := s.sl.ckptForce && k != .cold }
    cal := { dawnTemp := x.dieC }
    ring := if again then { pa := s.ring.pa, pb := s.ring.pb, agree := s.ring.agree, agreeSeq := s.ring.agreeSeq
                            wakeSeq := s.ring.wakeSeq, toneDue := s.ring.toneDue, seqs := s.ring.seqs }
      else s.ring
    eth := { link := s.eth.link, eee := s.eth.eee }
    tasp := { draws := s.tasp.draws }
    fw := { lastService := s.now } }

/-- A source whose condition holds at step 2: an onset (R396). -/
def dawnOnset (src detail : Nat) (holds : Bool) (s : State) : State :=
  setCond src 0 holds (if holds then faultU src detail s else s)

/-- Watched fields of the registers kept, as onsets (R429). -/
def dawnRanges (s : State) : State :=
  noteRange 0x224 0 (subsIn 0x224 s.r.ptpCfg) (noteRange 0x21C 0 (subsIn 0x21C s.r.timeSrc)
    (noteRange 0x05C 0 (subsIn 0x05C s.r.bootLimits) s))

/-- The conditions that hold at step 2 (Table 17-1). -/
def dawnOnsets (k : DawnKind) (s : State) : State :=
  let low := !s.pwr.cellAbsent && decide (s.pwr.cellMv ≤ 2500)
  let s1 := dawnOnset 4 0 s.pwr.cellAbsent (dawnOnset 3 s.pwr.cellMv low { s with pwr := { s.pwr with cellLow := low } })
  let s2 := if s.nw.tripFound ∧ k ≠ .cold then faultU 9 0 { s1 with nw := { s1.nw with tripFound := false } } else s1
  let s3 := dawnOnset 12 s2.tim.st.code (s2.tim.st == .unlocked || s2.tim.st == .holdover) s2
  let s4 := if k = .restart then setCond 11 0 (!s3.clk.oscWarm) s3 else s3
  let s5 := dawnRanges (setCond 27 0 (!s4.sl.keyOk) s4)
  if k = .restart then dawnOnset 25 0 s5.evid.suspended (dawnOnset 24 0 s5.evid.full s5) else fullSet s5

/-! ### Step 3: the time base (04 R84, R95, R107) -/

/-- The time base starts, unlocked, from the Nightwatch counter; its seconds count where no more than 20 000 s have passed since the
last alignment. After a cold start it counts from 0. -/
def timeStart (k : DawnKind) (s : State) : State :=
  match k with
  | .restart => s
  | _ =>
    let c := if k = .cold then 0 else s.nw.codes / cTick * cTick
    let ok := k != .cold && s.nw.aligned && decide (c - cS * s.nw.alignSec ≤ 20000 * cS)
    ovenBegin { s with tim := { running := true, codes := c, valid := ok, todSrc := if ok then 1 else 0, lastSecond := some (c / cS) } }

/-! ### The chain (12 R287 to R289; 09 R215) -/

/-- A GAP record of cause 1 or 2. -/
def gapRec (cause first n : Nat) (s : State) : State :=
  pushUnit (mkRec 0x21 cause 0 0 0 s.tim.codes (first + 2 ^ 64 * min n 0xFFFFFFFF)) s.now s

/-- The checkpoint a cold start restores: job number, COUNT and HEAD; none where no slot is valid. -/
def ckptRestore (mramOk : Bool) (m : List Host.Cell) : Option (Nat × Nat × List Byte) :=
  let n := newestCkpt m
  if !mramOk ∨ n = 0 then none
  else
    let b := rdBytes m (ckptAddr (n - 1)) 72
    some (leAt b 0x30 4, leAt b 8 8, (b.drop 0x10).take 32)

/-- The chain state a full Dawn restores (Table 12-6). -/
def chainRestore (k : DawnKind) (mramOk : Bool) (s : State) : State :=
  match k with
  | .warm =>
    let c := s.nw.chain
    { s with evid := { head := c.head, count := c.count, oldest := c.count, sealedEnd := c.count } }
  | .cold =>
    match ckptRestore mramOk s.mram with
    | some c =>
      { s with evid := { head := if c.2.1 = 0 then none else some c.2.2, count := c.2.1, oldest := c.2.1, sealedEnd := c.2.1 }
               nw := { s.nw with jobNo := (0x100000 + c.1) % 2 ^ 32 } }
    | none => { s with evid := {}, nw := { s.nw with jobNo := 0 } }
  | _ => s

/-- The first records of a full Dawn (Table 12-6). `old` is the unit before it, whose Nightwatch copy of the chain the GAP of cause 2
reports. -/
def firstRecs (k : DawnKind) (old s : State) : State :=
  let c := old.nw.chain
  let n := s.evid.count
  match k with
  | .restart => s
  | .night => timeStateRec 0 0 (if old.nw.tripFound then gapRec 2 n 0 s else s)
  | .warm =>
    timeStateRec 0 0 (if c.oldest < c.count then gapRec 2 c.oldest (c.count - c.oldest) s
      else if old.nw.duskIncomplete ∨ old.nw.tripFound then gapRec 2 n 0 s else s)
  | .cold => timeStateRec 0 0 (gapRec 1 n 0xFFFFFFFF s)

/-- What follows the chain's restoration: the copy in Nightwatch, and the chain value the next checkpoint records. -/
def chainSettle (k : DawnKind) (s : State) : State :=
  if k.fromAbsent then
    chainCopy { s with nw := { s.nw with duskIncomplete := false }, sl := { s.sl with ckptHead := some (chainHead s) } }
  else s

/-! ### Steps 4 and 5: factory area, certificates, calibration (05 R143, R144; 12 R283) -/

/-- Step 4: the serial number, the newest checkpoint, and CERT_MATCH. Where the MRAM does not identify itself it is treated as absent
(Table 5-4). -/
def identStep (ok : Bool) (s : State) : State :=
  if ok then
    let s1 := ckptLoad { s with boot := { s.boot with mramOk := true, serial := Config.serial } }
    dawnOnset 28 0 (!certOk) { s1 with sl := { s1.sl with certMatch := certOk } }
  else
    let s1 := mramViol 1 { s with boot := { s.boot with mramOk := false, serial := 0, statA := 11, statB := 11, maintCause := 3 } }
    dawnOnset 28 0 true { s1 with sl := { s1.sl with certMatch := false, ckptSlot := 0, ckptSeq := 0, ckptCount := 0 } }

/-- SEQ and data of a calibration slot that is valid (R143). -/
def calSlot (m : List Host.Cell) (bk : Bank) : Option (Nat × List Byte) :=
  let r := rdBytes m (0x3FFF0 + slotAddr bk) 16
  let len := leAt r 4 4
  let d := rdBytes m (slotAddr bk) len
  if leAt r 0 4 ≠ 0 ∧ len % 4 = 0 ∧ len ≤ 0x3FFF0 ∧ leAt r 12 4 = crc32c (r.take 12) ∧ leAt r 8 4 = crc32c d then
    some (leAt r 0 4, d) else none

/-- The trims of a source: those of a slot's snapshot, or the factory's. -/
def trimsFrom (d : Option (List (List Int))) (c g : Nat) : List Int :=
  match d with
  | some l => l.getD (if g < 3 then 3 * c + g else 216 + (c - 64)) []
  | none => Config.factoryTrim c g

/-- The trim memory loaded from a source; the octet phases are group 3 of channels 64 to 71. -/
def trimLoad (data : Option (List Byte)) (s : State) : State :=
  let d := data.map (trimSplit 224)
  { s with
    cal := { s.cal with ch := vmap s.cal.ch fun c x =>
      { x with lvlTrim := trimsFrom d c 0, timTrim := trimsFrom d c 1, skewTrim := trimsFrom d c 2 } }
    octs := vmap s.octs fun k o => { o with phaseTrim := (trimsFrom d (64 + k) 3).headD 0 } }

/-- Step 5: the valid slot with the higher SEQ, slot A when equal, the factory calibration when none is valid (R144). -/
def calStep (s : State) : State :=
  let m := if s.boot.mramOk then s.mram else []
  let a := calSlot m .a
  let b := calSlot m .b
  let pick : Option (Nat × Nat × List Byte) := match a, b with
    | some x, some y => if x.1 < y.1 then some (2, y.1, y.2) else some (1, x.1, x.2)
    | some x, none => some (1, x.1, x.2)
    | none, some y => some (2, y.1, y.2)
    | none, none => none
  let s1 := { s with boot := { s.boot with
    slotAValid := a.isSome, slotBValid := b.isSome, calSrc := (pick.map (·.1)).getD 0, calSeq := (pick.map (·.2.1)).getD 0 } }
  trimLoad (pick.map (·.2.2)) s1

/-! ### Step 6: the banks (R130, R136) -/

/-- MRAM_RETRY and IMG_TIMEOUT in ms in force: both reset values where they are out of range. -/
def imgLimits (s : State) : Nat × Nat :=
  if bootLimitsOk s.r.bootLimits then (fld s.r.bootLimits 0 3, fld s.r.bootLimits 16 16) else (3, 500)

def bankCode : Bank → Nat
  | .a => 1
  | .b => 2

/-- A bank's status is set; one that is neither valid nor verified is logged. -/
def bankStat (bk : Bank) (st : Nat) (s : State) : State :=
  let s1 := { s with boot := match bk with
    | .a => { s.boot with statA := st }
    | .b => { s.boot with statB := st } }
  if 2 ≤ st then notice 8 (st * 16 + bankCode bk) [] s1 else s1

/-- SEQ and status of a bank's header. -/
def bankHead (m : List Host.Cell) (bk : Bank) : Nat × Nat :=
  let h := rdBytes m (bankAddr bk) 64
  (leAt h 8 4, headerStatus h)

/-- Both headers are read: candidates are the banks with status 0, the higher SEQ first, bank A on equal SEQ. -/
def headStep (s : State) : State :=
  let a := bankHead s.mram .a
  let b := bankHead s.mram .b
  let cands : List Bank :=
    if a.2 = 0 ∧ b.2 = 0 then (if a.1 < b.1 then [.b, .a] else [.a, .b])
    else if a.2 = 0 then [.a] else if b.2 = 0 then [.b] else []
  let s1 := bankStat .b b.2 (bankStat .a a.2 s)
  { s1 with boot := { s1.boot with
    seqA := if a.2 = 2 then 0 else a.1, seqB := if b.2 = 2 then 0 else b.1, cands := cands } }

/-! ### Step 7: network services (15 R356, R367; 16 R372 to R374, R378, R393) -/

/-- The NET payload in force; none where no image or copy gives one. -/
def netFlag (s : State) (i : Nat) : Bool := (leAt s.boot.net 0 4).testBit i

/-- The modified EUI-64 of a MAC address, the interface identifier of the unit's addresses (R374). -/
def eui64 (m : BitVec 48) : BitVec 64 :=
  (m.extractLsb' 24 24 ^^^ (0x020000 : BitVec 24)) ++ (0xFFFE : BitVec 16) ++ m.extractLsb' 0 24

/-- The link-local address from the modified EUI-64 of a MAC address (R374). -/
def linkLocalOf (m : BitVec 48) : BitVec 128 :=
  (0xFE80 : BitVec 16) ++ (0 : BitVec 48) ++ eui64 m

/-- A frame handed to the normal transmit queue, while the services run on a link (log 25). A datagram to an address outside the prefix
with no gateway known is dropped and counted (R373). -/
def ethSend (f : EthFrame) (s : State) : State :=
  if s.eth.link ∧ s.eth.running then
    if (f.kind = 0 ∨ f.kind = 5) ∧ !routed s f.dst then bump rgEthRx 24 8 1 s
    else { s with eth := { s.eth with txNorm := s.eth.txNorm ++ [f] } }
  else s

/-- A DHCPv4 message of the unit, as its type and the address it names (RFC 2131): 1 DISCOVER, 3 REQUEST. -/
def dhcpSend (type : Nat) (a : BitVec 32) (s : State) : State :=
  ethSend ⟨3, ⟨false, 0xFFFFFFFF, 67⟩, BitVec.ofNat 8 type :: beBytes 4 a.toNat⟩ s

/-- A neighbour discovery message of the unit, as its ICMPv6 type and target. -/
def ndSend (type : Nat) (dst target : BitVec 128) (s : State) : State :=
  ethSend ⟨4, ⟨true, dst, 0⟩, BitVec.ofNat 8 type :: beBytes 16 target.toNat⟩ s

/-- The DHCPv4 client begins, its first retry after 4 s. -/
def dhcpBegin (s : State) : State :=
  dhcpSend 1 0 { s with eth := { s.eth with dhcpSt := 1, dhcpAt := 4 * cS + s.now, dhcpRetry := 4, ipv4 := 0, mask := 0, router := 0 } }

/-- The port services begin: addresses, TASP and its key, J8, and the port of PTP. A link that is down then is an onset of source 39
(17 R396). -/
def netStart (s0 : State) : State :=
  let s := dawnOnset 39 0 (!s0.eth.link) s0
  let n := s.boot.net
  let key := (n.drop 48).take 32
  let on' := n.length == 96 && key.any (· != 0)
  let s1 := { s with
    eth := { s.eth with running := true }
    tasp := { s.tasp with on := on', key := key, keyId := leAt n 32 4 } }
  let s2 := if on' then s1 else notice 0x0D 3 [] s1
  let s3 := if netFlag s 0 then dhcpBegin s2
    else if netFlag s 2 then { s2 with eth := { s2.eth with
      ipv4 := BitVec.ofNat 32 (beAt n 4 4), mask := leAt n 8 1, router := BitVec.ofNat 32 (beAt n 12 4) } }
    else s2
  let s4 := if netFlag s 1 then
      ndSend 133 (BitVec.ofNat 128 (0xFF02 * 2 ^ 112 + 2)) 0
        (ndSend 135 (linkLocalOf Config.mac) (linkLocalOf Config.mac)
          { s3 with eth := { s3.eth with ipv6 := [(linkLocalOf Config.mac, false)] } })
    else s3
  let idle := ptpEn s4 && (match ptpTransport s4 with
    | 0 => s4.eth.ipv4 == 0
    | 1 => !(s4.eth.ipv6.any (·.2))
    | _ => false)
  usbConnect (if idle then notice 0x0D 4 [] s4 else s4)

/-- NET copy and its CRC in the MRAM (R132). -/
def netCopyAddr : Nat := 0x2CD000
def netCopyOk (m : List Host.Cell) : Bool :=
  let b := rdBytes m netCopyAddr 100
  leAt b 96 4 == crc32c (b.take 96) && (b.take 96).any (· != 0)

/-! ### Step 7: the image (R132, R133) -/

/-- Occurrences of entry `i` that have fallen due before: those of the same entry of the table before the full Dawn (R141). -/
def pastNext (s : State) (i : Nat) (e : RtEntry) : Nat :=
  match s.rt.past[i]? with
  | some x => if x.1 = e then x.2 else 0
  | none => 0

/-- A write of the enrolment or of the network copy (R129, R132). -/
def smallWrite (addr : Nat) (b : List Byte) (s : State) : State :=
  { s with mram := wrBytes s.mram addr b, boot := { s.boot with small := some ⟨addr, rdBytes s.mram addr b.length, s.now⟩ } }

/-- One record applied (R132). -/
def applyRec (r : ImgRec) (s : State) : State :=
  match r.type with
  | 0x10 => applyWords r s
  | 0x11 => applyWords r s
  | 0x12 => { s with seg := { s.seg with vstore := wrBytes s.seg.vstore (leAt r.body 0 8) (r.body.drop 8) } }
  | 0x20 => { s with rt := { s.rt with templates := (tplList r.body).zipIdx.map fun x => (x.2, x.1) } }
  | 0x21 =>
    let es := (rtRaw r.body).map rtParse
    { s with rt := { s.rt with entries := es, next := es.zipIdx.map fun x => pastNext s x.2 x.1 } }
  | 0x30 => { s with boot := { s.boot with net := r.body } }
  | 0x40 => if enrolment s.mram = r.body then s else smallWrite enrolAddr r.body s
  | _ => s

/-- The maintenance network copy is written where its content differs. -/
def netCopy (s : State) : State :=
  let b := s.boot.net ++ leBytes 4 (crc32c s.boot.net)
  if s.boot.net = [] ∨ rdBytes s.mram netCopyAddr 100 = b then s else smallWrite netCopyAddr b s

/-- Octets powered (R58): the lowest of OCT_EN up to the tier's limit, without one that failed before an abandoned short Dawn. -/
def octPower (s : State) : State :=
  let en := fld s.r.pwrOctEn 0 8
  let on' := maskOf ((bitsOf 8 en).take (octLimit s))
  let live := on' - (on' &&& s.clk.octFailed.toNat)
  let s1 := { s with pwr := { s.pwr with octActive := BitVec.ofNat 8 live } }
  if on' = en then s1 else notice 5 (live * 256 + en) [] s1

/-- START_TARGET (Table 3-20). -/
def startTarget (s : State) : PwrSt :=
  match fld s.r.pwrCfg 16 2 with
  | 1 => .evening
  | 2 => .night
  | _ => .day

/-- An event and the condition of source 30, where the image applied is a fallback or none is. -/
def imageFault (s : State) : State :=
  let b := s.boot
  if b.fallback ∨ b.maintCause ≠ 0 then setCond 30 0 true (faultU 30 (b.maintCause * 256 + b.statB * 16 + b.statA) s) else s

/-- The tone to neighbours whose port is not aligned, as the ring of a unit that acted on a call starts (14 R336), at local T_w where
its transmitters are still off. -/
def ringBegins (s : State) : State :=
  toneNow s

/-- Step 7 with a verified image, and step 8. -/
def applyImage (bk : Bank) (rs : List ImgRec) (keyId : Nat) (s : State) : State :=
  let other := match bk with | .a => s.boot.statB | .b => s.boot.statA
  let s1 := bankStat bk 1 { s with boot := { s.boot with
    imageApplied := true, bank := bankCode bk, keyUsed := keyId + 1, fallback := decide (4 ≤ other ∧ other ≤ 10) } }
  let s2 := rs.foldl (fun s r => applyRec r s) s1
  let s3 := (imageEntries rs).foldl (fun s e => setStat e (1, 0) s) s2
  let s4 := octPower (netCopy s3)
  let goal := if s4.pwr.fromLine then startTarget s4 else s4.pwr.target
  let s5 := { s4 with
    pwr := { s4.pwr with target := goal, dawnReady := true }
    spi := { s4.spi with running := goal != .night } }
  rtRecompute true (ringBegins (imageFault (netStart s5)))

/-- Step 7 on the maintenance path. -/
def maintPath (s : State) : State :=
  let s1 := { s with
    boot := { s.boot with
      maintCause := if s.boot.mramOk then 1 else 3
      net := if s.boot.mramOk ∧ netCopyOk s.mram then rdBytes s.mram netCopyAddr 96 else [] }
    pwr := { s.pwr with dawnReady := true }
    spi := { s.spi with running := true } }
  imageFault (netStart s1)

/-- The next candidate is read, or the maintenance path is taken (R130). -/
def nextCand (s : State) : State :=
  match s.boot.cands with
  | [] => maintPath { s with boot := { s.boot with reading := none } }
  | bk :: l => { s with boot := { s.boot with cands := l, reading := some (bk, s.now) } }

/-- A bank has failed with a status. -/
def bankFail (bk : Bank) (st : Nat) (s : State) : State := nextCand (bankStat bk st s)

/-! ### Commands -/

/-- The end record of slot `i`, which a full Dawn empties: formed in the cycle after its end took effect at the earliest (R234), or
pending past the slot while the chain is suspended (R256). -/
def closeEnd (i : Nat) (s : State) : State :=
  let x := slotAt s i
  if x.st = .ending ∧ x.endSt = 1 then
    let s1 := modSlot i (fun x => { x with endSt := 2 }) s
    if s.evid.suspended then { s1 with evid := { s1.evid with endWait := s1.evid.endWait ++ [jobEndRec i x] } }
    else pushUnit (jobEndRec i x) (max ((cycleOf x.endAt + 1) * 320) (lastFormed s x.jobNo)) s1
  else s

/-- What an abandoned short Dawn leaves: its jobs end with CLOCK_FAIL, their records are formed, and exports end (R90). -/
def dawnClose (k : DawnKind) (s : State) : State :=
  if k = .restart then
    let s1 := endJobs 9 0 false (slotsIn s fun st => st == .queued || st.active) s
    [Port.tasp, .spi, .usb].foldl (fun s p => exportEnd p s) ((List.range 16).foldl (fun s i => closeEnd i s) s1)
  else s

/-- Notices at step 1 (17 R413). -/
def dawnNotices (k : DawnKind) (x : DawnInput) (old s : State) : State :=
  let s1 := if k = .cold then notice 1 old.nw.token.toNat [] s else s
  notice 2 (2 ^ 16 * dawnSource k old + 2 ^ 12 * k.code + x.cellMv % 4096) [] s1

/-- The wake call of a unit whose latched call began the Dawn (14 R336), made with the ring settings of before Night. -/
def dawnCall (old s : State) : State :=
  if old.nw.wakeLatch then
    let s1 := wakeCall { s with r := { s.r with ringCfg := old.r.ringCfg }, nw := { s.nw with wakeLatch := false } }
    { s1 with r := { s1.r with ringCfg := s.r.ringCfg } }
  else s

/-- Steps 1 to 6 up to the headers. -/
def fullDawn (x : DawnInput) (s0 : State) : State :=
  if dawnDue s0 then
    let k := dawnKind s0
    let old := dawnClose k s0
    let s1 := dawnNotices k x old (tokenStep k old)
    let s2 := chainRestore k x.mramOk (dawnBase k x s1)
    let s3 := timeStart k (dawnOnsets k s2)
    let s4 := chainSettle k (identStep x.mramOk s3)
    let s5 := calStep (dawnCall old (firstRecs k old s4))
    if x.mramOk then nextCand (headStep s5)
    else maintPath (notice 8 (11 * 16 + 2) [] (notice 8 (11 * 16 + 1) [] s5))
  else s0

/-- FULL_DAWN_BEGIN (R114). -/
def execFullDawnBegin (t : Instant) (x : DawnInput) (s : State) : Host.Outcome State Fault Refusal :=
  .next (fullDawn x (advance t s))

/-- Whether a bank is being read, within its timeout or after it. -/
def readingBank (s : State) (bk : Bank) : Option Instant :=
  match s.pwr.st, s.boot.reading with
  | .dawn, some (c, k) => if c = bk then some k else none
  | _, _ => none

/-- A bank has been read (R131, R136): a record that still fails after its re-reads is one violation of Table 5-4. -/
def bankRead (bk : Bank) (fails : List (Nat × Nat)) (s : State) : State :=
  match readingBank s bk with
  | none => s
  | some k =>
    if k + cMs * (imgLimits s).2 < s.now then s
    else
      let len := leAt (rdBytes s.mram (bankAddr bk) 64) 0x0C 4
      let img := rdBytes s.mram (bankAddr bk) len
      let v := verifyImage s.mram (imgLimits s).1 fails img
      let s1 := if v.2 = 0 then s else bump rgBoot 16 8 v.2 s
      if v.1 = 1 then
        applyImage bk (imageRecs img).1 (leAt img 0x18 4) { s1 with boot := { s1.boot with reading := none } }
      else
        let s2 := if v.1 = 4 then faultU 29 (4 * 256 + min v.2 255) (bump rgBoot 8 8 1 s1) else s1
        bankFail bk v.1 s2

/-- IMAGE_BANK_READ_DONE (R131). -/
def execImageBankReadDone (t : Instant) (bank : Bank) (fails : List (Nat × Nat)) (s : State) : Host.Outcome State Fault Refusal :=
  .next (bankRead bank fails (advance t s))

/-- IMG_TIMEOUT expires: any re-read is abandoned, and the fault is counted once with the re-reads made (R137). -/
def imgTimeout (bk : Bank) (rereads : Nat) (s : State) : State :=
  match readingBank s bk with
  | none => s
  | some k =>
    if k + cMs * (imgLimits s).2 ≤ s.now then
      let s1 := if rereads = 0 then s else bump rgBoot 16 8 rereads s
      bankFail bk 10 (faultU 29 (5 * 256 + min rereads 255) s1)
    else s

/-- IMG_TIMEOUT_EXPIRY (R137). -/
def execImgTimeoutExpiry (t : Instant) (bank : Bank) (rereads : Nat) (s : State) : Host.Outcome State Fault Refusal :=
  .next (imgTimeout bank rereads (advance t s))

/-! ### Commit requests (R147 to R149) -/

/-- SEQ of the bank applied at the last full Dawn; 0 when none was. -/
def appliedSeq (s : State) : Nat := match s.boot.bank with | 1 => s.boot.seqA | 2 => s.boot.seqB | _ => 0

/-- The code a commit request is refused with; 0 where it is accepted (R148). -/
def commitCode (s : State) : Nat :=
  let img := s.boot.stage
  let h := headerStatus (img.take 64)
  if s.boot.commit.isSome ∨ s.boot.stageLen = 0 ∨ img.length < s.boot.stageLen then 13
  else if 0x100000 < img.length then 14
  else if h ≠ 0 then h
  else if img.length ≠ leAt img 0x0C 4 then 5
  else
    let v := (verifyImage s.mram 0 [] img).1
    if v ≠ 1 then v else if leAt img 8 4 ≤ appliedSeq s then 12 else 0

/-- A commit request: refused with its code, or begun with 64 zero bytes over the target's header. One that comes while another commit
is under way, or with staging incomplete, leaves STATE as it is. -/
def commitRequest (s0 : State) : State × Nat :=
  let s := mramSettle s0
  let c := commitCode s
  let tgt : Bank := if s.boot.bank = 2 then .a else .b
  if c = 0 then
    ({ s with
      mram := wrBytes s.mram (bankAddr tgt) (List.replicate 64 0)
      boot := { s.boot with commit := some ⟨tgt, s.boot.stage, s.now, 3 + 2 * chunks s.boot.stage.length, true⟩, stageState := 4, stageCode := 0
                            stageTarget := if tgt = .a then 0 else 1 } }, 0)
  else if c = 13 then ({ s with boot := { s.boot with stageCode := 13 } }, 13)
  else ({ s with boot := { s.boot with stageState := 6, stageCode := c } }, c)

end Sys2Proof.Machine
end

