-- ==== Sys2Proof/Machine/Serve.lean ====
section
/-!
DEFINITION. Serve.lean: what the commands of the three ports have in common (15 R352, R360; 16 R383): register ranges, vector store,
stream pieces (09 R228, 16 R388), log reads (17 R415), certificate reads (12 R283), and free values.
-/

namespace Sys2Proof.Machine

/-! ### Result codes (Tables 15-4 and 16-2) -/

def rcOk : Nat := 0
def rcUnknown : Nat := 1
def rcLength : Nat := 2
def rcTooLong : Nat := 3
def rcAddress : Nat := 5
def rcAccess : Nat := 6
def rcState : Nat := 7
def rcRefused : Nat := 8
def rcGone : Nat := 9
def rcUnsealed : Nat := 10
def rcBusy : Nat := 11
def rcNoSession : Nat := 12
def rcFormat : Nat := 13

/-- The result code of a bus answer. -/
def BusRes.code : BusRes → Nat
  | .done => 0
  | .align => 4
  | .address => 5
  | .access => 6

/-- `n` values that the manual leaves unstated (log 3). -/
def freeWords : Nat → State → State × List Word
  | 0, s => (s, [])
  | n + 1, s =>
    let v := drawFree s
    let r := freeWords n v.2
    (r.1, word v.1 :: r.2)

/-! ### Registers -/

/-- Values read from consecutive addresses; a range is judged as a whole before any word is carried out (R419). -/
def svcRegRead (a n : Nat) (s : State) : State × Nat × List Word :=
  match rangeJudge a n with
  | .done => let r := readWords n a s; (r.1, 0, r.2)
  | e => (s, e.code, [])

/-- Values written to consecutive addresses, stopping at the first refused: the result code, and DONE. -/
def svcRegWrite (a : Nat) (vs : List Word) (s : State) : State × Nat × Nat :=
  match rangeJudge a vs.length with
  | .done => let r := writeWords vs a 0 s; (r.1, r.2.2.code, r.2.1)
  | e => (s, e.code, 0)

/-! ### Vector store (R192, R193) -/

/-- A read of the vector-store region; none beyond it. -/
def svcVstoreRead (a n : Nat) (s : State) : Nat × List Byte :=
  if vstoreSize < a + n then (rcAddress, []) else (0, rdBytes s.seg.vstore a n)

/-! ### Stream pieces (R228, R388, R389) -/

/-- RETX_MAX and RETX_US in use (R389). -/
def retxMax (s : State) : Nat := if retxOk s.r.ethCfg then fld s.r.ethCfg 0 3 else 3
def retxUs (s : State) : Nat := if retxOk s.r.ethCfg then fld s.r.ethCfg 16 16 else 1000

/-- The session with a number. -/
def sessNum (s : State) (n : Nat) : Option Sess := (s.tasp.sess.toList.filterMap id).find? fun x => x.num == n

/-- One STREAM_GAP note of ring `r`, and the instant of the next (R388): it carries SEQ 0 and is not held. -/
def gapNote (r : Nat) (s : State) : State :=
  let q := vget s.seqr.srings r {}
  match q.gap with
  | none => s
  | some g =>
    match sessNum s g.session with
    | none => { s with seqr := { s.seqr with srings := vmod s.seqr.srings r fun q => { q with gap := none } } }
    | some x =>
      let n := g.sent + 1
      let body := beBytes 1 r ++ beBytes 3 0 ++ beBytes 4 g.missing ++ beBytes 1 n ++ beBytes 3 0
      let s1 := { s with seqr := { s.seqr with srings := vmod s.seqr.srings r fun q =>
        { q with gap := some { g with sent := n, next := s.now + cUs * retxUs s }, notes := n } } }
      if haveSource s x.src then
        bump rgEthTx 16 8 1 (ethSend ⟨0, x.src, taspDatagram s.tasp 2 0x19 0 x.num 0 body⟩ s1)
      else s1

/-- A piece of the session `origin` written beyond a gap starts the gap's notes, unless they are under way or given up. -/
def gapBegin (r : Nat) (origin : Option Nat) (s : State) : State :=
  let q := vget s.seqr.srings r {}
  match origin with
  | none => s
  | some n =>
    if q.gap.isSome ∨ q.gaveUp = some q.wr ∨ retxMax s = 0 then s
    else gapNote r { s with seqr := { s.seqr with srings := vmod s.seqr.srings r fun q => { q with gap := some ⟨q.wr, 0, n, s.now⟩ } } }

/-- A piece `n` of 768 bytes for ring `r` (R228), with the session that sent it: its disposition, 0 written, 1 duplicate, 2 no space, 3 no
ring. A gap that it fills ends its notes. While SW is held off a piece that would be written waits (11 R271). -/
def streamPiece (r n : Nat) (bytes : List Byte) (origin : Option Nat) (s : State) : State × Nat :=
  let q := vget s.seqr.srings r {}
  let a := (2 ^ 32 + n - q.wr) % 2 ^ 32
  if !sringOn s r then (bump rgSring 8 8 1 s, 3)
  else if a < 128 * sringSize s r - sringFill q then
    if heldOff s 10 then ({ s with seqr := { s.seqr with rxBuf := s.seqr.rxBuf ++ [(r, n, bytes)] } }, 0)
    else
      let s1 := { s with seqr := { s.seqr with srings := vmod s.seqr.srings r fun q => q.put n bytes } }
      (if a = 0 then s1 else gapBegin r origin s1, 0)
  else if 2 ^ 31 ≤ a then (bump rgSring 24 8 1 s, 1)
  else (bump rgSring 16 8 1 s, 2)

/-! ### The trouble log and the certificate bundle -/

/-- The 16 stored bytes of a log entry (R408). -/
def entryBytes (e : LogEntry) : List Byte := [e.w0, e.w1, e.w2, e.w3].flatMap fun w => leBytes 4 w.toNat

/-- A log read (R415): the number of the first entry sent, and the entries. -/
def logRead (s : State) (first n : Nat) : Nat × List LogEntry :=
  let held := s.nw.log.length
  let oldest := (2 ^ 32 + s.nw.logNext - held) % 2 ^ 32
  if first = s.nw.logNext then (first, [])
  else
    let i := (2 ^ 32 + first - oldest) % 2 ^ 32
    if i < held then (first, (s.nw.log.drop i).take n) else (oldest, s.nw.log.take n)

/-- Bundle bytes from an offset, those below TOTAL_LEN, which is at most 49 152; none from an MRAM treated as absent (R282, R283,
Table 5-4). -/
def certRead (s : State) (off n : Nat) : List Byte :=
  if s.boot.mramOk then certBytes off (min n (certTotal - off)) else []

/-! ### Exports (R257) -/

/-- An export request as answered: result code, and the number of records from FROM. -/
def svcExport (first cnt : Nat) (s : State) : State × Nat × Nat :=
  let j := exportJudge s first cnt
  match j with
  | .gone => (exportCount j s, rcGone, 0)
  | .unsealed => (exportCount j s, rcUnsealed, 0)
  | .records n => (s, 0, n)

/-- STAT, JOB_NO and HOST_TAG of a slot. -/
def svcJobStatus (s : State) (i : Nat) : List Word := [jobStat s i, jobNoOf s i, word (slotAt s i).desc.tag]

end Sys2Proof.Machine
end

