-- ==== Sys2Proof/Machine/Spi.lean ====
section
/-!
DEFINITION. Spi.lean: the SPI host port (15 R343 to R358): frames, the mailbox, the command set, export sequences and violations. A frame
is one happening, at the rise of HSEL or at the fall of HPRES that ends it.
-/

namespace Sys2Proof.Machine

def modSpi (f : Spi → Spi) (s : State) : State := { s with spi := f s.spi }

/-- HPRES_CHANGE (02 R47): SPI_HPRES is updated at once, and with HPRES high HIRQ is asserted for what the mailbox holds (01 R22). A frame in progress is brought by its own row. -/
def hpresChange (high : Bool) (s : State) : State :=
  spiHandover { s with encl := { s.encl with
    hpres := high, sense := if fastOn s then setFld s.encl.sense 14 1 (b2n high) else s.encl.sense } }

/-- HPRES_CHANGE (R47). -/
def execHpresChange (t : Instant) (high : Bool) (s : State) : Host.Outcome State Fault Refusal :=
  .next (hpresChange high (advance t s))

/-! ### Violations and the status word -/

/-- A violation of Table 15-6 (R358): held in G_SPI_VIOL and logged with it. -/
def spiViol (code value : Nat) (s : State) : State :=
  let v := 2 ^ 28 * code + value % 65536
  fault ⟨35, 0, none⟩ code [v] (modSpi (fun p => { p with viol := word v }) s)

/-- The status word (Table 15-3). -/
def spiStatus (s : State) : Word :=
  let p := s.spi
  word (0x3C000000 + 2 ^ 23 * b2n p.ans.isSome + 2 ^ 22 * b2n p.note.isSome + 2 ^ 21 * b2n p.rx.isSome + 2 ^ 20 * b2n p.disc +
    2 ^ 19 * b2n p.exp.isSome + 2 ^ 16 * s.pwr.st.code + 2 ^ 9 * min p.queue.length 127 + ((p.ans.map (·.length)).getD 0))

/-- The whole words of a frame that the unit takes: none from the first begun while HRDY was low (Table 15-6 code 2). -/
def spiKept (f : SpiFrame) : List Word :=
  match f.rdyViol with
  | some i => f.words.take i
  | none => f.words

/-- KIND of a frame word that passes R347: 0 where SYNC, KIND or a reserved bit breaks it. -/
def frameKind (w : Word) : Nat :=
  if fld w 24 8 = 0xA5 ∧ fld w 9 11 = 0 ∧ fld w 20 4 ≤ 4 then fld w 20 4 else 0

/-- The kind of a frame: 5 where it has no whole word. -/
def spiKind (f : SpiFrame) : Nat :=
  match spiKept f with
  | [] => 5
  | w :: _ => frameKind w

/-- Whether the port takes a frame: it runs, and HPRES is high or has just fallen (R47, R356). -/
def spiTakes (f : SpiFrame) (s : State) : Bool := s.spi.running && (s.encl.hpres || f.hpresFell)

/-- What a frame does whatever its kind: the clock mode in force, the words the unit sends, and the violations of codes 1, 2 and 7
(R343, R346, R358). The status word is that of the frame's start. -/
def spiBegin (f : SpiFrame) (content : List Word) (s : State) : State :=
  let n := f.words.length
  let out := if n = 0 then [] else spiStatus s :: (content ++ List.replicate n (0 : Word)).take (n - 1)
  let s1 := modSpi (fun p => { p with
    mode := fld s.r.spiCfg 0 2, sent := out, disc := if n = 0 then p.disc else false }) s
  let s2 := if f.rdyViol.isSome then spiViol 2 0 (bump rgSpi 0 8 1 s1) else s1
  let s3 := if f.partialBits % 32 ≠ 0 then
      spiViol 1 (32 * n + f.partialBits % 32) (bump rgSpi 24 8 1 s2)
    else s2
  if f.hpresFell then spiViol 7 0 (modSpi (fun p => { p with disc := true }) s3) else s3

/-- A frame discarded under R347 or R349. -/
def spiDiscard (s : State) : State := bump rgSpi 8 8 1 (modSpi (fun p => { p with disc := true }) s)

/-! ### Answers (R351) -/

/-- An answer placed in the answer area, the receive side freed. -/
def spiPlace (op result tag : Nat) (body : List Word) (s : State) : State :=
  let ws := word (0x5A100000 + (body.length + 1)) :: word (2 ^ 24 * op + 2 ^ 16 * result + tag) :: body
  modSpi (fun p => { p with ans := some ws, ansAt := s.now, rx := none, lastOp := op, lastResult := result }) s

/-- OP and TAG of a stored command; 0 where its word 1 was not received. -/
def SpiCmd.op (c : SpiCmd) : Nat := fld (c.words.getD 1 0) 24 8
def SpiCmd.tag (c : SpiCmd) : Nat := fld (c.words.getD 1 0) 0 16
def SpiCmd.len (c : SpiCmd) : Nat := fld (c.words.getD 0 0) 0 9
def SpiCmd.body (c : SpiCmd) : List Word := c.words.drop 2

def spiOps : List Nat := [0x01, 0x02, 0x03, 0x10, 0x11, 0x18, 0x20, 0x21, 0x22, 0x30, 0x31, 0x38, 0x40]

/-- Bytes of words, the first byte in bits [31:24] (R348). -/
def wordsBytes (ws : List Word) : List Byte := ws.flatMap fun w => beBytes 4 w.toNat

/-- Word `i` of a body as a number, and a 64-bit value from its word `i` on. -/
def wAt (b : List Word) (i : Nat) : Nat := (b.getD i 0).toNat
def dAt (b : List Word) (i : Nat) : Nat := 2 ^ 32 * wAt b i + wAt b (i + 1)

/-- A number in a range. -/
def inRange (lo hi n : Nat) : Bool := decide (lo ≤ n) && decide (n ≤ hi)

/-- Whether a body keeps the lengths, counts and ranges of Table 15-5. -/
def spiBodyOk (op : Nat) (b : List Word) : Bool :=
  let n := b.length
  match op with
  | 0x01 => n == 2 && inRange 1 64 (wAt b 1)
  | 0x02 => inRange 2 65 n
  | 0x03 => inRange 0 254 n
  | 0x10 => inRange 8 254 n && (n - 2) % 6 == 0
  | 0x11 => n == 3 && inRange 1 42 (wAt b 2)
  | 0x18 => n == 194 && inRange 0 3 (wAt b 0)
  | 0x20 => inRange 17 240 n && wAt b 0 / 65536 == 4 * n
  | 0x21 => n == 1
  | 0x22 => n == 1 && inRange 0 15 (wAt b 0)
  | 0x30 => n == 3
  | 0x31 => n == 2
  | 0x38 => n == 2 && inRange 1 1008 (wAt b 1)
  | 0x40 => n == 2 && inRange 1 62 (wAt b 1)
  | _ => true

/-- The code a stored command is answered with before its own checks (R350): 0 where it passes. In maintenance Day every command that
passes them is answered with STATE (R356). -/
def spiJudge (s : State) (c : SpiCmd) : Nat :=
  if 255 < c.received ∨ 255 < c.len then rcTooLong
  else if c.received ≠ c.len ∨ c.received = 0 ∨ !spiBodyOk c.op c.body then rcLength
  else if !spiOps.contains c.op then rcUnknown
  else if s.pwr.st = .maint then rcState
  else 0

/-- Values of 64 bits, bits [63:32] first. -/
def dWords (n : Nat) : List Word := [word (n / 2 ^ 32), word n]

/-- The body of a refusal (R352): counts 0, and fields that nothing states as free values (log 3). `code` is CODE of a refused
submission. -/
def spiRefBody (op code : Nat) (body : List Word) (s : State) : State × List Word :=
  match op with
  | 0x02 => (s, [0])
  | 0x18 => freeWords 3 s
  | 0x20 => (s, [word code, body.getD 8 0])
  | 0x22 => freeWords 3 s
  | 0x30 => let v := freeWords 2 s; (v.1, v.2 ++ [0] ++ dWords s.evid.sealedEnd ++ [1])
  | 0x31 => freeWords 2 s
  | 0x38 => let v := freeWords 1 s; (v.1, v.2 ++ [0])
  | 0x40 => let v := freeWords 1 s; (v.1, v.2 ++ [0])
  | _ => (s, [])

/-- A stored command answered with a refusal. A refused submission states CODE 0 where it is cut by a restart of the management core
(17 R406), and a value the manual leaves open otherwise. -/
def spiRefuse (c : SpiCmd) (result : Nat) (s : State) : State :=
  if result = rcUnknown then spiPlace c.op result c.tag [] s
  else
    let k := if result = rcRefused then (s, ([0] : List Word)) else freeWords 1 s
    let r := spiRefBody c.op ((k.2.getD 0 0).toNat) c.body k.1
    spiPlace c.op result c.tag r.2 r.1

/-- Whether the management core serves a stored command: the port runs and the core does not restart (R356, 17 R406). -/
def spiServes (s : State) : Bool := s.spi.running && s.fw.restarting.isNone

/-- A command that no row of its own carries out, which is one with an unknown OP or without word 1, is answered when it is stored or when
the management core has restarted. -/
def spiUnknown (s : State) : State :=
  match s.spi.rx with
  | none => s
  | some c => if spiServes s ∧ !spiOps.contains c.op then spiRefuse c (spiJudge s c) s else s

/-! ### Frames (R347 to R349, R353) -/

/-- A COMMAND frame's words stored in the receive side, at most 256 (R349); LEN is held against the words received (Table 15-6 code 6). -/
def spiStore (ws : List Word) (s : State) : State :=
  let n := ws.length - 1
  let c : SpiCmd := ⟨ws.take 256, n⟩
  let long := decide (256 < ws.length)
  let s1 := modSpi (fun p => { p with rx := some c, ovf := long }) s
  let s2 := if long then spiViol 5 n (bump rgSpi 16 8 1 s1) else s1
  let s3 := if n ≠ c.len then spiViol 6 n s2 else s2
  spiUnknown s3

/-- A COMMAND frame (R349): discarded while an answer waits or an export sequence runs, or where it ended while the receive side still held
HRDY low; stored otherwise. -/
def spiCommand (f : SpiFrame) (s : State) : State :=
  if f.hpresFell then s
  else if s.spi.ans.isSome ∨ s.spi.exp.isSome then spiViol 4 0 (spiDiscard s)
  else if s.spi.rx.isSome then spiDiscard s
  else spiStore (spiKept f) s

/-- SPI_COMMAND_FRAME (R349). -/
def execSpiCommandFrame (t : Instant) (f : SpiFrame) (s : State) : Host.Outcome State Fault Refusal :=
  let s := advance t s
  .next (if spiTakes f s ∧ spiKind f = 1 then spiCommand f (spiBegin f [] s) else s)

/-- The records of one answer of an export (R352): at most 31, FIRST, SENT, SEALED_END, FLAGS and the records. -/
def expBody (s : State) (first stop sealedEnd : Nat) : List Word :=
  let n := min 31 (stop - first)
  dWords first ++ [word n] ++ dWords sealedEnd ++ [word (b2n (first + n == stop))] ++
    (heldRecs s first n).flatMap fun r => strWords (recBytes r)

/-- The next answer of a sequence is placed, or the sequence ends with its LAST answer (R352). -/
def spiExpNext (s : State) : State :=
  match s.spi.exp with
  | none => s
  | some x =>
    if x.next = x.stop then exportEnd .spi (modSpi (fun p => { p with exp := none }) s)
    else
      modSpi (fun p => { p with exp := some { x with next := x.next + min 31 (x.stop - x.next) } })
        (spiPlace 0x30 0 x.tag (expBody s x.next x.stop x.sealedEnd) s)

/-- Whether every word of a content was clocked. -/
def clockedAll (f : SpiFrame) (content : Option (List Word)) : Bool :=
  match content with
  | none => false
  | some ws => !f.hpresFell && decide (ws.length + 1 ≤ (spiKept f).length)

/-- SPI_FETCH_ANSWER_FRAME (R353). -/
def execSpiFetchAnswerFrame (t : Instant) (f : SpiFrame) (s : State) : Host.Outcome State Fault Refusal :=
  let s := advance t s
  .next (if spiTakes f s ∧ spiKind f = 2 then
    let s1 := spiBegin f (s.spi.ans.getD []) s
    if clockedAll f s.spi.ans then spiExpNext (modSpi (fun p => { p with ans := none }) s1) else s1
  else s)

/-- SPI_FETCH_NOTE_FRAME (R353, R354). -/
def execSpiFetchNoteFrame (t : Instant) (f : SpiFrame) (s : State) : Host.Outcome State Fault Refusal :=
  let s := advance t s
  .next (if spiTakes f s ∧ spiKind f = 3 then
    let s1 := spiBegin f (s.spi.note.getD []) s
    if clockedAll f s.spi.note then spiNoteMove (modSpi (fun p => { p with note := none }) s1) else s1
  else s)

/-- The answer area emptied and an export sequence ended (R352, R353). -/
def spiAbort (s : State) : State := exportEnd .spi (modSpi (fun p => { p with ans := none, exp := none }) s)

/-- SPI_ABORT_FRAME (R353). -/
def execSpiAbortFrame (t : Instant) (f : SpiFrame) (s : State) : Host.Outcome State Fault Refusal :=
  let s := advance t s
  .next (if spiTakes f s ∧ spiKind f = 4 then
    let s1 := spiBegin f [] s
    if f.hpresFell then s1 else spiAbort s1
  else s)

/-- SPI_BAD_FRAME (R347): discarded whole. A frame without a whole word has no frame word to break. -/
def execSpiBadFrame (t : Instant) (f : SpiFrame) (s : State) : Host.Outcome State Fault Refusal :=
  let s := advance t s
  .next (if spiTakes f s ∧ spiKind f = 5 then spiBegin f [] s
  else if spiTakes f s ∧ spiKind f = 0 then
    let s1 := spiBegin f [] s
    if f.hpresFell then s1 else spiViol 3 (fld ((spiKept f).getD 0 0) 16 16) (spiDiscard s1)
  else s)

/-- SPI_FRAME_WHILE_STOPPED (R357): counted in PARTIAL, and DISCARDED in the next status word. -/
def execSpiFrameWhileStopped (t : Instant) (s : State) : Host.Outcome State Fault Refusal :=
  let s := advance t s
  .next (if s.encl.hpres then bump rgSpi 24 8 1 (modSpi (fun p => { p with disc := true }) s) else s)

/-! ### Commands (Table 15-5) -/

/-- A stored command of an OP: refused by the judgement of R350, or carried out by `f`, which answers with its result code and body. -/
def spiServe (op : Nat) (f : List Word → State → State × Nat × List Word) (s : State) : State :=
  match s.spi.rx with
  | none => s
  | some c =>
    if spiServes s ∧ c.op = op ∧ 0 < c.received then
      let j := spiJudge s c
      if j ≠ 0 then spiRefuse c j s
      else let r := f c.body s; spiPlace op r.2.1 c.tag r.2.2 r.1
    else s

/-- SPI_REG_READ (R352). -/
def execSpiRegRead (t : Instant) (s : State) : Host.Outcome State Fault Refusal :=
  .next (spiServe 0x01 (fun b s => svcRegRead (wAt b 0) (wAt b 1) s) (advance t s))

/-- SPI_REG_WRITE (R352). -/
def execSpiRegWrite (t : Instant) (s : State) : Host.Outcome State Fault Refusal :=
  .next (spiServe 0x02 (fun b s => let r := svcRegWrite (wAt b 0) (b.drop 1) s; (r.1, r.2.1, [word r.2.2])) (advance t s))

/-- SPI_ECHO (R352). -/
def execSpiEcho (t : Instant) (s : State) : Host.Outcome State Fault Refusal :=
  .next (spiServe 0x03 (fun b s => (s, 0, b)) (advance t s))

/-- SPI_VSTORE_WRITE (R193, R352). -/
def execSpiVstoreWrite (t : Instant) (s : State) : Host.Outcome State Fault Refusal :=
  .next (spiServe 0x10 (fun b s => let r := vstoreWrite (dAt b 0) (wordsBytes (b.drop 2)) s; (r.1, r.2.code, [])) (advance t s))

/-- SPI_VSTORE_READ (R352). -/
def execSpiVstoreRead (t : Instant) (s : State) : Host.Outcome State Fault Refusal :=
  .next (spiServe 0x11 (fun b s => let r := svcVstoreRead (dAt b 0) (24 * wAt b 2) s; (s, r.1, strWords r.2)) (advance t s))

/-- A stream piece: WR_SEQ, FILL and DISP. -/
def spiPiece (b : List Word) (s : State) : State × Nat × List Word :=
  let r := streamPiece (wAt b 0) (wAt b 1) (wordsBytes (b.drop 2)) none s
  let q := vget r.1.seqr.srings (wAt b 0) {}
  (r.1, 0, [word q.wr, word (sringFill q), word r.2])

/-- SPI_STREAM_PIECE (R228, R352). -/
def execSpiStreamPiece (t : Instant) (s : State) : Host.Outcome State Fault Refusal :=
  .next (spiServe 0x18 spiPiece (advance t s))

/-- A submission: SLOT, JOB_NO and HOST_TAG, or CODE and HOST_TAG. -/
def spiSubmit (b : List Word) (s : State) : State × Nat × List Word :=
  let r := submit 1 ⟨true, wordsBytes b⟩ none s
  if r.2.code = 0 then (r.1, 0, [word r.2.slot, word r.2.jobNo, b.getD 8 0])
  else (r.1, rcRefused, [word r.2.code, b.getD 8 0])

/-- SPI_JOB_SUBMIT (R212, R352). -/
def execSpiJobSubmit (t : Instant) (s : State) : Host.Outcome State Fault Refusal :=
  .next (spiServe 0x20 spiSubmit (advance t s))

/-- SPI_JOB_CANCEL (R222, R352). -/
def execSpiJobCancel (t : Instant) (s : State) : Host.Outcome State Fault Refusal :=
  .next (spiServe 0x21 (fun b s => (cancelMask (wAt b 0 % 65536) s, 0, [])) (advance t s))

/-- SPI_JOB_STATUS (R352). -/
def execSpiJobStatus (t : Instant) (s : State) : Host.Outcome State Fault Refusal :=
  .next (spiServe 0x22 (fun b s => (s, 0, svcJobStatus s (wAt b 0))) (advance t s))

/-- The unit after an export of `n` records from `first`: more than one answer holds opens a sequence (R352). -/
def spiExpOpen (tag first n : Nat) (s : State) : State :=
  if n ≤ 31 then s
  else modSpi (fun p => { p with exp := some ⟨first + 31, first + n, s.evid.sealedEnd, tag⟩ }) (exportBegin .spi first n s)

/-- The result code and body of an export that svcExport answered with `r`. -/
def spiExpAns (first : Nat) (r : Nat × Nat) (s : State) : Nat × List Word :=
  if r.1 ≠ 0 then (r.1, dWords first ++ [0] ++ dWords s.evid.sealedEnd ++ [1])
  else (0, expBody s first (first + r.2) s.evid.sealedEnd)

/-- An EXPORT (R257, R352): one answer, or the first of a sequence for more than 31 records. -/
def spiExport (tag : Nat) (b : List Word) (s : State) : State × Nat × List Word :=
  (if (svcExport (dAt b 0) (wAt b 2) s).2.1 ≠ 0 then (svcExport (dAt b 0) (wAt b 2) s).1
    else spiExpOpen tag (dAt b 0) (svcExport (dAt b 0) (wAt b 2) s).2.2 (svcExport (dAt b 0) (wAt b 2) s).1,
   spiExpAns (dAt b 0) (svcExport (dAt b 0) (wAt b 2) s).2 s)

/-- SPI_EXPORT (R257, R352). -/
def execSpiExport (t : Instant) (s : State) : Host.Outcome State Fault Refusal :=
  let s := advance t s
  let tag := match s.spi.rx with | some c => c.tag | none => 0
  .next (spiServe 0x30 (spiExport tag) s)

/-- SPI_EXPORT_TIMEOUT (R352): an answer of a sequence unfetched for 2 s is discarded, and the sequence ends. -/
def execSpiExportTimeout (t : Instant) (s : State) : Host.Outcome State Fault Refusal :=
  let s := advance t s
  .next (if s.spi.exp.isSome ∧ s.spi.ans.isSome ∧ 2 * cS + s.spi.ansAt ≤ s.now then spiAbort s else s)

/-- SPI_RELEASE (R258, R352). -/
def execSpiRelease (t : Instant) (s : State) : Host.Outcome State Fault Refusal :=
  .next (spiServe 0x31 (fun b s => let r := release (dAt b 0) s; (r.1, 0, dWords r.2)) (advance t s))

/-- SPI_CERT_READ (R283, R352). -/
def execSpiCertRead (t : Instant) (s : State) : Host.Outcome State Fault Refusal :=
  .next (spiServe 0x38 (fun b s =>
    let x := certRead s (wAt b 0) (wAt b 1)
    (s, 0, [word (wAt b 0), word x.length] ++ strWords x)) (advance t s))

/-- SPI_LOG_READ (R352, 17 R415). -/
def execSpiLogRead (t : Instant) (s : State) : Host.Outcome State Fault Refusal :=
  .next (spiServe 0x40 (fun b s =>
    let x := logRead s (wAt b 0) (wAt b 1)
    (s, 0, [word x.1, word x.2.length] ++ strWords (x.2.flatMap entryBytes))) (advance t s))

end Sys2Proof.Machine
end

