-- ==== Sys2Proof/Machine/Usb.lean ====
section
/-!
DEFINITION. Usb.lean: the USB maintenance port (15 R359 to R368): bus events, standard requests as USB 2.0 defines them (PRESUMED, log 60),
the vendor requests of Table 15-8, bulk streams and uploads. A request row is one happening: of an IN request at its setup, of an OUT
request at its status stage.
-/

namespace Sys2Proof.Machine

/-! ### Bus events (R359, R365) -/

/-- USB_BUS_RESET (R365). -/
def usbReset (high : Bool) (cut : Option UsbCut) (s : State) : State :=
  if s.usb.dev = 0 then s
  else
    bump rgUsb 24 8 1 (modUsb (fun u => { u with high := high && !bit s.r.usbCfg 1 }) (usbDetach 1 2 cut s))

/-- USB_BUS_RESET (R365). -/
def execUsbBusReset (t : Instant) (high : Bool) (cut : Option UsbCut) (s : State) : Host.Outcome State Fault Refusal :=
  .next (usbReset high cut (advance t s))

/-- Loss of VBUS at J8 (R365). -/
def vbusLoss (cut : Option UsbCut) (s : State) : State :=
  let s1 := { s with encl := { s.encl with vbus := false } }
  if s.usb.dev = 0 then s1 else usbDetach 2 0 cut s1

/-- VBUS_LOSS (R365). -/
def execVbusLoss (t : Instant) (cut : Option UsbCut) (s : State) : Host.Outcome State Fault Refusal :=
  .next (vbusLoss cut (advance t s))

/-- USB_SUSPEND (R359). -/
def execUsbSuspend (t : Instant) (s : State) : Host.Outcome State Fault Refusal :=
  let s := advance t s
  .next (if s.usb.dev = 0 then s else modUsb (fun u => { u with suspended := true }) s)

/-- USB_RESUME (R359). -/
def execUsbResume (t : Instant) (s : State) : Host.Outcome State Fault Refusal :=
  .next (modUsb (fun u => { u with suspended := false }) (advance t s))

/-! ### Control transfers -/

/-- Whether a control transfer is carried out: the device has been reset, is not suspended nor in a test mode, and the management core
does not restart (R359, 17 R406). -/
def usbControl (s : State) : Bool :=
  decide (2 ≤ s.usb.dev) && !s.usb.suspended && s.usb.test == 0 && s.fw.restarting.isNone

/-- The two words of a setup packet. -/
def setupWords (req : Nat) (u : UsbSetup) : List Nat :=
  [u.bmRequestType % 256 + 2 ^ 8 * req + 2 ^ 16 * (u.wValue % 65536), u.wIndex % 65536 + 2 ^ 16 * (u.wLength % 65536)]

/-- A violation of a USB host (R366): its bRequest, with the setup bytes and the length concerned. -/
def usbViol (req : Nat) (ws : List Nat) (s : State) : State := fault ⟨36, 0, none⟩ (req % 256) ws s

/-- A setup answered with a STALL. -/
def usbStall (s : State) : State := bump rgUsb 8 8 1 (modUsb (fun u => { u with stall := true, dataIn := [] }) s)

/-- A standard request: the previous transfer it cuts, then its answer; none is a STALL. -/
def usbStd (u : UsbSetup) (f : State → Option (State × List Byte)) (s : State) : State :=
  if usbControl s then
    let s1 := usbCut 0 u.cut s
    match f s1 with
    | none => usbStall s1
    | some r => modUsb (fun x => { x with stall := false, dataIn := r.2.take u.wLength }) r.1
  else s

/-- Whether an endpoint address is one of the two bulk endpoints; whether it is endpoint 0. -/
def epBulk (i : Nat) : Bool := i == 0x81 || i == 0x02
def epZero (i : Nat) : Bool := i == 0x00 || i == 0x80

/-- GET_STATUS: self-powered, no remote wakeup; halts of the bulk endpoints. -/
def stdGetStatus (u : UsbSetup) (s : State) : Option (State × List Byte) :=
  if u.wValue ≠ 0 ∨ u.wLength ≠ 2 ∨ s.usb.dev < 3 then none
  else match u.bmRequestType with
    | 0x80 => if u.wIndex = 0 then some (s, [1, 0]) else none
    | 0x81 => if u.wIndex = 0 ∧ s.usb.dev = 4 then some (s, [0, 0]) else none
    | 0x82 =>
      if epZero u.wIndex then some (s, [0, 0])
      else if epBulk u.wIndex ∧ s.usb.dev = 4 then
        some (s, [BitVec.ofNat 8 (b2n (if u.wIndex = 0x81 then s.usb.haltIn else s.usb.haltOut)), 0])
      else none
    | _ => none

/-- USB_GET_STATUS (R359). -/
def execUsbGetStatus (t : Instant) (u : UsbSetup) (s : State) : Host.Outcome State Fault Refusal :=
  .next (usbStd u (stdGetStatus u) (advance t s))

/-- ENDPOINT_HALT of a bulk endpoint set or cleared. -/
def setHalt (ep : Nat) (v : Bool) (s : State) : State :=
  modUsb (fun x => if ep = 0x81 then { x with haltIn := v } else { x with haltOut := v }) s

/-- CLEAR_FEATURE: only ENDPOINT_HALT can be cleared. -/
def stdClearFeature (u : UsbSetup) (s : State) : Option (State × List Byte) :=
  if u.bmRequestType ≠ 0x02 ∨ u.wValue ≠ 0 ∨ u.wLength ≠ 0 ∨ s.usb.dev < 3 then none
  else if epZero u.wIndex then some (s, [])
  else if epBulk u.wIndex ∧ s.usb.dev = 4 then some (setHalt u.wIndex false s, [])
  else none

/-- USB_CLEAR_FEATURE (R359, R363). -/
def execUsbClearFeature (t : Instant) (u : UsbSetup) (s : State) : Host.Outcome State Fault Refusal :=
  .next (usbStd u (stdClearFeature u) (advance t s))

/-- SET_FEATURE: ENDPOINT_HALT of a bulk endpoint, or TEST_MODE with selectors 1 to 5 at high speed. -/
def stdSetFeature (u : UsbSetup) (s : State) : Option (State × List Byte) :=
  if u.wLength ≠ 0 then none
  else match u.bmRequestType, u.wValue with
    | 0x02, 0 => if epBulk u.wIndex ∧ s.usb.dev = 4 then some (setHalt u.wIndex true s, []) else none
    | 0x00, 2 =>
      if u.wIndex % 256 = 0 ∧ inRange 1 5 (u.wIndex / 256) ∧ s.usb.high then
        some (modUsb (fun x => { x with test := u.wIndex / 256 }) s, [])
      else none
    | _, _ => none

/-- USB_SET_FEATURE (R359). -/
def execUsbSetFeature (t : Instant) (u : UsbSetup) (s : State) : Host.Outcome State Fault Refusal :=
  .next (usbStd u (stdSetFeature u) (advance t s))

/-- SET_ADDRESS: to or from the default state. -/
def stdSetAddress (u : UsbSetup) (s : State) : Option (State × List Byte) :=
  if u.bmRequestType ≠ 0 ∨ 127 < u.wValue ∨ u.wIndex ≠ 0 ∨ u.wLength ≠ 0 ∨ s.usb.dev = 4 then none
  else some (modUsb (fun x => { x with addr := u.wValue, dev := if u.wValue = 0 then 2 else 3 }) s, [])

/-- USB_SET_ADDRESS (R359). -/
def execUsbSetAddress (t : Instant) (u : UsbSetup) (s : State) : Host.Outcome State Fault Refusal :=
  .next (usbStd u (stdSetAddress u) (advance t s))

/-! ### Descriptors (Table 15-7) -/

/-- Two bytes, little-endian. -/
def le2 (n : Nat) : List Byte := leBytes 2 n

/-- The device descriptor; the strings have the indices 1, 2 and 3 in the table's order (log 60). -/
def deviceDesc : List Byte :=
  [18, 1] ++ le2 0x0200 ++ [0, 0, 0, 64] ++ le2 0x3E5A ++ le2 0x0040 ++ le2 0x0100 ++ [1, 2, 3, 1]

def qualifierDesc : List Byte := [10, 6] ++ le2 0x0200 ++ [0, 0, 0, 64, 1, 0]

/-- The configuration descriptor, or that of the other speed, with the packet size of the bulk endpoints. -/
def configDesc (type : Byte) (size : Nat) : List Byte :=
  [9, type] ++ le2 32 ++ [1, 1, 0, 0xC0, 2] ++ [9, 4, 0, 0, 2, 0xFF, 0x54, 1, 0] ++
  [7, 5, 0x81, 2] ++ le2 size ++ [0] ++ [7, 5, 0x02, 2] ++ le2 size ++ [0]

/-- An upper-case hexadecimal digit. -/
def hexDigit (n : Nat) : Byte := BitVec.ofNat 8 (if n < 10 then 0x30 + n else 0x37 + n)

/-- The serial number as 16 hexadecimal digits. -/
def serialDigits (n : Nat) : List Byte := (List.range 16).map fun i => hexDigit (n / 16 ^ (15 - i) % 16)

/-- A string descriptor. -/
def stringDesc (cs : List Byte) : List Byte := [BitVec.ofNat 8 (2 + 2 * cs.length), 3] ++ cs.flatMap fun c => [c, 0]

/-- Packet size of the bulk endpoints (R359). -/
def bulkSize (high : Bool) : Nat := if high then 512 else 64

def descOf (s : State) (type index : Nat) : Option (List Byte) :=
  match type, index with
  | 1, 0 => some deviceDesc
  | 2, 0 => some (configDesc 2 (bulkSize s.usb.high))
  | 3, 0 => some [4, 3, 0x09, 0x04]
  | 3, 1 => some (stringDesc (ascii "Oadalu Instruments"))
  | 3, 2 => some (stringDesc (ascii "Tamong TA-64"))
  | 3, 3 => some (stringDesc (serialDigits s.boot.serial.toNat))
  | 6, 0 => some qualifierDesc
  | 7, 0 => some (configDesc 7 (bulkSize !s.usb.high))
  | _, _ => none

def stdGetDescriptor (u : UsbSetup) (s : State) : Option (State × List Byte) :=
  if u.bmRequestType ≠ 0x80 then none else (descOf s (u.wValue / 256) (u.wValue % 256)).map fun d => (s, d)

/-- USB_GET_DESCRIPTOR (R359). -/
def execUsbGetDescriptor (t : Instant) (u : UsbSetup) (s : State) : Host.Outcome State Fault Refusal :=
  .next (usbStd u (stdGetDescriptor u) (advance t s))

def stdGetConfiguration (u : UsbSetup) (s : State) : Option (State × List Byte) :=
  if u.bmRequestType ≠ 0x80 ∨ u.wValue ≠ 0 ∨ u.wIndex ≠ 0 ∨ u.wLength ≠ 1 ∨ s.usb.dev < 3 then none
  else some (s, [BitVec.ofNat 8 (b2n (s.usb.dev == 4))])

/-- USB_GET_CONFIGURATION (R359). -/
def execUsbGetConfiguration (t : Instant) (u : UsbSetup) (s : State) : Host.Outcome State Fault Refusal :=
  .next (usbStd u (stdGetConfiguration u) (advance t s))

/-- SET_CONFIGURATION 0 or 1; the bulk endpoints start without a halt. -/
def stdSetConfiguration (u : UsbSetup) (s : State) : Option (State × List Byte) :=
  if u.bmRequestType ≠ 0 ∨ 1 < u.wValue ∨ u.wIndex ≠ 0 ∨ u.wLength ≠ 0 ∨ s.usb.dev < 3 then none
  else some (modUsb (fun x => { x with dev := 3 + u.wValue, haltIn := false, haltOut := false }) s, [])

/-- USB_SET_CONFIGURATION (R359). -/
def execUsbSetConfiguration (t : Instant) (u : UsbSetup) (s : State) : Host.Outcome State Fault Refusal :=
  .next (usbStd u (stdSetConfiguration u) (advance t s))

def stdGetInterface (u : UsbSetup) (s : State) : Option (State × List Byte) :=
  if u.bmRequestType ≠ 0x81 ∨ u.wValue ≠ 0 ∨ u.wIndex ≠ 0 ∨ u.wLength ≠ 1 ∨ s.usb.dev ≠ 4 then none else some (s, [0])

/-- USB_GET_INTERFACE (R359). -/
def execUsbGetInterface (t : Instant) (u : UsbSetup) (s : State) : Host.Outcome State Fault Refusal :=
  .next (usbStd u (stdGetInterface u) (advance t s))

/-- SET_INTERFACE to alternate setting 0. -/
def stdSetInterface (u : UsbSetup) (s : State) : Option (State × List Byte) :=
  if u.bmRequestType ≠ 0x01 ∨ u.wValue ≠ 0 ∨ u.wIndex ≠ 0 ∨ u.wLength ≠ 0 ∨ s.usb.dev ≠ 4 then none
  else some (modUsb (fun x => { x with haltIn := false, haltOut := false }) s, [])

/-- USB_SET_INTERFACE (R359). -/
def execUsbSetInterface (t : Instant) (u : UsbSetup) (s : State) : Host.Outcome State Fault Refusal :=
  .next (usbStd u (stdSetInterface u) (advance t s))

/-! ### Vendor requests (R360, Table 15-8) -/

/-- The result a vendor request leaves for LAST_RESULT. -/
def usbResult (req code cd value : Nat) (s : State) : State :=
  modUsb (fun u => { u with lastReq := req, last := code, lastCode := cd, lastValue := value, stall := false }) s

/-- What a vendor request does: its data, its result code, and CODE and VALUE. -/
structure UsbAns where
  data : List Byte
  code : Nat
  cd : Nat
  value : Nat
  deriving DecidableEq, Repr

/-- A plain result. -/
def usbOk : UsbAns := ⟨[], 0, 0, 0⟩
def usbNo (code : Nat) : UsbAns := ⟨[], code, 0, 0⟩

/-- A setup that keeps Table 15-8: direction, wValue and wIndex as `head` says, and wLength. One that breaks it is answered with a STALL,
a violation of the host (R366); it leaves LENGTH where only wLength breaks the table, and UNKNOWN_OP otherwise.
A REG_READ refused under R419 is answered with a STALL too, its code in LAST_RESULT. -/
def usbVendor (req : Nat) (u : UsbSetup) (head lenOk : Bool) (f : State → State × UsbAns) (s : State) : State :=
  if usbControl s then
    let s1 := usbCut 0 u.cut s
    if head && lenOk then
      let r := f s1
      let s2 := usbResult req r.2.code r.2.cd r.2.value r.1
      if req = 0x02 ∧ r.2.code ≠ 0 then usbStall s2 else modUsb (fun x => { x with dataIn := r.2.data.take u.wLength }) s2
    else
      usbViol req (setupWords req u) (usbStall (usbResult req (if head then rcLength else rcUnknown) 0 0 s1))
  else s

/-- Direction and zero wValue and wIndex. -/
def vIn0 (u : UsbSetup) : Bool := u.bmRequestType == 0xC0 && u.wValue == 0 && u.wIndex == 0
def vOut0 (u : UsbSetup) : Bool := u.bmRequestType == 0x40 && u.wValue == 0 && u.wIndex == 0

/-- An OUT request whose data stage brought fewer bytes than wLength is not carried out. -/
def usbOut (u : UsbSetup) (data : List Byte) (f : State → State × UsbAns) (s : State) : State × UsbAns :=
  if data.length = u.wLength then f s else (s, usbNo rcLength)

/-- Registers of GET_INFO, in order. -/
def infoRegs : List Nat :=
  [0x000, 0x004, 0x008, 0x00C, 0x010, 0x100, 0x050, 0x068, 0x214, 0x218, 0x400, 0x408, 0x40C, 0x418, 0x41C, 0x610]

/-- Registers read one after another. -/
def readList : List Nat → State → State × List Word
  | [], s => (s, [])
  | a :: l, s =>
    let x := busRead a s
    let r := readList l x.1
    (r.1, x.2 :: r.2)

/-- Register values as little-endian bytes (R359). -/
def leVals (ws : List Word) : List Byte := ws.flatMap fun w => leBytes 4 w.toNat

def usbInfo (s : State) : State × UsbAns := let r := readList infoRegs s; (r.1, ⟨leVals r.2, 0, 0, 0⟩)

/-- USB_GET_INFO (R360). -/
def execUsbGetInfo (t : Instant) (u : UsbSetup) (s : State) : Host.Outcome State Fault Refusal :=
  .next (usbVendor 0x01 u (vIn0 u) (inRange 1 65535 u.wLength) usbInfo (advance t s))

/-- The address a REG_READ or REG_WRITE names. -/
def usbAddr (u : UsbSetup) : Nat := u.wValue % 65536 + 65536 * (u.wIndex % 65536)

def usbReadRegs (u : UsbSetup) (s : State) : State × UsbAns :=
  let r := svcRegRead (usbAddr u) (u.wLength / 4) s
  (r.1, ⟨leVals r.2.2, r.2.1, 0, 0⟩)

/-- Lengths of a register request. -/
def regLen (u : UsbSetup) : Bool := inRange 4 256 u.wLength && u.wLength % 4 == 0

/-- USB_REG_READ (R360). -/
def execUsbRegRead (t : Instant) (u : UsbSetup) (s : State) : Host.Outcome State Fault Refusal :=
  .next (usbVendor 0x02 u (u.bmRequestType == 0xC0) (regLen u) (usbReadRegs u) (advance t s))

/-- Little-endian words of a payload. -/
def leVec (b : List Byte) : List Word := (List.range (b.length / 4)).map fun i => word (leAt b (4 * i) 4)

def usbWriteRegs (u : UsbSetup) (data : List Byte) (s : State) : State × UsbAns :=
  let r := svcRegWrite (usbAddr u) (leVec data) s
  (r.1, ⟨[], r.2.1, if r.2.1 = rcAccess then r.2.2 else 0, 0⟩)

/-- USB_REG_WRITE (R360). -/
def execUsbRegWrite (t : Instant) (u : UsbSetup) (data : List Byte) (s : State) : Host.Outcome State Fault Refusal :=
  .next (usbVendor 0x03 u (u.bmRequestType == 0x40) (regLen u) (usbOut u data (usbWriteRegs u data)) (advance t s))

/-- USB_CERT_READ (R283, R360). -/
def execUsbCertRead (t : Instant) (u : UsbSetup) (s : State) : Host.Outcome State Fault Refusal :=
  .next (usbVendor 0x04 u (u.bmRequestType == 0xC0 && u.wIndex == 0) (inRange 1 4096 u.wLength)
    (fun s => (s, ⟨certRead s u.wValue u.wLength, 0, 0, 0⟩)) (advance t s))

/-- The 16 bytes of LAST_RESULT. -/
def lastResult (s : State) : List Byte :=
  let u := s.usb
  leBytes 1 u.lastReq ++ leBytes 1 u.last ++ [0, 0] ++ leBytes 4 u.lastCode ++ leBytes 8 u.lastValue

/-- USB_LAST_RESULT (R360). -/
def execUsbLastResult (t : Instant) (u : UsbSetup) (s : State) : Host.Outcome State Fault Refusal :=
  .next (usbVendor 0x05 u (vIn0 u) (inRange 1 65535 u.wLength) (fun s => (s, ⟨lastResult s, 0, 0, 0⟩)) (advance t s))

/-! ### Bulk IN streams (R361, R362) -/

/-- The header of a stream (Table 15-9). -/
def bulkHeader (kind first sealedEnd sent result : Nat) : List Byte :=
  ascii "TAST" ++ leBytes 2 kind ++ [0, 0] ++ leBytes 8 first ++ leBytes 8 sealedEnd ++ leBytes 4 sent ++ leBytes 4 result

/-- A stream opens. -/
def bulkOpen (kind : Nat) (bytes : List Byte) (s : State) : State :=
  modUsb (fun u => { u with bulk := some ⟨kind, bytes, s.now⟩ }) s

/-- An export stream (R257): a refusal opens one of a header alone, whose RESULT states it. -/
def usbExport (data : List Byte) (s : State) : State × UsbAns :=
  if s.usb.bulk.isSome then (s, usbNo rcBusy)
  else
    let first := leAt data 0 8
    let r := svcExport first (leAt data 8 4) s
    let h := bulkHeader 1 first s.evid.sealedEnd r.2.2 r.2.1
    let s1 := if r.2.2 = 0 then r.1 else exportBegin .usb first r.2.2 r.1
    (bulkOpen 1 (h ++ (heldRecs s first r.2.2).flatMap recBytes) s1, usbNo r.2.1)

/-- USB_EXPORT_START (R257, R361). -/
def execUsbExportStart (t : Instant) (u : UsbSetup) (data : List Byte) (s : State) : Host.Outcome State Fault Refusal :=
  .next (usbVendor 0x10 u (vOut0 u) (u.wLength == 12) (usbOut u data (usbExport data)) (advance t s))

/-- A log stream (17 R415). -/
def usbLog (data : List Byte) (s : State) : State × UsbAns :=
  let n := leAt data 4 4
  if !inRange 1 2048 n then (s, usbNo rcLength)
  else if s.usb.bulk.isSome then (s, usbNo rcBusy)
  else
    let x := logRead s (leAt data 0 4) n
    (bulkOpen 2 (bulkHeader 2 x.1 0 x.2.length 0 ++ x.2.flatMap entryBytes) s, usbOk)

/-- USB_LOG_START (R361). -/
def execUsbLogStart (t : Instant) (u : UsbSetup) (data : List Byte) (s : State) : Host.Outcome State Fault Refusal :=
  .next (usbVendor 0x11 u (vOut0 u) (u.wLength == 8) (usbOut u data (usbLog data)) (advance t s))

/-- A debug stream reads DRAM in one access of the DBG requester, taken when the stream opens (R362, R268). -/
def usbDebug (data : List Byte) (s : State) : State × UsbAns :=
  let a := leAt data 0 4
  let n := leAt data 4 4
  if !inRange 4 65536 n ∨ n % 4 ≠ 0 then (s, usbNo rcLength)
  else if s.usb.bulk.isSome then (s, usbNo rcBusy)
  else if !bit s.r.usbCfg 0 then (s, usbNo rcState)
  else if 2 ^ 32 < a + n then (s, usbNo rcAddress)
  else
    let bytes := (List.range n).map fun i => Config.dramByte s.free (a + i)
    let s1 := dbgRaise ((n + 31) / 32) (arbReady { s with free := s.free + 1 })
    (bulkOpen 3 (bulkHeader 3 a 0 n 0 ++ bytes) s1, usbOk)

/-- USB_DEBUG_START (R361, R362). -/
def execUsbDebugStart (t : Instant) (u : UsbSetup) (data : List Byte) (s : State) : Host.Outcome State Fault Refusal :=
  .next (usbVendor 0x12 u (vOut0 u) (u.wLength == 8) (usbOut u data (usbDebug data)) (advance t s))

/-- A running stream is cut after its current packet (R361). -/
def bulkAbort (s : State) : State :=
  modUsb (fun u => { u with bulk := u.bulk.map fun x => { x with data := x.data.take (bulkSize u.high) } }) s

/-- USB_BULK_ABORT (R361). -/
def execUsbBulkAbort (t : Instant) (u : UsbSetup) (data : List Byte) (s : State) : Host.Outcome State Fault Refusal :=
  .next (usbVendor 0x13 u (vOut0 u) (u.wLength == 0) (usbOut u data fun s => (bulkAbort s, usbOk)) (advance t s))

/-- USB_RELEASE (R258, R360). -/
def execUsbRelease (t : Instant) (u : UsbSetup) (data : List Byte) (s : State) : Host.Outcome State Fault Refusal :=
  .next (usbVendor 0x14 u (vOut0 u) (u.wLength == 8)
    (usbOut u data fun s => let r := release (leAt data 0 8) s; (r.1, ⟨[], 0, 0, r.2⟩)) (advance t s))

/-! ### Uploads (R363, R368) -/

/-- A new upload discards what is staged (05 R147). -/
def uploadOpen (len : Nat) (s : State) : State :=
  let s1 := stageDiscard s
  { s1 with boot := { s1.boot with
      stageLen := len, stageState := if s1.boot.commit.isSome then s1.boot.stageState else 1 } }

/-- Bytes appended to the staging buffer; the image is staged once all its bytes are there. -/
def stageAppend (bs : List Byte) (s : State) : State :=
  let st := s.boot.stage ++ bs
  { s with boot := { s.boot with
      stage := st
      stageState := if s.boot.commit.isSome then s.boot.stageState else if st.length = s.boot.stageLen then 2 else s.boot.stageState } }

/-- The length of an image to upload. -/
def imgLenOk (n : Nat) : Bool := inRange 64 1048576 n && n % 4 == 0

def usbUpload (data : List Byte) (s : State) : State × UsbAns :=
  let n := leAt data 0 4
  if !imgLenOk n then (s, usbNo rcLength)
  else if s.pwr.st = .dusk then (s, usbNo rcState)
  else (modUsb (fun u => { u with upOn := true, upLen := n, upGot := 0, upAt := s.now, haltOut := false }) (uploadOpen n s), usbOk)

/-- USB_UPLOAD_BEGIN (R363). -/
def execUsbUploadBegin (t : Instant) (u : UsbSetup) (data : List Byte) (s : State) : Host.Outcome State Fault Refusal :=
  .next (usbVendor 0x20 u (vOut0 u) (u.wLength == 4) (usbOut u data (usbUpload data)) (advance t s))

/-- A commit request (05 R148): accepted, it closes the upload of its port. -/
def usbCommit (s : State) : State × UsbAns :=
  if s.pwr.st = .dusk then (s, usbNo rcState)
  else
    let r := commitRequest s
    if r.2 = 0 then (modUsb (fun u => { u with upOn := false }) { r.1 with tasp := { r.1.tasp with upSess := none } }, usbOk)
    else (r.1, ⟨[], rcRefused, r.2, 0⟩)

/-- USB_UPLOAD_COMMIT (R363). -/
def execUsbUploadCommit (t : Instant) (u : UsbSetup) (data : List Byte) (s : State) : Host.Outcome State Fault Refusal :=
  .next (usbVendor 0x21 u (vOut0 u) (u.wLength == 0) (usbOut u data usbCommit) (advance t s))

/-- USB_STAGE_STATUS (R360). -/
def execUsbStageStatus (t : Instant) (u : UsbSetup) (s : State) : Host.Outcome State Fault Refusal :=
  .next (usbVendor 0x22 u (vIn0 u) (inRange 1 65535 u.wLength)
    (fun s => (s, ⟨leVals [bootStage s] ++ leBytes 4 s.usb.upGot, 0, 0, 0⟩)) (advance t s))

/-! ### Bulk packets (R361, R363, R364) -/

/-- Whether the bulk endpoints work. -/
def usbBulkOn (s : State) : Bool := s.usb.dev == 4 && !s.usb.suspended && s.usb.test == 0

/-- Bulk OUT data that no upload takes halts the endpoint, a violation of the host (R363, R366). -/
def bulkOutHalt (len : Nat) (s : State) : State :=
  usbViol 0 [0, 0, len] (bump rgUsb 8 8 1 (modUsb (fun u => { u with haltOut := true }) s))

def bulkOut (data : List Byte) (s : State) : State :=
  if usbBulkOn s ∧ !s.usb.haltOut then
    if s.usb.upOn then
      let room := s.usb.upLen - s.usb.upGot
      let part := data.take room
      let s1 := stageAppend part (modUsb (fun u => { u with upGot := u.upGot + part.length, upAt := s.now }) s)
      if room < data.length then bulkOutHalt data.length s1 else s1
    else bulkOutHalt data.length s
  else s

/-- USB_BULK_OUT_PACKET (R363). -/
def execUsbBulkOutPacket (t : Instant) (data : List Byte) (s : State) : Host.Outcome State Fault Refusal :=
  .next (bulkOut data (advance t s))

/-- The host takes a packet; one shorter than the endpoint's size ends the stream, and with it an export (R361, R362). -/
def bulkIn (s : State) : State :=
  match s.usb.bulk with
  | none => s
  | some x =>
    if usbBulkOn s ∧ !s.usb.haltIn then
      let n := bulkSize s.usb.high
      let pkt := x.data.take n
      let s1 := modUsb (fun u => { u with pktIn := pkt, bulk := some { x with data := x.data.drop n, lastAt := s.now } }) s
      if pkt.length < n then usbEndBulk s1 else s1
    else s

/-- USB_BULK_IN_PACKET (R361). -/
def execUsbBulkInPacket (t : Instant) (s : State) : Host.Outcome State Fault Refusal :=
  .next (bulkIn (advance t s))

/-- A stream whose next packet is not taken for 2 s ends. -/
def streamTimeout (s : State) : State :=
  match s.usb.bulk with
  | none => s
  | some x =>
    if 2 * cS + x.lastAt ≤ s.now then usbViol (0x0F + x.kind) [0, 0, x.data.length] (bump rgUsb 0 8 1 (usbEndBulk s)) else s

/-- An upload whose next packet does not arrive for 2 s ends, and leaves the staging buffer empty. -/
def uploadTimeout (s : State) : State :=
  if s.usb.upOn ∧ s.usb.upGot < s.usb.upLen ∧ 2 * cS + s.usb.upAt ≤ s.now then
    usbViol 0x20 [0, 0, s.usb.upGot] (bump rgUsb 0 8 1 (usbEndUpload s))
  else s

/-- USB_BULK_TIMEOUT (R364). -/
def execUsbBulkTimeout (t : Instant) (s : State) : Host.Outcome State Fault Refusal :=
  .next (uploadTimeout (streamTimeout (advance t s)))

end Sys2Proof.Machine
end

