-- ==== Sys2Proof/Machine/Eth.lean ====
section
/-!
DEFINITION. Eth.lean: the link at J1 and the services of 16 R370 to R375 and R393: link changes, DHCPv4 (RFC 2131, log 61), ARP, IPv6
autoconfiguration and neighbour discovery (RFC 4861, RFC 4862), echo, group reports and dropped frames.
-/

namespace Sys2Proof.Machine

def modEth (f : Eth → Eth) (s : State) : State := { s with eth := f s.eth }

/-- A happening at J1: frames it hands to the normal transmit queue replace those of the happening before (log 25). -/
def ethCmd (f : State → State) (s : State) : State := f (modEth (fun e => { e with txNorm := [] }) s)

/-- Whether the port services answer: they run, and the link is up (R372). -/
def ethOn (s : State) : Bool := s.eth.running && s.eth.link

/-- RX_ERR counts one. -/
def rxErr (s : State) : State := bump rgEthRx 24 8 1 s

/-! ### Link (R370, R371; 17 source 39) -/

/-- ETH_LINK_UP: the link is down in Night and without line power (03 R59). -/
def linkUp (s : State) : State :=
  if fastOn s then setCond 39 0 false (modEth (fun e => { e with link := true, eee := bit s.r.ethCfg 7 }) s) else s

/-- ETH_LINK_UP (R370). -/
def execEthLinkUp (t : Instant) (s : State) : Host.Outcome State Fault Refusal := .next (ethCmd linkUp (advance t s))

/-- ETH_LINK_DOWN: queued frames are discarded, and the source LINK counts while the services run. -/
def linkDown (s : State) : State :=
  if s.eth.link then
    let s1 := modEth (fun e => { e with link := false, eee := false, txPri := [], txNorm := [] }) s
    if s.eth.running then setCond 39 0 true (faultU 39 0 s1) else s1
  else s

/-- ETH_LINK_DOWN (R370). -/
def execEthLinkDown (t : Instant) (s : State) : Host.Outcome State Fault Refusal := .next (ethCmd linkDown (advance t s))

/-! ### DHCPv4 (R373) -/

/-- The client is without a lease and begins again; one it held is lost, which is logged. -/
def dhcpRestart (s : State) : State :=
  let s1 := dhcpBegin s
  if 3 ≤ s.eth.dhcpSt then notice 0x0D 1 [] s1 else s1

/-- A DHCPv4 answer. -/
def dhcpIn (m : DhcpMsg) (s : State) : State :=
  if ethOn s then
    match m, s.eth.dhcpSt with
    | .offer a, 1 =>
      dhcpSend 3 a (modEth (fun e => { e with dhcpSt := 2, dhcpOffer := a, dhcpAt := 4 * cS + s.now, dhcpRetry := 4 }) s)
    | .ack a mask router lease t1 t2, n =>
      if n = 2 ∨ n = 4 ∨ n = 5 then
        modEth (fun e => { e with
          ipv4 := a, mask := mask, router := router, dhcpSt := 3, dhcpOffer := a, dhcpAt := s.now + cS * t1
          dhcpT2 := s.now + cS * t2, dhcpEnd := s.now + cS * lease }) s
      else s
    | .nak, n => if n = 2 ∨ n = 4 ∨ n = 5 then dhcpRestart s else s
    | _, _ => s
  else s

/-- DHCP_MESSAGE (R373). -/
def execDhcpMessage (t : Instant) (m : DhcpMsg) (s : State) : Host.Outcome State Fault Refusal :=
  .next (ethCmd (dhcpIn m) (advance t s))

/-- A retry without a lease: the spacing doubles, to at most 64 s. -/
def dhcpRetry (type : Nat) (a : BitVec 32) (s : State) : State :=
  let n := min 64 (2 * s.eth.dhcpRetry)
  dhcpSend type a (modEth (fun e => { e with dhcpRetry := n, dhcpAt := s.now + cS * n }) s)

/-- A retry with a lease: half of the time that is left to `limit`, at least 60 s (RFC 2131). -/
def dhcpRenew (st : Nat) (limit : Instant) (s : State) : State :=
  dhcpSend 3 s.eth.ipv4 (modEth (fun e => { e with
    dhcpSt := st, dhcpAt := min limit (s.now + max (60 * cS) ((limit - s.now) / 2)) }) s)

/-- A timer of the client falls due: retry, renewal at T1, rebinding at T2, or the end of the lease. -/
def dhcpTick (s : State) : State :=
  let e := s.eth
  if s.eth.running ∧ e.dhcpAt ≤ s.now then
    match e.dhcpSt with
    | 1 => dhcpRetry 1 0 s
    | 2 => if e.dhcpRetry = 64 then dhcpBegin s else dhcpRetry 3 e.dhcpOffer s
    | 3 => dhcpRenew 4 e.dhcpT2 s
    | 4 => if e.dhcpT2 ≤ s.now then dhcpRenew 5 e.dhcpEnd s else dhcpRenew 4 e.dhcpT2 s
    | 5 => if e.dhcpEnd ≤ s.now then dhcpRestart s else dhcpRenew 5 e.dhcpEnd s
    | _ => s
  else s

/-- DHCP_TIMER (R373). -/
def execDhcpTimer (t : Instant) (s : State) : Host.Outcome State Fault Refusal := .next (ethCmd dhcpTick (advance t s))

/-! ### ARP (R373) -/

/-- The cache with an address entered: the oldest entry of 16 gives way. -/
def arpPut (ip : BitVec 32) (mac : BitVec 48) (now : Instant) (l : List (BitVec 32 × BitVec 48 × Instant)) :
    List (BitVec 32 × BitVec 48 × Instant) :=
  let r := l.filter fun e => e.1 != ip
  r.drop (r.length + 1 - 16) ++ [(ip, mac, now)]

/-- ARP_REQUEST: a request for the unit's address is answered, and its sender cached. -/
def arpIn (senderIp targetIp : BitVec 32) (mac : BitVec 48) (s : State) : State :=
  if ethOn s ∧ s.eth.ipv4 ≠ 0 ∧ targetIp = s.eth.ipv4 then
    let s1 := if senderIp = 0 then s else modEth (fun e => { e with arp := arpPut senderIp mac s.now e.arp }) s
    ethSend ⟨2, ⟨false, senderIp.setWidth 128, 0⟩, beBytes 6 Config.mac.toNat ++ beBytes 4 targetIp.toNat ++ beBytes 6 mac.toNat⟩ s1
  else s

/-- ARP_REQUEST (R373). -/
def execArpRequest (t : Instant) (senderIp targetIp : BitVec 32) (senderMac : BitVec 48) (s : State) :
    Host.Outcome State Fault Refusal :=
  .next (ethCmd (arpIn senderIp targetIp senderMac) (advance t s))

/-- ARP_ENTRY_AGE_OUT (R373): after 60 s. -/
def execArpEntryAgeOut (t : Instant) (ip : BitVec 32) (s : State) : Host.Outcome State Fault Refusal :=
  let s := advance t s
  .next (modEth (fun e => { e with arp := e.arp.filter fun x => !(x.1 == ip && decide (60 * cS + x.2.2 ≤ s.now)) }) s)

/-! ### IPv6 (R374) -/

/-- IPv6 runs: bit 1 of NET FLAGS, unless its link-local address failed duplicate address detection. -/
def v6On (s : State) : Bool := ethOn s && netFlag s 1 && !s.eth.v6Off

/-- A prefix with the A flag forms a global address, up to two, which is then probed. -/
def routerAdv (prefix64 : BitVec 64) (aFlag : Bool) (s : State) : State :=
  let a := prefix64 ++ eui64 Config.mac
  let globals := (s.eth.ipv6.filter fun x => !linkLocal x.1).length
  if v6On s ∧ aFlag ∧ !linkLocal a ∧ globals < 2 ∧ !(s.eth.ipv6.any fun x => x.1 == a) then
    ndSend 135 a a (modEth (fun e => { e with ipv6 := e.ipv6 ++ [(a, false)] }) s)
  else s

/-- IPV6_ROUTER_ADVERTISEMENT (R374). -/
def execIpv6RouterAdvertisement (t : Instant) (prefix64 : BitVec 64) (aFlag : Bool) (s : State) :
    Host.Outcome State Fault Refusal :=
  .next (ethCmd (routerAdv prefix64 aFlag) (advance t s))

/-- Duplicate address detection of an address ends: it is valid, or given up; a duplicate link-local address turns IPv6 off. -/
def dadDone (a : BitVec 128) (duplicate : Bool) (s : State) : State :=
  if v6On s ∧ s.eth.ipv6.any (fun x => x.1 == a && !x.2) then
    if !duplicate then
      let f := fun (x : BitVec 128 × Bool) => if x.1 = a then (x.1, true) else x
      modEth (fun e => { e with ipv6 := e.ipv6.map f }) s
    else if linkLocal a then notice 0x0D 2 [] (modEth (fun e => { e with v6Off := true, ipv6 := [] }) s)
    else modEth (fun e => { e with ipv6 := e.ipv6.filter fun x => x.1 != a }) s
  else s

/-- IPV6_DAD_DONE (R374). -/
def execIpv6DadDone (t : Instant) (addr : BitVec 128) (duplicate : Bool) (s : State) : Host.Outcome State Fault Refusal :=
  .next (ethCmd (dadDone addr duplicate) (advance t s))

/-- A solicitation for a valid address of the unit is answered with an advertisement, to all nodes where its source is unspecified. The
link-layer address of a neighbour is held nowhere in the model (log 62). -/
def neighbour (solicit : Bool) (target src : BitVec 128) (s : State) : State :=
  if v6On s ∧ solicit ∧ s.eth.ipv6.any (fun x => x.1 == target && x.2) then
    ndSend 136 (if src = 0 then BitVec.ofNat 128 (0xFF02 * 2 ^ 112 + 1) else src) target s
  else s

/-- IPV6_NEIGHBOUR_MESSAGE (R374). -/
def execIpv6NeighbourMessage (t : Instant) (solicit : Bool) (target src : BitVec 128) (_mac : BitVec 48) (s : State) :
    Host.Outcome State Fault Refusal :=
  .next (ethCmd (neighbour solicit target src) (advance t s))

/-! ### Echo, groups and dropped frames (R370, R373, R375) -/

/-- Whether an address is one of the unit's. -/
def ownAddr (s : State) (v6 : Bool) (a : BitVec 128) : Bool :=
  if v6 then v6On s && s.eth.ipv6.any (fun x => x.1 == a && x.2)
  else decide (s.eth.ipv4 ≠ 0) && a == s.eth.ipv4.setWidth 128

/-- An echo request: answered with its payload, up to 1 472 bytes; any other is dropped. -/
def echoIn (v6 : Bool) (src dst : BitVec 128) (payload : List Byte) (s : State) : State :=
  if !ethOn s then s
  else if ownAddr s v6 dst ∧ payload.length ≤ 1472 then ethSend ⟨5, ⟨v6, src, 0⟩, payload⟩ s
  else rxErr s

/-- ICMP_ECHO (R375). -/
def execIcmpEcho (t : Instant) (v6 : Bool) (src dst : BitVec 128) (payload : List Byte) (s : State) :
    Host.Outcome State Fault Refusal :=
  .next (ethCmd (echoIn v6 src dst payload) (advance t s))

/-- A frame or datagram that the unit does not serve, or cannot send (R370, R373, R375). -/
def dropped (f : DroppedFrame) (s : State) : State :=
  if !ethOn s then s
  else match f with
    | .tooLong len tagged => if (if tagged then 1522 else 1518) < len then rxErr s else s
    | .notServed => rxErr s
    | .badChecksum => rxErr s
    | .noRoute => rxErr s

/-- ETH_FRAME_DROPPED (R375). -/
def execEthFrameDropped (t : Instant) (f : DroppedFrame) (s : State) : Host.Outcome State Fault Refusal :=
  .next (ethCmd (dropped f) (advance t s))

/-- The multicast group the PTP port has joined over an IP version (R393). -/
def ptpGroup (s : State) (v6 : Bool) : Option (BitVec 128) :=
  if ptpActive s ∧ !bit s.r.ptpCfg 10 then
    match ptpTransport s, v6 with
    | 0, false => some 0xE0000181
    | 1, true => some 0xFF0E0000000000000000000000000181
    | _, _ => none
  else none

/-- A query of all groups, or of one, is answered with a report of the group joined: IGMPv2 to the group, MLDv2 to FF02::16. -/
def groupQuery (v6 : Bool) (group : BitVec 128) (s : State) : State :=
  match ptpGroup s v6 with
  | none => s
  | some g =>
    if ethOn s ∧ (group = 0 ∨ group = g) then
      ethSend ⟨6, ⟨v6, if v6 then BitVec.ofNat 128 (0xFF02 * 2 ^ 112 + 0x16) else g, 0⟩, beBytes 16 g.toNat⟩ s
    else s

/-- MULTICAST_LISTENER_QUERY (R375). -/
def execMulticastListenerQuery (t : Instant) (v6 : Bool) (group : BitVec 128) (s : State) : Host.Outcome State Fault Refusal :=
  .next (ethCmd (groupQuery v6 group) (advance t s))

end Sys2Proof.Machine
end

