-- ==== Sys2Proof/Machine/Tasp.lean ====
section
/-!
DEFINITION. Tasp.lean: the TA stream protocol (16 R376 to R392): acceptance of datagrams, sessions, the sequence window and cached
answers, every message of Table 16-3, gap requests and uploads. A row whose OP has a message is one authenticated request; it is
served as it arrives, or waits in the queue while the management core restarts (17 R406).
-/

namespace Sys2Proof.Machine

def modTasp (f : Tasp → Tasp) (s : State) : State := { s with tasp := f s.tasp }

/-- The position of an open session. -/
def sessPos (s : State) (num : Nat) : Option Nat :=
  (List.range 4).find? fun i => match vget s.tasp.sess i none with | some x => x.num == num | none => false

/-- The session at a position changed. -/
def modSess (i : Nat) (f : Sess → Sess) (s : State) : State :=
  modTasp (fun p => { p with sess := vmod p.sess i fun o => o.map f }) s

/-! ### Sending (R377, R378, R382) -/

/-- A datagram handed to the normal transmit queue. -/
def taspSend (dst : NetAddr) (d : List Byte) (s : State) : State := ethSend ⟨0, dst, d⟩ s

/-- The OPs of Table 16-3 that a client may request. -/
def taspOps : List Nat :=
  [0x01, 0x02, 0x03, 0x10, 0x11, 0x18, 0x20, 0x21, 0x22, 0x24, 0x30, 0x31, 0x38, 0x40, 0x60, 0x61, 0x62, 0x63, 0x70, 0x71, 0x72, 0x73]

/-- OPs whose answers are not cached (R381). -/
def noCache : List Nat := [0x03, 0x11, 0x18, 0x30, 0x38, 0x40, 0x63]

/-! ### Violations (R379) -/

/-- Source address and port of a datagram as a continuation's words. -/
def addrWords (a : NetAddr) : List Nat :=
  if a.v6 then ((List.range 4).map fun i => a.ip.toNat / 2 ^ (32 * i) % 2 ^ 32) ++ [a.port] else [a.ip.toNat % 2 ^ 32, a.port]

/-- An authenticated violation: held in G_ETH_VIOL and logged. -/
def taspViol (code value : Nat) (src : NetAddr) (s : State) : State :=
  fault ⟨37, 0, none⟩ code (addrWords src) (modTasp (fun p => { p with viol := word (2 ^ 28 * code + value % 65536) }) s)

/-- A failed authentication (codes 5 and 6). -/
def taspAuthFail (code : Nat) (src : NetAddr) (s : State) : State :=
  fault ⟨38, 0, none⟩ code (addrWords src) (bump rgEthRx 8 8 1 s)

/-! ### The sequence window (R381) -/

/-- Serial difference `a - b` modulo 2^32. -/
def serial (a b : Nat) : Nat := (2 ^ 32 + a - b) % 2 ^ 32

/-- Where a SEQ lies: above HIGH, in the window, or below it. -/
inductive SeqAt where
  | above | window | below
  deriving DecidableEq, Repr

def seqAt (x : Sess) (n : Nat) : SeqAt :=
  let d := serial n x.high
  if 0 < d ∧ d < 2 ^ 31 then .above else if serial x.high n < 64 then .window else .below

/-- A SEQ marked seen; HIGH advances where it lies above, and what leaves the window is forgotten. -/
def markSeen (n : Nat) (x : Sess) : Sess :=
  let hi := if seqAt x n = .above then n else x.high
  { x with
    high := hi
    seen := (n :: x.seen.filter fun m => m != n).filter fun m => decide (serial hi m < 64)
    cache := x.cache.filter fun c => decide (serial hi c.seq < 64) }

/-! ### Answers -/

/-- An answer to a request (R377): its SESSION and SEQ are the request's. It is cached for every OP but those of `noCache` (R381). -/
def taspAnswer (op : Nat) (q : TaspReq) (result : Nat) (body : List Byte) (s : State) : State :=
  let s1 := taspSend q.src (taspDatagram s.tasp 1 op result q.session q.seq body) s
  match sessPos s q.session with
  | none => s1
  | some i =>
    if noCache.contains op ∨ op = 0x60 then s1
    else modSess i (fun x => { x with cache := (x.cache.filter fun c => c.seq != q.seq) ++ [⟨q.seq, op, result, body⟩] }) s1

/-- `n` bytes that the manual leaves unstated (log 3). -/
def freeBytes (n : Nat) (s : State) : State × List Byte :=
  let v := freeWords ((n + 3) / 4) s
  (v.1, ((v.2.flatMap fun w => beBytes 4 w.toNat).take n))

def zer (n : Nat) : List Byte := List.replicate n 0

/-- The bytes received of a TASP upload: the image staged so far. -/
def received (s : State) : Nat := s.boot.stage.length

/-- The body of an answer with a non-zero RESULT (R383): counts 0, and fields that nothing states as free values. -/
def taspRefBody (op : Nat) (s : State) : State × List Byte :=
  match op with
  | 0x02 => (s, zer 4)
  | 0x18 => let v := freeBytes 9 s; (v.1, v.2 ++ zer 3)
  | 0x20 => let v := freeBytes 9 s; (v.1, v.2.take 1 ++ zer 3 ++ v.2.drop 1)
  | 0x22 => freeBytes 12 s
  | 0x24 => freeBytes 12 s
  | 0x30 => let v := freeBytes 8 s; (v.1, v.2 ++ [0, 0, 0, 1] ++ beBytes 8 s.evid.sealedEnd ++ zer 4)
  | 0x31 => freeBytes 8 s
  | 0x38 => let v := freeBytes 4 s; (v.1, v.2 ++ zer 4)
  | 0x40 => let v := freeBytes 4 s; (v.1, v.2 ++ zer 4)
  | 0x60 => let v := freeBytes 4 s; (v.1, v.2 ++ beBytes 8 s.boot.serial.toNat ++ beBytes 2 1412 ++ zer 2)
  | 0x62 => freeBytes 4 s
  | 0x63 => let v := freeBytes 4 s; (v.1, v.2 ++ zer 4)
  | 0x71 => (s, beBytes 4 (received s))
  | 0x73 => (s, beBytes 4 (bootStage s).toNat ++ beBytes 4 (received s))
  | _ => (s, [])

/-- A request refused before its own effect. -/
def taspRefuse (op : Nat) (q : TaspReq) (result : Nat) (s : State) : State :=
  let v := taspRefBody op s
  taspAnswer op q result v.2 v.1

/-! ### Bodies (Table 16-3) -/

/-- The number of `n` bytes at an offset, in network order. -/
def tAt (b : List Byte) (off n : Nat) : Nat := beNat ((b.drop off).take n)

/-- Whether `n` bytes from an offset are zero. -/
def zAt (b : List Byte) (off n : Nat) : Bool := ((b.drop off).take n).all (· == 0)

/-- Whether a request body keeps the lengths and values of Table 16-3; a reserved byte that is not 0 breaks it. -/
def taspBodyOk (op : Nat) (b : List Byte) : Bool :=
  let n := b.length
  match op with
  | 0x01 => n == 8 && inRange 1 64 (tAt b 4 2) && zAt b 6 2
  | 0x02 => decide (8 ≤ n) && inRange 1 64 (tAt b 4 2) && zAt b 6 2 && n == 8 + 4 * tAt b 4 2
  | 0x03 => decide (n ≤ 1412)
  | 0x10 => inRange 32 1400 n && (n - 8) % 24 == 0
  | 0x11 => n == 12 && inRange 1 58 (tAt b 8 4)
  | 0x18 => n == 776 && inRange 0 3 (tAt b 0 1) && zAt b 1 3
  | 0x20 => decide (2 ≤ n) && tAt b 0 2 == n
  | 0x21 => n == 4 && zAt b 2 2
  | 0x22 => n == 4 && inRange 0 15 (tAt b 0 1) && zAt b 1 3
  | 0x24 => n == 8 && inRange 0 1 (tAt b 6 1)
  | 0x30 => n == 16 && inRange 1 64 (tAt b 12 1) && zAt b 13 3
  | 0x31 => n == 8
  | 0x38 => n == 8 && inRange 1 1404 (tAt b 4 2) && zAt b 6 2
  | 0x40 => n == 8 && inRange 1 87 (tAt b 4 2) && zAt b 6 2
  | 0x60 => n == 8
  | 0x61 => n == 0
  | 0x62 => n == 4 && inRange 0 1 (tAt b 0 1) && zAt b 1 3
  | 0x63 => n == 8 && inRange 1 32 (tAt b 4 1) && zAt b 5 3
  | 0x70 => n == 4 && imgLenOk (tAt b 0 4)
  | 0x71 => inRange 8 1408 n && n % 4 == 0
  | 0x72 => n == 0
  | 0x73 => n == 0
  | _ => true

/-- Whether an OP is offered in the present power state (Table 16-5). -/
def taspOffered (s : State) (op : Nat) : Bool :=
  match s.pwr.st with
  | .maint => !([0x10, 0x11, 0x18, 0x20, 0x21, 0x22, 0x24, 0x62, 0x63] : List Nat).contains op
  | .dusk => !([0x70, 0x71, 0x72] : List Nat).contains op
  | _ => true

/-! ### Messages (R383 to R391) -/

/-- What a message answers: its result code and body. -/
abbrev TaspDo := TaspReq → State → State × Nat × List Byte

/-- Register values in network order. -/
def beVals (ws : List Word) : List Byte := ws.flatMap fun w => beBytes 4 w.toNat

def doRegRead : TaspDo := fun q s =>
  let r := svcRegRead (tAt q.body 0 4) (tAt q.body 4 2) s
  (r.1, r.2.1, beVals r.2.2)

def doRegWrite : TaspDo := fun q s =>
  let vs := (List.range (tAt q.body 4 2)).map fun i => word (tAt q.body (8 + 4 * i) 4)
  let r := svcRegWrite (tAt q.body 0 4) vs s
  (r.1, r.2.1, beBytes 2 r.2.2 ++ zer 2)

def doEcho : TaspDo := fun q s => (s, 0, q.body)

def doVstoreWrite : TaspDo := fun q s =>
  let r := vstoreWrite (tAt q.body 0 8) (q.body.drop 8) s
  (r.1, r.2.code, [])

def doVstoreRead : TaspDo := fun q s =>
  let r := svcVstoreRead (tAt q.body 0 8) (24 * tAt q.body 8 4) s
  (s, r.1, r.2)

def doStreamPiece : TaspDo := fun q s =>
  let ring := tAt q.body 0 1
  let r := streamPiece ring (tAt q.body 4 4) (q.body.drop 8) (some q.session) s
  let x := vget r.1.seqr.srings ring {}
  (r.1, 0, beBytes 4 x.wr ++ beBytes 4 (sringFill x) ++ beBytes 1 r.2 ++ zer 3)

/-- A submission: SLOT, or CODE of Table 9-3 with REFUSED; a refused one has no job number to state. -/
def doJobSubmit : TaspDo := fun q s =>
  let r := submit 0 ⟨true, q.body⟩ none s
  let tag := beBytes 4 (tAt q.body 32 4)
  if r.2.code = 0 then (r.1, 0, beBytes 1 r.2.slot ++ zer 3 ++ beBytes 4 r.2.jobNo ++ tag)
  else let v := freeBytes 4 r.1; (v.1, rcRefused, beBytes 1 r.2.code ++ zer 3 ++ v.2 ++ tag)

def doJobCancel : TaspDo := fun q s => (cancelMask (tAt q.body 0 2) s, 0, [])

def doJobStatus : TaspDo := fun q s => (s, 0, beVals (svcJobStatus s (tAt q.body 0 1)))

/-- RING_TRIG follows G_RING_CMD, with the refusals of R342 answered as ACCESS. -/
def doRingTrig : TaspDo := fun q s =>
  let trig := tAt q.body 0 4
  let run := tAt q.body 6 1 == 1
  if !ringValid s || !s.ring.sync || trig == 0 then
    let v := freeBytes 12 s
    (v.1, rcAccess, v.2)
  else
    let r := trigOriginate run trig (tAt q.body 4 2) (tAt q.body 7 1) s
    (ringCmd (fun s => (trigOriginate run trig (tAt q.body 4 2) (tAt q.body 7 1) s).1) s, 0, beBytes 12 (timeCode r.2))

/-- One datagram of an export (R384). -/
def expDgram (s : State) (first sent part : Nat) (last : Bool) (sealedEnd : Nat) : List Byte :=
  beBytes 8 first ++ beBytes 2 sent ++ beBytes 1 part ++ beBytes 1 (b2n last) ++ beBytes 8 sealedEnd ++ zer 4 ++
    (heldRecs s first sent).flatMap recBytes

/-- The bodies of an export of `n` records from FROM in at most `maxdg` datagrams of 43 records; LAST is set on the one that ends it. -/
def expDgrams (s : State) (first n maxdg : Nat) : List (List Byte) :=
  let k := min maxdg ((n + 42) / 43)
  (List.range k).map fun p =>
    let sent := min 43 (n - 43 * p)
    expDgram s (first + 43 * p) sent p (decide (n ≤ 43 * p + sent)) s.evid.sealedEnd

/-- EXPORT (R257, R384): every datagram is handed over as the request is served, so that the export completes with it. -/
def doExport (q : TaspReq) (s : State) : State :=
  let first := tAt q.body 0 8
  let r := svcExport first (tAt q.body 8 4) s
  let bodies := if r.2.2 = 0 then [expDgram s first 0 0 true s.evid.sealedEnd] else expDgrams s first r.2.2 (tAt q.body 12 1)
  bodies.foldl (fun s b => taspAnswer 0x30 q r.2.1 b s) r.1

def doRelease : TaspDo := fun q s => let r := release (tAt q.body 0 8) s; (r.1, 0, beBytes 8 r.2)

def doCertRead : TaspDo := fun q s =>
  let x := certRead s (tAt q.body 0 4) (tAt q.body 4 2)
  (s, 0, beBytes 4 (tAt q.body 0 4) ++ beBytes 2 x.length ++ zer 2 ++ x)

def doLogRead : TaspDo := fun q s =>
  let x := logRead s (tAt q.body 0 4) (tAt q.body 4 2)
  (s, 0, beBytes 4 x.1 ++ beBytes 2 x.2.length ++ zer 2 ++ x.2.flatMap entryBytes)

/-! ### Sessions (R380) -/

/-- A session number that is not 0 and names no open session, from the next draw. -/
def newNum (s : State) : Nat :=
  let n := fun (i : Nat) => (Config.drbg s.tasp.draws + i) % 0xFFFFFFFF + 1
  (((List.range 5).map n).find? fun k => (sessPos s k).isNone).getD (n 0)

/-- The position a new session takes: a free one, or that of the session idle longest, for at least 10 s. -/
def openAt (s : State) : Option Nat :=
  match (List.range 4).find? fun i => (vget s.tasp.sess i none).isNone with
  | some i => some i
  | none =>
    let age := fun (i : Nat) => match vget s.tasp.sess i none with | some x => s.now - x.lastAt | none => 0
    let o := (List.range 4).foldl (fun a i => if age a < age i then i else a) 0
    if 10 * cS ≤ age o then some o else none

/-- OPEN: the same session again for the same source and nonce, a new one, or BUSY. -/
def doOpen : TaspDo := fun q s =>
  let tail := beBytes 8 s.boot.serial.toNat ++ beBytes 2 1412 ++ zer 2
  let nonce := tAt q.body 0 8
  let same := (List.range 4).find? fun i =>
    match vget s.tasp.sess i none with | some x => x.origin == q.src && x.cnonce == nonce | none => false
  match same with
  | some i =>
    let num := match vget s.tasp.sess i none with | some x => x.num | none => 0
    (modSess i (fun x => { x with src := q.src, lastAt := s.now }) s, 0, beBytes 4 num ++ tail)
  | none =>
    match openAt s with
    | none => let v := taspRefBody 0x60 s; (v.1, rcBusy, v.2)
    | some i =>
      let num := newNum s
      let x : Sess := { num := num, origin := q.src, cnonce := nonce, src := q.src, high := q.seq, seen := [q.seq], cache := []
                        sub := false, nseq := 1, notes := [], lastAt := s.now }
      (modTasp (fun p => { p with draws := p.draws + 1, sess := vmod p.sess i fun _ => some x }) s, 0, beBytes 4 num ++ tail)

/-- The session of a number closes. -/
def closeSess (num : Nat) (s : State) : State :=
  match sessPos s num with
  | none => s
  | some i => modTasp (fun p => { p with sess := vmod p.sess i fun _ => none }) s

/-! ### Notifications (R385, R387) -/

/-- NOTE_SUB: a subscription starts with NSEQ 1; one repeated while subscribed keeps it. -/
def doNoteSub : TaspDo := fun q s =>
  let en := tAt q.body 0 1 == 1
  match sessPos s q.session with
  | none => (s, 0, zer 4)
  | some i =>
    let s1 := modSess i (fun x => { x with sub := en, nseq := if en && !x.sub then 1 else x.nseq }) s
    (s1, 0, beBytes 4 (match vget s1.tasp.sess i none with | some x => x.nseq | none => 0))

/-- NOTE_RESEND: the held notes from FROM_NSEQ on, or from the oldest with GONE. FIRST_HELD is unstated where none is held. -/
def doNoteResend : TaspDo := fun q s =>
  match sessNum s q.session with
  | none => (s, 0, zer 8)
  | some x =>
    let start := tAt q.body 0 4
    match x.notes with
    | [] => let v := freeBytes 4 s; (v.1, 0, v.2 ++ zer 4)
    | o :: _ =>
      let old := start != o.1 && decide (serial o.1 start < 2 ^ 31)
      let l := if old then x.notes else x.notes.dropWhile fun n => n.1 != start
      let out := l.take (tAt q.body 4 1)
      let s1 := out.foldl (fun s n => taspSend x.src (taspDatagram s.tasp 6 0x50 0 x.num n.1 n.2) s) s
      (s1, if old then rcGone else 0, beBytes 4 o.1 ++ beBytes 1 out.length ++ zer 3)

/-! ### Uploads (R391) -/

def doUploadBegin : TaspDo := fun q s =>
  (modTasp (fun p => { p with upSess := some q.session, upAt := s.now }) (uploadOpen (tAt q.body 0 4) s), 0, [])

def doUploadData : TaspDo := fun q s =>
  let off := tAt q.body 0 4
  let n := q.body.length - 4
  let done := fun (c : Nat) (s : State) => (s, c, beBytes 4 (received s))
  if s.tasp.upSess ≠ some q.session ∨ s.boot.stageLen < off + n then done rcLength s
  else if off = received s then done 0 (modTasp (fun p => { p with upAt := s.now }) (stageAppend (q.body.drop 4) s))
  else if off + n ≤ received s then done 0 s
  else done rcLength s

def doUploadCommit : TaspDo := fun _ s =>
  let r := commitRequest s
  if r.2 = 0 then (modUsb (fun u => { u with upOn := false }) (modTasp (fun p => { p with upSess := none }) r.1), 0, [])
  else (r.1, rcRefused, [])

def doStageStatus : TaspDo := fun _ s => (s, 0, beBytes 4 (bootStage s).toNat ++ beBytes 4 (received s))

/-! ### Serving (R382, R383, R392) -/

/-- The effect of an OP that answers with one datagram. -/
def taspMeaning (op : Nat) : TaspDo :=
  match op with
  | 0x01 => doRegRead
  | 0x02 => doRegWrite
  | 0x03 => doEcho
  | 0x10 => doVstoreWrite
  | 0x11 => doVstoreRead
  | 0x18 => doStreamPiece
  | 0x20 => doJobSubmit
  | 0x21 => doJobCancel
  | 0x22 => doJobStatus
  | 0x24 => doRingTrig
  | 0x31 => doRelease
  | 0x38 => doCertRead
  | 0x40 => doLogRead
  | 0x60 => doOpen
  | 0x62 => doNoteSub
  | 0x63 => doNoteResend
  | 0x70 => doUploadBegin
  | 0x71 => doUploadData
  | 0x72 => doUploadCommit
  | 0x73 => doStageStatus
  | _ => fun _ s => (s, 0, [])

/-- A request served: codes 11 and 12 of Table 16-4, the states of Table 16-5, then the message. The answer to OPEN carries SESSION 0. -/
def taspServe (op : Nat) (q0 : TaspReq) (s : State) : State :=
  let q : TaspReq := if op = 0x60 then { q0 with session := 0 } else q0
  if !taspOps.contains op then taspAnswer op q rcUnknown [] (taspViol 11 op q.src s)
  else if !taspBodyOk op q.body then taspRefuse op q rcLength (taspViol 12 q.body.length q.src s)
  else if !taspOffered s op then taspRefuse op q rcState s
  else if op = 0x30 then doExport q s
  else if op = 0x61 then closeSess q.session (taspAnswer op q 0 [] s)
  else
    let r := taspMeaning op q s
    taspAnswer op q r.2.1 r.2.2 r.1

/-- A request enters the queue of 64, and is served at once unless the management core restarts (R382; 17 R406). -/
def taspEnqueue (op : Nat) (q : TaspReq) (s : State) : State :=
  if 64 ≤ s.tasp.reqs.length then taspViol 10 0 q.src (bump rgEthTx 0 8 1 s)
  else
    let s1 := match sessPos s q.session with
      | some i => if op = 0x60 then s else modSess i (markSeen q.seq) s
      | none => s
    if s.fw.restarting.isSome then modTasp (fun p => { p with reqs := p.reqs ++ [(op, q)] }) s1 else taspServe op q s1

/-- A repeated request (R381): dropped while its first answer is prepared, answered from the cache, or carried out again. -/
def taspRepeat (op : Nat) (q : TaspReq) (x : Sess) (s : State) : State :=
  let s1 := bump rgEthTx 24 8 1 s
  if s.tasp.reqs.any fun r => r.2.session == q.session && r.2.seq == q.seq then s1
  else match x.cache.find? fun c => c.seq == q.seq with
    | some c =>
      if noCache.contains op then taspEnqueue op q s1
      else taspSend q.src (taspDatagram s.tasp 5 c.op c.result x.num q.seq c.body) s1
    | none => taspEnqueue op q s1

/-- An authenticated request from code 8 on (Table 16-4): it restarts its session's idle time, and its notes go to its source. -/
def taspAccept (op : Nat) (q : TaspReq) (s : State) : State :=
  if op = 0x60 then taspEnqueue op q s
  else match sessPos s q.session with
    | none => taspAnswer op q rcNoSession [] (taspViol 8 q.session q.src s)
    | some i =>
      let s1 := modSess i (fun x => { x with src := q.src, lastAt := s.now }) s
      match vget s1.tasp.sess i none with
      | none => s1
      | some x =>
        match seqAt x q.seq with
        | .below => taspViol 9 q.seq q.src (bump rgEthRx 0 8 1 s1)
        | .above => taspEnqueue op q s1
        | .window => if x.seen.contains q.seq then taspRepeat op q x s1 else taspEnqueue op q s1

/-- A request row: TASP is served while the port services run on a link and the operator key is not zero (R372, R378). -/
def taspRow (op : Nat) (q : TaspReq) (s : State) : State :=
  ethCmd (fun s => if ethOn s ∧ s.tasp.on then taspAccept op q s else s) s

/-! ### Datagrams that break the protocol (Table 16-4) -/

/-- A datagram judged in the order of the codes. One that passes them all and has an OP of Table 16-3 is a request, which comes by its own
row. -/
def taspReject (src : NetAddr) (d : List Byte) (s : State) : State :=
  if !ethOn s then s
  else if d.length < 40 ∨ tAt d 0 3 ≠ 0x544101 then bump rgEthRx 16 8 1 s
  else if 40 + tAt d 6 2 ≠ d.length ∨ 1412 < tAt d 6 2 then bump rgEthRx 16 8 1 s
  else if !s.tasp.on then rxErr s
  else if tAt d 8 4 ≠ s.tasp.keyId then taspAuthFail 5 src s
  else if d.drop (d.length - 16) ≠ (hmacSha256 s.tasp.key (d.take (d.length - 16))).take 16 then taspAuthFail 6 src s
  else
    let op := tAt d 4 1
    let q : TaspReq := ⟨src, tAt d 12 4, tAt d 16 4, (d.drop 24).take (tAt d 6 2)⟩
    if tAt d 3 1 ≠ 0 ∨ tAt d 5 1 ≠ 0 ∨ tAt d 20 4 ≠ 0 then
      let s1 := match sessPos s q.session with
        | some i => modSess i (fun x => { x with src := src, lastAt := s.now }) s
        | none => s
      taspSend src (taspDatagram s.tasp 1 op rcFormat q.session q.seq []) (taspViol 7 0 src s1)
    else
      let bad : Bool := match sessPos s q.session with
        | none => op != 0x60
        | some i => match vget s.tasp.sess i none with
          | some x => op != 0x60 && seqAt x q.seq == .below
          | none => false
      if bad ∨ 64 ≤ s.tasp.reqs.length ∨ !taspOps.contains op then taspAccept op q s else s

/-- TASP_DATAGRAM_REJECTED (R379). -/
def execTaspDatagramRejected (t : Instant) (src : NetAddr) (dgram : List Byte) (s : State) : Host.Outcome State Fault Refusal :=
  .next (ethCmd (taspReject src dgram) (advance t s))

/-! ### Request rows -/

/-- TASP_REG_READ (R383). -/
def execTaspRegRead (t : Instant) (q : TaspReq) (s : State) : Host.Outcome State Fault Refusal := .next (taspRow 0x01 q (advance t s))
/-- TASP_REG_WRITE (R383). -/
def execTaspRegWrite (t : Instant) (q : TaspReq) (s : State) : Host.Outcome State Fault Refusal := .next (taspRow 0x02 q (advance t s))
/-- TASP_ECHO (R383). -/
def execTaspEcho (t : Instant) (q : TaspReq) (s : State) : Host.Outcome State Fault Refusal := .next (taspRow 0x03 q (advance t s))
/-- TASP_VSTORE_WRITE (R193, R383). -/
def execTaspVstoreWrite (t : Instant) (q : TaspReq) (s : State) : Host.Outcome State Fault Refusal :=
  .next (taspRow 0x10 q (advance t s))
/-- TASP_VSTORE_READ (R383). -/
def execTaspVstoreRead (t : Instant) (q : TaspReq) (s : State) : Host.Outcome State Fault Refusal := .next (taspRow 0x11 q (advance t s))
/-- TASP_STREAM_PIECE (R228, R383, R388). -/
def execTaspStreamPiece (t : Instant) (q : TaspReq) (s : State) : Host.Outcome State Fault Refusal :=
  .next (taspRow 0x18 q (advance t s))
/-- TASP_JOB_SUBMIT (R212, R383). -/
def execTaspJobSubmit (t : Instant) (q : TaspReq) (s : State) : Host.Outcome State Fault Refusal := .next (taspRow 0x20 q (advance t s))
/-- TASP_JOB_CANCEL (R222, R383). -/
def execTaspJobCancel (t : Instant) (q : TaspReq) (s : State) : Host.Outcome State Fault Refusal := .next (taspRow 0x21 q (advance t s))
/-- TASP_JOB_STATUS (R383). -/
def execTaspJobStatus (t : Instant) (q : TaspReq) (s : State) : Host.Outcome State Fault Refusal := .next (taspRow 0x22 q (advance t s))
/-- TASP_RING_TRIG (R329, R383). -/
def execTaspRingTrig (t : Instant) (q : TaspReq) (s : State) : Host.Outcome State Fault Refusal := .next (taspRow 0x24 q (advance t s))
/-- TASP_EXPORT (R257, R384). -/
def execTaspExport (t : Instant) (q : TaspReq) (s : State) : Host.Outcome State Fault Refusal := .next (taspRow 0x30 q (advance t s))
/-- TASP_RELEASE (R258, R383). -/
def execTaspRelease (t : Instant) (q : TaspReq) (s : State) : Host.Outcome State Fault Refusal := .next (taspRow 0x31 q (advance t s))
/-- TASP_CERT_READ (R283, R383). -/
def execTaspCertRead (t : Instant) (q : TaspReq) (s : State) : Host.Outcome State Fault Refusal := .next (taspRow 0x38 q (advance t s))
/-- TASP_LOG_READ (R383, 17 R415). -/
def execTaspLogRead (t : Instant) (q : TaspReq) (s : State) : Host.Outcome State Fault Refusal := .next (taspRow 0x40 q (advance t s))
/-- TASP_OPEN (R380). -/
def execTaspOpen (t : Instant) (q : TaspReq) (s : State) : Host.Outcome State Fault Refusal := .next (taspRow 0x60 q (advance t s))
/-- TASP_CLOSE (R380). -/
def execTaspClose (t : Instant) (q : TaspReq) (s : State) : Host.Outcome State Fault Refusal := .next (taspRow 0x61 q (advance t s))
/-- TASP_NOTE_SUB (R385). -/
def execTaspNoteSub (t : Instant) (q : TaspReq) (s : State) : Host.Outcome State Fault Refusal := .next (taspRow 0x62 q (advance t s))
/-- TASP_NOTE_RESEND (R387). -/
def execTaspNoteResend (t : Instant) (q : TaspReq) (s : State) : Host.Outcome State Fault Refusal :=
  .next (taspRow 0x63 q (advance t s))
/-- TASP_UPLOAD_BEGIN (R391). -/
def execTaspUploadBegin (t : Instant) (q : TaspReq) (s : State) : Host.Outcome State Fault Refusal :=
  .next (taspRow 0x70 q (advance t s))
/-- TASP_UPLOAD_DATA (R391). -/
def execTaspUploadData (t : Instant) (q : TaspReq) (s : State) : Host.Outcome State Fault Refusal :=
  .next (taspRow 0x71 q (advance t s))
/-- TASP_UPLOAD_COMMIT (R391). -/
def execTaspUploadCommit (t : Instant) (q : TaspReq) (s : State) : Host.Outcome State Fault Refusal :=
  .next (taspRow 0x72 q (advance t s))
/-- TASP_STAGE_STATUS (R383). -/
def execTaspStageStatus (t : Instant) (q : TaspReq) (s : State) : Host.Outcome State Fault Refusal :=
  .next (taspRow 0x73 q (advance t s))

/-! ### Timers, handover and gap requests -/

/-- TASP_UPLOAD_TIMEOUT (R391): no chunk for 10 s. -/
def execTaspUploadTimeout (t : Instant) (s : State) : Host.Outcome State Fault Refusal :=
  let s := advance t s
  .next (if s.tasp.upSess.isSome ∧ received s < s.boot.stageLen ∧ 10 * cS + s.tasp.upAt ≤ s.now then stageDiscard s else s)

/-- SESS_IDLE_S in force (Table 16-7). -/
def idleS (s : State) : Nat := if fld s.r.ethCfg 8 8 < 10 then 60 else fld s.r.ethCfg 8 8

/-- TASP_SESSION_IDLE_EXPIRY (R380). -/
def execTaspSessionIdleExpiry (t : Instant) (session : Fin 4) (s : State) : Host.Outcome State Fault Refusal :=
  let s := advance t s
  .next (match vget s.tasp.sess session.val none with
    | none => s
    | some x => if x.lastAt + cS * idleS s ≤ s.now then
        modTasp (fun p => { p with sess := vmod p.sess session.val fun _ => none }) s
      else s)

/-- TASP_EVENT_HANDOVER (R386). -/
def execTaspEventHandover (t : Instant) (s : State) : Host.Outcome State Fault Refusal :=
  let s := advance t s
  .next (if s.eth.running then taspHandover s else s)

/-- The next gap note of a ring, or the end of its notes after RETX_MAX of them (R388). -/
def gapRetry (r : Nat) (s : State) : State :=
  let q := vget s.seqr.srings r {}
  match q.gap with
  | none => s
  | some g =>
    if s.now < g.next then s
    else if g.sent < retxMax s then gapNote r s
    else
      let f := fun (q : SRing) => { q with gap := none, gaveUp := some g.missing }
      notice 0x0E g.missing [r] (bump rgEthTx 8 8 1 { s with seqr := { s.seqr with srings := vmod s.seqr.srings r f } })

/-- STREAM_GAP_RETRY (R388). -/
def execStreamGapRetry (t : Instant) (ring : Fin 4) (s : State) : Host.Outcome State Fault Refusal :=
  .next (ethCmd (gapRetry ring.val) (advance t s))

end Sys2Proof.Machine
end

