-- ==== Sys2Proof/Machine/Firmware.lean ====
section
/-!
DEFINITION. Firmware.lean: the firmware watchdog's expiry and the restart of the management core (17 R405, R406).
-/

namespace Sys2Proof.Machine

/-- Whether the watchdog has not been serviced in time (R405). -/
def fwdDue (s : State) : Bool :=
  fastOn s && bit s.r.fwdCfg 31 && s.fw.restarting.isNone && decide (s.fw.lastService + cMs * fwdMs s.r.fwdCfg ≤ s.now)

/-- The watchdog fires: the core restarts; a control transfer is abandoned and a bulk stream ends as under BULK_ABORT. A command in the
receive side of the SPI port is the request in service. -/
def fwdFire (cut : Option UsbCut) (s : State) : State :=
  if fwdDue s then
    let s1 := bulkAbort (usbCut 0 cut s)
    let s2 := { s1 with fw :=
      { lastService := s.now, restarting := some s.now, inService := if s.spi.rx.isSome then some .spi else none } }
    faultU 33 0 (bump rgFlt 24 8 1 s2)
  else s

/-- FW_WATCHDOG_EXPIRY (R405). -/
def execFwWatchdogExpiry (t : Instant) (cut : Option UsbCut) (s : State) : Host.Outcome State Fault Refusal :=
  .next (fwdFire cut (advance t s))

/-- The request in service when the watchdog fired is answered with REFUSED (R406). -/
def answerCut (s : State) : State :=
  let s1 := { s with fw := { s.fw with inService := none } }
  match s.fw.inService, s.spi.rx with
  | some .spi, some c => spiRefuse c rcRefused s1
  | _, _ => s1

/-- The restart completes: the request in service is answered, and the ports serve what waited, SPI first (R406). -/
def fwRestarted (s : State) : State :=
  if s.fw.restarting.isSome then
    let s1 := spiUnknown (answerCut { s with fw := { s.fw with restarting := none, lastService := s.now } })
    s1.tasp.reqs.foldl (fun s r => taspServe r.1 r.2 s) (modTasp (fun p => { p with reqs := [] }) s1)
  else s

/-- FW_RESTART_DONE (R406). -/
def execFwRestartDone (t : Instant) (s : State) : Host.Outcome State Fault Refusal :=
  .next (ethCmd fwRestarted (advance t s))

end Sys2Proof.Machine
end

