-- ==== Sys2Proof/Machine/Dispatch.lean ====
section
/-!
DEFINITION. Dispatch.lean: one arm per command.
-/

namespace Sys2Proof.Machine

/-- The effect of a command on everything but the queue. -/
def exec (i : Instr) (s : State) : Host.Outcome State Fault Refusal :=
  match i with
  | .registerWrite t port addr val => Sys2Proof.Machine.execRegisterWrite t port addr val s
  | .rcRegisterRead t port x => Sys2Proof.Machine.execRcRegisterRead t port x s
  | .latchedGroupLowRead t port addr => Sys2Proof.Machine.execLatchedGroupLowRead t port addr s
  | .enclSenseUpdate t x => Sys2Proof.Machine.execEnclSenseUpdate t x s
  | .hardwareThermalTrip t dieC => Sys2Proof.Machine.execHardwareThermalTrip t dieC s
  | .thermalTripRelease t dieC => Sys2Proof.Machine.execThermalTripRelease t dieC s
  | .tamongSecondBoundary t => Sys2Proof.Machine.execTamongSecondBoundary t s
  | .ppsOutFall t => Sys2Proof.Machine.execPpsOutFall t s
  | .hpresChange t high => Sys2Proof.Machine.execHpresChange t high s
  | .linePowerApplied t classEvents => Sys2Proof.Machine.execLinePowerApplied t classEvents s
  | .lineLoss t belowNs => Sys2Proof.Machine.execLineLoss t belowNs s
  | .bankExhausted t => Sys2Proof.Machine.execBankExhausted t s
  | .nightwatchReset t toShip => Sys2Proof.Machine.execNightwatchReset t toShip s
  | .cellLowSet t mv => Sys2Proof.Machine.execCellLowSet t mv s
  | .nightwatchAlarm t => Sys2Proof.Machine.execNightwatchAlarm t s
  | .hselWake t => Sys2Proof.Machine.execHselWake t s
  | .vbusRise t => Sys2Proof.Machine.execVbusRise t s
  | .vbusLoss t cut => Sys2Proof.Machine.execVbusLoss t cut s
  | .jobWakeCondition t slot => Sys2Proof.Machine.execJobWakeCondition t slot s
  | .pwrReqDay t port => Sys2Proof.Machine.execPwrReqDay t port s
  | .pwrReqEvening t port => Sys2Proof.Machine.execPwrReqEvening t port s
  | .pwrReqNight t port => Sys2Proof.Machine.execPwrReqNight t port s
  | .fullDawnBegin t x => Sys2Proof.Machine.execFullDawnBegin t x s
  | .imageBankReadDone t bank fails => Sys2Proof.Machine.execImageBankReadDone t bank fails s
  | .imgTimeoutExpiry t bank rereads => Sys2Proof.Machine.execImgTimeoutExpiry t bank rereads s
  | .dawnEnterTarget x => Sys2Proof.Machine.execDawnEnterTarget x s
  | .shortDawnBegin t => Sys2Proof.Machine.execShortDawnBegin t s
  | .bandCalDone t which => Sys2Proof.Machine.execBandCalDone t which s
  | .synthLocked t which => Sys2Proof.Machine.execSynthLocked t which s
  | .lockAttemptTimeout t which => Sys2Proof.Machine.execLockAttemptTimeout t which s
  | .synthLockLoss t which => Sys2Proof.Machine.execSynthLockLoss t which s
  | .ovenWarm t => Sys2Proof.Machine.execOvenWarm t s
  | .ovenWarmTimeout t => Sys2Proof.Machine.execOvenWarmTimeout t s
  | .duskEntry t => Sys2Proof.Machine.execDuskEntry t s
  | .duskWaitExpiry t => Sys2Proof.Machine.execDuskWaitExpiry t s
  | .duskJobsEnded t => Sys2Proof.Machine.execDuskJobsEnded t s
  | .duskFifosDrained t => Sys2Proof.Machine.execDuskFifosDrained t s
  | .duskSealed t => Sys2Proof.Machine.execDuskSealed t s
  | .duskPowerDown t => Sys2Proof.Machine.execDuskPowerDown t s
  | .bankUpdate t bankUv busMw inputMw => Sys2Proof.Machine.execBankUpdate t bankUv busMw inputMw s
  | .powerWindowEnd t => Sys2Proof.Machine.execPowerWindowEnd t s
  | .ppsEdge t => Sys2Proof.Machine.execPpsEdge t s
  | .ppsMissing t => Sys2Proof.Machine.execPpsMissing t s
  | .ref10LossTimeout t => Sys2Proof.Machine.execRef10LossTimeout t s
  | .holdoverExpiry t => Sys2Proof.Machine.execHoldoverExpiry t s
  | .stepApply t => Sys2Proof.Machine.execStepApply t s
  | .timeSetLoWrite t port val => Sys2Proof.Machine.execTimeSetLoWrite t port val s
  | .ptpAnnounce t h a => Sys2Proof.Machine.execPtpAnnounce t h a s
  | .ptpSync t h twoStep origin corr => Sys2Proof.Machine.execPtpSync t h twoStep origin corr s
  | .ptpFollowUp t h origin corr => Sys2Proof.Machine.execPtpFollowUp t h origin corr s
  | .ptpDelayReqSend t => Sys2Proof.Machine.execPtpDelayReqSend t s
  | .ptpDelayResp t h forUs rx corr => Sys2Proof.Machine.execPtpDelayResp t h forUs rx corr s
  | .ptpAnnounceTimeout t => Sys2Proof.Machine.execPtpAnnounceTimeout t s
  | .ptpSyncTimeout t => Sys2Proof.Machine.execPtpSyncTimeout t s
  | .ptpFollowUpTimeout t => Sys2Proof.Machine.execPtpFollowUpTimeout t s
  | .ptpDelayRespTimeout t => Sys2Proof.Machine.execPtpDelayRespTimeout t s
  | .jobDue t => Sys2Proof.Machine.execJobDue t s
  | .startCheckDone t slot => Sys2Proof.Machine.execStartCheckDone t slot s
  | .jobJudgement t slot => Sys2Proof.Machine.execJobJudgement t slot s
  | .jobStartInstant t slot => Sys2Proof.Machine.execJobStartInstant t slot s
  | .lateStartExpiry t slot => Sys2Proof.Machine.execLateStartExpiry t slot s
  | .holdLimitExpiry t slot => Sys2Proof.Machine.execHoldLimitExpiry t slot s
  | .admitTimeoutExpiry t slot => Sys2Proof.Machine.execAdmitTimeoutExpiry t slot s
  | .jobCancelWrite t port val => Sys2Proof.Machine.execJobCancelWrite t port val s
  | .vectorCycle t slot obs => Sys2Proof.Machine.execVectorCycle t slot obs s
  | .lossClose t oct => Sys2Proof.Machine.execLossClose t oct s
  | .jobEndChained t slot => Sys2Proof.Machine.execJobEndChained t slot s
  | .chainStep t => Sys2Proof.Machine.execChainStep t s
  | .evidReleaseWrite t port val => Sys2Proof.Machine.execEvidReleaseWrite t port val s
  | .arbRequestRaised t req len => Sys2Proof.Machine.execArbRequestRaised t req len s
  | .memoryTransferComplete t => Sys2Proof.Machine.execMemoryTransferComplete t s
  | .arbWindowStart t => Sys2Proof.Machine.execArbWindowStart t s
  | .refreshDue t => Sys2Proof.Machine.execRefreshDue t s
  | .refreshInterrupt t => Sys2Proof.Machine.execRefreshInterrupt t s
  | .refreshDone t => Sys2Proof.Machine.execRefreshDone t s
  | .dbgRequest t beats => Sys2Proof.Machine.execDbgRequest t beats s
  | .arbPreempt t => Sys2Proof.Machine.execArbPreempt t s
  | .grantWatchdogExpiry t => Sys2Proof.Machine.execGrantWatchdogExpiry t s
  | .sealIntervalExpiry t => Sys2Proof.Machine.execSealIntervalExpiry t s
  | .sealForm t => Sys2Proof.Machine.execSealForm t s
  | .sealSigned t => Sys2Proof.Machine.execSealSigned t s
  | .nonceRefill t => Sys2Proof.Machine.execNonceRefill t s
  | .checkpointWriteDone t readBackOk => Sys2Proof.Machine.execCheckpointWriteDone t readBackOk s
  | .mramBusyTimeout t => Sys2Proof.Machine.execMramBusyTimeout t s
  | .calStoreComplete t readBackOk => Sys2Proof.Machine.execCalStoreComplete t readBackOk s
  | .imageCommitComplete t readBackOk => Sys2Proof.Machine.execImageCommitComplete t readBackOk s
  | .routineOccurrence t entry => Sys2Proof.Machine.execRoutineOccurrence t entry s
  | .routineJobSubmit t entry => Sys2Proof.Machine.execRoutineJobSubmit t entry s
  | .routineAfterRequest t => Sys2Proof.Machine.execRoutineAfterRequest t s
  | .routineEnableWrite t port val => Sys2Proof.Machine.execRoutineEnableWrite t port val s
  | .octLoadWrite t port oct val => Sys2Proof.Machine.execOctLoadWrite t port oct val s
  | .loadTimerExpiry t oct => Sys2Proof.Machine.execLoadTimerExpiry t oct s
  | .waveTick t oct => Sys2Proof.Machine.execWaveTick t oct s
  | .driverOvercurrent t pin peakMa => Sys2Proof.Machine.execDriverOvercurrent t pin peakMa s
  | .safeReleaseWrite t port pin val => Sys2Proof.Machine.execSafeReleaseWrite t port pin val s
  | .urRelease t port val => Sys2Proof.Machine.execUrRelease t port val s
  | .timingSetWrite t port ix val => Sys2Proof.Machine.execTimingSetWrite t port ix val s
  | .segmentEntryWrite t port ix val => Sys2Proof.Machine.execSegmentEntryWrite t port ix val s
  | .waveTableWrite t port ix val => Sys2Proof.Machine.execWaveTableWrite t port ix val s
  | .tsetProbeWrite t port val => Sys2Proof.Machine.execTsetProbeWrite t port val s
  | .tsetProbeDone t => Sys2Proof.Machine.execTsetProbeDone t s
  | .segLoadWrite t port val => Sys2Proof.Machine.execSegLoadWrite t port val s
  | .segLoadDone t => Sys2Proof.Machine.execSegLoadDone t s
  | .sringResetWrite t port val => Sys2Proof.Machine.execSringResetWrite t port val s
  | .calReqOct t port val => Sys2Proof.Machine.execCalReqOct t port val s
  | .calReqUnit t port val => Sys2Proof.Machine.execCalReqUnit t port val s
  | .calReqStore t port val => Sys2Proof.Machine.execCalReqStore t port val s
  | .calReqCancel t port val => Sys2Proof.Machine.execCalReqCancel t port val s
  | .twilightWindowBegin t oct => Sys2Proof.Machine.execTwilightWindowBegin t oct s
  | .twilightStepDone t oct meas => Sys2Proof.Machine.execTwilightStepDone t oct meas s
  | .twilightWindowEnd t oct => Sys2Proof.Machine.execTwilightWindowEnd t oct s
  | .calUnitStepDone t phases => Sys2Proof.Machine.execCalUnitStepDone t phases s
  | .calRequestOverdue t oct => Sys2Proof.Machine.execCalRequestOverdue t oct s
  | .rollPhaseDone t oct m => Sys2Proof.Machine.execRollPhaseDone t oct m s
  | .spareSwapIn t oct => Sys2Proof.Machine.execSpareSwapIn t oct s
  | .spareHandBack t oct => Sys2Proof.Machine.execSpareHandBack t oct s
  | .rollGapExpiry t oct => Sys2Proof.Machine.execRollGapExpiry t oct s
  | .ringAlignmentFound t x => Sys2Proof.Machine.execRingAlignmentFound t x s
  | .ringFrameDiscarded t rp marker rest => Sys2Proof.Machine.execRingFrameDiscarded t rp marker rest s
  | .ringIdleReceived t rp serial agreeId => Sys2Proof.Machine.execRingIdleReceived t rp serial agreeId s
  | .surveySend t => Sys2Proof.Machine.execSurveySend t s
  | .surveyReceived t rp h seen dup => Sys2Proof.Machine.execSurveyReceived t rp h seen dup s
  | .surveyTimeout t => Sys2Proof.Machine.execSurveyTimeout t s
  | .delayReqSend t => Sys2Proof.Machine.execDelayReqSend t s
  | .delayReqReceived t h lastD => Sys2Proof.Machine.execDelayReqReceived t h lastD s
  | .delayRespReceived t x => Sys2Proof.Machine.execDelayRespReceived t x s
  | .ringTick t => Sys2Proof.Machine.execRingTick t s
  | .claimReceived t rp h valid todSrc => Sys2Proof.Machine.execClaimReceived t rp h valid todSrc s
  | .claimTimeout t => Sys2Proof.Machine.execClaimTimeout t s
  | .resignReceived t rp h => Sys2Proof.Machine.execResignReceived t rp h s
  | .timeReceived t rp h mtime state valid todSrc => Sys2Proof.Machine.execTimeReceived t rp h mtime state valid todSrc s
  | .ringSyncTimeout t => Sys2Proof.Machine.execRingSyncTimeout t s
  | .loopMeasureDone t asym => Sys2Proof.Machine.execLoopMeasureDone t asym s
  | .ringCmdWake t port val => Sys2Proof.Machine.execRingCmdWake t port val s
  | .ringCmdPropose t port val => Sys2Proof.Machine.execRingCmdPropose t port val s
  | .ringCmdTrig t port val => Sys2Proof.Machine.execRingCmdTrig t port val s
  | .ringCmdRun t port val => Sys2Proof.Machine.execRingCmdRun t port val s
  | .trigReceived t rp h trigId start => Sys2Proof.Machine.execTrigReceived t rp h trigId start s
  | .runReceived t rp h trigId start template => Sys2Proof.Machine.execRunReceived t rp h trigId start template s
  | .proposeReceived t rp h a => Sys2Proof.Machine.execProposeReceived t rp h a s
  | .commitReceived t rp h a => Sys2Proof.Machine.execCommitReceived t rp h a s
  | .verdictReceived t rp h agreeId result => Sys2Proof.Machine.execVerdictReceived t rp h agreeId result s
  | .wakeReceived t rp h origin wakeSeq agreeId => Sys2Proof.Machine.execWakeReceived t rp h origin wakeSeq agreeId s
  | .agreeReturnTimeout t => Sys2Proof.Machine.execAgreeReturnTimeout t s
  | .verdictTimeout t => Sys2Proof.Machine.execVerdictTimeout t s
  | .sleepInstant t => Sys2Proof.Machine.execSleepInstant t s
  | .rendezvousStart t => Sys2Proof.Machine.execRendezvousStart t s
  | .rendezvousGuardExpiry t => Sys2Proof.Machine.execRendezvousGuardExpiry t s
  | .listenExpiry t => Sys2Proof.Machine.execListenExpiry t s
  | .wakeToneDetected t => Sys2Proof.Machine.execWakeToneDetected t s
  | .spiCommandFrame t f => Sys2Proof.Machine.execSpiCommandFrame t f s
  | .spiFetchAnswerFrame t f => Sys2Proof.Machine.execSpiFetchAnswerFrame t f s
  | .spiFetchNoteFrame t f => Sys2Proof.Machine.execSpiFetchNoteFrame t f s
  | .spiAbortFrame t f => Sys2Proof.Machine.execSpiAbortFrame t f s
  | .spiBadFrame t f => Sys2Proof.Machine.execSpiBadFrame t f s
  | .spiFrameWhileStopped t => Sys2Proof.Machine.execSpiFrameWhileStopped t s
  | .spiRegRead t => Sys2Proof.Machine.execSpiRegRead t s
  | .spiRegWrite t => Sys2Proof.Machine.execSpiRegWrite t s
  | .spiEcho t => Sys2Proof.Machine.execSpiEcho t s
  | .spiVstoreWrite t => Sys2Proof.Machine.execSpiVstoreWrite t s
  | .spiVstoreRead t => Sys2Proof.Machine.execSpiVstoreRead t s
  | .spiStreamPiece t => Sys2Proof.Machine.execSpiStreamPiece t s
  | .spiJobSubmit t => Sys2Proof.Machine.execSpiJobSubmit t s
  | .spiJobCancel t => Sys2Proof.Machine.execSpiJobCancel t s
  | .spiJobStatus t => Sys2Proof.Machine.execSpiJobStatus t s
  | .spiExport t => Sys2Proof.Machine.execSpiExport t s
  | .spiExportTimeout t => Sys2Proof.Machine.execSpiExportTimeout t s
  | .spiRelease t => Sys2Proof.Machine.execSpiRelease t s
  | .spiCertRead t => Sys2Proof.Machine.execSpiCertRead t s
  | .spiLogRead t => Sys2Proof.Machine.execSpiLogRead t s
  | .usbBusReset t high cut => Sys2Proof.Machine.execUsbBusReset t high cut s
  | .usbSuspend t => Sys2Proof.Machine.execUsbSuspend t s
  | .usbGetStatus t u => Sys2Proof.Machine.execUsbGetStatus t u s
  | .usbClearFeature t u => Sys2Proof.Machine.execUsbClearFeature t u s
  | .usbSetFeature t u => Sys2Proof.Machine.execUsbSetFeature t u s
  | .usbSetAddress t u => Sys2Proof.Machine.execUsbSetAddress t u s
  | .usbGetDescriptor t u => Sys2Proof.Machine.execUsbGetDescriptor t u s
  | .usbGetConfiguration t u => Sys2Proof.Machine.execUsbGetConfiguration t u s
  | .usbSetConfiguration t u => Sys2Proof.Machine.execUsbSetConfiguration t u s
  | .usbGetInterface t u => Sys2Proof.Machine.execUsbGetInterface t u s
  | .usbSetInterface t u => Sys2Proof.Machine.execUsbSetInterface t u s
  | .usbGetInfo t u => Sys2Proof.Machine.execUsbGetInfo t u s
  | .usbRegRead t u => Sys2Proof.Machine.execUsbRegRead t u s
  | .usbRegWrite t u data => Sys2Proof.Machine.execUsbRegWrite t u data s
  | .usbCertRead t u => Sys2Proof.Machine.execUsbCertRead t u s
  | .usbLastResult t u => Sys2Proof.Machine.execUsbLastResult t u s
  | .usbExportStart t u data => Sys2Proof.Machine.execUsbExportStart t u data s
  | .usbLogStart t u data => Sys2Proof.Machine.execUsbLogStart t u data s
  | .usbDebugStart t u data => Sys2Proof.Machine.execUsbDebugStart t u data s
  | .usbBulkAbort t u data => Sys2Proof.Machine.execUsbBulkAbort t u data s
  | .usbRelease t u data => Sys2Proof.Machine.execUsbRelease t u data s
  | .usbUploadBegin t u data => Sys2Proof.Machine.execUsbUploadBegin t u data s
  | .usbUploadCommit t u data => Sys2Proof.Machine.execUsbUploadCommit t u data s
  | .usbStageStatus t u => Sys2Proof.Machine.execUsbStageStatus t u s
  | .usbBulkOutPacket t data => Sys2Proof.Machine.execUsbBulkOutPacket t data s
  | .usbBulkInPacket t => Sys2Proof.Machine.execUsbBulkInPacket t s
  | .usbBulkTimeout t => Sys2Proof.Machine.execUsbBulkTimeout t s
  | .ethLinkUp t => Sys2Proof.Machine.execEthLinkUp t s
  | .ethLinkDown t => Sys2Proof.Machine.execEthLinkDown t s
  | .dhcpMessage t m => Sys2Proof.Machine.execDhcpMessage t m s
  | .dhcpTimer t => Sys2Proof.Machine.execDhcpTimer t s
  | .arpRequest t senderIp targetIp senderMac => Sys2Proof.Machine.execArpRequest t senderIp targetIp senderMac s
  | .arpEntryAgeOut t ip => Sys2Proof.Machine.execArpEntryAgeOut t ip s
  | .ipv6RouterAdvertisement t prefix64 aFlag => Sys2Proof.Machine.execIpv6RouterAdvertisement t prefix64 aFlag s
  | .ipv6DadDone t addr duplicate => Sys2Proof.Machine.execIpv6DadDone t addr duplicate s
  | .ipv6NeighbourMessage t solicit target src mac => Sys2Proof.Machine.execIpv6NeighbourMessage t solicit target src mac s
  | .icmpEcho t v6 src dst payload => Sys2Proof.Machine.execIcmpEcho t v6 src dst payload s
  | .ethFrameDropped t f => Sys2Proof.Machine.execEthFrameDropped t f s
  | .taspDatagramRejected t src dgram => Sys2Proof.Machine.execTaspDatagramRejected t src dgram s
  | .taspRegRead t q => Sys2Proof.Machine.execTaspRegRead t q s
  | .taspRegWrite t q => Sys2Proof.Machine.execTaspRegWrite t q s
  | .taspEcho t q => Sys2Proof.Machine.execTaspEcho t q s
  | .taspVstoreWrite t q => Sys2Proof.Machine.execTaspVstoreWrite t q s
  | .taspVstoreRead t q => Sys2Proof.Machine.execTaspVstoreRead t q s
  | .taspStreamPiece t q => Sys2Proof.Machine.execTaspStreamPiece t q s
  | .taspJobSubmit t q => Sys2Proof.Machine.execTaspJobSubmit t q s
  | .taspJobCancel t q => Sys2Proof.Machine.execTaspJobCancel t q s
  | .taspJobStatus t q => Sys2Proof.Machine.execTaspJobStatus t q s
  | .taspRingTrig t q => Sys2Proof.Machine.execTaspRingTrig t q s
  | .taspExport t q => Sys2Proof.Machine.execTaspExport t q s
  | .taspRelease t q => Sys2Proof.Machine.execTaspRelease t q s
  | .taspCertRead t q => Sys2Proof.Machine.execTaspCertRead t q s
  | .taspLogRead t q => Sys2Proof.Machine.execTaspLogRead t q s
  | .taspOpen t q => Sys2Proof.Machine.execTaspOpen t q s
  | .taspClose t q => Sys2Proof.Machine.execTaspClose t q s
  | .taspNoteSub t q => Sys2Proof.Machine.execTaspNoteSub t q s
  | .taspNoteResend t q => Sys2Proof.Machine.execTaspNoteResend t q s
  | .taspUploadBegin t q => Sys2Proof.Machine.execTaspUploadBegin t q s
  | .taspUploadData t q => Sys2Proof.Machine.execTaspUploadData t q s
  | .taspUploadCommit t q => Sys2Proof.Machine.execTaspUploadCommit t q s
  | .taspStageStatus t q => Sys2Proof.Machine.execTaspStageStatus t q s
  | .taspUploadTimeout t => Sys2Proof.Machine.execTaspUploadTimeout t s
  | .taspSessionIdleExpiry t session => Sys2Proof.Machine.execTaspSessionIdleExpiry t session s
  | .taspEventHandover t => Sys2Proof.Machine.execTaspEventHandover t s
  | .streamGapRetry t ring => Sys2Proof.Machine.execStreamGapRetry t ring s
  | .faultQuietExpiry t src oct => Sys2Proof.Machine.execFaultQuietExpiry t src oct s
  | .faultClearWrite t port val => Sys2Proof.Machine.execFaultClearWrite t port val s
  | .faultCfgWrite t port val => Sys2Proof.Machine.execFaultCfgWrite t port val s
  | .fwWatchdogService t => Sys2Proof.Machine.execFwWatchdogService t s
  | .fwdCfgWrite t port val => Sys2Proof.Machine.execFwdCfgWrite t port val s
  | .fwWatchdogExpiry t cut => Sys2Proof.Machine.execFwWatchdogExpiry t cut s
  | .fwRestartDone t => Sys2Proof.Machine.execFwRestartDone t s
  | .logSuppressPeriodEnd t src oct => Sys2Proof.Machine.execLogSuppressPeriodEnd t src oct s
  | .cellPresenceChange t present mv => Sys2Proof.Machine.execCellPresenceChange t present mv s
  | .cellLowCleared t mv => Sys2Proof.Machine.execCellLowCleared t mv s
  | .usbResume t => Sys2Proof.Machine.execUsbResume t s
  | .multicastListenerQuery t v6 group => Sys2Proof.Machine.execMulticastListenerQuery t v6 group s

end Sys2Proof.Machine
end

