-- ==== Sys2Proof/Machine/Step.lean ====
section
/-!
DEFINITION. Step.lean: one step takes the command at the front of the queue (log 1).
-/

namespace Sys2Proof.Machine

/-- The command at the front of the queue runs on the unit with the rest of the queue; with none waiting, the unit idles
(log 1). -/
def step (s : State) : Host.Outcome State Fault Refusal :=
  match s.pending with
  | [] => .next s
  | c :: rest => exec c { s with pending := rest }

/-- The unit with the command a table word spells put at the front of its queue. The table gives no row bits, so no word spells
one and the unit is unchanged (log 1). -/
def State.withFetchWord (s : State) (nbits w : Nat) : State :=
  match Sys2Proof.decodeTableWord nbits w with
  | none => s
  | some c => { s with pending := c :: s.pending }

end Sys2Proof.Machine
end

