-- ==== Sys2Proof/Safety.lean ====
section
/-!
DEFINITION. Safety.lean: the terms claims are stated in. A command completes when `exec` answers a next state; the
register tables of chapter 18 by access code; and the invariants every step keeps.
-/

namespace Sys2Proof

open Machine

/-- The command completes at `s`: `exec` answers a next state, and that state has the property. -/
def Does (c : Instr) (s : State) (p : State → Prop) : Prop :=
  ∃ w, exec c s = .next w ∧ p w

/-! ### Registers by access code (18 R421, Tables 18-5 to 18-17) -/

/-- RW registers of the global blocks that one number masks and nothing but themselves keeps: address and bits kept. -/
def rwRegs : List (Nat × Word) :=
  [(0x03C, 3), (0x304, 0xFFFF), (0x308, 0xF), (0x3CC, 0xFFFFFFFF), (0x504, 0x0FFF0FFF), (0x508, 0x0FFF0FFF),
   (0x50C, 0x0FFF0FFF), (0x510, 0x0FFF0FFF), (0x514, 0x0FFF0FFF), (0x518, 0x0FFF0FFF), (0x51C, 0x0FFF0FFF),
   (0x524, 0xF), (0x70C, 0x73F), (0x714, 0xFFFF), (0x828, 0xFFFFFFFF), (0xA04, 0xE0FFFFFF), (0xA0C, 0x7F)]

/-- RWL registers: address, bits kept. The four G_SRING_CFG also hold the read-only CFG_ERR. -/
def rwlRegs : List (Nat × Word) :=
  [(0x040, 0x3F), (0x05C, 0xFFFF0007), (0x118, 0xFF), (0x11C, 0x3FFFF), (0x204, 0x70), (0x21C, 0xFFFFFF0F),
   (0x220, 0xFFFFFF), (0x224, 0x7FF00F00), (0x228, 0xFFFFFFFF), (0x330, 0x0FFF0FFF), (0x340, 0x0FFF0FFF),
   (0x350, 0x0FFF0FFF), (0x360, 0x0FFF0FFF), (0x500, 0x90FFFFFF), (0x600, 0x03FFFFFF), (0x604, 0xFFFF),
   (0x800, 0x001F1F0E), (0x804, 0xFFFFFFFF), (0x808, 0xFFFF), (0x900, 0x13), (0x910, 3), (0x920, 0xFFFFFF87)]

/-- Registers of the global blocks whose fields are all RO. -/
def roRegs : List Nat :=
  [0x000, 0x004, 0x008, 0x00C, 0x010, 0x020, 0x030, 0x034, 0x038, 0x050, 0x054, 0x058, 0x060, 0x068,
   0x100, 0x108, 0x10C, 0x110, 0x114, 0x120, 0x124, 0x12C, 0x200, 0x208, 0x20C, 0x210, 0x214, 0x218,
   0x300, 0x30C, 0x310, 0x334, 0x338, 0x344, 0x348, 0x354, 0x358, 0x364, 0x368, 0x3A4, 0x3AC, 0x3B0, 0x3C0, 0x3C4,
   0x400, 0x404, 0x408, 0x40C, 0x410, 0x414, 0x418, 0x41C, 0x608, 0x60C, 0x610, 0x614, 0x618, 0x61C, 0x620,
   0x700, 0x704, 0x708, 0x718, 0x72C, 0x730, 0x80C, 0x810, 0x814, 0x818, 0x81C, 0x820, 0x824, 0x830,
   0x904, 0x90C, 0x914, 0x924, 0x928, 0x934, 0xA08, 0xA10, 0xA14, 0xA18]

/-- Unused offsets of the global blocks (R420), as the first and last of each stretch. -/
def unusedSpans : List (Nat × Nat) :=
  [(0x014, 0x01C), (0x02C, 0x02C), (0x044, 0x04C), (0x070, 0x0FC), (0x130, 0x1FC), (0x238, 0x2FC), (0x324, 0x32C),
   (0x33C, 0x33C), (0x34C, 0x34C), (0x35C, 0x35C), (0x36C, 0x39C), (0x3B8, 0x3BC), (0x3D4, 0x3FC), (0x42C, 0x4FC),
   (0x538, 0x5FC), (0x628, 0x6FC), (0x738, 0x7FC), (0x83C, 0x8FC), (0x91C, 0x91C), (0x938, 0x9FC), (0xA20, 0xAFC)]

/-- Whether an aligned address is unused: in a stretch of R420, or past the registers of an octet or a pin. -/
def unused (a : Nat) : Bool :=
  a % 4 == 0 && (unusedSpans.any (fun x => decide (x.1 ≤ a) && decide (a ≤ x.2)) ||
    (decide (0x1000 ≤ a) && decide (a < 0x1200) && decide (0x2C ≤ a % 0x40)) ||
    (decide (0x2000 ≤ a) && decide (a < 0x2800) && decide (0x14 ≤ a % 0x20)))

/-- Registers of the global blocks whose event fields are RC, with their place among the event registers. -/
def rcRegs : List (Nat × Nat) :=
  [(0x028, rgLatMax), (0x06C, rgBoot), (0x128, rgPwrStop), (0x234, rgTime), (0x318, rgJob), (0x31C, rgSring), (0x3B4, rgSeg),
   (0x3C8, rgTset), (0x428, rgEvid), (0x530, rgArb), (0x534, rgArbWait), (0x624, rgSeal), (0x724, rgFlt), (0x734, rgLog),
   (0x834, rgRing), (0x838, rgRingErr), (0x908, rgSpi), (0x918, rgUsb), (0x92C, rgEthRx), (0x930, rgEthTx), (0xA1C, rgCal)]

/-- The groups of R10: the register that latches and the upper registers of its group. -/
def latchedGroups : List (Nat × List Nat) :=
  [(0x00C, [0x010]), (0x208, [0x20C, 0x210]), (0x408, [0x40C]), (0x410, [0x414]), (0x418, [0x41C]), (0x614, [0x618]),
   (0x61C, [0x620]), (0x820, [0x824])]

/-- A port's register access that was carried out. -/
def carried (port : Port) (addr : Nat) (wr : Bool) (val : Word) : BusRec := ⟨port, addr, wr, val, .done⟩

/-! ### Invariants -/

/-- Every sparse memory is in its canonical form: keys strictly rising, no entry equal to what an unlisted key reads as. -/
def Canon (s : State) : Prop :=
  Memory.wf s.mram = true ∧ Memory.wf s.seg.vstore = true ∧ swf (fun _ => (0 : Word)) s.seg.tset = true ∧
  swf (fun _ => (0 : Word)) s.seg.mem = true ∧ swf (fun _ => ((0, 0) : Nat × Nat)) s.seg.stat = true ∧
  ∀ k < 8, swf waveReset (octAt s k).wave = true

/-- No buffer holds more than the spec gives it room for: the trouble log 2 048 entries (17 R407), the SPI notification queue 64 (15 R354), the TASP
notification and request queues 64 each (16 R382, R386), the notes held for a session 256 (16 R387), the ARP cache 16 (16 R373), ring triggers 8 (14
R329), nonces 16 (12 R279), PTP masters 4 (04 R103), and the FIFO of an octet 4 096 entries (10 R250); the oldest
entry of the trouble log is a head (17 R412). -/
def Capacity (s : State) : Prop :=
  s.nw.log.length ≤ 2048 ∧ s.spi.queue.length ≤ 64 ∧ s.tasp.queue.length ≤ 64 ∧ s.tasp.reqs.length ≤ 64 ∧
  (∀ i x, vget s.tasp.sess i none = some x → x.notes.length ≤ 256) ∧ s.eth.arp.length ≤ 16 ∧ s.ring.trigs.length ≤ 8 ∧
  s.sl.pool ≤ 16 ∧ s.ptp.masters.length ≤ 4 ∧ (∀ k, (capAt s k).fifo.length ≤ 4096) ∧
  ∀ e, s.nw.log.head? = some e → isCont e = false

end Sys2Proof
end

