-- ==== Sys2Proof/Certificates/Slice0/Obligations.lean ====
section
/-!
DEFINITION. Obligations.lean: the statements for the provers. OBLIGATIONS.json lists them with their rules.
-/

open Sys2Proof Sys2Proof.Machine

/-- For every state and command, a step at the state with that command put in front of its queue is exec of the command on the state
with the rest of the queue, whatever it answers; at a state whose queue is empty a step answers that same state (the model's choice,
log 1). Every command completes in every state: exec answers a next state for each of the 247 commands, with all operands, so that no
command ends in a fault or a refusal; the effect of each is stated by the statements of its family. -/
def Obligations.StepRunsFrontCommand : Prop :=
  (∀ (c : Instr) (rest : List Instr) (s : State), step { s with pending := c :: rest } = exec c { s with pending := rest }) ∧
  (∀ s : State, s.pending = [] → step s = .next s) ∧
  (∀ (c : Instr) (s : State), ∃ w, exec c s = .next w)

/-- At State.reset the queue is empty, the unit has no line power and is in ship mode, and each register listed reads the value of its
Reset column (Tables 18-5 to 18-15) where that is a number and not a live value; every event register reads 0. A full Dawn gives the
registers these values again; the values of the factory and of Nightwatch are not among them. -/
def Obligations.ResetRegisters : Prop :=
  State.reset.pending = [] ∧ State.reset.pwr.st = .absent ∧ State.reset.nw.shipMode = true ∧
  (∀ x ∈ ([(0x000, 0x0ADA0001), (0x004, 0x7A4D0040), (0x008, 0x00004243), (0x03C, 0), (0x040, 0x36), (0x05C, 0x01F40003),
      (0x064, 0x8000FF00), (0x118, 0xFF), (0x11C, 0x7D0), (0x204, 0x20), (0x21C, 0x0258320C), (0x220, 0), (0x224, 0x00300800),
      (0x228, 0), (0x304, 0x3C), (0x308, 0), (0x330, 0), (0x340, 0), (0x350, 0), (0x360, 0), (0x3A8, 0x100), (0x3CC, 0x140),
      (0x400, 1), (0x404, 0x03000000), (0x500, 0x800400C8), (0x504, 0x01000400), (0x508, 0x01000100), (0x50C, 0x01000100),
      (0x510, 0x01000100), (0x514, 0x00400100), (0x518, 0x008000C0), (0x51C, 0x00300010), (0x524, 0), (0x600, 0x031003E8),
      (0x604, 0x40), (0x70C, 0), (0x710, 0x03E8C800), (0x714, 0x64), (0x728, 0x80000064), (0x800, 0xA), (0x804, 0x5064), (0x808, 0),
      (0x828, 0), (0x900, 0x10), (0x910, 0), (0x920, 0x03E83C83), (0xA04, 0xC00A0258), (0xA0C, 0), (0xA14, 0xFFFFFFFF),
      (0xA18, 0xFFFFFFFF)] : List (Nat × Word)), regVal State.reset x.1 = x.2) ∧
  (∀ x ∈ rcRegs, regVal State.reset x.1 = 0)

/-- At State.reset, for every octet OCT_LOAD_CTRL reads 0x0100_0000, OCT_WAVE_LVL 0x0000_8000, OCT_ROLL_CFG 0x8000_03E8, OCT_CAL_STAT
0x0000_8000 and the other octet registers 0; for every pin PIN_CFG reads 3, the drive and compare levels 0x8000_8000 and the termination
level 0x8000; every word of the timing-set memory and of the segment table reads 0. -/
def Obligations.ResetPinsAndArrays : Prop :=
  (∀ k < 8, regVal State.reset (0x1000 + 0x40 * k) = 0x01000000 ∧ regVal State.reset (0x100C + 0x40 * k) = 0x8000 ∧
    regVal State.reset (0x1024 + 0x40 * k) = 0x800003E8 ∧ regVal State.reset (0x1020 + 0x40 * k) = 0x8000 ∧
    ∀ off ∈ [0x04, 0x08, 0x10, 0x14, 0x18, 0x1C, 0x28], regVal State.reset (0x1000 + 0x40 * k + off) = 0) ∧
  (∀ n < 64, regVal State.reset (0x2000 + 0x20 * n) = 3 ∧ regVal State.reset (0x2004 + 0x20 * n) = 0x80008000 ∧
    regVal State.reset (0x2008 + 0x20 * n) = 0x80008000 ∧ regVal State.reset (0x200C + 0x20 * n) = 0x8000) ∧
  (∀ i < 16384, regVal State.reset (0x100000 + 4 * i) = 0) ∧
  (∀ i < 32768, regVal State.reset (0x200000 + 4 * i) = 0)

/-- Every command first carries the unit to its instant, which never runs back. Where no happening of a cycle being played falls due
before it, time only passes: the Nightwatch counter counts the codes elapsed in every state; the time base keeps its count while it does
not run, and counts exactly those codes while it runs and no slew is left; within one cycle of 320 codes the event registers and the
events waiting stay as they are, and in a later cycle none is left waiting; all else is as before. Where one happening falls due before
it and queues no other, it takes place at its own instant first: a step of a pin's input, a drive edge, the formation of a record. -/
def Obligations.TimePassing : Prop :=
  ∀ (t : Instant) (s : State),
    (advance t s).now = max s.now t ∧
    ((∀ a l, s.seqr.acts = a :: l → max s.now t ≤ a.at_) → advance t s = pass t s) ∧
    (let u := pass t s
     u = { s with now := u.now, hap := u.hap, ev := u.ev, evPend := u.evPend, tim := u.tim, nw := { s.nw with codes := u.nw.codes } } ∧
     u.now = max s.now t ∧ (s.now ≤ t → u.hap = t) ∧
     u.nw.codes = s.nw.codes + (u.now - s.now) ∧
     (s.tim.running = false → u.tim = s.tim) ∧
     (s.tim.running = true → s.tim.slew = 0 → u.tim = { s.tim with codes := s.tim.codes + (u.now - s.now) }) ∧
     (cycleOf u.now = cycleOf s.now → u.ev = s.ev ∧ u.evPend = s.evPend) ∧
     (cycleOf u.now ≠ cycleOf s.now → u.evPend = []) ∧
     pass t u = u) ∧
    (∀ a, s.seqr.acts = [a] → a.at_ < max s.now t →
      let v := pass a.at_ { s with seqr := { s.seqr with acts := [] } }
      ((runAct a v).seqr.acts = [] → advance t s = pass t (runAct a v)) ∧
      (∀ n x, a.kind = .input n x → advance t s = pass t (inputStep n x v)) ∧
      (∀ n e, a.kind = .edge n e → advance t s = pass t (modPin n (fun p => p.edge e) v)))

/-- REGISTER_WRITE through a running port to an RW register of a global block that has no action of its own completes: the access is
answered as carried out, the register then reads the written value in its writable bits and 0 in the others, even where a field lies
outside its range (R422), and no other stored register of a global block changes. G_LED_CTRL, G_JOB_SEL and G_RING_ARG change nothing else at all. -/
def Obligations.RwRegisterWriteReadsBack : Prop :=
  ∀ (t : Instant) (p : Port) (v : Word) (s : State), portUp (advance t s) p = true →
    let u := assureLapse (advance t s)
    (∀ x ∈ rwRegs, Does (.registerWrite t p x.1 v) s fun w =>
      regVal w x.1 = v &&& x.2 ∧ w.bus = some (carried p x.1 true v) ∧
      (∀ y ∈ rwRegs, y.1 ≠ x.1 → (x.1 = 0x70C → y.1 ≠ 0x714) → regVal w y.1 = regVal u y.1) ∧
      (∀ y ∈ rwlRegs, regVal w y.1 = regVal u y.1)) ∧
    Does (.registerWrite t p 0x03C v) s (fun w =>
      w = { u with r := { u.r with ledCtrl := v &&& 3 }, bus := some (carried p 0x03C true v) }) ∧
    Does (.registerWrite t p 0x308 v) s (fun w =>
      w = { u with r := { u.r with jobSel := v &&& 0xF }, bus := some (carried p 0x308 true v) }) ∧
    Does (.registerWrite t p 0x828 v) s (fun w =>
      w = { u with r := { u.r with ringArg := v }, bus := some (carried p 0x828 true v) })

/-- REGISTER_WRITE through a running port to an RWL register: where the unit is in Day in that cycle (STATE 3), the access is answered
ACCESS and the register keeps its value, and but for G_ARB_CFG, whose write first brings the arbiter up to its cycle, nothing else
changes; in every other state it completes, is answered as carried out, and the register reads the written value in its writable bits. -/
def Obligations.RwlRegisterWrite : Prop :=
  ∀ (t : Instant) (p : Port) (v : Word) (s : State), portUp (advance t s) p = true →
    let u := assureLapse (advance t s)
    ∀ x ∈ rwlRegs,
      (u.pwr.st = .day → Does (.registerWrite t p x.1 v) s fun w =>
        w.bus = some ⟨p, x.1, true, v, .access⟩ ∧ regVal w x.1 = regVal u x.1 ∧
        (x.1 ≠ 0x500 → w = { u with bus := some ⟨p, x.1, true, v, .access⟩ })) ∧
      (u.pwr.st ≠ .day → Does (.registerWrite t p x.1 v) s fun w =>
        w.bus = some (carried p x.1 true v) ∧
        (if x.1 / 16 ∈ [0x33, 0x34, 0x35, 0x36] then regVal w x.1 &&& 0x0FFF0FFF = v &&& x.2 else regVal w x.1 = v &&& x.2))

/-- An access through a running port to an address that is no multiple of 4 is answered ALIGN, and one outside the register space ADDRESS,
by write and by read, with nothing changed but the inputs of pins that a read tells of. A write to an unused offset, to a register whose
fields are all RO or to one whose fields are RC is answered as carried out and has no effect (in the arbiter block it only brings the
arbiter up to its cycle); an unused offset reads 0 whatever was written. Registers are reached only through a running port: a command
that writes or reads a register through a port that does not run completes with nothing changed but the instant and those inputs, for the
three register commands and for every write with a row of its own; without line power and in Night no port runs; in maintenance Day the
SPI port reaches no register. -/
def Obligations.WriteWithoutEffect : Prop :=
  (∀ (t : Instant) (p : Port) (a : Nat) (v : Word) (ins : List (Fin 64 × Int)) (s : State), portUp (advance t s) p = true →
      let u := advance t s
      let l := assureLapse u
      let i := inputsNow ins u
      (a % 4 ≠ 0 →
        Does (.registerWrite t p a v) s (fun w => w = { l with bus := some ⟨p, a, true, v, .align⟩ }) ∧
        Does (.rcRegisterRead t p ⟨a, ins⟩) s (fun w => w = { i with bus := some ⟨p, a, false, 0, .align⟩ }) ∧
        Does (.latchedGroupLowRead t p a) s (fun w => w = { u with bus := some ⟨p, a, false, 0, .align⟩ })) ∧
      (a % 4 = 0 → inSpace a = false →
        Does (.registerWrite t p a v) s (fun w => w = { l with bus := some ⟨p, a, true, v, .address⟩ }) ∧
        Does (.rcRegisterRead t p ⟨a, ins⟩) s (fun w => w = { i with bus := some ⟨p, a, false, 0, .address⟩ }) ∧
        Does (.latchedGroupLowRead t p a) s (fun w => w = { u with bus := some ⟨p, a, false, 0, .address⟩ })) ∧
      (a % 4 = 0 → unused a = true ∨ a ∈ roRegs ∨ a ∈ rcRegs.map (·.1) → a / 256 ≠ 5 →
        Does (.registerWrite t p a v) s (fun w => w = { l with bus := some (carried p a true v) })) ∧
      (a % 4 = 0 → unused a = true ∨ a ∈ [0x520, 0x528, 0x530, 0x534] → a / 256 = 5 →
        Does (.registerWrite t p a v) s (fun w => w = { arbReady l with bus := some (carried p a true v) })) ∧
      (unused a = true → regVal s a = 0)) ∧
  (∀ (t : Instant) (p : Port) (a ix : Nat) (v : Word) (o : Fin 8) (n : Fin 64) (ins : List (Fin 64 × Int)) (s : State),
    portUp (advance t s) p = false →
    Does (.rcRegisterRead t p ⟨a, ins⟩) s (fun w => w = inputsNow ins (advance t s)) ∧
    ∀ c ∈ [Instr.registerWrite t p a v, .latchedGroupLowRead t p a, .pwrReqDay t p, .pwrReqEvening t p,
        .pwrReqNight t p, .timeSetLoWrite t p v, .jobCancelWrite t p v, .evidReleaseWrite t p v, .routineEnableWrite t p v,
        .octLoadWrite t p o v, .safeReleaseWrite t p n v, .urRelease t p v, .timingSetWrite t p ix v, .segmentEntryWrite t p ix v,
        .waveTableWrite t p ix v, .tsetProbeWrite t p v, .segLoadWrite t p v, .sringResetWrite t p v, .calReqOct t p v,
        .calReqUnit t p v, .calReqStore t p v, .calReqCancel t p v, .ringCmdWake t p v, .ringCmdPropose t p v, .ringCmdTrig t p v,
        .ringCmdRun t p v, .faultClearWrite t p v, .faultCfgWrite t p v, .fwdCfgWrite t p v],
      exec c s = .next (advance t s)) ∧
  (∀ (p : Port) (s : State), s.pwr.st = .absent ∨ s.pwr.st = .night → portUp s p = false) ∧
  (∀ s : State, s.pwr.st = .maint → portUp s .spi = false)

/-- RC_REGISTER_READ through a running port of a register whose event fields are RC completes: it is answered with what the register
held, the register's event word becomes 0 (HIGH_WATER of OCT_CAP the occupancy of the FIFO at the read, 10 R259), no other event register
changes, and the events of the present cycle stay waiting, so that the first read in a later cycle shows exactly them. It changes nothing
else but the inputs of pins it tells of; in the arbiter block the arbiter is first brought up to the cycle. A read of either W1C register,
G_ASSURE_HIST or G_ARB_FAULT, clears nothing; a write clears just the bits written as 1. -/
def Obligations.RcReadClears : Prop :=
  ∀ (t : Instant) (p : Port) (ins : List (Fin 64 × Int)) (s : State), portUp (advance t s) p = true →
    let l := assureLapse (advance t s)
    let i := assureLapse (inputsNow ins (advance t s))
    let base := fun (a : Nat) => if a / 256 = 5 then arbReady i else i
    let reads := fun (a r : Nat) (x : Word) (w : State) =>
      w = { base a with ev := w.ev, bus := some (carried p a false (regVal (base a) a)) } ∧ vget w.ev r 0 = x ∧
      (∀ q, q ≠ r → vget w.ev q 0 = vget (base a).ev q 0) ∧
      (∀ t', cycleOf w.now < cycleOf t' → vget (pass t' w).ev r 0 = evNow w r)
    (∀ x ∈ rcRegs, Does (.rcRegisterRead t p ⟨x.1, ins⟩) s (reads x.1 x.2 0)) ∧
    (∀ k < 8, Does (.rcRegisterRead t p ⟨0x1014 + 0x40 * k, ins⟩) s (reads (0x1014 + 0x40 * k) (rgXpt k) 0) ∧
      Does (.rcRegisterRead t p ⟨0x1018 + 0x40 * k, ins⟩) s (reads (0x1018 + 0x40 * k) (rgCapHw k) (word (2 ^ 16 * capFill i k))) ∧
      Does (.rcRegisterRead t p ⟨0x101C + 0x40 * k, ins⟩) s (reads (0x101C + 0x40 * k) (rgCapLoss k) 0)) ∧
    (∀ a ∈ [0x024, 0x52C], Does (.rcRegisterRead t p ⟨a, ins⟩) s fun w =>
      w = { base a with bus := some (carried p a false (regVal (base a) a)) }) ∧
    (∀ v, Does (.registerWrite t p 0x024 v) s fun w =>
      vget w.ev rgAssureHist 0 = vget l.ev rgAssureHist 0 &&& ~~~v ∧ w.evPend = l.evPend) ∧
    (∀ v, Does (.registerWrite t p 0x52C v) s fun w =>
      vget w.ev rgArbFault 0 = vget (arbReady l).ev rgArbFault 0 &&& ~~~v ∧ w.evPend = (arbReady l).evPend)

/-- LATCHED_GROUP_LOW_READ through a running port of the lowest word of a group of R10 completes: it is answered with that word and latches
the upper words of the group as they stand then; a read of an upper word afterwards, at any later instant while the latch is kept,
returns the word latched; no register, event or other latch changes. While the group's latch is empty, an upper word reads live. -/
def Obligations.LatchedReads : Prop :=
  ∀ (t : Instant) (p : Port) (ins : List (Fin 64 × Int)) (s : State), portUp (advance t s) p = true →
    let l := assureLapse (advance t s)
    let i := assureLapse (inputsNow ins (advance t s))
    (∀ x ∈ latchedGroups, Does (.latchedGroupLowRead t p x.1) s fun w =>
      w = { l with latch := w.latch, bus := some (carried p x.1 false (regVal l x.1)) } ∧
      (∀ a ∈ x.2, latched w a = some (regVal l a)) ∧
      (∀ y ∈ latchedGroups, y.1 ≠ x.1 → ∀ a ∈ y.2, latched w a = latched l a)) ∧
    (∀ x ∈ latchedGroups, ∀ a ∈ x.2,
      (∀ v, latched (advance t s) a = some v →
        Does (.rcRegisterRead t p ⟨a, ins⟩) s fun w => w = { i with bus := some (carried p a false v) }) ∧
      (latched (advance t s) a = none →
        Does (.rcRegisterRead t p ⟨a, ins⟩) s fun w => w = { i with bus := some (carried p a false (regVal i a)) }))

/-- REGISTER_WRITE through a running port to a level register of pin n, to PIN_CFG, or to a wave register of octet k completes: the
register reads the written value in its writable bits, PENDING of the octet becomes 1, the values the pin and the generator have loaded
stay as they were, and for the level and wave level and control registers no other pin or octet changes, nor anything else of the
machine. -/
def Obligations.PinAndWaveRegisterWrites : Prop :=
  ∀ (t : Instant) (p : Port) (v : Word) (s : State), portUp (advance t s) p = true →
    let u := assureLapse (advance t s)
    (∀ n < 64, ∀ r ∈ ([(4, 0xFFFFFFFF), (8, 0xFFFFFFFF), (12, 0xFFFF)] : List (Nat × Word)),
      Does (.registerWrite t p (0x2000 + 0x20 * n + r.1) v) s fun w =>
        regVal w (0x2000 + 0x20 * n + r.1) = v &&& r.2 ∧ (octAt w (n / 8)).pending = true ∧ (pinAt w n).ld = (pinAt u n).ld ∧
        (∀ m, m ≠ n → pinAt w m = pinAt u m) ∧ (∀ k, k ≠ n / 8 → octAt w k = octAt u k) ∧
        w = { u with pins := w.pins, octs := w.octs, bus := some (carried p (0x2000 + 0x20 * n + r.1) true v) }) ∧
    (∀ n < 64, Does (.registerWrite t p (0x2000 + 0x20 * n) v) s fun w =>
        regVal w (0x2000 + 0x20 * n) = v &&& 0x001F3373 ∧ (octAt w (n / 8)).pending = true ∧ (pinAt w n).ld = (pinAt u n).ld) ∧
    (∀ k < 8, Does (.registerWrite t p (0x1008 + 0x40 * k) v) s fun w =>
        regVal w (0x1008 + 0x40 * k) = v ∧ (octAt w k).pending = true ∧ (octAt w k).ldFtw = (octAt u k).ldFtw) ∧
    (∀ k < 8, ∀ r ∈ ([(12, 0xFFFFFFFF), (16, 0x800003FF)] : List (Nat × Word)),
      Does (.registerWrite t p (0x1000 + 0x40 * k + r.1) v) s fun w =>
        (regVal w (0x1000 + 0x40 * k + r.1)) &&& 0xBFFFFFFF = v &&& r.2 &&& 0xBFFFFFFF ∧ (octAt w k).pending = true ∧
        (octAt w k).ldLvl = (octAt u k).ldLvl ∧ (octAt w k).ldRun = (octAt u k).ldRun ∧ (octAt w k).ldFtw = (octAt u k).ldFtw ∧
        (∀ j, j ≠ k → octAt w j = octAt u j) ∧
        w = { u with octs := w.octs, bus := some (carried p (0x1000 + 0x40 * k + r.1) true v) })

/-- OCT_LOAD_WRITE with LOAD 1, and LOAD_TIMER_EXPIRY when the timer counted max(25, TMR_PERIOD) periods of 80 ns since the last strobe
with TMR_EN 1, for an active octet with powered pins, outside a Twilight window and with no strobe in the cycle yet: STROBES goes up by
one modulo 65 536, LAST_SRC tells the source (1 register, 3 timer), each pin of the octet has the four register values it held at the
start of the cycle loaded, and the pins of the other octets keep theirs. In a window the strobe is noted instead. With LOAD 0, and before the timer is due, no
strobe is counted. -/
def Obligations.LoadStrobes : Prop :=
  ∀ (t : Instant) (p : Port) (k : Fin 8) (v : Word) (s : State),
    let u := advance t s
    let strobed := fun (src : Nat) (w : State) =>
      (octAt w k.val).strobes = ((octAt u k.val).strobes + 1) % 65536 ∧ (octAt w k.val).lastSrc = src ∧ (octAt w k.val).lastStrobe = u.now ∧
      (sameCycle (octAt u k.val).freshAt u.now = false → ∀ i < 8, (pinAt w (8 * k.val + i)).ld =
        ⟨(pinAt u (8 * k.val + i)).cfg, (pinAt u (8 * k.val + i)).lvlDrv, (pinAt u (8 * k.val + i)).lvlCmp, (pinAt u (8 * k.val + i)).lvlTt⟩) ∧
      (∀ n, n / 8 ≠ k.val → (pinAt w n).ld = (pinAt u n).ld)
    let free := octOn u k.val = true ∧ pinsOn u = true ∧ ((octAt u k.val).lastSrc = 0 ∨ sameCycle (octAt u k.val).lastStrobe u.now = false)
    (portUp u p = true → free → (octAt u k.val).win = none → v.getLsbD 31 = true → 25 ≤ fld v 0 24 →
      Does (.octLoadWrite t p k v) s fun w => (octAt w k.val).loadCtrl = v &&& 0x03FFFFFF ∧ strobed 1 w) ∧
    (portUp u p = true → (octAt u k.val).win.isSome = true → v.getLsbD 31 = true → 25 ≤ fld v 0 24 →
      Does (.octLoadWrite t p k v) s fun w =>
        (octAt w k.val).defReg = true ∧ (octAt w k.val).strobes = (octAt u k.val).strobes ∧ ∀ n, (pinAt w n).ld = (pinAt u n).ld) ∧
    (portUp u p = true → v.getLsbD 31 = false →
      Does (.octLoadWrite t p k v) s fun w => (octAt w k.val).loadCtrl = v &&& 0x03FFFFFF ∧
        (octAt w k.val).strobes = (octAt u k.val).strobes ∧ ∀ n, (pinAt w n).ld = (pinAt u n).ld) ∧
    (free → (octAt u k.val).win = none → (octAt u k.val).loadCtrl.getLsbD 25 = true →
      (octAt u k.val).lastStrobe + max 25 (fld (octAt u k.val).loadCtrl 0 24) * 20480 ≤ u.now →
      Does (.loadTimerExpiry t k) s (strobed 3)) ∧
    ((octAt u k.val).loadCtrl.getLsbD 25 = false ∨
        u.now < (octAt u k.val).lastStrobe + max 25 (fld (octAt u k.val).loadCtrl 0 24) * 20480 →
      Does (.loadTimerExpiry t k) s (fun w => w = u))

/-- In every state whose memories are canonical: WAVE_TICK, due 80 ns after the last for an active octet in Day with RUN loaded 1, adds the loaded tuning word to the accumulator
modulo 2^32 and outputs OFFSET + floor(AMP T / 32768) for the entry T the accumulator's ten top bits select, limited to 0 to 65 535;
before it is due nothing happens. WAVE_TABLE_WRITE to word j (0 to 4095) while RUN of its octet is not loaded as 1 leaves the word as
written and every other word of the tables as it was; while RUN is loaded as 1 it is answered ACCESS and changes nothing. -/
def Obligations.WaveTickAndTable : Prop :=
  ∀ (t : Instant) (p : Port) (k : Fin 8) (v : Word) (s : State), Canon s →
    let u := advance t s
    let o := octAt u k.val
    (u.pwr.st = .day → octOn u k.val = true → o.ldRun = true → o.waveAt + 20480 ≤ u.now → Does (.waveTick t k) s fun w =>
      (octAt w k.val).acc = o.acc + o.ldFtw ∧ (octAt w k.val).waveAt = o.waveAt + 20480 ∧
      ((octAt w k.val).code : Int) = max 0 (min 65535 ((fld o.ldLvl 0 16 : Int) +
        (fld o.ldLvl 16 16 : Int) * waveEntry o (fld (o.acc + o.ldFtw) 22 10) / 32768))) ∧
    (u.pwr.st ≠ .day ∨ octOn u k.val = false ∨ o.ldRun = false ∨ u.now < o.waveAt + 20480 →
      Does (.waveTick t k) s (fun w => w = u)) ∧
    (∀ ix < 4096, portUp u p = true → (octAt u (ix / 512)).ldRun = false → Does (.waveTableWrite t p ix v) s fun w =>
      regVal w (0x300000 + 4 * ix) = v ∧ (∀ jx < 4096, jx ≠ ix → regVal w (0x300000 + 4 * jx) = regVal u (0x300000 + 4 * jx)) ∧
      w = { assureLapse u with octs := w.octs, bus := some (carried p (0x300000 + 4 * ix) true v) }) ∧
    (∀ ix < 4096, portUp u p = true → (octAt u (ix / 512)).ldRun = true → Does (.waveTableWrite t p ix v) s fun w =>
      w = { assureLapse u with bus := some ⟨p, 0x300000 + 4 * ix, true, v, .access⟩ })

/-- DRIVER_OVERCURRENT on a pin that drives while the pins are powered leaves it safe: driver off, termination open, OVC 1; on a pin that
does not drive nothing happens. SAFE_RELEASE_WRITE with SAFE 1 in Day, for a pin safe since an earlier cycle whose octet is active, in no
window and not stopped, leaves it idle: driver off, termination as TERM; no other pin and nothing else changes; outside Day, with SAFE 0
or for a pin of an octet that is not active the pin stays as it is. UR_RELEASE with 1 in UR_RELEASE returns every pin that holds an
underrun state to idle and leaves the others as they are; it stores CACHE_EN. -/
def Obligations.SafeStateAndRelease : Prop :=
  ∀ (t : Instant) (p : Port) (n : Fin 64) (ma : Nat) (v : Word) (s : State),
    let u := advance t s
    let l := assureLapse u
    let q := pinAt u n.val
    (q.drv = true → pinsOn u = true → Does (.driverOvercurrent t n ma) s fun w =>
      (pinAt w n.val).safe = true ∧ (pinAt w n.val).drv = false ∧ (pinAt w n.val).term = false ∧ (pinAt w n.val).ovc = true) ∧
    (q.drv = false ∨ pinsOn u = false → Does (.driverOvercurrent t n ma) s (fun w => w = u)) ∧
    (portUp u p = true → v.getLsbD 15 = true → u.pwr.st = .day → octOn u (n.val / 8) = true → q.safe = true →
      sameCycle q.safeAt u.now = false → (octAt u (n.val / 8)).win = none → (stoppedMask u).testBit (n.val / 8) = false →
      Does (.safeReleaseWrite t p n v) s fun w =>
        (pinAt w n.val).safe = false ∧ (pinAt w n.val).drv = false ∧ (pinAt w n.val).term = q.ld.cfg.getLsbD 4 ∧
        (∀ m, m ≠ n.val → pinAt w m = pinAt u m) ∧
        w = { l with pins := w.pins, bus := some (carried p (0x2010 + 0x20 * n.val) true v) }) ∧
    (portUp u p = true → v.getLsbD 15 = false ∨ u.pwr.st ≠ .day ∨ octOn u (n.val / 8) = false →
      Does (.safeReleaseWrite t p n v) s fun w =>
        (pinAt w n.val).safe = q.safe ∧ (pinAt w n.val).drv = q.drv ∧ (pinAt w n.val).term = q.term) ∧
    (portUp u p = true → v.getLsbD 0 = true → Does (.urRelease t p v) s fun w =>
        (∀ m < 64, pinAt w m = if (pinAt u m).hold.isSome then
          { pinAt u m with safe := false, drv := false, term := (pinAt u m).ld.cfg.getLsbD 4, dz := false, hold := none } else pinAt u m) ∧
        w = { l with pins := w.pins, r := { u.r with segCtrl := v &&& 0x100 }, bus := some (carried p 0x3A8 true v) }) ∧
    (portUp u p = true → v.getLsbD 0 = false → Does (.urRelease t p v) s fun w =>
        w = { l with r := { u.r with segCtrl := v &&& 0x100 }, bus := some (carried p 0x3A8 true v) })

/-- In every state whose memories are canonical: TIMING_SET_WRITE of word j (0 to 16 383) of the timing-set memory through a running port: where the word's set is not in use, the word
then reads as written with every bit, every other word of the memory and everything else stays (the write is noted until the cycle ends: a
start check that begins in it refuses it after all); where the set is selected by a job in
CHECKING, ARMED or RUNNING, the access is answered ACCESS, one is added to WR_REFUSED, and nothing else changes. -/
def Obligations.TimingSetWrites : Prop :=
  ∀ (t : Instant) (p : Port) (ix : Nat) (v : Word) (s : State), Canon s → ix < 16384 → portUp (advance t s) p = true →
    let u := assureLapse (advance t s)
    ((setsInUse u).testBit (ix / 512) = false → Does (.timingSetWrite t p ix v) s fun w =>
      regVal w (0x100000 + 4 * ix) = v ∧ (∀ jx < 16384, jx ≠ ix → regVal w (0x100000 + 4 * jx) = regVal u (0x100000 + 4 * jx)) ∧
      w = { u with seg := { u.seg with tset := w.seg.tset, undo := w.seg.undo, undoAt := u.now }, bus := some (carried p (0x100000 + 4 * ix) true v) }) ∧
    ((setsInUse u).testBit (ix / 512) = true → Does (.timingSetWrite t p ix v) s fun w =>
      w = { bump rgTset 16 16 1 u with bus := some ⟨p, 0x100000 + 4 * ix, true, v, .access⟩ })

/-- TSET_PROBE_WRITE while no probe runs starts one on the set and octets written, with the period of G_TSET_PROBE_PER taken as at least
320, and changes nothing else; while one runs it has no effect. TSET_PROBE_DONE ends the probe: FAIL is 1 exactly where some pin of
the octets selected (all 64 where none is) breaks a rule; PIN is then the lowest such pin, RULE and EDGE those of its first broken
rule in ascending code, SET the set, and PROBE 1 with SLOT 0 in either case. -/
def Obligations.TimingProbe : Prop :=
  ∀ (t : Instant) (p : Port) (v : Word) (s : State),
    let u := advance t s
    let l := assureLapse u
    (portUp u p = true → u.seg.probe = none → Does (.tsetProbeWrite t p v) s fun w =>
      w = { l with seg := { u.seg with probe := some ⟨fld v 0 5, fld v 8 8, max 320 u.r.tsetProbePer.toNat, u.now⟩ },
                   bus := some (carried p 0x3D0 true v) }) ∧
    (portUp u p = true → u.seg.probe.isSome = true → Does (.tsetProbeWrite t p v) s fun w =>
      w = { l with bus := some (carried p 0x3D0 true v) }) ∧
    (∀ b, u.seg.probe = some b → Does (.tsetProbeDone t) s fun w =>
      let hit := fun n => n < 64 ∧ (b.octs = 0 ∨ b.octs.testBit (n / 8) = true) ∧ (entryCheck (tsetEntry u b.set n) b.per).isSome = true
      w = { u with seg := { u.seg with probe := none, tchk := w.seg.tchk } } ∧ w.seg.tchk.probe = true ∧ w.seg.tchk.slot = 0 ∧
      (w.seg.tchk.fail = true ↔ ∃ n, hit n) ∧
      (w.seg.tchk.fail = true → hit w.seg.tchk.pin ∧ (∀ n, hit n → w.seg.tchk.pin ≤ n) ∧ w.seg.tchk.set = b.set ∧
        entryCheck (tsetEntry u b.set w.seg.tchk.pin) b.per = some (w.seg.tchk.rule, w.seg.tchk.edge)) ∧
      (w.seg.tchk.fail = false → w.seg.tchk.rule = 0 ∧ w.seg.tchk.edge = 0 ∧ w.seg.tchk.pin = 0 ∧ w.seg.tchk.set = 0))

/-- For the formatters RZ, R1 and SBC (FMT 2 to 4) and a period P, the check finds no broken rule exactly when the reserved bits are 0,
every edge lies below P, D1 to D2 to D3 are at least 80 codes apart in turn, the wrap from D3 to the next D1 leaves 80 codes, C2
is at least 64 codes after C1, D4 is not after C1, and C2 ends at least 64 codes before D4 of the next cycle; for an entry that only
compares (FMT 6) exactly when D4, C1 and C2 lie below P, C2 is at least 64 after C1 and D4 is not after C1. -/
def Obligations.EdgeOrderRules : Prop :=
  ∀ (e : TEntry) (p : Nat),
    (e.fmt = 2 ∨ e.fmt = 3 ∨ e.fmt = 4 →
      (entryCheck e p = none ↔
        e.mode < 16 ∧ e.w7 = 0 ∧ e.d1 < p ∧ e.d2 < p ∧ e.d3 < p ∧ e.d4 < p ∧ e.c1 < p ∧ e.c2 < p ∧
        e.d1 + 80 ≤ e.d2 ∧ e.d2 + 80 ≤ e.d3 ∧ e.d3 + 80 ≤ p + e.d1 ∧ e.c1 + 64 ≤ e.c2 ∧ e.d4 ≤ e.c1 ∧ e.c2 + 64 ≤ p + e.d4)) ∧
    (e.fmt = 6 →
      (entryCheck e p = none ↔
        e.mode < 16 ∧ e.w7 = 0 ∧ e.d4 < p ∧ e.c1 < p ∧ e.c2 < p ∧ e.c1 + 64 ≤ e.c2 ∧ e.d4 ≤ e.c1))

/-- In every state whose memories are canonical: SEGMENT_ENTRY_WRITE of word j of an entry: for words 0 to 6 of an entry not in use the word reads as written, the entry is unloaded,
every other word of the table keeps its content; word 7 takes no write and is not refused; an entry in use refuses the write with ACCESS
and counts it. SEG_LOAD_WRITE starts a load of the range, cut off at entry 4095, unless one runs, when it is refused. SEG_LOAD_DONE, due
20 ns for each entry after the load began, marks each entry of the range that no write has reached since its check loaded where its
check finds code 0, else refused with that code, and leaves the others unmarked; it reports the lowest refused entry and how many were
refused. -/
def Obligations.SegmentTable : Prop :=
  ∀ (t : Instant) (p : Port) (ix : Nat) (v : Word) (s : State), Canon s →
    let u := advance t s
    let l := assureLapse u
    (ix < 32768 → portUp u p = true →
      (ix % 8 ≠ 7 → entryInUse u (ix / 8) = false → Does (.segmentEntryWrite t p ix v) s fun w =>
        regVal w (0x200000 + 4 * ix) = v ∧ segStat w (ix / 8) = (0, 0) ∧
        (∀ jx < 32768, jx ≠ ix → jx / 8 ≠ ix / 8 ∨ jx % 8 ≠ 7 → regVal w (0x200000 + 4 * jx) = regVal u (0x200000 + 4 * jx)) ∧
        w = { l with seg := { u.seg with mem := w.seg.mem, stat := w.seg.stat, load := w.seg.load, undo := w.seg.undo, undoAt := u.now },
                     bus := some (carried p (0x200000 + 4 * ix) true v) }) ∧
      (ix % 8 = 7 → Does (.segmentEntryWrite t p ix v) s fun w => w = { l with bus := some (carried p (0x200000 + 4 * ix) true v) }) ∧
      (ix % 8 ≠ 7 → entryInUse u (ix / 8) = true → Does (.segmentEntryWrite t p ix v) s fun w =>
        w = { bump rgSeg 0 16 1 l with bus := some ⟨p, 0x200000 + 4 * ix, true, v, .access⟩ })) ∧
    (portUp u p = true → u.seg.load = none → Does (.segLoadWrite t p v) s fun w =>
      w = { l with seg := { u.seg with load := some ⟨fld v 0 12, min (fld v 16 12 + 1) (4096 - fld v 0 12),
              decide (4096 < fld v 0 12 + fld v 16 12 + 1), u.now, []⟩ }, bus := some (carried p 0x3A0 true v) }) ∧
    (portUp u p = true → u.seg.load.isSome = true → Does (.segLoadWrite t p v) s fun w =>
      w = { l with bus := some ⟨p, 0x3A0, true, v, .access⟩ }) ∧
    (∀ d, u.seg.load = some d → d.begun + d.count * 5120 ≤ u.now → Does (.segLoadDone t) s fun w =>
      w = { u with seg := { u.seg with load := none, stat := w.seg.stat, chk := w.seg.chk } } ∧
      (∀ e, d.first ≤ e → e < d.first + d.count → d.dirty.any (fun x => x.1 == e) = false →
        segStat w e = if loadCheck u e = 0 then (1, 0) else (2, loadCheck u e)) ∧
      (∀ e, e < d.first ∨ d.first + d.count ≤ e ∨ d.dirty.any (fun x => x.1 == e) = true → segStat w e = segStat u e) ∧
      w.seg.chk.refused = ((loadCodes u d).filter fun x => x.2 != 0).length ∧ w.seg.chk.fail = decide (0 < w.seg.chk.refused) ∧
      (w.seg.chk.fail = true → (w.seg.chk.entry, w.seg.chk.code) ∈ loadCodes u d ∧ w.seg.chk.code ≠ 0 ∧
        ∀ x ∈ loadCodes u d, x.2 ≠ 0 → w.seg.chk.entry ≤ x.1)) ∧
    (∀ d, u.seg.load = some d → u.now < d.begun + d.count * 5120 → Does (.segLoadDone t) s fun w => w = u)

/-- In every state whose memories are canonical: while a load runs, the check of entry e of its range reads its words in the cycle that lies 20 ns per earlier entry after the load
began. A write of word j (0 to 6) of that entry, not in use and not yet written since its check, that reaches it in an earlier cycle
is included: when the load completes with no further write, the entry is loaded or refused by the words the write left. A write
in that cycle or later leaves the entry unloaded when the load completes. -/
def Obligations.WriteDuringLoad : Prop :=
  ∀ (t t' : Instant) (p : Port) (ix : Nat) (v : Word) (s w : State) (d : SegLoad),
    let u := advance t s
    let e := ix / 8
    Canon s → ix < 32768 → ix % 8 ≠ 7 → portUp u p = true → entryInUse u e = false → u.seg.load = some d →
    d.first ≤ e → e < d.first + d.count → d.dirty.any (fun x => x.1 == e) = false → d.begun + d.count * 5120 ≤ max u.now t' →
    exec (.segmentEntryWrite t p ix v) s = .next w →
    Does (.segLoadDone t') w fun z =>
      (cycleOf u.now < cycleOf (d.begun + (e - d.first) * 5120) →
        segStat z e = if loadCheck w e = 0 then (1, 0) else (2, loadCheck w e)) ∧
      (cycleOf (d.begun + (e - d.first) * 5120) ≤ cycleOf u.now → segStat z e = (0, 0))

/-- SRING_RESET_WRITE through a running port: each ring named that no job in CHECKING, ARMED or RUNNING selects has WR_SEQ, RD_SEQ and its
pieces cleared and adds one to RESETS; where a ring named is in use the port is answered ACCESS and that ring keeps all it holds; rings
not named keep theirs. That a write naming rings of both kinds resets the free ones is the model's choice (log 19). -/
def Obligations.StreamRingReset : Prop :=
  ∀ (t : Instant) (p : Port) (v : Word) (s : State), portUp (advance t s) p = true →
    let u := assureLapse (advance t s)
    let busy := ringsBusy u
    Does (.sringResetWrite t p v) s fun w =>
      (∀ r < 4, vget w.seqr.srings r {} = if v.getLsbD r && !busy.testBit r then {} else vget u.seqr.srings r {}) ∧
      w.bus = some ⟨p, 0x320, true, v, if fld v 0 4 &&& busy = 0 then .done else .access⟩ ∧
      w = { u with seqr := { u.seqr with srings := w.seqr.srings }, evPend := w.evPend, bus := w.bus } ∧
      w.evPend = ((List.range 4).filter fun r => v.getLsbD r && !busy.testBit r).reverse.map (fun _ => ⟨rgSring, 0, 8, .add, 1⟩) ++ u.evPend

/-- ENCL_SENSE_UPDATE with the fast domain powered leaves G_ENCL_SENSE (PPS_IN_OK apart) as the lines of the sample, G_ENCL_THERM and
G_ENCL_FAN with the values sampled, and a fan failed exactly where the fans are commanded on and it has been below 20 % of its commanded
speed for 2 s; each fan is then commanded to full speed with the other failed, as the management core sets it with the other well, and off
where the fans are off; in Night and without line power it changes nothing. HARDWARE_THERMAL_TRIP at 115 °C or more removes power with no
Dusk: to Night while line power is there, else to line absent, and holds the trip; below 115 °C nothing happens. THERMAL_TRIP_RELEASE
below 95 °C drops the held trip and nothing else. HPRES_CHANGE sets the line and, with the fast domain powered, SPI_HPRES. PPS_OUT_FALL
ends a pulse that has lasted PPSO_WIDTH. -/
def Obligations.EnclosureCommands : Prop :=
  ∀ (t : Instant) (x : EnclSample) (dieC : Int) (high : Bool) (s : State),
    let u := advance t s
    let speed := fun (cmd : Nat) (otherFailed : Bool) => if fansOn u = true then (if otherFailed then Config.fanFull else cmd) else 0
    (fastOn u = true → Does (.enclSenseUpdate t x) s fun w =>
      regVal w 0x030 &&& 0xFFFFFDFF = word (2 ^ 14 * b2n u.encl.hpres + 2 ^ 13 * b2n u.encl.vbus + 2 ^ 12 * b2n x.carrierB +
        2 ^ 11 * b2n x.carrierA + 2 ^ 10 * b2n u.eth.link + 2 ^ 8 * b2n x.ref10 + x.pres.toNat) ∧
      regVal w 0x034 = word (2 ^ 16 * twos 8 x.bankC + 2 ^ 8 * twos 8 x.dieC + twos 8 x.inletC) ∧
      w.encl.fanSpeed0 = x.fan0 % 4096 ∧ w.encl.fanSpeed1 = x.fan1 % 4096 ∧
      (w.encl.fanFail0 = true ↔ fansOn u = true ∧ 5 * x.fan0 < speed x.cmd0 u.encl.fanFail1 ∧
        ∃ k, u.encl.fanLow0 = some k ∧ 2 * cS + k ≤ u.now) ∧
      (w.encl.fanFail1 = true ↔ fansOn u = true ∧ 5 * x.fan1 < speed x.cmd1 u.encl.fanFail0 ∧
        ∃ k, u.encl.fanLow1 = some k ∧ 2 * cS + k ≤ u.now) ∧
      w.encl.fanCmd0 = speed x.cmd0 w.encl.fanFail1 ∧ w.encl.fanCmd1 = speed x.cmd1 w.encl.fanFail0 ∧
      w.ring.pa.carrier = x.carrierA ∧ w.ring.pb.carrier = x.carrierB) ∧
    (fastOn u = false → Does (.enclSenseUpdate t x) s fun w => w = u) ∧
    (fastOn u = true → 115 ≤ dieC → Does (.hardwareThermalTrip t dieC) s fun w =>
      w.pwr.st = (if u.pwr.linePresent = true then .night else .absent) ∧
      w.nw.tripHeld = true ∧ w.nw.tripFound = true ∧ w.nw.wakeLatch = false ∧ w.encl.dieC = dieC ∧
      fastOn w = false ∧ w.spi = {} ∧ w.usb = {} ∧ w.eth = {} ∧ w.nw.chain = u.nw.chain ∧
      w.seqr = { srings := w.seqr.srings } ∧ (u.pwr.linePresent = true → w.seqr.srings = u.seqr.srings) ∧
      (u.sl.ckptWrite = none → w.nw.log = u.nw.log)) ∧
    (fastOn u = false ∨ dieC < 115 → Does (.hardwareThermalTrip t dieC) s fun w => w = u) ∧
    (dieC < 95 → Does (.thermalTripRelease t dieC) s fun w =>
      w = { u with nw := { u.nw with tripHeld := false } }) ∧
    (95 ≤ dieC → Does (.thermalTripRelease t dieC) s fun w => w = u) ∧
    Does (.hpresChange t high) s (fun w =>
      w = { u with encl := { u.encl with hpres := high, sense := w.encl.sense }, spi := w.spi, evPend := w.evPend } ∧
      (high = false ∨ u.spi.note = none ∨ u.spi.running = false → w.spi = u.spi ∧ w.evPend = u.evPend) ∧
      w.spi.note = u.spi.note ∧ w.spi.queue = u.spi.queue ∧
      (fastOn u = true → w.encl.sense.getLsbD 14 = high)) ∧
    (u.encl.ppsOutHigh = true → u.encl.ppsOutRise + ppsoWidth u ≤ u.now → Does (.ppsOutFall t) s fun w =>
      w = { u with encl := { u.encl with ppsOutHigh := false } }) ∧
    (u.encl.ppsOutHigh = false ∨ u.now < u.encl.ppsOutRise + ppsoWidth u → Does (.ppsOutFall t) s fun w => w = u)

/-- LINE_POWER_APPLIED without line power records the class events and makes a full Dawn due; a unit in ship mode leaves it with a
Nightwatch reset, which zeroes the continuity token and the counter and forgets a held trip, as NIGHTWATCH_RESET does in every state.
LINE_LOSS of 1 µs or more in Night leaves the unit without line power at once, with the vector store and evidence memory lost; in Day,
Evening, Dawn and maintenance Day it begins a Dusk towards line absent with cause 4 and no DUSK_WAIT. BANK_EXHAUSTED in such a Dusk cuts
it off: the unit is without line power, the chain state kept in Nightwatch is as it was, the incomplete Dusk stays flagged, and the
target of a checkpoint write under way is not valid; in any other state nothing happens. A loss of less than 0.5 µs is no line loss. -/
def Obligations.LinePower : Prop :=
  ∀ (t : Instant) (n ns : Nat) (ship : Bool) (s : State),
    let u := advance t s
    (u.pwr.st = .absent → u.pwr.linePresent = false → Does (.linePowerApplied t n) s fun w =>
      w = { u with pwr := { u.pwr with linePresent := true, lineDawn := true, classEvents := n }, nw := w.nw } ∧
      (u.nw.shipMode = false → w.nw = u.nw) ∧
      (u.nw.shipMode = true → w.nw =
        { u.nw with shipMode := false, token := 0, codes := 0, aligned := false, alignSec := 0, tripHeld := false, tripFound := false })) ∧
    (u.pwr.st ≠ .absent → u.pwr.st ≠ .dusk → Does (.linePowerApplied t n) s fun w => w = u) ∧
    (u.pwr.linePresent = true → u.pwr.st = .night → 1000 ≤ ns → Does (.lineLoss t ns) s fun w =>
      w.pwr.st = .absent ∧ w.pwr.linePresent = false ∧ w.seg.vstore = [] ∧ w.evid.held = [] ∧ w.nw.chain = u.nw.chain ∧
      w.nw.token = u.nw.token) ∧
    (u.pwr.linePresent = true → u.pwr.st ∈ [.day, .evening, .dawn, .maint] → 1000 ≤ ns → Does (.lineLoss t ns) s fun w =>
      w.pwr.st = .dusk ∧ w.pwr.target = .absent ∧ w.pwr.linePresent = false ∧ w.pwr.duskCause = 4 ∧ w.pwr.duskStep = 2 ∧
      w.pwr.duskWaitMs = 0 ∧ w.nw.duskIncomplete = true) ∧
    (ns < 500 → Does (.lineLoss t ns) s fun w => w = u) ∧
    (u.pwr.st = .dusk → u.pwr.target = .absent → u.pwr.lineBack = none → Does (.bankExhausted t) s fun w =>
      w.pwr.st = .absent ∧ w.pwr.lineDawn = false ∧ w.seqr = {} ∧ w.evid = {} ∧ w.sl.forming = none ∧
      w.nw.chain = u.nw.chain ∧ w.nw.duskIncomplete = u.nw.duskIncomplete ∧
      (u.sl.ckptWrite = none → w.mram = u.mram ∧ w.nw = { u.nw with wakeLatch := false }) ∧
      (∀ c, u.sl.ckptWrite = some c → ckptSeqAt w.mram c.slot = none ∧ w.sl.ckptForce = true)) ∧
    (u.pwr.st ≠ .dusk ∨ u.pwr.target ≠ .absent → Does (.bankExhausted t) s fun w => w = u) ∧
    Does (.nightwatchReset t ship) s (fun w =>
      w.nw = { u.nw with token := 0, codes := 0, aligned := false, alignSec := 0, tripHeld := false, tripFound := false, shipMode := w.nw.shipMode } ∧
      w.nw.shipMode = (u.nw.shipMode || (ship && u.pwr.st == .absent && !u.pwr.linePresent)) ∧
      w = { u with nw := w.nw, pwr := { u.pwr with lastStart := w.pwr.lastStart } })

/-- CELL_LOW_SET at 2.50 V or less with the cell present sets CELL_LOW and CELL_LOW_CLEARED above 2.50 V clears it, with the voltage shown
in G_PWR_CELL; CELL_PRESENCE_CHANGE sets CELL_ABSENT to the cell's absence, and a cell that is not there is not low. NIGHTWATCH_ALARM
clears each set value the counter has reached and leaves one it has not reached; with neither reached it changes nothing. -/
def Obligations.CellAndAlarm : Prop :=
  ∀ (t : Instant) (mv : Nat) (present : Bool) (s : State),
    let u := advance t s
    (mv ≤ 2500 → u.pwr.cellAbsent = false → Does (.cellLowSet t mv) s fun w =>
      w.pwr.cellLow = true ∧ w.pwr.cellMv = mv ∧ (scopeAt w 3 0).cond = true) ∧
    (2500 < mv ∨ u.pwr.cellAbsent = true → Does (.cellLowSet t mv) s fun w => w = u) ∧
    (2500 < mv → Does (.cellLowCleared t mv) s fun w =>
      w = { u with pwr := { u.pwr with cellLow := false, cellMv := mv }, flt := w.flt } ∧ (scopeAt w 3 0).cond = false) ∧
    (mv ≤ 2500 → Does (.cellLowCleared t mv) s fun w => w = u) ∧
    Does (.cellPresenceChange t present mv) s (fun w =>
      w.pwr.cellAbsent = !present ∧ w.pwr.cellMv = mv ∧ w.pwr.cellLow = (present && decide (mv ≤ 2500)) ∧
      (scopeAt w 4 0).cond = !present) ∧
    Does (.nightwatchAlarm t) s (fun w =>
      (∀ v, u.nw.alarm = some v → v ≤ u.nw.codes / 7812500 → w.nw.alarm = none) ∧
      (∀ v, u.nw.alarm = some v → u.nw.codes / 7812500 < v → w.nw.alarm = some v) ∧
      (∀ v, u.nw.alarmRdv = some v → v ≤ u.nw.codes / 7812500 → w.nw.alarmRdv = none) ∧
      ((∀ v, u.nw.alarm = some v ∨ u.nw.alarmRdv = some v → u.nw.codes / 7812500 < v) → w = u))

/-- In Night HSEL_WAKE with HPRES high asks for Evening with wake source 4, and VBUS_RISE with USB_EN 1 for Evening with wake source 5, where
no request waits; elsewhere HSEL_WAKE does nothing. VBUS_LOSS with J8 disconnected only drops the line. JOB_WAKE_CONDITION in Evening for
a queued job of kind 0 or 3, with Day not barred, asks for Day with wake source 6. PWR_REQ_DAY, PWR_REQ_EVENING and PWR_REQ_NIGHT through
a running port in Day or Evening, where no request waits, ask for their state with no wake source; Night is asked for as Evening while
VBUS is present and USB_EN is 1; PWR_REQ_DAY while CORE_FAILED is 1 is discarded, with notice 4. -/
def Obligations.PowerRequests : Prop :=
  ∀ (t : Instant) (p : Port) (i : Fin 16) (s : State),
    let u := advance t s
    let l := assureLapse u
    let free := u.clk.coreFailed = false ∧ dayBlock u = false
    (u.pwr.st = .night → u.encl.hpres = true → u.pwr.pend = none → Does (.hselWake t) s fun w =>
      w = { u with pwr := { u.pwr with pend := some ⟨.evening, 4, 0, u.now⟩ } }) ∧
    (u.pwr.st ≠ .night ∨ u.encl.hpres = false → Does (.hselWake t) s fun w => w = u) ∧
    (u.pwr.st = .night → u.encl.vbus = false → u.r.portCfg.getLsbD 5 = true → u.pwr.pend = none → Does (.vbusRise t) s fun w =>
      w = { u with encl := { u.encl with vbus := true }, usb := w.usb, pwr := { u.pwr with pend := some ⟨.evening, 5, 0, u.now⟩ } }) ∧
    (u.usb.dev = 0 → Does (.vbusLoss t none) s fun w => w = { u with encl := { u.encl with vbus := false } }) ∧
    (u.usb.dev ≠ 0 → ∀ c, Does (.vbusLoss t c) s fun w =>
      w.encl.vbus = false ∧ w.usb.dev = 0 ∧ w.usb.addr = 0 ∧ w.usb.bulk = none ∧ w.usb.upOn = false) ∧
    (u.pwr.st = .evening → free → u.pwr.pend = none → (slotAt u i.val).st = .queued → (slotAt u i.val).desc.kind ∈ [0, 3] → (slotAt u i.val).start = none →
      Does (.jobWakeCondition t i) s fun w =>
        w = { u with pwr := { u.pwr with pend := some ⟨.day, 6, 0, u.now⟩ }, rt := { u.rt with after := [] } }) ∧
    ((slotAt u i.val).st ≠ .queued → Does (.jobWakeCondition t i) s fun w => w = u) ∧
    (portUp u p = true → u.pwr.st ∈ [.day, .evening] → u.pwr.pend = none →
      (free → Does (.pwrReqDay t p) s fun w =>
        w = { l with pwr := { u.pwr with pend := some ⟨.day, 0, 0, u.now⟩ }, rt := { u.rt with after := [] },
                     bus := some (carried p 0x104 true 1) }) ∧
      Does (.pwrReqEvening t p) s (fun w =>
        w = { l with pwr := { u.pwr with pend := some ⟨.evening, 0, 0, u.now⟩ }, bus := some (carried p 0x104 true 2) }) ∧
      Does (.pwrReqNight t p) s (fun w =>
        w = { l with pwr := { u.pwr with pend := some ⟨if u.encl.vbus && u.r.portCfg.getLsbD 5 then .evening else .night, 0, 0, u.now⟩ },
                     bus := some (carried p 0x104 true 3) })) ∧
    (portUp u p = true → u.clk.coreFailed = true → Does (.pwrReqDay t p) s fun w =>
      w.pwr = u.pwr ∧ w.bus = some (carried p 0x104 true 1) ∧
      w.nw.log.getLast? = some (logHead 0xFF 4 16 (tamNow u) u.tim.valid))

/-- DUSK_ENTRY with a request for Evening or Night waiting in Day since an earlier cycle begins the Dusk: STATE Dusk, its target and cause,
step 2, DUSK_WAIT from that instant, and the staged image dropped; with no request, or one of this cycle, it does nothing. DUSK_WAIT_EXPIRY at the end of DUSK_WAIT orders each running
job, once, to stop with DUSK_STOP at its next granule boundary. DUSK_JOBS_ENDED with no job left puts every pin in the safe state and
goes on to step 4, refusing queued jobs where the target is Night or line absent; DUSK_FIFOS_DRAINED with nothing left for a chain that is not suspended orders the seal and goes on to
step 5; DUSK_SEALED with the seal written goes on to step 6 towards Night with all jobs ended, and to step 7 towards Evening.
DUSK_POWER_DOWN at step 7 towards Evening enters Evening with the pins without power, and makes the Day request latched in the Dusk
unless CORE_FAILED is 1. None of them does anything out of its turn. -/
def Obligations.DuskSteps : Prop :=
  ∀ (t : Instant) (q : PwrPend) (s : State),
    let u := advance t s
    (u.pwr.st = .day → u.pwr.pend = some q → q.target ∈ [.evening, .night] → sameCycle q.at_ u.now = false → Does (.duskEntry t) s fun w =>
      w.pwr.st = .dusk ∧ w.pwr.target = q.target ∧ w.pwr.duskCause = q.cause ∧ w.pwr.duskStep = 2 ∧ w.pwr.duskStart = u.now ∧
      w.pwr.duskWaitMs = fld u.r.pwrCfg 0 16 ∧ w.boot.stage = [] ∧ w.cal.unitNext = none) ∧
    (u.pwr.pend = none ∨ (∃ r, u.pwr.pend = some r ∧ sameCycle r.at_ u.now = true) → Does (.duskEntry t) s fun w => w = u) ∧
    (u.pwr.st = .dusk → u.pwr.duskStep = 2 → u.pwr.duskStart + cMs * u.pwr.duskWaitMs ≤ u.now → Does (.duskWaitExpiry t) s fun w =>
      w = { u with seqr := { u.seqr with slots := w.seqr.slots } } ∧
      ∀ i < 16, slotAt w i = if (slotAt u i).st = .running ∧ (slotAt u i).stops.all (fun x => x.code != 4) = true then
        { slotAt u i with stops := ⟨true, 4, 0, u.now, false⟩ :: (slotAt u i).stops } else slotAt u i) ∧
    (u.pwr.st ≠ .dusk ∨ u.pwr.duskStep ≠ 2 ∨ u.now < u.pwr.duskStart + cMs * u.pwr.duskWaitMs →
      Does (.duskWaitExpiry t) s fun w => w = u) ∧
    (u.pwr.st = .dusk → u.pwr.duskStep = 2 → slotsIn u JobSt.active = [] → Does (.duskJobsEnded t) s fun w =>
      w.pwr.st = .dusk ∧ w.pwr.duskStep = 4 ∧ (pinsOn u = true → ∀ n < 64, (pinAt w n).safe = true ∧ (pinAt w n).drv = false) ∧
      (u.pwr.target = .night → slotsIn w (· == .queued) = [])) ∧
    (u.pwr.st ≠ .dusk ∨ u.pwr.duskStep ≠ 2 ∨ slotsIn u JobSt.active ≠ [] → Does (.duskJobsEnded t) s fun w => w = u) ∧
    (u.pwr.st = .dusk → u.pwr.duskStep = 4 → drained u = true → u.evid.suspended = false → u.pwr.target = .night →
      Does (.duskFifosDrained t) s fun w =>
      w = { u with pwr := { u.pwr with duskStep := 5, duskSealed := true }, sl := w.sl } ∧ 4 ∈ w.sl.due.map (·.1)) ∧
    (u.pwr.st ≠ .dusk ∨ u.pwr.duskStep ≠ 4 ∨ drained u = false → Does (.duskFifosDrained t) s fun w => w = u) ∧
    (u.pwr.st = .dusk → u.pwr.duskStep = 5 → sealsDone u = true → u.sl.ckptWrite = none →
      (u.pwr.target = .evening → Does (.duskSealed t) s fun w => w = { u with pwr := { u.pwr with duskStep := 7 } }) ∧
      (u.pwr.target = .night → slotsIn u (· == .queued) = [] → u.pwr.duskSealed = true → Does (.duskSealed t) s fun w =>
        w.pwr = { u.pwr with duskStep := 6 })) ∧
    (u.pwr.st ≠ .dusk ∨ u.pwr.duskStep ≠ 5 ∨ sealsDone u = false → Does (.duskSealed t) s fun w => w = u) ∧
    (u.pwr.st = .dusk → u.pwr.duskStep = 7 → u.pwr.target = .evening → Does (.duskPowerDown t) s fun w =>
      w.pwr.st = .evening ∧ w.clk.core = .off ∧ (∀ n < 64, (pinAt w n).drv = false ∧ (pinAt w n).safe = false) ∧
      (u.pwr.duskLatched = none → w.pwr.pend = u.pwr.pend) ∧
      (∀ k, u.pwr.duskLatched = some k →
        (u.clk.coreFailed = true → w.pwr.pend = u.pwr.pend) ∧
        (u.clk.coreFailed = false → dayBlock u = false → u.pwr.pend = none → w.pwr.pend = some ⟨.day, k, 0, u.now⟩))) ∧
    (u.pwr.st ≠ .dusk ∨ stepSeven u = false → Does (.duskPowerDown t) s fun w => w = u)

/-- DUSK_POWER_DOWN at step 7 of a Dusk towards Night, with no write to the configuration memory or of a seal under way and no host on
J8, leaves STATE Night with the fast domain without power: the vector store, the timing sets, the segment table, the stream rings, the
wave tables, the trims, the records of evidence memory and their numbers, the configuration memory, the trouble log, the token and the
stored registers are as they were; no port runs, no job or window is left, and every pin channel is back at its reset values. With VBUS
present and USB_EN 1 the unit enters Evening in place of Night. -/
def Obligations.NightEntry : Prop :=
  ∀ (t : Instant) (s : State),
    let u := advance t s
    u.pwr.st = .dusk → u.pwr.duskStep = 7 → u.pwr.target = .night → u.boot.store = none → u.boot.commit = none →
    (u.encl.vbus = false ∨ u.r.portCfg.getLsbD 5 = false → Does (.duskPowerDown t) s fun w =>
      w.pwr.st = .night ∧ fastOn w = false ∧ (∀ p, portUp w p = false) ∧
      w.seg = { u.seg with undo := [], load := none, probe := none } ∧ w.seqr = { srings := u.seqr.srings } ∧ w.cal.ch = u.cal.ch ∧
      w.evid.held = u.evid.held ∧ w.evid.count = u.evid.count ∧ w.evid.oldest = u.evid.oldest ∧
      w.mram = u.mram ∧ w.r = u.r ∧ w.nw.log = u.nw.log ∧ w.nw.token = u.nw.token ∧ w.nw.jobNo = u.nw.jobNo ∧
      (∀ n < 64, pinAt w n = {}) ∧
      (∀ k < 8, octAt w k = { wave := (octAt u k).wave, phaseTrim := (octAt u k).phaseTrim })) ∧
    (u.encl.vbus = true → u.r.portCfg.getLsbD 5 = true → Does (.duskPowerDown t) s fun w =>
      w.pwr.st = .evening ∧ w.pwr.target = .evening ∧ fastOn w = true ∧ w.seg.vstore = u.seg.vstore)

/-- BANK_UPDATE with the fast domain powered shows the bank's voltage, updates COMMIT_CJ, and adds one sample to the 1 ms window; where BANK_MJ falls to 20 000
or below in Day, every job that runs is ordered to stop with ENERGY_STOP at a granule boundary; in Night only the voltage is noted; without line power nothing.
POWER_WINDOW_END with the window's 100 samples taken shows the averages of load and input, empties the window, and, where the average load
exceeds the average declaration by more than 1 W and 3 % of the average excess declared, sets OVER_DECLARED for every job seen running in
it, also one that has ended since; before that nothing happens. The charger takes nothing at Class 3, at 60 J, in Night from 8 J on or without
line power, never more than 3.0 A, and in the states of the fast domain never more than P_B leaves beside the bus load; the bank supplies
the load above P_B, all of it in a Dusk after line loss. -/
def Obligations.BankAndWindow : Prop :=
  ∀ (t : Instant) (uv bus inp : Nat) (s : State),
    let u := advance t s
    let win := u.pwr.win
    let above := 100 * (win.decl + 1000 * win.samples) + 3 * win.excess < 100 * win.load
    (fastOn u = true → Does (.bankUpdate t uv bus inp) s fun w =>
      w.pwr.bankUv = uv ∧ w.pwr.busNow = bus ∧ w.pwr.commitCj = commitNow w ∧ w.pwr.win.samples = win.samples + 1 ∧ w.pwr.win.load = win.load + bus ∧ w.pwr.win.input = win.input + inp ∧
      (u.pwr.st = .day → bankMj { u with pwr := { u.pwr with bankUv := uv } } ≤ 20000 →
        bankMj { u with pwr := { u.pwr with bankUv := uv } } < bankMj u →
        ∀ i < 16, (slotAt u i).st = .running → ∃ x ∈ (slotAt w i).stops, x.gran = true ∧ x.code = 7)) ∧
    (u.pwr.st = .night → Does (.bankUpdate t uv bus inp) s fun w => w = { u with pwr := { u.pwr with bankUv := uv } }) ∧
    (u.pwr.st = .absent → Does (.bankUpdate t uv bus inp) s fun w => w = u) ∧
    (fastOn u = true → 100 ≤ win.samples → Does (.powerWindowEnd t) s fun w =>
      w.pwr.busMw = win.load / win.samples ∧ w.pwr.inputMw = win.input / win.samples ∧ w.pwr.win = {} ∧
      (above → ∀ i < 16, (slotAt u i).st ∉ [.free, .queued] → (slotAt u i).jobNo ∈ win.jobs → (slotAt w i).overDecl = true) ∧
      (¬above → w = { u with pwr := { u.pwr with busMw := win.load / win.samples, inputMw := win.input / win.samples, win := {} } })) ∧
    (fastOn u = false ∨ win.samples < 100 → Does (.powerWindowEnd t) s fun w => w = u) ∧
    (u.pwr.classEvents < 2 ∨ 10000000 ≤ u.pwr.bankUv ∨ u.pwr.st = .absent ∨ u.pwr.linePresent = false ∨
      (u.pwr.st = .night ∧ 8000 ≤ bankEnergy u) → chargerMw u = 0) ∧
    1000 * chargerMw u ≤ 3 * u.pwr.bankUv ∧
    (fastOn u = true → chargerMw u ≤ pbMw u - u.pwr.busNow) ∧
    (fastOn u = true → u.pwr.linePresent = true → u.pwr.st ≠ .dusk → bankSupplies u = u.pwr.busNow - pbMw u) ∧
    (u.pwr.st = .dusk → u.pwr.target = .absent → bankSupplies u = u.pwr.busNow)

/-- After the floor event (bankFloor, which a bank sample that takes BANK_MJ to 20 000 or below in Day carries out) every job that runs has ENERGY_STOP ordered at its next
granule boundary, each job in CHECKING or ARMED has left it with end code 7, and no Twilight window is left on any octet. -/
def Obligations.FloorStopsJobs : Prop :=
  ∀ s : State,
    let w := bankFloor s
    (∀ i < 16, (slotAt s i).st = .running → (slotAt w i).st = .running ∧
      ∃ x ∈ (slotAt w i).stops, x.gran = true ∧ x.code = 7) ∧
    (∀ i < 16, (slotAt s i).st = .checking ∨ (slotAt s i).st = .armed → (slotAt w i).st = .ending ∧ (slotAt w i).endCode = 7) ∧
    (∀ k < 8, (octAt w k).win = none)

/-- FULL_DAWN_BEGIN with the trip not held, where a full Dawn is due. From line absent: STATE Dawn, wake source 0, LAST_START 1 and the token
counted on where it was intact (0xFFFF wraps to 1), LAST_START 2 and the token of count 1 where not; the time base runs, from the last
tick of the Nightwatch counter after a warm start and from 0 after a cold one; a warm start restores the chain's head and COUNT from Nightwatch, with OLDEST and
SEALED_END at COUNT. From Night: the target and wake source of the request (3 for a host's), evidence memory and vector store kept, the
time base running again. In both every job slot is free, the chain suspended or not, the synthesisers are off and G_JOB_SEL, G_SEQ_CFG and
G_CAL_CFG read their reset values. After an abandoned short Dawn the Dawn begins again with every slot free, and evidence memory and the
vector store kept. With the trip held, or where none is due, nothing happens. -/
def Obligations.FullDawn : Prop :=
  ∀ (t : Instant) (x : DawnInput) (q : PwrPend) (s : State),
    let u := advance t s
    let began := fun (w : State) => w.pwr.st = .dawn ∧ w.tim.running = true ∧ w.clk.core = .off ∧ (∀ k < 8, octLocked w k = false) ∧
      (∀ i < 16, (slotAt w i).st = .free) ∧
      regVal w 0x304 = 0x3C ∧ regVal w 0x308 = 0 ∧ regVal w 0xA04 = 0xC00A0258
    (u.pwr.st = .absent → u.pwr.lineDawn = true → u.nw.tripHeld = false → Does (.fullDawnBegin t x) s fun w =>
      began w ∧ w.pwr.wakeSource = 0 ∧ w.pwr.fromLine = true ∧ w.pwr.tokenRead = u.nw.token ∧
      (tokenIntact u.nw.token = true → w.pwr.lastStart = 1 ∧
        w.nw.token = tokenOf (if fld u.nw.token 16 16 = 0xFFFF then 1 else fld u.nw.token 16 16 + 1) ∧
        w.tim.codes = 7812500 * (u.nw.codes / 7812500) ∧ w.evid.head = u.nw.chain.head ∧ w.evid.count = u.nw.chain.count ∧
        w.evid.oldest = u.nw.chain.count ∧ w.evid.sealedEnd = u.nw.chain.count) ∧
      (tokenIntact u.nw.token = false → w.pwr.lastStart = 2 ∧ w.nw.token = tokenOf 1 ∧ w.tim.codes = 0 ∧ w.tim.valid = false)) ∧
    (u.pwr.st = .night → u.pwr.pend = some q → u.nw.tripHeld = false → Does (.fullDawnBegin t x) s fun w =>
      began w ∧ w.pwr.target = q.target ∧ w.pwr.wakeSource = (if q.source = 0 then 3 else q.source) ∧ w.pwr.fromLine = false ∧
      w.evid.held = u.evid.held ∧ w.evid.count = u.evid.count ∧ w.evid.oldest = u.evid.oldest ∧ w.seg.vstore = u.seg.vstore ∧
      w.nw.token = u.nw.token ∧ w.tim.codes = 7812500 * (u.nw.codes / 7812500)) ∧
    (u.pwr.st = .dawn → u.pwr.abandoned = true → u.nw.tripHeld = false → Does (.fullDawnBegin t x) s fun w =>
      w.pwr.st = .dawn ∧ w.pwr.abandoned = false ∧ w.pwr.shortDawn = false ∧ w.pwr.wakeSource = u.pwr.wakeSource ∧
      (∀ i < 16, (slotAt w i).st = .free) ∧ w.evid.held = u.evid.held ∧ w.evid.count = u.evid.count ∧ w.seg.vstore = u.seg.vstore) ∧
    (u.nw.tripHeld = true ∨ (u.pwr.st = .dawn ∧ u.pwr.abandoned = false) ∨ (u.pwr.st = .absent ∧ u.pwr.lineDawn = false) ∨ (u.pwr.st = .night ∧ u.pwr.pend = none) ∨
        u.pwr.st ∈ [.day, .evening, .dusk, .maint] → Does (.fullDawnBegin t x) s fun w => w = u)

/-- FULL_DAWN_BEGIN from line absent with the token not intact and no valid checkpoint slot in the configuration memory leaves COUNT 0
and the chain value H(-1) (the model writes none for it), and the first record formed is a GAP of cause 1 whose payload states checkpoint count 0. -/
def Obligations.ColdStartWithoutCheckpoint : Prop :=
  ∀ (t : Instant) (x : DawnInput) (s : State),
    let u := advance t s
    u.pwr.st = .absent → u.pwr.lineDawn = true → u.nw.tripHeld = false → tokenIntact u.nw.token = false → newestCkpt u.mram = 0 →
    Does (.fullDawnBegin t x) s fun w =>
      w.evid.count = 0 ∧ w.evid.head = none ∧
      chainHead w = sha256 (ascii "TAMONG-CLOASH-C1" ++ leBytes 8 w.boot.serial.toNat) ∧
      ∃ r, (w.evid.unitQ.head?.map (·.body)) = some r ∧ recType r = 0x21 ∧ recSub r = 1 ∧ r.p0 = 0 ∧ r.p1 = 0

/-- For every content of the configuration memory, with a and b the CP_SEQ of slots 0 and 1 where valid: with one slot valid that one is
newest; with both valid, slot 1 where b holds 1 and a 0xFFFF_FFFF, slot 0 where a holds 1 and b 0xFFFF_FFFF, and otherwise slot 1
where a is below b and slot 0 where it is not, ties included; with none valid there is none. The code is that of CKPT_SLOT: 0 none, 1
slot 0, 2 slot 1. -/
def Obligations.NewestCheckpoint : Prop :=
  ∀ m : List Host.Cell,
    (∀ a, ckptSeqAt m 0 = some a → ckptSeqAt m 1 = none → newestCkpt m = 1) ∧
    (∀ b, ckptSeqAt m 0 = none → ckptSeqAt m 1 = some b → newestCkpt m = 2) ∧
    (ckptSeqAt m 0 = none → ckptSeqAt m 1 = none → newestCkpt m = 0) ∧
    (∀ a b, ckptSeqAt m 0 = some a → ckptSeqAt m 1 = some b →
      (a = 0xFFFFFFFF → b = 1 → newestCkpt m = 2) ∧ (a = 1 → b = 0xFFFFFFFF → newestCkpt m = 1) ∧
      (¬(a = 0xFFFFFFFF ∧ b = 1) → ¬(a = 1 ∧ b = 0xFFFFFFFF) → (a < b → newestCkpt m = 2) ∧ (b ≤ a → newestCkpt m = 1)))

/-- While a full Dawn reads a bank: IMAGE_BANK_READ_DONE within IMG_TIMEOUT, where the bank's content passes every check, applies it: status
1, its code in IMAGE_BANK, an image applied, step 9 open; where it fails one, the bank has that check's status and the next candidate,
if there is one, is read from that instant. IMG_TIMEOUT_EXPIRY when the timeout has passed gives the bank status 10, with the same
consequence. For a bank that is not being read neither does anything, nor does the reading's end after the timeout or the expiry before it. -/
def Obligations.ImageBanks : Prop :=
  ∀ (t : Instant) (bk : Bank) (fails : List (Nat × Nat)) (n : Nat) (k : Instant) (s : State),
    let u := advance t s
    let img := rdBytes u.mram (bankAddr bk) (leAt (rdBytes u.mram (bankAddr bk) 64) 0x0C 4)
    let v := verifyImage u.mram (imgLimits u).1 fails img
    let stat := fun (w : State) => match bk with | .a => w.boot.statA | .b => w.boot.statB
    let next := fun (w : State) => ∀ c l, u.boot.cands = c :: l → w.boot.reading = some (c, u.now) ∧ w.boot.cands = l ∧ w.pwr.st = .dawn
    (u.pwr.st = .dawn → u.boot.reading = some (bk, k) → u.now ≤ k + cMs * (imgLimits u).2 →
      (v.1 = 1 → Does (.imageBankReadDone t bk fails) s fun w =>
        stat w = 1 ∧ w.boot.bank = bankCode bk ∧ w.boot.imageApplied = true ∧ w.boot.reading = none ∧ w.pwr.dawnReady = true) ∧
      (v.1 ≠ 1 → Does (.imageBankReadDone t bk fails) s fun w => stat w = v.1 ∧ next w)) ∧
    (u.pwr.st = .dawn → u.boot.reading = some (bk, k) → k + cMs * (imgLimits u).2 ≤ u.now →
      Does (.imgTimeoutExpiry t bk n) s fun w => stat w = 10 ∧ next w) ∧
    (u.pwr.st = .dawn → u.boot.reading = some (bk, k) → u.now < k + cMs * (imgLimits u).2 →
      Does (.imgTimeoutExpiry t bk n) s fun w => w = u) ∧
    (u.pwr.st = .dawn → u.boot.reading = some (bk, k) → k + cMs * (imgLimits u).2 < u.now →
      Does (.imageBankReadDone t bk fails) s fun w => w = u) ∧
    (u.pwr.st ≠ .dawn ∨ u.boot.reading.map (·.1) ≠ some bk →
      Does (.imageBankReadDone t bk fails) s (fun w => w = u) ∧ Does (.imgTimeoutExpiry t bk n) s (fun w => w = u))

/-- DAWN_ENTER_TARGET at step 9 of a Dawn with no request waiting: towards Day, with an image applied, no bar to Day, a tier above Class 3,
the bank at 20 J and the core and active octets locked, enters Day: STATE Day, every active octet has had one strobe with LAST_SRC 4, and
the pins of active octets are idle with the inputs they have at that instant; towards Evening it enters Evening with the synthesisers off;
towards Night, with no job queued and nothing left for the chain, it enters Night; with no image applied it enters maintenance Day with no
active octet; before step 9 it only notes the inputs. SHORT_DAWN_BEGIN in Evening with a request for Day begins a short Dawn with its
wake source (3 for a host's) and leaves every stored register and the vector store as they are, keeping the settings of Evening for the next full Dawn; with CORE_FAILED 1 the request is
discarded and the unit stays in Evening; without such a request nothing happens. -/
def Obligations.DawnEnd : Prop :=
  ∀ (t : Instant) (ins : List (Fin 64 × Int)) (n : Fin 64) (uv : Int) (q : PwrPend) (s : State),
    let u := advance t s
    let ready := u.pwr.st = .dawn ∧ u.pwr.dawnReady = true ∧ u.pwr.abandoned = false ∧ u.pwr.pend = none
    (ready → u.pwr.target = .day → u.boot.imageApplied = true → u.clk.coreFailed = false → dayBlock u = false → 2 ≤ u.pwr.classEvents →
      20000 ≤ bankMj u → coreLocked u = true → (∀ k < 8, octOn u k = true → octLocked u k = true) →
      Does (.dawnEnterTarget ⟨t, ins⟩) s (fun w => w.pwr.st = .day ∧ w.pwr.target = .day ∧ w.pwr.octActive = u.pwr.octActive ∧
        ∀ k < 8, octOn u k = true → (octAt w k).strobes = ((octAt u k).strobes + 1) % 65536 ∧ (octAt w k).lastSrc = 4) ∧
      (octOn u (n.val / 8) = true → Does (.dawnEnterTarget ⟨t, [(n, uv)]⟩) s fun w => (pinAt w n.val).inp = uv)) ∧
    (ready → u.boot.imageApplied = true → 2 ≤ u.pwr.classEvents →
      (u.pwr.target = .evening → Does (.dawnEnterTarget ⟨t, ins⟩) s fun w => w.pwr.st = .evening ∧ w.clk.core = .off) ∧
      (u.pwr.target = .night → u.encl.vbus = false → slotsIn u (· == .queued) = [] → drained u = true →
        Does (.dawnEnterTarget ⟨t, ins⟩) s fun w => w.pwr.st = .night ∧ w.seg.vstore = u.seg.vstore)) ∧
    (ready → u.boot.imageApplied = false →
      Does (.dawnEnterTarget ⟨t, ins⟩) s fun w => w.pwr.st = .maint ∧ w.pwr.octActive = 0 ∧ w.clk.core = .off) ∧
    (u.pwr.st ≠ .dawn ∨ u.pwr.dawnReady = false → Does (.dawnEnterTarget ⟨t, ins⟩) s fun w => w = { u with pins := w.pins }) ∧
    (u.pwr.st = .evening → u.pwr.pend = some q → q.target = .day → u.clk.coreFailed = false → dayBlock u = false → Does (.shortDawnBegin t) s fun w =>
      w.pwr.st = .dawn ∧ w.pwr.shortDawn = true ∧ w.pwr.dawnReady = true ∧ w.pwr.pend = none ∧
      w.pwr.wakeSource = (if q.source = 0 then 3 else q.source) ∧ w.r = u.r ∧ w.seg = u.seg ∧ w.boot = u.boot ∧
      w.nw = { u.nw with kept := ⟨u.r.bootLimits, u.r.timeSrc, u.r.ppsComp, u.r.ptpCfg, u.r.ptpAsym⟩ }) ∧
    (u.pwr.st = .evening → u.pwr.pend = some q → q.target = .day → u.clk.coreFailed = true → Does (.shortDawnBegin t) s fun w =>
      w.pwr = { u.pwr with pend := none } ∧ w.nw.log.getLast? = some (logHead 0xFF 4 (16 + q.source) (tamNow u) u.tim.valid)) ∧
    (u.pwr.st ≠ .evening ∨ u.pwr.pend = none ∨ u.pwr.pend.map (·.target) ≠ some .day → Does (.shortDawnBegin t) s fun w => w = u)

/-- CHECKPOINT_WRITE_DONE read back well leaves the checkpoint in its slot; read back badly it leaves that slot not valid, CKPT_FAIL up and
a checkpoint owed to the next seal. CAL_STORE_COMPLETE read back well, with no store held, leaves the slot's data and then its record and
LAST_STORE 1; read back badly LAST_STORE 3. IMAGE_COMMIT_COMPLETE read back well leaves the bank as staged and STATE 5, touching no byte
outside it; read back badly STATE is 2 or 6 (unstated which: a free value, log 3) and the header stays as it was. A store or a commit
does not end while an operation above it holds the port. MRAM_BUSY_TIMEOUT abandons the operation under way of the highest priority:
checkpoint, a store at its commit record, commit, store; with none of these, a write of the enrolment or of the network copy that this
Dawn made 1 ms ago or more. With none under way each only brings the account of the chunks carried out up to date, as every one of the last three does first. -/
def Obligations.MramWrites : Prop :=
  ∀ (t : Instant) (s : State),
    let u := advance t s
    let m := mramSettle u
    (m = { u with sl := { u.sl with ckptWrite := m.sl.ckptWrite },
                  boot := { u.boot with store := m.boot.store, commit := m.boot.commit, portAt := m.boot.portAt } } ∧
      m.sl.ckptWrite.map (fun c => (c.slot, c.data)) = u.sl.ckptWrite.map (fun c => (c.slot, c.data)) ∧
      m.boot.commit.map (fun j => (j.target, j.data)) = u.boot.commit.map (fun j => (j.target, j.data)) ∧
      m.boot.store.map (·.target) = u.boot.store.map (·.target)) ∧
    (∀ c, u.sl.ckptWrite = some c →
      Does (.checkpointWriteDone t true) s (fun w =>
        w.mram = wrBytes u.mram (ckptAddr c.slot) c.data ∧ w.sl.ckptWrite = none ∧ w.sl.ckptSlot = newestCkpt w.mram ∧
        w = { u with mram := w.mram, sl := w.sl, evPend := ⟨rgSeal, 0, 16, .add, 1⟩ :: u.evPend }) ∧
      Does (.checkpointWriteDone t false) s (fun w => w.sl.ckptWrite = none ∧ w.sl.ckptForce = true ∧ w.sl.ckptSlot = u.sl.ckptSlot ∧
        ckptSeqAt w.mram c.slot = none) ∧
      Does (.mramBusyTimeout t) s (fun w => w.sl.ckptWrite = none ∧ w.sl.ckptForce = true ∧ w.boot = m.boot ∧
        ckptSeqAt w.mram c.slot = none)) ∧
    (u.sl.ckptWrite = none → Does (.checkpointWriteDone t true) s (fun w => w = u) ∧ Does (.checkpointWriteDone t false) s (fun w => w = u)) ∧
    (∀ j, u.boot.store = some j → u.boot.storeHeld = false →
      let d := if j.snap then j.data else trimSnapshot u
      (ckptHolds m = false →
        Does (.calStoreComplete t true) s (fun w =>
          w.mram = wrBytes (wrBytes u.mram (slotAddr j.target) d) (0x3FFF0 + slotAddr j.target) (storeRecord u.boot.calSeq d) ∧
          w = { m with mram := w.mram, boot := { m.boot with store := none, lastStore := 1 } }) ∧
        Does (.calStoreComplete t false) s (fun w => w.boot.store = none ∧ w.boot.lastStore = 3)) ∧
      (ckptHolds m = true → Does (.calStoreComplete t true) s (fun w => w = m) ∧ Does (.calStoreComplete t false) s (fun w => w = m)) ∧
      (u.sl.ckptWrite = none → u.boot.commit = none ∨ (∃ i, m.boot.store = some i ∧ i.left ≤ 2) → Does (.mramBusyTimeout t) s fun w =>
        w.boot.store = none ∧ w.boot.lastStore = 3 ∧ w.boot.commit = m.boot.commit ∧ w.mram = u.mram)) ∧
    (∀ j, u.boot.commit = some j →
      (recordHolds m = false →
        Does (.imageCommitComplete t true) s (fun w =>
          w.mram = wrBytes u.mram (bankAddr j.target) j.data ∧
          (∀ a, a < bankAddr j.target ∨ bankAddr j.target + j.data.length ≤ a → rdByte w.mram a = rdByte u.mram a) ∧
          w = { m with mram := w.mram, boot := { m.boot with commit := none, stageState := 5 } }) ∧
        Does (.imageCommitComplete t false) s (fun w => w.boot.commit = none ∧ (w.boot.stageState = 2 ∨ w.boot.stageState = 6) ∧
          ∀ a, bankAddr j.target ≤ a → a < bankAddr j.target + 64 → rdByte w.mram a = rdByte u.mram a)) ∧
      (recordHolds m = true →
        Does (.imageCommitComplete t true) s (fun w => w = m) ∧ Does (.imageCommitComplete t false) s (fun w => w = m)) ∧
      (u.sl.ckptWrite = none → (∀ i, m.boot.store = some i → 2 < i.left) → Does (.mramBusyTimeout t) s fun w =>
        w.boot.commit = none ∧ w.boot.store = m.boot.store ∧ w.mram = u.mram)) ∧
    (u.boot.store = none → Does (.calStoreComplete t true) s (fun w => w = m) ∧ Does (.calStoreComplete t false) s (fun w => w = m)) ∧
    (u.boot.commit = none → Does (.imageCommitComplete t true) s (fun w => w = m) ∧ Does (.imageCommitComplete t false) s (fun w => w = m)) ∧
    (u.sl.ckptWrite = none → u.boot.commit = none → u.boot.store = none →
      (∀ x, u.boot.small = some x → u.pwr.st = .dawn → cMs + x.at_ ≤ u.now → Does (.mramBusyTimeout t) s fun w =>
        w.boot.small = none ∧ (w.mram = u.mram ∨ w.mram = wrBytes u.mram x.addr x.old)) ∧
      (u.boot.small = none ∨ u.pwr.st ≠ .dawn ∨ (∃ x, u.boot.small = some x ∧ u.now < cMs + x.at_) →
        Does (.mramBusyTimeout t) s fun w => w = m))

/-- For the core or an octet synthesiser: BAND_CAL_DONE after 1.2 ms (core) or 0.9 ms begins the attempt and keeps the die temperature the
band codes were taken at; SYNTH_LOCKED within the attempt, no sooner than 256 reference cycles, locks it; LOCK_ATTEMPT_TIMEOUT at the
limit of 1 ms or 0.5 ms begins band calibration and the next attempt while LOCK_TRIES allows one; after the last, the core is failed with
CORE_FAILED 1, and an octet in a full Dawn is marked in OCT_FAILED and left out of OCT_ACTIVE. SYNTH_LOCK_LOSS of an octet in Day makes its
pins safe and starts the relock; of a synthesiser that is not locked it does nothing. OVEN_WARM with the fast domain powered sets OSC_WARM;
OVEN_WARM_TIMEOUT after 180 s with the oven still cold reports the failure once, before that it does nothing. -/
def Obligations.Clocks : Prop :=
  ∀ (t : Instant) (o : Option (Fin 8)) (k : Fin 8) (b : Instant) (n : Nat) (s : State),
    let u := advance t s
    let band := if o.isNone then 307200000 else 230400000
    let limit := if o.isNone then 256000000 else 128000000
    let least := if o.isNone then 6553600 else 655360
    (synthAt u o = .band b n → b + band ≤ u.now → Does (.bandCalDone t o) s fun w =>
      synthAt w o = .attempt u.now n ∧ vget w.nw.bands (bandIx o) none = some u.encl.dieC ∧
      w = { u with clk := w.clk, nw := { u.nw with bands := w.nw.bands } }) ∧
    (synthAt u o = .attempt b n → b + least ≤ u.now → u.now ≤ b + limit → Does (.synthLocked t o) s fun w => synthAt w o = .locked u.now) ∧
    (synthAt u o = .attempt b n → b + limit ≤ u.now → n < lockTries u → Does (.lockAttemptTimeout t o) s fun w =>
      synthAt w o = .band u.now (n + 1) ∧ w = { u with clk := w.clk }) ∧
    (synthAt u none = .attempt b n → 256000000 + b ≤ u.now → lockTries u ≤ n → Does (.lockAttemptTimeout t none) s fun w =>
      w.clk.core = .failed ∧ w.clk.coreFailed = true) ∧
    (synthAt u (some k) = .attempt b n → 128000000 + b ≤ u.now → lockTries u ≤ n → u.pwr.st = .dawn → u.pwr.shortDawn = false →
      Does (.lockAttemptTimeout t (some k)) s fun w =>
        synthAt w (some k) = .failed ∧ w.clk.octFailed.getLsbD k.val = true ∧ octOn w k.val = false ∧
        (∀ j < 8, j ≠ k.val → octOn w j = octOn u j)) ∧
    (u.pwr.st = .day → (synthAt u (some k)).isLocked = true → Does (.synthLockLoss t (some k)) s fun w =>
      (synthAt w (some k)).isLocked = false ∧ w.clk.relock = true ∧ ∀ i < 8, (pinAt w (8 * k.val + i)).safe = true ∧
        (pinAt w (8 * k.val + i)).drv = false) ∧
    ((synthAt u o).isLocked = false → Does (.synthLockLoss t o) s fun w => w = u) ∧
    ((∀ b' n', synthAt u o ≠ .band b' n') → Does (.bandCalDone t o) s fun w => w = u) ∧
    ((∀ b' n', synthAt u o ≠ .attempt b' n') →
      Does (.synthLocked t o) s (fun w => w = u) ∧ Does (.lockAttemptTimeout t o) s (fun w => w = u)) ∧
    (fastOn u = true → u.clk.oscWarm = false → Does (.ovenWarm t) s fun w =>
      w = { u with clk := { u.clk with oscWarm := true }, flt := w.flt } ∧ (scopeAt w 11 0).cond = false) ∧
    (u.clk.ovenStart = some b → u.clk.oscWarm = false → 180 * cS + b ≤ u.now → Does (.ovenWarmTimeout t) s fun w =>
      w.clk = { u.clk with ovenStart := none }) ∧
    (u.clk.ovenStart = none ∨ u.clk.oscWarm = true ∨ (∃ o, u.clk.ovenStart = some o ∧ u.now < 180 * cS + o) → Does (.ovenWarmTimeout t) s fun w => w = u)

/-- ROUTINE_OCCURRENCE of an entry whose next occurrence is due, no entry below it having the same S: while ROUTINE_EN is 0 it is skipped, and
the entry goes on to its next one; a JOB entry otherwise waits for its submission; a CALIBRATE entry requests the windows in Day, and
none in another state; before it is due nothing happens. While ROUTINE_EN is 0 entries below it with the same S that are due are skipped
with it.
 ROUTINE_JOB_SUBMIT for an entry that is no JOB, or outside Day, does nothing; for a JOB entry in Day from S - 1 s on it submits
the template and consumes the occurrence. ROUTINE_AFTER_REQUEST, once the job has ended and no job is left, drops every waiting AFTER
state; while a job is queued or runs it does nothing. ROUTINE_ENABLE_WRITE stores ROUTINE_EN. -/
def Obligations.RoutineTable : Prop :=
  ∀ (t : Instant) (p : Port) (i c : Nat) (v : Word) (s : State),
    let u := advance t s
    let e := rtEntry u i
    let alone := ∀ j < i, rtNext u j ≠ rtNext u i
    (rtNext u i = some c → rtDueAt e c ≤ u.tim.codes → fastOn u = true → routineEn u = false →
      Does (.routineOccurrence t i) s fun w => ∀ j ≤ i, j < u.rt.next.length → rtNext u j = some c → rtDueAt (rtEntry u j) c ≤ u.tim.codes →
        w.rt.next.getD j 0 = u.rt.next.getD j 0 + 1) ∧
    (rtNext u i = some c → rtDueAt e c ≤ u.tim.codes → fastOn u = true → alone →
      (routineEn u = false → Does (.routineOccurrence t i) s fun w => w.rt.next = u.rt.next.set i (u.rt.next.getD i 0 + 1)) ∧
      (routineEn u = true → u.pwr.st ≠ .maint → e.action = 1 → Does (.routineOccurrence t i) s fun w => w = u) ∧
      (routineEn u = true → u.pwr.st ≠ .maint → e.action = 3 → Does (.routineOccurrence t i) s fun w =>
        w.rt.next = u.rt.next.set i (u.rt.next.getD i 0 + 1) ∧
        (u.pwr.st = .day → ∀ k < 8, e.arg.testBit k = true → octOn u k = true → (octAt u k).win = none → (octAt w k).calPend.isSome = true) ∧
        (u.pwr.st ≠ .day → w.octs = u.octs))) ∧
    (alone → rtNext u i = none ∨ (∃ d, rtNext u i = some d ∧ u.tim.codes < rtDueAt e d) →
      Does (.routineOccurrence t i) s fun w => w = u) ∧
    (rtNext u i = some c → alone → e.action = 1 → u.pwr.st = .day → routineEn u = true → c ≤ cS + u.tim.codes →
      Does (.routineJobSubmit t i) s fun w => w.rt.next = u.rt.next.set i (u.rt.next.getD i 0 + 1) ∧
        w.nw.jobNo = (submit 2 ⟨false, templateBytes u e.arg⟩ (some (i, c)) (rtConsume i u)).1.nw.jobNo) ∧
    (rtNext u i = none ∨ (alone ∧ e.action ≠ 1) ∨ u.pwr.st ≠ .day → Does (.routineJobSubmit t i) s fun w => w = u) ∧
    (∀ a, a ∈ u.rt.after → jobEnded u a.2.1 = true →
      slotsIn u (fun st => st == .queued || st == .checking || st == .armed || st == .running) = [] →
      Does (.routineAfterRequest t) s fun w => w.rt.after = []) ∧
    (u.rt.after = [] ∨ slotsIn u (fun st => st == .queued || st == .checking || st == .armed || st == .running) ≠ [] →
      Does (.routineAfterRequest t) s fun w => w = u) ∧
    (portUp u p = true → Does (.routineEnableWrite t p v) s fun w =>
      (w.r.bootRoutine.getLsbD 31 = v.getLsbD 31) ∧ w.bus = some (carried p 0x064 true v))

/-- JOB_DUE while admission is closed moves no slot. While it is open and one job alone is queued, of kind 0 or 3 and due: with FULL 1 it ends
with EVIDENCE_FULL; refused for energy it ends with code 12; ready and admitted it is CHECKING, kind 0 with S 10 µs from now; otherwise it stays
queued as the head. Every other slot is as it was. START_CHECK_DONE for a CHECKING slot: an edge-order break ends it with code 10 and its rule,
an entry not loaded ends it with code 11, else it is ARMED and nothing but its state and G_TSET_CHECK changes; for any other slot nothing
happens. JOB_JUDGEMENT, where after this cycle's decision the job is a due timed one still queued at S - 10 µs: with tolerance 0 it ends with
LATE_START, with another it is marked as judged and stays queued; where the decision moved it to CHECKING the judgement adds nothing. -/
def Obligations.JobDecisions : Prop :=
  ∀ (t : Instant) (i : Fin 16) (s : State),
    let u := advance t s
    let x := slotAt u i
    let others := fun (w : State) => ∀ j < 16, j ≠ i.val → slotAt w j = slotAt u j
    let ends := fun (w : State) (code : Nat) => (slotAt w i).st = .ending ∧ (slotAt w i).endCode = code ∧ (slotAt w i).endTam = tamNow u
    (seqClosed u = true → Does (.jobDue t) s fun w =>
      (∀ j < 16, (slotAt w j).st = (slotAt u j).st) ∧ w = { u with seqr := { u.seqr with slots := w.seqr.slots } }) ∧
    (∀ k, seqClosed u = false → x.st = .queued → (∀ j < 16, j ≠ i.val → (slotAt u j).st ≠ .queued) → x.desc.kind = 0 ∨ x.desc.kind = 3 →
      x.dueAt = some k → cycleOf k ≤ cycleOf u.now →
      (u.evid.full = true → Does (.jobDue t) s fun w => ends w 6 ∧ others w) ∧
      (u.evid.full = false → admission u (classMw x.desc.cls) x.desc.tUs = .refused → Does (.jobDue t) s fun w => ends w 12 ∧ others w) ∧
      (u.evid.full = false → admission u (classMw x.desc.cls) x.desc.tUs = .yes → ready u x.desc = true → Does (.jobDue t) s fun w =>
        (slotAt w i).st = .checking ∧ (slotAt w i).readySeen = true ∧ (slotAt w i).lateDue = false ∧ others w ∧ w.seqr.head = none ∧
        (slotAt w i).start = (if x.desc.kind = 0 then some (tamOf u (10 * cUs + u.now)) else none)) ∧
      (u.evid.full = false → admission u (classMw x.desc.cls) x.desc.tUs ≠ .refused →
        (admission u (classMw x.desc.cls) x.desc.tUs ≠ .yes ∨ ready u x.desc = false) → Does (.jobDue t) s fun w =>
        (slotAt w i).st = .queued ∧ w.seqr.head = some i ∧ others w)) ∧
    (x.st = .checking →
      (∀ f, jobEdgeCheck u x.desc = some f → Does (.startCheckDone t i) s fun w => ends w 10 ∧ (slotAt w i).cause = f.rule) ∧
      (jobEdgeCheck u x.desc = none → (∃ e ∈ x.desc.list, (segStat u e).1 ≠ 1) → Does (.startCheckDone t i) s fun w => ends w 11) ∧
      (jobEdgeCheck u x.desc = none → (∀ e ∈ x.desc.list, (segStat u e).1 = 1) → Does (.startCheckDone t i) s fun w =>
        slotAt w i = { x with st := .armed } ∧ others w ∧
        w = { u with seqr := { u.seqr with slots := w.seqr.slots }, seg := { u.seg with tchk := w.seg.tchk } })) ∧
    (x.st ≠ .checking → Does (.startCheckDone t i) s fun w => w = u) ∧
    (∀ v, exec (.jobDue t) s = .next v →
      (∀ c, (slotAt v i).st = .queued → timed (slotAt v i).desc = true → (slotAt v i).start = some c → (slotAt v i).dueAt ≠ none →
        judgeAt v c ≤ v.now → (slotAt v i).judged = false →
        ((slotAt v i).desc.tolUs = 0 → Does (.jobJudgement t i) s fun w => ends w 8) ∧
        ((slotAt v i).desc.tolUs ≠ 0 → Does (.jobJudgement t i) s fun w =>
          slotAt w i = { slotAt v i with judged := true } ∧ w = { v with seqr := { v.seqr with slots := w.seqr.slots } })) ∧
      ((slotAt v i).st = .checking → Does (.jobJudgement t i) s fun w => w = v))

/-- JOB_START_INSTANT for an ARMED job whose S has come: RUNNING from cycle 0 at S, a JOB_START record with its number formed (unless the chain
is suspended), the pins of its octets idle, those of a stopped octet safe, other pins unchanged; before S or in another state nothing.
LATE_START_EXPIRY ends a timed queued job at S + U with LATE_START, HOLD_LIMIT_EXPIRY one held since its placement for HOLD_MAX_S (kinds 1 and 4
with VALID 0, kind 3 with no PPS edge), ADMIT_TIMEOUT_EXPIRY one at the head for ADMIT_MAX_S with code 13; before the limit nothing happens.
JOB_CANCEL_WRITE through a port: every slot named that is queued, checked or armed ends with CANCELLED and has the cancel noted; a running one
that did not start in this cycle has a stop at a granule boundary with code 3 ordered, and one whose start was the last of this cycle ends with
CANCELLED, as if it had never started; slots free, ended, or ending since an earlier cycle, and slots not named that are not queued, keep their
state and end code (queued ones are decided first). JOB_END_CHAINED moves a slot whose end record is chained to ENDED. -/
def Obligations.JobLifetime : Prop :=
  ∀ (t : Instant) (i : Fin 16) (port : Port) (val : Word) (s : State),
    let u := advance t s
    let x := slotAt u i
    let ends := fun (w : State) (code : Nat) => (slotAt w i).st = .ending ∧ (slotAt w i).endCode = code ∧ (slotAt w i).endTam = tamNow u
    (∀ c, x.st = .armed → x.start = some c → c ≤ u.tim.codes → Does (.jobStartInstant t i) s fun w =>
      (slotAt w i).st = .running ∧ (slotAt w i).play.org = c ∧ (slotAt w i).play.n = 0 ∧ (slotAt w i).jobNo = x.jobNo ∧
      (u.evid.suspended = false → ∃ q, w.evid.unitQ = u.evid.unitQ ++ [q] ∧ recType q.body = 0x10 ∧ q.body.jobNo = word x.jobNo ∧ q.at_ = u.now) ∧
      (∀ n < 64, x.desc.octMask.testBit (n / 8) = false → pinAt w n = pinAt u n) ∧
      (∀ n < 64, x.desc.octMask.testBit (n / 8) = true → (pinAt w n).drv = false ∧ (pinAt w n).hold = none ∧
        (pinAt w n).safe = (stoppedMask u).testBit (n / 8)) ∧
      (x.desc.octMask &&& stoppedMask u ≠ 0 → ∃ p ∈ (slotAt w i).stops, p.code = 14 ∧ p.gran = false)) ∧
    (x.st ≠ .armed ∨ x.start = none → Does (.jobStartInstant t i) s fun w => w = u) ∧
    (∀ c, x.start = some c → u.tim.codes < c → Does (.jobStartInstant t i) s fun w => w = u) ∧
    (∀ c, x.st = .queued → timed x.desc = true → x.start = some c → x.desc.kind = 2 ∨ u.tim.valid = true →
      (kernOf u c + cUs * x.desc.tolUs ≤ u.now → Does (.lateStartExpiry t i) s fun w => ends w 8) ∧
      (u.now < kernOf u c + cUs * x.desc.tolUs → Does (.lateStartExpiry t i) s fun w => w = u)) ∧
    (x.st ≠ .queued ∨ timed x.desc = false → Does (.lateStartExpiry t i) s fun w => w = u) ∧
    ((x.st = .queued ∧ x.dueAt = none ∧ (x.desc.kind = 1 ∨ x.desc.kind = 4) ∧ u.tim.valid = false) ∨
        (x.desc.kind = 3 ∧ (x.st = .queued ∨ x.st = .checking ∨ (x.st = .armed ∧ x.start = none))) →
      (x.placedAt + holdMax u ≤ u.now → Does (.holdLimitExpiry t i) s fun w => ends w 8) ∧
      (u.now < x.placedAt + holdMax u → Does (.holdLimitExpiry t i) s fun w => w = u)) ∧
    (∀ k, x.st = .queued → x.headSince = some k →
      (k + admitMax u ≤ u.now → Does (.admitTimeoutExpiry t i) s fun w => ends w 13) ∧
      (u.now < k + admitMax u → Does (.admitTimeoutExpiry t i) s fun w => w = u)) ∧
    (x.headSince = none → Does (.admitTimeoutExpiry t i) s fun w => w = u) ∧
    (portUp u port = true → Does (.jobCancelWrite t port val) s fun w =>
      w.bus = some (carried port 0x314 true val) ∧
      (∀ j < 16, (fld val 0 16).testBit j = true → (slotAt u j).st ∈ [JobSt.queued, .checking, .armed] → (slotAt u j).play.n = 0 →
        (∀ y ∈ u.seqr.starts, y.slot = j → sameCycle y.at_ u.now = false) →
        (slotAt w j).st = .ending ∧ (slotAt w j).endCode = 2 ∧ (slotAt w j).cancelSeen = true) ∧
      (∀ j < 16, (fld val 0 16).testBit j = true → (slotAt u j).st = .running →
        (∀ y ∈ u.seqr.starts, y.slot = j → sameCycle y.at_ u.now = false) →
        (slotAt w j).st = .running ∧ ∃ p ∈ (slotAt w j).stops, p.gran = true ∧ p.code = 3 ∧ p.at_ = u.now) ∧
      (∀ y l, u.seqr.starts = y :: l → sameCycle y.at_ u.now = true → y.slot < 16 → y.x.st = .armed → (fld val 0 16).testBit y.slot = true →
        (slotAt u y.slot).st = .running → (slotAt w y.slot).st = .ending ∧ (slotAt w y.slot).endCode = 2 ∧ (slotAt w y.slot).play = { y.x.play with
          buf := [], cacheG := 0, cacheV := [], lastOf := false, eats := none }) ∧
      (∀ j < 16, ((fld val 0 16).testBit j = false ∧ (slotAt u j).st ≠ .queued) ∨ (slotAt u j).st ∈ [JobSt.free, .ended] ∨
          ((slotAt u j).st = .ending ∧ sameCycle (slotAt u j).endAt u.now = false ∧ (∀ y ∈ u.seqr.starts, y.slot ≠ j)) →
        (slotAt w j).st = (slotAt u j).st ∧ (slotAt w j).endCode = (slotAt u j).endCode)) ∧
    (x.st = .ending → x.endSt = 3 → Does (.jobEndChained t i) s fun w => (slotAt w i).st = .ended ∧ (slotAt w i).endCode = x.endCode) ∧
    (x.st ≠ .ending ∨ x.endSt ≠ 3 → Does (.jobEndChained t i) s fun w => w = u)

/-- VECTOR_CYCLE for a running job at the origin of its next cycle, with no stop ordered and a vector of its segment buffered: the job goes on to
the next cycle one period later. Where the entry asks for no load strobe and the origin is this instant: every edge, C1 and C2 of each pin of its octets is
queued for its code from the origin, with the steps of the inputs, and what was queued before stays; those pins open the compare or capture of
their state and keep all else, and other pins and other octets' capture stay as they are. The edges queued for a pin leave it, when all have
acted: in a drive state under a format that acts with the driver on, at the level the format leaves, with no termination; under HOLD and in the
safe state as it was; in any other state with the driver off and the termination that state 1 or TERM asks for. The last result of an octet's cycle, where all
passed and run-length coding is off, queues one PASS record 50 ns after the strobe that makes the cycle known, and its formation puts it in the FIFO where there is room and the chain is not
suspended. With no vector there the job ends with UNDERRUN, cause 1 for an empty stream ring and 2 otherwise; past its last segment with
COMPLETED; at a stop that is due with the stop's code, but with UNDERRUN where that is lower and the vector is missing. Not running, or before
its origin, only the steps of the inputs are queued. -/
def Obligations.VectorCycle : Prop :=
  ∀ (t : Instant) (i : Fin 16) (obs : List PinObs) (v : Vec192) (e : Nat) (s : State),
    let u := advance t s
    let x := slotAt u i
    let a : CycAt := ⟨x.jobNo, x.play.n, x.play.org, u.now, x.desc.policy⟩
    let te := fun (n : Nat) => tsetEntry u (segTset u e) n
    let after := fun (n : Nat) => (edgesOf (te n).fmt (stateOf v n) (te n)).foldl (fun p d => p.edge d) (pinAt u n)
    let ends := fun (w : State) (code : Nat) => (slotAt w i).st = .ending ∧ (slotAt w i).endCode = code ∧ (slotAt w i).play.n = x.play.n
    let rings := vget u.seqr.srings (segRing u e) {}
    let due := x.st = .running ∧ x.play.org ≤ u.tim.codes
    let fromBuf := x.play.play = 0 ∨ x.play.cacheG = 0
    (due → x.stops = [] → nameAt x x.play.name = some e → fromBuf → x.play.buf.head? = some v → Does (.vectorCycle t i obs) s fun w =>
      (slotAt w i).st = .running ∧ (slotAt w i).play.n = x.play.n + 1 ∧ (slotAt w i).play.org = x.play.org + segPer u e ∧
      w.evid.count = u.evid.count ∧
      (segLoadOct u e = 0 → x.play.org = u.tim.codes →
        (∀ y ∈ u.seqr.acts, y ∈ w.seqr.acts) ∧
        (∀ o ∈ obs, ∀ y ∈ o.steps, y.at_ < segPer u e → ⟨u.now + y.at_, 0, .input o.pin.val y.u⟩ ∈ w.seqr.acts) ∧
        (∀ n < 64, x.desc.octMask.testBit (n / 8) = true →
          (∀ y ∈ pinActs a n (stateOf v n) (te n), y ∈ w.seqr.acts) ∧
          pinAt w n = { pinAt u n with win := winOf a (stateOf v n) (te n), wave := [] }) ∧
        (∀ n < 64, x.desc.octMask.testBit (n / 8) = false → pinAt w n = pinAt u n) ∧
        (∀ k < 8, x.desc.octMask.testBit k = false → capAt w k = capAt u k))) ∧
    (∀ n < 64, let p := pinAt u n; let q := after n; let same := q.drv = p.drv ∧ q.lvl = p.lvl ∧ q.term = p.term
      (p.safe = true → same) ∧
      (p.safe = false → stateOf v n = 2 ∨ stateOf v n = 3 →
        ((te n).fmt < 6 → q.drv = true ∧ q.term = false ∧
          q.lvl = (match (te n).fmt with | 0 => decide (stateOf v n = 3) | 2 => false | 3 => true | _ => decide (stateOf v n = 2))) ∧
        (6 ≤ (te n).fmt → same)) ∧
      (p.safe = false → stateOf v n ≠ 2 → stateOf v n ≠ 3 →
        q.drv = false ∧ q.lvl = p.lvl ∧ q.term = (decide (stateOf v n = 1) || p.ld.cfg.getLsbD 4))) ∧
    (∀ k c r, k < 8 → (capAt u k).cyc = some c → c.left ≤ 1 → (∀ y ∈ resPut r c.rs, y.fail = false) → c.a.pol.testBit 0 = false →
      u.now < knownAt c.a (resPut r c.rs) + 50 * cNs →
      ∃ q, (octResult k r u).seqr.acts = actPut ⟨q.at_, q.body.jobNo.toNat, .form k q c.a.cyc c.a.cyc⟩ u.seqr.acts ∧ recType q.body = 1 ∧
        q.at_ = knownAt c.a (resPut r c.rs) + 50 * cNs ∧ (capAt (octResult k r u) k).cyc = none) ∧
    (∀ k q lo hi, k < 8 → u.evid.suspended = false → (capAt u k).loss = none → capFill u k < 4094 →
      (capAt (capIn k q lo hi u) k).fifo = (capAt u k).fifo ++ [q]) ∧
    (due → x.stops = [] → nameAt x x.play.name = some e → fromBuf → x.play.buf = [] → Does (.vectorCycle t i obs) s fun w =>
      ends w 5 ∧ w.seg.urMode = segUr u e ∧
      (x.play.eats = none → (slotAt w i).cause = if segStream u e = true ∧ rings.rd = rings.wr then 1 else 2)) ∧
    (due → x.stops = [] → nameAt x x.play.name = none → Does (.vectorCycle t i obs) s fun w => ends w 1 ∧ (slotAt w i).cause = 0) ∧
    (∀ p, due → x.stops = [p] → cycleOf p.at_ < cycleOf (kernOf u x.play.org) → p.gran = false ∨ x.play.n % 64 = 0 →
      (p.line = true ∨ (nameAt x x.play.name = some e ∧ (p.code < 5 ∨ (fromBuf ∧ x.play.buf ≠ []))) →
        Does (.vectorCycle t i obs) s fun w => ends w p.code ∧ (slotAt w i).cause = p.cause) ∧
      (p.line = false → nameAt x x.play.name = some e → 5 ≤ p.code → fromBuf → x.play.buf = [] →
        Does (.vectorCycle t i obs) s fun w => ends w 5)) ∧
    (¬due → Does (.vectorCycle t i obs) s fun w => w = { u with seqr := { u.seqr with acts := w.seqr.acts } } ∧
      (∀ y ∈ u.seqr.acts, y ∈ w.seqr.acts) ∧ (∀ o ∈ obs, ∀ y ∈ o.steps, ⟨u.now + y.at_, 0, .input o.pin.val y.u⟩ ∈ w.seqr.acts) ∧
      (obs = [] → w = u))

/-- CHAIN_STEP, after the end records that can be formed are formed: while the chain is suspended, a seal forms, the fast domain is off or no
record is ready, COUNT and the chain value stay; with a record next that has its space, COUNT rises by one, HEAD is SHA-256 of the chain value
and its 32 bytes, the record is held at the end, and Nightwatch has HEAD, COUNT and OLDEST; part 0 of a seal takes its own number as COUNT and
the seal forms on the chain value before it; a unit record without space suspends the chain; a pin record without space waits. LOSS_CLOSE for
an octet with an open loss and room for it puts LOSS and LOSS_END at the end of its FIFO and closes the loss; without one or without room the
octets' capture stays. EVID_RELEASE_WRITE through a port: TO clipped to SEALED_END is the new OLDEST and the records below it are gone, unless
an export in progress covers them, when it waits, or it is not above OLDEST, when nothing is released; COUNT and HEAD stay. -/
def Obligations.EvidenceChain : Prop :=
  ∀ (t : Instant) (k : Fin 8) (port : Port) (val : Word) (c : Cand) (s : State),
    let u := advance t s
    let v := formEnds u
    let upto := min (2 ^ 32 * u.r.evidRelHi.toNat + val.toNat) u.evid.sealedEnd
    let kept := fun (w : State) => w.evid.count = u.evid.count ∧ w.evid.head = u.evid.head ∧ w.evid.held = u.evid.held ∧ w.nw.chain = u.nw.chain
    let added := fun (w : State) (r : Rec) => w.evid.count = u.evid.count + 1 ∧ w.evid.head = some (sha256 (chainHead u ++ recBytes r)) ∧
      w.evid.held = u.evid.held ++ [r] ∧ w.evid.oldest = u.evid.oldest ∧ w.nw.chain = ⟨w.evid.head, u.evid.count + 1, u.evid.oldest⟩
    let runs := u.evid.suspended = false ∧ u.sl.forming = none ∧ fastOn u = true
    (¬runs ∨ leastCand (candidates v) = none → Does (.chainStep t) s kept) ∧
    (runs → leastCand (candidates v) = some c → recType c.q.body ≠ 0x30 → 1 ≤ evFree u → Does (.chainStep t) s fun w => added w c.q.body) ∧
    (runs → leastCand (candidates v) = some c → recType c.q.body = 0x30 → c.oct = none → 9 ≤ evFree u → Does (.chainStep t) s fun w =>
      added w (fillPart0 u.evid.count c.q.body) ∧ w.sl.part0Wait = false ∧
      w.sl.forming = some ⟨u.evid.count, fillPart0 u.evid.count c.q.body, chainHead u⟩) ∧
    (runs → leastCand (candidates v) = some c → c.oct = none → evFree u < (if recType c.q.body = 0x30 then 9 else 1) →
      Does (.chainStep t) s fun w => kept w ∧ w.evid.suspended = true ∧ w.evid.suspendTime = tamNow u) ∧
    (runs → leastCand (candidates v) = some c → c.oct ≠ none → evFree u = 0 → Does (.chainStep t) s fun w => kept w ∧ w.caps = u.caps) ∧
    (∀ l, (capAt u k).loss = some l → capFill u k < 4094 → u.evid.suspended = false → Does (.lossClose t k) s fun w =>
      (capAt w k).loss = none ∧ (∃ a b, (capAt w k).fifo = (capAt u k).fifo ++ [a, b] ∧ recType a.body = 5 ∧ recType b.body = 6) ∧
      ∀ j < 8, j ≠ k.val → capAt w j = capAt u j) ∧
    ((capAt u k).loss = none ∨ 4094 ≤ capFill u k ∨ u.evid.suspended = true → Does (.lossClose t k) s fun w => w.caps = u.caps) ∧
    (portUp u port = true → Does (.evidReleaseWrite t port val) s fun w =>
      w.bus = some (carried port 0x420 true val) ∧ w.evid.count = u.evid.count ∧ w.evid.head = u.evid.head ∧
      (upto ≤ u.evid.oldest → w.evid.oldest = u.evid.oldest ∧ w.evid.held = u.evid.held ∧ w.evid.relWait = u.evid.relWait) ∧
      (u.evid.oldest < upto → exportCovered u upto = false → w.evid.oldest = upto ∧
        w.evid.held = u.evid.held.drop (upto - u.evid.oldest) ∧ w.nw.chain = ⟨u.evid.head, u.evid.count, upto⟩) ∧
      (u.evid.oldest < upto → exportCovered u upto = true → w.evid.oldest = u.evid.oldest ∧ w.evid.held = u.evid.held ∧
        w.evid.relWait = u.evid.relWait ++ [upto]))

/-- With v the unit after the decisions of the cycles before this one and the refill that falls due in it. ARB_REQUEST_RAISED adds the request with the beats of its
length, 48 at least for VF and 24 for SW, with the owner as granted since, and changes nothing else; one already raised, or without the core
clock, changes nothing. MEMORY_TRANSFER_COMPLETE for a normal owner past its last beat charges its counter by the beats (never below 0),
counts them in this window's use and drops its request; for a debug access it drops the debug request. The decision of the last beat's
cycle (settleEnd, which the next command in a later cycle carries out): refresh first, then debug, then of the requests that may be granted one with
the largest counter, the lowest index among equals, from the next cycle; with none the port is idle. ARB_WINDOW_START a window after the
last: weights written in force, each counter refilled up to 4 095, use moved to the last window's, hold-offs down by one. ARB_PREEMPT in
preemptive mode within a transfer grants the best of the requests whose counter is above the owner's; in the other mode nothing.
GRANT_WATCHDOG_EXPIRY on a normal grant held for GWD_US withdraws it with this beat as its last, holds the requester off for HOLDOFF windows (this one apart)
and sets its bit of the fault register; before that, switched off, or in its last beat, nothing. -/
def Obligations.ArbiterCommands : Prop :=
  ∀ (t : Instant) (i : Fin 14) (len : Nat) (s : State),
    let u := advance t s
    let z := arbSettle u
    let v := arbReady u
    let d := ownerEnd u
    let l := arbCands u d
    let fuller := (arbCands v (arbCycle v)).filter fun r => r.req != i.val && decide (vget v.arb.cnt i.val 0 < vget v.arb.cnt r.req 0)
    let best := fun (y : State) (l : List ArbReq) (w : State) => ∃ r ∈ l, w.arb.owner = .norm r.req ∧
      ∀ q ∈ l, vget y.arb.cnt q.req 0 ≤ vget y.arb.cnt r.req 0 ∧ (vget y.arb.cnt q.req 0 = vget y.arb.cnt r.req 0 → r.req ≤ q.req)
    let within := v.arb.owner = .norm i.val ∧ arbCycle v < ownerEnd v ∧ v.arb.ownerAt ≤ arbCycle v
    (coreLocked v = true → (∀ r ∈ v.arb.reqs, r.req ≠ i.val) → Does (.arbRequestRaised t i len) s fun w =>
      ∃ b m, w = { v with arb := { v.arb with reqs := v.arb.reqs ++ [⟨i.val, b, arbCycle v, false, m⟩] } } ∧
        b = max (if i.val = 0 then 48 else if i.val = 10 then 24 else if i.val = 13 then 2 else 1) ((len + 31) / 32) ∧
        (v.arb.ownerAt ≤ arbCycle v → (v.arb.owner = .idle → m = 0) ∧ (∀ j, v.arb.owner = .norm j → m = 2 ^ j))) ∧
    (coreLocked v = false ∨ (∃ r ∈ v.arb.reqs, r.req = i.val) → Does (.arbRequestRaised t i len) s fun w => w = v) ∧
    (v.arb.owner = .norm i.val → ownerEnd v ≤ arbCycle v → v.arb.done = false → Does (.memoryTransferComplete t) s fun w =>
      w.arb = { v.arb with
        cnt := vmod v.arb.cnt i.val fun c => c - v.arb.ownerBeats, used := vmod v.arb.used i.val fun n => n + v.arb.ownerBeats
        reqs := v.arb.reqs.filter fun r => r.req != i.val, done := true }) ∧
    (v.arb.owner = .dbg → ownerEnd v ≤ arbCycle v → v.arb.done = false → Does (.memoryTransferComplete t) s fun w =>
      w = { v with arb := { v.arb with dbgReq := none, done := true } }) ∧
    (v.arb.owner = .idle ∨ v.arb.owner = .ref ∨ arbCycle v < ownerEnd v ∨ v.arb.done = true →
      Does (.memoryTransferComplete t) s fun w => w = v) ∧
    (u.arb.done = true → d < arbCycle u →
      (settleEnd u).arb.ownerAt = d + 1 ∧ (settleEnd u).arb.done = false ∧
      (u.arb.refDue ≠ none → (settleEnd u).arb.owner = .ref ∧ (settleEnd u).arb.refDue = none) ∧
      (u.arb.refDue = none → dbgSeen u d ≠ none → (settleEnd u).arb.owner = .dbg) ∧
      (u.arb.refDue = none → dbgSeen u d = none → (l = [] → (settleEnd u).arb.owner = .idle) ∧ (l ≠ [] → best u l (settleEnd u)))) ∧
    (coreLocked z = true → z.arb.winAt + 4096 ≤ arbCycle z → Does (.arbWindowStart t) s fun w =>
      w.arb.winAt = z.arb.winAt + 4096 ∧ w.arb.usedLast = z.arb.used ∧ (∀ j < 15, vget w.arb.held j 0 = vget z.arb.held j 0 - 1) ∧
      ∀ j < 14, vget w.arb.weight j 0 = weightReg z j ∧ vget w.arb.used j 0 = 0 ∧
        vget w.arb.cnt j 0 = min 4095 (vget z.arb.cnt j 0 + weightReg z j)) ∧
    (coreLocked z = false ∨ arbCycle z < z.arb.winAt + 4096 → Does (.arbWindowStart t) s fun w => w = z) ∧
    (within → bit v.r.arbCfg 28 = true → fuller ≠ [] → Does (.arbPreempt t) s fun w =>
      w.arb.ownerAt = arbCycle v + 1 ∧ w.arb.cnt = v.arb.cnt ∧ best v fuller w) ∧
    (v.arb.owner = .norm i.val → ¬within ∨ bit v.r.arbCfg 28 = false ∨ fuller = [] → Does (.arbPreempt t) s fun w => w = v) ∧
    (v.arb.owner = .norm i.val → v.arb.done = false → arbCycle v ≠ ownerEnd v →
      (bit v.r.arbCfg 31 = true → v.arb.ownerAt + gwdUs v * 800 ≤ arbCycle v + 1 → Does (.grantWatchdogExpiry t) s fun w =>
        w.arb.owner = .norm i.val ∧ w.arb.done = true ∧ w.arb.ownerBeats = arbCycle v + 1 - v.arb.ownerAt ∧
        vget w.arb.held i.val 0 = holdoffN v + 1 ∧ ⟨rgArbFault, i.val, 1, .set, 1⟩ ∈ w.evPend)) ∧
    (v.arb.owner = .norm i.val → v.arb.done = true ∨ arbCycle v = ownerEnd v ∨ bit v.r.arbCfg 31 = false ∨
        arbCycle v + 1 < v.arb.ownerAt + gwdUs v * 800 → Does (.grantWatchdogExpiry t) s fun w => w = v)

/-- With v the unit after the decisions of the cycles before this one and the refill that falls due in it. REFRESH_DUE at cycles 0 and 2 048 of a window, with the core clock
and no refresh due or running: an idle port refreshes from this cycle, any other stays with its owner and the refresh is due; at other cycles
nothing. REFRESH_INTERRUPT 64 cycles after it fell due, within a normal or debug transfer: the refresh owns the port from the next cycle and the
interruption is counted; otherwise nothing. REFRESH_DONE at the last of its 286 cycles ends it, so that the port is decided in that cycle; before that
nothing. DBG_REQUEST with the core clock and no debug request open: the request is open with its beats and DBG has requested in
this window; with one open, or no core clock, nothing. The decision of a later cycle (settleDbg, which the next command carries out) sees the request from the cycle after it was raised on:
within a normal transfer, with debug not held off and no refresh due, DBG owns the port after the first beat that sees it. -/
def Obligations.RefreshAndDebug : Prop :=
  ∀ (t : Instant) (beats : Nat) (s : State),
    let u := advance t s
    let v := arbReady u
    (coreLocked v = true → (arbCycle v - v.arb.winAt) % 2048 = 0 → v.arb.refDue = none → v.arb.owner ≠ .ref →
      (v.arb.owner = .idle → Does (.refreshDue t) s fun w =>
        w = { v with arb := { v.arb with owner := .ref, ownerAt := arbCycle v, ownerBeats := 286, done := false, prev := .idle } }) ∧
      (v.arb.owner ≠ .idle → Does (.refreshDue t) s fun w => w = { v with arb := { v.arb with refDue := some (arbCycle v) } })) ∧
    (coreLocked v = false ∨ (arbCycle v - v.arb.winAt) % 2048 ≠ 0 ∨ v.arb.refDue ≠ none ∨ v.arb.owner = .ref →
      Does (.refreshDue t) s fun w => w = v) ∧
    (∀ c, v.arb.refDue = some c → v.arb.owner ≠ .idle → v.arb.owner ≠ .ref → c + 64 ≤ arbCycle v → arbCycle v < ownerEnd v →
      v.arb.ownerAt ≤ arbCycle v → Does (.refreshInterrupt t) s fun w => w.arb.owner = .ref ∧ w.arb.ownerAt = arbCycle v + 1 ∧
        w.arb.ownerBeats = 286 ∧ w.arb.refDue = none ∧ w.arb.reqs = v.arb.reqs ∧ w.evPend = ⟨rgArb, 16, 8, .add, 1⟩ :: v.evPend) ∧
    (v.arb.refDue = none ∨ v.arb.owner = .idle ∨ v.arb.owner = .ref ∨ ownerEnd v ≤ arbCycle v ∨ arbCycle v < v.arb.ownerAt ∨
        (∃ c, v.arb.refDue = some c ∧ arbCycle v < c + 64) →
      Does (.refreshInterrupt t) s fun w => w = v) ∧
    (v.arb.owner = .ref → ownerEnd v ≤ arbCycle v → Does (.refreshDone t) s fun w => w = { v with arb := { v.arb with done := true } }) ∧
    (v.arb.owner ≠ .ref ∨ arbCycle v < ownerEnd v → Does (.refreshDone t) s fun w => w = v) ∧
    (coreLocked v = true → v.arb.dbgReq = none → Does (.dbgRequest t beats) s fun w =>
      w = { v with arb := { v.arb with dbgReq := some ⟨arbCycle v, beats, beats, none⟩, dbgWin := some v.arb.winAt }, evPend := w.evPend }) ∧
    (coreLocked v = false ∨ v.arb.dbgReq ≠ none → Does (.dbgRequest t beats) s fun w => w = v) ∧
    (∀ j q, u.arb.owner = .norm j → u.arb.dbgReq = some q → u.arb.done = false → heldOff u 14 = false → u.arb.refDue = none →
      max (q.at_ + 1) u.arb.ownerAt < arbCycle u → max (q.at_ + 1) u.arb.ownerAt < ownerEnd u →
      (settleDbg u).arb.owner = .dbg ∧ (settleDbg u).arb.ownerAt = max (q.at_ + 1) u.arb.ownerAt + 1 ∧
      (settleDbg u).arb.ownerBeats = q.left ∧ (settleDbg u).arb.reqs = u.arb.reqs ∧ (settleDbg u).arb.cnt = u.arb.cnt)

/-- SEAL_INTERVAL_EXPIRY with the fast domain powered and no interval trigger due, INT_MS after the interval began: with no record chained since, or
the chain suspended, the interval restarts; else the interval trigger is due; before INT_MS nothing. SEAL_FORM with a trigger due now, 5 µs after
the previous part 0 and that seal chained, a nonce in the pool, the chain running: part 0 is formed in the unit record queue, every run and group
is closed, the interval restarts, the TRIGGER is no trigger code above one that was due, and triggers due later stay; with the pool empty the wait
is counted once and nothing else changes. SEAL_SIGNED for a seal that forms chains parts 1 to 8, whose payloads are CHAIN_HEAD and the signature in
twelve-byte pieces, uses one nonce, counts the seal and shows its number; while KEY_OK is 0 the signature is all zeros; with no seal forming
nothing. NONCE_REFILL with the core clock 120 µs after the last adds one nonce, to 16 at most; before that nothing. -/
def Obligations.SealCommands : Prop :=
  ∀ (t : Instant) (s : State),
    let u := advance t s
    (fastOn u = true → u.sl.intStart + cMs * intMs u ≤ u.now → (∀ d ∈ u.sl.due, d.1 ≠ 1) →
      (u.sl.recs = 0 ∨ u.evid.suspended = true → Does (.sealIntervalExpiry t) s fun w =>
        w = { u with sl := { u.sl with intStart := u.sl.intStart + cMs * intMs u } }) ∧
      (u.sl.recs ≠ 0 → u.evid.suspended = false → Does (.sealIntervalExpiry t) s fun w =>
        w = { u with sl := { u.sl with due := u.sl.due ++ [(1, u.now)] } })) ∧
    (fastOn u = false ∨ u.now < u.sl.intStart + cMs * intMs u → Does (.sealIntervalExpiry t) s fun w => w = u) ∧
    ((∃ d ∈ u.sl.due, d.2 ≤ u.now) → u.sl.forming = none → u.sl.part0Wait = false → (∀ k, u.sl.lastPart0 = some k → 5 * cUs + k ≤ u.now) →
      (u.sl.pool ≠ 0 → u.evid.suspended = false → fastOn u = true → Does (.sealForm t) s fun w =>
        w.sl.part0Wait = true ∧ w.sl.lastPart0 = some u.now ∧ w.sl.intStart = u.now ∧ w.sl.recs = 0 ∧ w.sl.pool = u.sl.pool ∧
        (∀ d ∈ u.sl.due, d.2 ≤ u.now → w.sl.lastTrigger ≤ d.1) ∧ (∀ d, d ∈ w.sl.due ↔ d ∈ u.sl.due ∧ u.now < d.2) ∧
        (∀ k < 8, (capAt w k).run = none ∧ (capAt w k).grp = none) ∧
        ∃ q, w.evid.unitQ = u.evid.unitQ ++ [q] ∧ recType q.body = 0x30 ∧ recSub q.body = 0 ∧ q.at_ = u.now) ∧
      (u.sl.pool = 0 → u.sl.waited = false → Does (.sealForm t) s fun w =>
        w = { u with sl := { u.sl with waited := true }, evPend := ⟨rgSeal, 16, 8, .add, 1⟩ :: u.evPend })) ∧
    ((∀ d ∈ u.sl.due, u.now < d.2) ∨ u.sl.forming ≠ none ∨ u.sl.part0Wait = true → Does (.sealForm t) s fun w => w = u) ∧
    (∀ f, u.sl.forming = some f → Does (.sealSigned t) s fun w =>
      w.sl.forming = none ∧ w.sl.pool = u.sl.pool - 1 ∧ w.sl.count = (u.sl.count + 1) % 2 ^ 32 ∧ w.sl.lastK = f.k ∧
      w.evid.count = u.evid.count + 8 ∧ w.evid.oldest = u.evid.oldest ∧
      w.evid.held = u.evid.held ++ (List.range 8).map (fun j => sealPart f (sealString u f) (j + 1)) ∧
      (u.sl.keyOk = false → sealString u f = f.headB ++ List.replicate 64 0)) ∧
    (u.sl.forming = none → Does (.sealSigned t) s fun w => w = u) ∧
    (coreLocked u = true → 120 * cUs + u.sl.poolAt ≤ u.now → Does (.nonceRefill t) s fun w =>
      w.sl.pool = min 16 (u.sl.pool + 1) ∧ w.sl.poolAt = u.now ∧ w = { u with sl := w.sl, evPend := w.evPend }) ∧
    (coreLocked u = false ∨ u.now < 120 * cUs + u.sl.poolAt → Does (.nonceRefill t) s fun w => w = u)

/-- PPS_EDGE with the time base running notes the edge; in SRC_MODE 1 with no step or host set waiting, an armed job of kind 3 without S whose
check began 10 µs before gets S 2 µs after the compensated edge; an error below 1 ns after another such, with REF10 locked for 10 ms and VALID 1,
declares the lock; an error above 10 ns is an outlier, counted and not used, in lock twice in a row at most, and while REF10 is not valid. PPS_MISSING 1 s + 10 µs after the last edge and
REF10_LOSS_TIMEOUT 10 ms after REF10 failed end a lock to REF10 and PPS: holdover after 10 minutes of lock, else unlocked (PPS_MISSING outside
SRC_MODE 3). HOLDOVER_EXPIRY after 60 s of holdover: unlocked, with a TIME_STATE record unless the chain is suspended. STEP_APPLY with no job
running applies the step that waits. TIME_SET_LO_WRITE through a port while the host is the usable source: the second number waits and the host
is the source; otherwise refused, the time base as it was. TAMONG_SECOND_BOUNDARY in the first cycle of a second not yet acted on: where no step
or host set waits and no other source takes over, the Nightwatch counter is aligned while time is valid and not unlocked; J4 rises while enabled and not unlocked, but not at the first boundary after a change of
state. Not due, each changes nothing. -/
def Obligations.TimeBase : Prop :=
  ∀ (t : Instant) (port : Port) (val : Word) (i : Fin 16) (s : State),
    let u := advance t s
    let x := slotAt u i
    let sec := u.tim.codes / cS
    let ts := (tamNow u : Int) - ppsComp u
    let e := (nearest ts).2
    let quiet := u.tim.stepPhase = 0 ∧ u.tim.stepSec = 0 ∧ u.tim.hostSet = none
    let lost := if 600 * cS ≤ lockFor u then TimeSt.holdover else TimeSt.unlocked
    (u.tim.running = true → Does (.ppsEdge t) s fun w => w.tim.ppsLast = some u.now ∧
      (srcMode u = 1 → quiet → e.natAbs ≤ stepCodes u → x.desc.kind = 3 → x.st = .checking ∨ x.st = .armed → x.start = none →
        10 * cUs + x.checkAt ≤ u.now → (slotAt w i).start = some (ts + (2 * cUs : Nat)).toNat) ∧
      (∀ k p, srcMode u = 1 → quiet → u.encl.ref10 = true → u.tim.valid = true → u.tim.st = .unlocked ∨ u.tim.st = .holdover →
        u.tim.ref10Since = some k → 10 * cMs + k ≤ u.now → u.tim.ppsPrev = some p → p.natAbs < cNs → e.natAbs < cNs → w.tim.st = .pps) ∧
      (srcMode u = 1 → quiet → u.tim.st = .pps → 10 * cNs < e.natAbs → u.tim.ppsOutliers < 2 →
        w.tim.st = .pps ∧ w.tim.ppsOutliers = u.tim.ppsOutliers + 1 ∧ w.tim.codes = u.tim.codes) ∧
      (srcMode u = 1 → quiet → u.tim.st ≠ .pps → u.encl.ref10 = false → 10 * cNs < e.natAbs →
        ⟨rgTime, 16, 8, .add, 1⟩ ∈ w.evPend ∧ w.tim.codes = u.tim.codes)) ∧
    (u.tim.running = false → Does (.ppsEdge t) s fun w => w = u) ∧
    (∀ k, u.tim.ppsLast = some k →
      (10 * cUs + (cS + k) ≤ u.now → Does (.ppsMissing t) s fun w => w.tim.ppsLast = none ∧ w.tim.ppsGood = 0 ∧
        (u.tim.st = .pps → srcMode u ≠ 3 → w.tim.st = lost)) ∧
      (u.now < 10 * cUs + (cS + k) → Does (.ppsMissing t) s fun w => w = u)) ∧
    (u.tim.ppsLast = none → Does (.ppsMissing t) s fun w => w = u) ∧
    (∀ k, u.tim.ref10Bad = some k → 10 * cMs + k ≤ u.now → u.tim.st = .pps → Does (.ref10LossTimeout t) s fun w => w.tim.st = lost) ∧
    (u.tim.ref10Bad = none ∨ u.tim.st ≠ .pps ∨ (∃ k, u.tim.ref10Bad = some k ∧ u.now < 10 * cMs + k) → Does (.ref10LossTimeout t) s fun w => w = u) ∧
    (u.tim.st = .holdover → 60 * cS + u.tim.holdSince ≤ u.now → Does (.holdoverExpiry t) s fun w => w.tim.st = .unlocked ∧
      (u.evid.suspended = false → ∃ q, w.evid.unitQ = u.evid.unitQ ++ [q] ∧ recType q.body = 0x20)) ∧
    (u.tim.st ≠ .holdover ∨ u.now < 60 * cS + u.tim.holdSince → Does (.holdoverExpiry t) s fun w => w = u) ∧
    ((u.tim.stepPhase ≠ 0 ∨ u.tim.stepSec ≠ 0) → jobRuns u = false → Does (.stepApply t) s fun w =>
      w.tim.codes = moved (waiting u) u.tim.codes ∧ w.tim.stepPhase = 0 ∧ w.tim.stepSec = 0 ∧ w.tim.valid = (u.tim.valid || u.tim.secDue)) ∧
    ((u.tim.stepPhase = 0 ∧ u.tim.stepSec = 0) ∨ jobRuns u = true → Does (.stepApply t) s fun w => w = u) ∧
    (portUp u port = true → Does (.timeSetLoWrite t port val) s fun w =>
      (todHostEn u = true → ptpUsable u = false → ringUsable u = false →
        w.bus = some (carried port 0x22C true val) ∧ w.tim.hostSet = some (2 ^ 32 * fld u.r.timeSetHi 0 16 + val.toNat) ∧
        w.tim.todSrc = 2 ∧ w.tim.codes = u.tim.codes ∧ w.tim.valid = u.tim.valid) ∧
      (todHostEn u = false ∨ ptpUsable u = true ∨ ringUsable u = true →
        w.bus = some ⟨port, 0x22C, true, val, .access⟩ ∧ w.tim = u.tim)) ∧
    (u.tim.running = true → u.tim.codes % cS < 320 → u.tim.lastSecond ≠ some sec → Does (.tamongSecondBoundary t) s fun w =>
      (quiet → todTakes u = none → w.tim.lastSecond = some sec ∧
        (u.tim.valid = true → u.tim.st ≠ .unlocked → w.nw.aligned = true ∧ w.nw.alignSec = sec ∧
          w.nw.codes = cS * sec - (cTick - u.nw.codes % cTick)) ∧
        (u.tim.valid = false ∨ u.tim.st = .unlocked → w.nw.codes = u.nw.codes ∧ w.nw.aligned = u.nw.aligned)) ∧
      (u.tim.st ≠ .unlocked → u.encl.j4Skip = false → ppsoEn u = true → w.encl.ppsOutHigh = true ∧ w.encl.ppsOutRise = u.now) ∧
      (u.tim.st = .unlocked ∨ u.encl.j4Skip = true ∨ ppsoEn u = false → w.encl.ppsOutHigh = u.encl.ppsOutHigh)) ∧
    (u.tim.running = false ∨ 320 ≤ u.tim.codes % cS ∨ u.tim.lastSecond = some sec → Does (.tamongSecondBoundary t) s fun w => w = u)

/-- For each of PTP_ANNOUNCE, PTP_SYNC, PTP_FOLLOW_UP and PTP_DELAY_RESP: with the PTP port inactive nothing happens; with another version or a
length beyond what was received it is a violation and the port's data stay; of another domain, SDO or later version it is ignored. A message that is
taken: an Announce renews its sender's entry where fewer than four others are held, and the best master is chosen of all that qualify; a Sync of
the selected master, at an interval Table 4-7 takes and within 128 a second, is valid at once where it is one-step, and with no path delay known
gives offset plus delay from its times; a two-step one waits for its Follow_Up, with which it is valid and gives the same; a Follow_Up without a Sync is a violation; a
Delay_Resp to an open request gives the mean path delay, and any other of that master is a violation; a Sync of another master is ignored.
PTP_DELAY_REQ_SEND with PTP usable, no sooner than the interval allows, opens a request and hands one frame to the priority queue. The four
timeouts drop the silent master, the lock without Sync, the Syncs without Follow_Up and the requests without answer; none due, nothing happens. -/
def Obligations.PtpCommands : Prop :=
  ∀ (t : Instant) (h : PtpHdr) (a : PtpAnnounce) (two forUs : Bool) (origin rx : Nat) (corr : Int) (s : State),
    let u := advance t s
    let msgs : List Instr := [.ptpAnnounce t h a, .ptpSync t h two origin corr, .ptpFollowUp t h origin corr, .ptpDelayResp t h forUs rx corr]
    let sound := h.version % 16 = 2 ∧ h.msgLen ≤ h.rxLen
    let meant := h.version / 16 ≤ 1 ∧ h.domain = ptpDomain u ∧ h.sdo = 0
    let ours := u.ptp.best = some h.source
    let viol := fun (w : State) => ⟨rgTime, 0, 16, .add, 1⟩ ∈ w.evPend ∧ w.ptp = u.ptp ∧ w.tim = u.tim
    let lim := max (100 * cMs) (logDur u.ptp.syncInterval)
    let gap := max (cS / 16) (logDur u.ptp.reqInterval)
    (∀ c ∈ msgs, (ptpActive u = false ∨ (sound ∧ ¬meant) → Does c s fun w => w = u) ∧ (ptpActive u = true → ¬sound → Does c s viol)) ∧
    (ptpActive u = true → sound → meant →
      ((u.ptp.masters.filter fun m => m.id != h.source).length < 4 → Does (.ptpAnnounce t h a) s fun w =>
        (∃ m ∈ w.ptp.masters, m.id = h.source ∧ m.ann = a ∧ m.lastAt = u.now) ∧
        w.ptp.best = (bestOf (w.ptp.masters.filter qualified)).map (·.id)) ∧
      (ours → -7 ≤ h.logInterval → h.logInterval ≤ 1 → u.ptp.syncSecond ≠ u.now / cS ∨ u.ptp.syncCount < 128 →
        Does (.ptpSync t h two origin corr) s fun w =>
          (two = true → w.ptp.lastSync = u.ptp.lastSync ∧
            ∃ p ∈ w.ptp.pendSync, p.seq = h.seq ∧ p.at_ = u.now ∧ p.rx = (tamNow u : Int) - Config.ptpPhyDelay ∧ p.corr = corr) ∧
          (two = false → w.ptp.lastSync = some u.now ∧
            (u.ptp.delay = none → w.ptp.raw = some ((tamNow u : Int) - Config.ptpPhyDelay - origin - corr) ∧ w.tim = u.tim))) ∧
      (¬ours → Does (.ptpSync t h two origin corr) s (fun w => w = u) ∧ Does (.ptpFollowUp t h origin corr) s (fun w => w = u) ∧
        Does (.ptpDelayResp t h forUs rx corr) s (fun w => w = u)) ∧
      (∀ p, ours → (u.ptp.pendSync.find? fun y => y.seq == h.seq) = some p → Does (.ptpFollowUp t h origin corr) s fun w =>
        (∀ y ∈ w.ptp.pendSync, y.seq ≠ h.seq) ∧ w.ptp.lastSync = some (max p.at_ (u.ptp.lastSync.getD 0)) ∧ (u.ptp.delay = none → w.ptp.raw = some (p.rx - origin - (p.corr + corr)))) ∧
      (ours → (∀ y ∈ u.ptp.pendSync, y.seq ≠ h.seq) → Does (.ptpFollowUp t h origin corr) s viol) ∧
      (∀ q, ours → forUs = true → (u.ptp.pendReq.find? fun y => y.seq == h.seq) = some q → Does (.ptpDelayResp t h forUs rx corr) s fun w =>
        w.ptp.lost = 0 ∧ (∀ y ∈ w.ptp.pendReq, y.seq ≠ h.seq) ∧ w.tim = u.tim ∧
        ∀ r, u.ptp.raw = some r → w.ptp.delay = some ((r + (rx - q.tx - corr)) / 2)) ∧
      (ours → forUs = false ∨ (∀ y ∈ u.ptp.pendReq, y.seq ≠ h.seq) → Does (.ptpDelayResp t h forUs rx corr) s viol)) ∧
    (ptpUsable u = true → u.tim.running = true → (∀ k, u.ptp.lastReq = some k → k + gap ≤ u.now) → Does (.ptpDelayReqSend t) s fun w =>
      (∃ q, w.ptp.pendReq = q :: u.ptp.pendReq ∧ q.seq = u.ptp.reqSeq ∧ q.at_ = u.now) ∧ w.ptp.reqSeq = (u.ptp.reqSeq + 1) % 65536 ∧
      w.eth.txPri.length = 1 ∧ w = { u with ptp := w.ptp, eth := w.eth }) ∧
    (ptpUsable u = false ∨ u.tim.running = false ∨ (∃ k, u.ptp.lastReq = some k ∧ u.now < k + gap) →
      Does (.ptpDelayReqSend t) s fun w => w = u) ∧
    (∀ m, (u.ptp.masters.find? fun m => some m.id == u.ptp.best) = some m →
      (m.lastAt + annTimeout u * logDur m.interval ≤ u.now → Does (.ptpAnnounceTimeout t) s fun w =>
        (∀ y ∈ w.ptp.masters, y.id ≠ m.id) ∧ w.ptp.best ≠ some m.id ∧ w.tim.st ≠ .ptp) ∧
      (u.now < m.lastAt + annTimeout u * logDur m.interval → Does (.ptpAnnounceTimeout t) s fun w => w = u)) ∧
    (∀ k, u.ptp.lastSync = some k →
      (k + 4 * logDur u.ptp.syncInterval ≤ u.now → Does (.ptpSyncTimeout t) s fun w => w.ptp.lastSync = none ∧ w.tim.st ≠ .ptp) ∧
      (u.now < k + 4 * logDur u.ptp.syncInterval → Does (.ptpSyncTimeout t) s fun w => w = u)) ∧
    (u.ptp.lastSync = none → Does (.ptpSyncTimeout t) s fun w => w = u) ∧
    Does (.ptpFollowUpTimeout t) s (fun w => w.tim = u.tim ∧
      w.ptp = { u.ptp with pendSync := u.ptp.pendSync.filter fun x => !decide (x.at_ + lim ≤ u.now) }) ∧
    Does (.ptpDelayRespTimeout t) s (fun w => w.ptp.pendReq = u.ptp.pendReq.filter (fun x => !decide (cS + x.at_ ≤ u.now)) ∧
      ((∀ x ∈ u.ptp.pendReq, u.now < cS + x.at_) → w = u))

/-- A write of G_CAL_REQ through a port by any of its four commands, in Day or without a request for a window: cancels act first, then each
requested octet that is active and in no window has a request pending, each cancelled and not requested has none, and every other octet is as it
was; with the unit request a whole-unit calibration is in progress. Outside Day a request is refused and nothing is requested. TWILIGHT_WINDOW_BEGIN,
after the decisions of the cycle, for an octet free for a window that is admitted: the window runs from now at step 1, the request is no longer
pending, the octet's pins are safe; with no request pending it adds nothing. TWILIGHT_STEP_DONE goes on to the next step when the present one has
lasted its time. TWILIGHT_WINDOW_END 50 µs after step 8 began ends the window with outcome 1 exactly where every group of the nine channels passes
its checks, else 2, or 4 and no trim written where the reaction to a failed check stops the octet. CAL_UNIT_STEP_DONE after 6 ms ends the unit step and requests a window on the lowest active octet. CAL_REQUEST_OVERDUE after
WAIT_S marks the request. None due, nothing happens. -/
def Obligations.CalibrationWindows : Prop :=
  ∀ (t : Instant) (port : Port) (val : Word) (k : Fin 8) (meas : List ChMeas) (phases : List Int) (s : State),
    let u := advance t s
    let each := fun (p : State → Prop) => Does (.calReqOct t port val) s p ∧ Does (.calReqUnit t port val) s p ∧
      Does (.calReqStore t port val) s p ∧ Does (.calReqCancel t port val) s p
    let v := jobDue u
    let runs := fun (w : State) => (∃ x, (octAt w k).win = some x ∧ x.begun = u.now ∧ x.step = 1 ∧ x.stepAt = u.now) ∧
      (octAt w k).calPend = none ∧ ∀ i < 8, (pinAt w (8 * k.val + i)).safe = true
    let o := octAt u k
    let asks := fld val 0 8 ≠ 0 ∨ bit val 31 = true
    (portUp u port = true →
      (inDay u = true ∨ ¬asks → each fun w => w.bus = some (carried port 0xA00 true val) ∧
        ((fld val 0 8).testBit k.val = true → octOn u k = true → o.win = none → (octAt w k).calPend ≠ none) ∧
        ((fld val 8 8).testBit k.val = true → (fld val 0 8).testBit k.val = false →
          octAt w k = { o with calPend := none, calOverdue := false }) ∧
        ((fld val 8 8).testBit k.val = false → (fld val 0 8).testBit k.val = false → octAt w k = o) ∧
        (bit val 31 = true → w.cal.unitStep ≠ none ∨ w.cal.unitNext ≠ none) ∧ (bit val 31 = false → w.cal = u.cal)) ∧
      (inDay u = false → asks → each fun w =>
        w.bus = some ⟨port, 0xA00, true, val, .access⟩ ∧ w.octs = u.octs ∧ w.cal = u.cal ∧ w.boot = u.boot)) ∧
    (windowFree v k = true → admission v 6000 38000 = .yes → Does (.twilightWindowBegin t k) s runs) ∧
    ((∀ i < 16, (slotAt u i).st ≠ .queued) → windowFree u k = true → admission u 6000 38000 = .yes →
      Does (.twilightWindowBegin t k) s runs) ∧
    ((octAt v k).calPend = none → Does (.twilightWindowBegin t k) s fun w => w = v) ∧
    (∀ x, o.win = some x →
      (x.step < 8 → x.stepAt + stepDur x.step ≤ u.now → Does (.twilightStepDone t k meas) s fun w =>
        (∃ y, (octAt w k).win = some y ∧ y.begun = x.begun ∧ y.step = x.step + 1 ∧ y.stepAt = x.stepAt + stepDur x.step) ∧
        w = { u with octs := w.octs } ∧ ∀ j < 8, j ≠ k.val → octAt w j = octAt u j) ∧
      (8 ≤ x.step ∨ u.now < x.stepAt + stepDur x.step → Does (.twilightStepDone t k meas) s fun w => w = u) ∧
      (x.step = 8 → 50 * cUs + x.stepAt ≤ u.now → Does (.twilightWindowEnd t k) s fun w => (octAt w k).win = none ∧
        ((∀ i < 9, (groupOut (levelChecks (x.meas.getD i default))).1 = 1 ∧ (groupOut (timingChecks (x.meas.getD i default))).1 = 1) ∧
          (∀ i < 8, (groupOut (skewChecks (x.meas.getD i default))).1 = 1) → (octAt w k).lastOut = 1) ∧
        (¬((∀ i < 9, (groupOut (levelChecks (x.meas.getD i default))).1 = 1 ∧ (groupOut (timingChecks (x.meas.getD i default))).1 = 1) ∧
          ∀ i < 8, (groupOut (skewChecks (x.meas.getD i default))).1 = 1) →
          (fltReact u 18 ≠ 1 → (octAt w k).lastOut = 2) ∧
          (fltReact u 18 = 1 → (octAt w k).lastOut = 2 ∨ ((octAt w k).lastOut = 4 ∧ ∀ c < 72, let a := vget w.cal.ch c default; let b := vget u.cal.ch c default
              a.lvlTrim = b.lvlTrim ∧ a.timTrim = b.timTrim ∧ a.skewTrim = b.skewTrim)))) ∧
      (x.step ≠ 8 ∨ u.now < 50 * cUs + x.stepAt → Does (.twilightWindowEnd t k) s fun w => w = u)) ∧
    (o.win = none → Does (.twilightStepDone t k meas) s (fun w => w = u) ∧ Does (.twilightWindowEnd t k) s (fun w => w = u)) ∧
    (∀ b, u.cal.unitStep = some b →
      (6 * cMs + b ≤ u.now → Does (.calUnitStepDone t phases) s fun w => w.cal.unitStep = none ∧
        (octOn u k = true → (∀ j < k.val, octOn u j = false) → o.win = none → (octAt w k).calPend ≠ none)) ∧
      (u.now < 6 * cMs + b → Does (.calUnitStepDone t phases) s fun w => w = u)) ∧
    (u.cal.unitStep = none → Does (.calUnitStepDone t phases) s fun w => w = u) ∧
    (∀ p, o.calPend = some p →
      (waitS u ≠ 0 → p + cS * waitS u ≤ u.now → Does (.calRequestOverdue t k) s fun w =>
        octAt w k = { o with calOverdue := true } ∧ w = { u with octs := w.octs } ∧ ∀ j < 8, j ≠ k.val → octAt w j = octAt u j) ∧
      (waitS u = 0 ∨ u.now < p + cS * waitS u → Does (.calRequestOverdue t k) s fun w => w = u)) ∧
    (o.calPend = none → Does (.calRequestOverdue t k) s fun w => w = u)

/-- ROLL_PHASE_DONE while the octet runs the cycle on a pin that is not skipped: after 2 ms of phase 1 the spare lane's timing checks lead to
phase 2 with the trims as they were, or to SPARE_OK 0 and a standing cycle; after 0.25 ms of phase 2 the skew checks lead to phase 3 or the
same; after 2 ms of phase 4 phase 5 follows with the measurement kept; sooner, or in another phase, nothing. A pin that has become one to
skip in phase 1 gives its turn to the next that is not. SPARE_SWAP_IN in phase 3, with the lane free, the pin not skipped and a swap
permitted: the lane serves the pin, phase 4, one swap counted, and nothing else changes; otherwise nothing. SPARE_HAND_BACK of a served pin,
where a swap is permitted and phase 5 is reached or INHIBIT asks: the lane serves no pin, the next pin's turn is noted, and phase is 6 after
phase 5 and 0 otherwise; without these nothing. ROLL_GAP_EXPIRY when GAP_MS of phase 6 has passed begins phase 1 on the first pin from the
next on that is not skipped; before, nothing. -/
def Obligations.RollingCalibration : Prop :=
  ∀ (t : Instant) (k : Fin 8) (m : ChMeas) (s : State),
    let u := advance t s
    let r := (octAt u k).roll
    let n := 8 * k.val + r.next
    let runs := rollOn u k = true ∧ rollSkips u n = false
    let steady := (octAt u k).served ≠ none ∨ (rollOn u k = true ∧ (r.phase ∈ [1, 2, 3] → rollSkips u n = false)) ∨
      (rollOn u k = false ∧ r.phase = 0 ∧ r.meas = none)
    (r.phase = 1 → 2000 * cUs + r.at_ ≤ u.now → runs →
      ((groupOut (timingChecks m)).1 = 1 → Does (.rollPhaseDone t k m) s fun w =>
        (octAt w k).roll = { r with phase := 2, at_ := u.now, meas := some m } ∧ w = { u with octs := w.octs, cal := w.cal } ∧
        ∀ c < 72, (vget w.cal.ch c default).timTrim = (vget u.cal.ch c default).timTrim) ∧
      ((groupOut (timingChecks m)).1 ≠ 1 → Does (.rollPhaseDone t k m) s fun w =>
        (octAt w k).spareOk = false ∧ (octAt w k).roll.phase = 0)) ∧
    (r.phase = 2 → 250 * cUs + r.at_ ≤ u.now → runs →
      ((groupOut (skewChecks m)).1 = 1 → Does (.rollPhaseDone t k m) s fun w =>
        (octAt w k).roll.phase = 3 ∧ (octAt w k).roll.next = r.next ∧ (octAt w k).spareOk = (octAt u k).spareOk) ∧
      ((groupOut (skewChecks m)).1 ≠ 1 → Does (.rollPhaseDone t k m) s fun w =>
        (octAt w k).spareOk = false ∧ (octAt w k).roll.phase = 0)) ∧
    (r.phase = 4 → 2000 * cUs + r.at_ ≤ u.now → (octAt u k).served ≠ none → Does (.rollPhaseDone t k m) s fun w =>
      (octAt w k).roll = { r with phase := 5, at_ := u.now, meas := some m } ∧ w = { u with octs := w.octs }) ∧
    (steady → (r.phase = 1 ∨ r.phase = 4) ∧ u.now < 2000 * cUs + r.at_ ∨ r.phase = 2 ∧ u.now < 250 * cUs + r.at_ ∨
        r.phase ∉ [1, 2, 4] → Does (.rollPhaseDone t k m) s fun w => w = u) ∧
    (∀ i, r.phase = 1 → u.now < 2000 * cUs + r.at_ → (octAt u k).served = none → rollOn u k = true → rollSkips u n = true →
      rollPin u k (r.next + 1) = some i → Does (.rollPhaseDone t k m) s fun w =>
        (octAt w k).roll = { r with next := i } ∧ w = { u with octs := w.octs }) ∧
    (r.phase = 3 → r.next < 8 → runs → (octAt u k).served = none → swapOk u n = true →
      Does (.spareSwapIn t k) s fun w => ((octAt w k).served.map (·.val)) = some r.next ∧
        (octAt w k).roll = { r with phase := 4, at_ := u.now } ∧
        w = { u with octs := w.octs, evPend := ⟨rgXpt k, 16, 8, .add, 1⟩ :: u.evPend } ∧ ∀ j < 8, j ≠ k.val → octAt w j = octAt u j) ∧
    (steady → r.phase ≠ 3 ∨ (octAt u k).served ≠ none ∨ swapOk u n = false → Does (.spareSwapIn t k) s fun w => w = u) ∧
    (∀ i : Fin 8, (octAt u k).served = some i →
      (swapOk u (8 * k.val + i.val) = true → r.phase = 5 ∨ (octAt u k).xptInhibit = true → Does (.spareHandBack t k) s fun w =>
        (octAt w k).served = none ∧ (octAt w k).roll = ⟨if r.phase = 5 then 6 else 0, (i.val + 1) % 8, u.now, none⟩ ∧
        ⟨rgXpt k, 16, 8, .add, 1⟩ ∈ w.evPend) ∧
      (swapOk u (8 * k.val + i.val) = false ∨ (r.phase ≠ 5 ∧ (octAt u k).xptInhibit = false) → Does (.spareHandBack t k) s fun w => w = u)) ∧
    ((octAt u k).served = none → Does (.spareHandBack t k) s fun w => w = u) ∧
    (∀ j, r.phase = 6 → r.at_ + cMs * fld (octAt u k).rollCfg 0 16 ≤ u.now → rollOn u k = true → rollPin u k r.next = some j →
      Does (.rollGapExpiry t k) s fun w => (octAt w k).roll = ⟨1, j, u.now, none⟩ ∧ w = { u with octs := w.octs }) ∧
    (steady → r.phase = 6 ∧ u.now < r.at_ + cMs * fld (octAt u k).rollCfg 0 16 ∨ r.phase ∈ [1, 2, 3, 4, 5] →
      Does (.rollGapExpiry t k) s fun w => w = u)

/-- A frame with its header fields in their ranges and a payload of 20 bytes, scrambled on the line, has MARKER and a valid CRC and gives back
its header and payload. With the fast domain powered; without it each of these commands changes nothing. RING_ALIGNMENT_FOUND aligns a port
that is not aligned exactly where the search finds three frames in a row in the bits it received. RING_FRAME_DISCARDED at an
aligned port of a frame whose marker or CRC is bad adds one bad frame, and the fourth in a row ends alignment and the survey's validity; of
a good one with a reserved bit set or an unknown TYPE it is a violation and ends the row; at a port not aligned it adds
none. RING_IDLE_RECEIVED ends a row of bad frames; on RING A the unit's own serial number is a loop back, which takes the unit out of the ring, and another's ends it. SURVEY_SEND on a
ring in use notes the instant and sends the unit's bit downstream. SURVEY_RECEIVED: the unit's own within 1 ms is recorded and valid exactly for
every member once; another's is marked and goes on. SURVEY_TIMEOUT after 1 ms ends validity. DELAY_REQ_SEND sends LINK_B and notes the instant the frame leaves;
DELAY_REQ_RECEIVED takes LINK_A and answers with the residence up to the slot the answer leaves in; DELAY_RESP_RECEIVED with a residence of 0 to 100 µs completes a measurement: half of the round trip and
asymmetry joins the last sixteen, whose mean is LINK_B; outside that range LINK_B stays and it is a violation, as is one without a request. LOOP_MEASURE_DONE 1 s after the loop
back records the asymmetry. -/
def Obligations.RingLinks : Prop :=
  ∀ (t : Instant) (rp : RingPort) (n bits : Nat) (marker : BitVec 32) (rest : BitVec 224) (h : RingHdr) (body : List Byte) (serial : BitVec 64) (id lastD : Nat)
    (seen dup : BitVec 16) (residence asym : Int) (s : State),
    let u := advance t s
    let line := marker ++ rest
    let all : List Instr := [.ringAlignmentFound t ⟨rp, n, bits⟩, .ringFrameDiscarded t rp marker rest, .ringIdleReceived t rp serial id, .surveySend t,
      .surveyReceived t rp h seen dup, .surveyTimeout t, .delayReqSend t, .delayReqReceived t h lastD, .delayRespReceived t ⟨h, residence⟩,
      .loopMeasureDone t asym, .ringTick t, .claimTimeout t, .ringSyncTimeout t, .resignReceived t rp h, .agreeReturnTimeout t,
      .verdictTimeout t, .sleepInstant t, .rendezvousStart t, .rendezvousGuardExpiry t, .listenExpiry t]
    let sent := fun (w : State) (a : Bool) (type : Nat) (body : List Byte) => ∃ f ∈ w.ring.tx, f.outA = a ∧ f.type = type ∧ f.body = body
    let linked := ringOn u = true ∧ h.rsvd = 0 ∧ h.src < ringSize u ∧ h.hops < 15
    let viol := fun (w : State) => ⟨rgRingErr, 0, 8, .add, 1⟩ ∈ w.evPend
    (h.type < 256 → h.src < 16 → h.hops < 16 → h.seq < 256 → body.length = 20 →
      frameHolds (frameLine h body) = true ∧ lineHdr (frameLine h body) = h ∧ lineBody (frameLine h body) = body) ∧
    (fastOn u = false → ∀ c ∈ all, Does c s fun w => w = u) ∧
    (fastOn u = true →
      ((portAt u rp).aligned = false →
        ((searchLine n bits).isSome = true → Does (.ringAlignmentFound t ⟨rp, n, bits⟩) s fun w => (portAt w rp).aligned = true ∧ (portAt w rp).bad = 0) ∧
        (searchLine n bits = none → Does (.ringAlignmentFound t ⟨rp, n, bits⟩) s fun w => (portAt w rp).aligned = false)) ∧
      ((portAt u rp).aligned = true → Does (.ringAlignmentFound t ⟨rp, n, bits⟩) s fun w => portAt w rp = portAt u rp) ∧
      ((portAt u rp).aligned = true → frameHolds line.toNat = false → Does (.ringFrameDiscarded t rp marker rest) s fun w =>
        ((portAt u rp).bad < 3 → (portAt w rp).aligned = true ∧ (portAt w rp).bad = (portAt u rp).bad + 1) ∧
        (3 ≤ (portAt u rp).bad → (portAt w rp).aligned = false ∧ (portAt w rp).bad = 0 ∧ w.ring.surveyOk = false)) ∧
      ((portAt u rp).aligned = true → frameHolds line.toNat = true → (lineHdr line.toNat).rsvd ≠ 0 ∨ (lineHdr line.toNat).type ∉ frameTypes →
        Does (.ringFrameDiscarded t rp marker rest) s fun w => (portAt w rp).aligned = true ∧ (portAt w rp).bad = 0 ∧ viol w) ∧
      ((portAt u rp).aligned = false → Does (.ringFrameDiscarded t rp marker rest) s fun w => portAt w rp = portAt u rp) ∧
      Does (.ringIdleReceived t rp serial id) s (fun w => (portAt w rp).bad = 0 ∧ (portAt w rp).aligned = (portAt u rp).aligned ∧
        (rp = .a → (w.ring.selfLoop = true ↔ serial = u.boot.serial)) ∧ (rp = .b → w.ring.selfLoop = u.ring.selfLoop) ∧
        (rp = .a → serial = u.boot.serial → u.ring.selfLoop = false →
          w.ring.master = none ∧ w.ring.sync = false ∧ w.ring.claiming = none ∧ ringOn w = false)) ∧
      (ringOn u = true → Does (.surveySend t) s fun w => w.ring.surveyAt = some u.now ∧
        (ringTxOn u = true → sent w false 0x01 (beBytes 2 (2 ^ (unitNo u - 1)) ++ zeros 18))) ∧
      (ringOn u = false → Does (.surveySend t) s fun w => w.ring.surveyAt = u.ring.surveyAt) ∧
      (∀ k, ringOn u = true → h.rsvd = 0 → h.src + 1 = unitNo u → u.ring.surveyAt = some k → u.now ≤ cMs + k →
        Does (.surveyReceived t rp h seen dup) s fun w => w.ring.seen = seen.toNat ∧ w.ring.dup = dup.toNat ∧ w.ring.surveyAt = none ∧
          (w.ring.surveyOk = true ↔ seen.toNat = 2 ^ ringSize u - 1 ∧ dup = 0)) ∧
      (linked → h.src + 1 ≠ unitNo u → ringTxOn u = true → Does (.surveyReceived t rp h seen dup) s fun w =>
        ∃ f ∈ w.ring.tx, f.outA = (rp == .b) ∧ f.type = h.type ∧ f.src = h.src ∧ f.hops = h.hops + 1 ∧ f.seq = h.seq ∧
          f.body = surveyMark u seen.toNat dup.toNat ++ zeros 16) ∧
      (∀ k, u.ring.surveyAt = some k → cMs + k ≤ u.now → Does (.surveyTimeout t) s fun w => w.ring.surveyOk = false ∧ w.ring.surveyAt = none) ∧
      (u.ring.surveyAt = none → Does (.surveyTimeout t) s fun w => w.ring.surveyOk = u.ring.surveyOk) ∧
      (ringOn u = true → ringTxOn u = true → Does (.delayReqSend t) s fun w =>
        ∃ f ∈ w.ring.tx, f.outA = false ∧ f.type = 0x02 ∧ f.body = beBytes 4 u.ring.linkB ++ zeros 16 ∧ w.ring.reqAt = some f.at_ ∧
          u.now ≤ f.at_ ∧ f.at_ < u.now + cFrame) ∧
      (ringOn u = false → Does (.delayReqSend t) s fun w => w.ring.reqAt = u.ring.reqAt ∧ w.ring.tx = []) ∧
      (linked → Does (.delayReqReceived t h lastD) s fun w => w.ring.linkA = lastD % 2 ^ 32 ∧ (portAt w .a).bad = 0 ∧
        (ringTxOn u = true → ∃ f ∈ w.ring.tx, f.outA = true ∧ f.type = 0x03 ∧ u.now + cFrame ≤ f.at_ ∧
          f.body = beBytes 8 (f.at_ - u.now) ++ zeros 12)) ∧
      (ringOn u = true → h.rsvd ≠ 0 → Does (.delayReqReceived t h lastD) s (fun w => w.ring.linkA = u.ring.linkA ∧ viol w) ∧
        Does (.delayRespReceived t ⟨h, residence⟩) s (fun w => w.ring.linkB = u.ring.linkB ∧ viol w)) ∧
      (∀ b, linked → u.ring.reqAt = some b → 0 ≤ residence → residence ≤ (100 * cUs : Nat) →
        Does (.delayRespReceived t ⟨h, residence⟩) s fun w => w.ring.reqAt = none ∧ (portAt w .b).bad = 0 ∧
          w.ring.linkSamples = ((((u.now : Int) - b - residence + linkAsym u) / 2) :: u.ring.linkSamples).take 16 ∧
          w.ring.linkB = (w.ring.linkSamples.sum / w.ring.linkSamples.length).toNat) ∧
      (linked → (residence < 0 ∨ ((100 * cUs : Nat) : Int) < residence) ∨ u.ring.reqAt = none →
        Does (.delayRespReceived t ⟨h, residence⟩) s fun w => w.ring.reqAt = none ∧ w.ring.linkB = u.ring.linkB ∧ viol w) ∧
      (u.ring.selfLoop = true → cS + u.ring.loopAt ≤ u.now → Does (.loopMeasureDone t asym) s fun w =>
        w.ring.loopValid = true ∧ w.ring.loopAsym = asym) ∧
      (u.ring.selfLoop = false ∨ u.now < cS + u.ring.loopAt → Does (.loopMeasureDone t asym) s fun w =>
        w.ring.loopValid = u.ring.loopValid ∧ w.ring.loopAsym = u.ring.loopAsym))

/-- With the fast domain powered and the transmitters on. RING_TICK: a master that need not resign sends TIME both ways, each with the master time of the instant its frame leaves; another unit that may claim
claims now, both ways. CLAIM_RECEIVED from a lower unit withdraws the unit's claim and goes on, from a higher one it leaves it. CLAIM_TIMEOUT 1 ms after
the claim, with nothing that makes it resign, makes the unit master with SYNC 1; sooner the claim stands. RESIGN_RECEIVED from the selected master
ends its selection and goes on, from another it changes no selection. TIME_RECEIVED from the selected master, on the port whose frames are used:
the offset sample joins the last sixteen, SYNC reads 1 from the sixteenth, and the frame goes on with the master time of the instant it leaves; from another unit while the master's frames arrive it is a violation and adds no
sample; with no master it selects the sender. RING_SYNC_TIMEOUT after 8 ms without TIME ends selection and SYNC on a unit that is not master, sooner
nothing of these. G_RING_CMD with TRIG or RUN through a port, not refused: S is master time plus the lead, kept among the latest eight assignments and
sent downstream; refused, the ring is as it was. TRIG_RECEIVED and RUN_RECEIVED up to 60 s ahead keep the assignment and go on, further ahead they
are violations and not kept; without RUN_EN a RUN uses no job number, with it its template is placed as a job or its refusal is counted. -/
def Obligations.RingTime : Prop :=
  ∀ (t : Instant) (rp : RingPort) (h : RingHdr) (valid : Bool) (tod mtime st trig start tmpl : Nat) (port : Port) (val : Word) (s : State),
    let u := advance t s
    let take := ringOn u = true ∧ h.rsvd = 0 ∧ h.src + 1 ≠ unitNo u ∧ h.src < ringSize u ∧ h.hops < 15
    let onward := fun (w : State) (body : List Byte) => ∃ f ∈ w.ring.tx,
      f.outA = (rp == .b) ∧ f.type = h.type ∧ f.src = h.src ∧ f.hops = h.hops + 1 ∧ f.seq = h.seq ∧ f.body = body
    let told := fun (w : State) (a : Bool) (type : Nat) (ofs : Int) (tail : List Byte) => ∃ f ∈ w.ring.tx,
      f.outA = a ∧ f.type = type ∧ u.now ≤ f.at_ ∧ f.body = beBytes 12 (timeCode ((tamOf u f.at_ : Int) + ofs).toNat) ++ tail
    let sent := fun (w : State) (a : Bool) (type : Nat) (body : List Byte) => ∃ f ∈ w.ring.tx, f.outA = a ∧ f.type = type ∧ f.body = body
    let stays := isMaster u = false ∨ mustResign u = false
    let c := timeOfCode start
    let arg := u.r.ringArg.toNat
    let lead := if fld val 0 16 = 0 then 20 else fld val 0 16
    let d : Int := match rp with | .a => (u.ring.linkA : Int) | .b => u.ring.dUp
    fastOn u = true → ringTxOn u = true →
    (ringOn u = true → isMaster u = true → mustResign u = false → Does (.ringTick t) s fun w =>
      ∀ a, told w a 0x11 0 (beBytes 1 u.tim.st.code ++ beBytes 1 (b2n u.tim.valid) ++ beBytes 1 u.tim.todSrc ++ zeros 5)) ∧
    (ringOn u = true → mayClaim u = true → Does (.ringTick t) s fun w => w.ring.claiming = some u.now ∧
      sent w true 0x10 (beBytes 1 1 ++ beBytes 1 u.tim.todSrc ++ zeros 18) ∧ sent w false 0x10 (beBytes 1 1 ++ beBytes 1 u.tim.todSrc ++ zeros 18)) ∧
    (∀ k, take → u.ring.claiming = some k →
      (h.src < unitNo u → Does (.claimReceived t rp h valid tod) s fun w => w.ring.claiming = none ∧
        onward w (beBytes 1 (b2n valid) ++ beBytes 1 tod ++ zeros 18)) ∧
      (unitNo u ≤ h.src → Does (.claimReceived t rp h valid tod) s fun w => w.ring.claiming = some k)) ∧
    (∀ k, u.ring.claiming = some k →
      (cMs + k ≤ u.now → ringOn u = true → mustResign u = false → Does (.claimTimeout t) s fun w =>
        w.ring.master = some (unitNo u - 1) ∧ w.ring.sync = true ∧ w.ring.claiming = none) ∧
      (u.now < cMs + k → Does (.claimTimeout t) s fun w => w.ring.claiming = some k)) ∧
    (take → (u.ring.master = some h.src → Does (.resignReceived t rp h) s fun w =>
        w.ring.master = none ∧ w.ring.sync = false ∧ onward w (zeros 20)) ∧
      (u.ring.master ≠ some h.src → stays → Does (.resignReceived t rp h) s fun w => w.ring.master = u.ring.master)) ∧
    (take → u.ring.master = some h.src → timeUsed u rp h.hops = true → Does (.timeReceived t rp h mtime st valid tod) s fun w =>
      w.ring.samples = ((u.tim.codes, (timeOfCode mtime : Int) + d - u.tim.codes) :: u.ring.samples).take 16 ∧
      w.ring.sampleCount = u.ring.sampleCount + 1 ∧ w.ring.sync = (u.ring.sync || decide (16 ≤ u.ring.sampleCount + 1)) ∧
      w.ring.lastTime = some u.now ∧ w.ring.mValid = valid ∧
      told w (rp == .b) h.type (ringOfs w) (beBytes 1 st ++ beBytes 1 (b2n valid) ++ beBytes 1 tod ++ zeros 5)) ∧
    (∀ m, take → u.ring.master = some m → m ≠ h.src → noTimeFor u (3 * cMs) = false → stays →
      Does (.timeReceived t rp h mtime st valid tod) s fun w =>
        w.ring.samples = u.ring.samples ∧ w.ring.master = some m ∧ ⟨rgRingErr, 0, 8, .add, 1⟩ ∈ w.evPend) ∧
    (take → u.ring.master = none → Does (.timeReceived t rp h mtime st valid tod) s fun w => w.ring.master = some h.src) ∧
    (isMaster u = false →
      (noTimeFor u (8 * cMs) = true → Does (.ringSyncTimeout t) s fun w => w.ring.master = none ∧ w.ring.sync = false ∧ w.ring.samples = []) ∧
      (noTimeFor u (8 * cMs) = false → Does (.ringSyncTimeout t) s fun w => w.ring.master = u.ring.master ∧ w.ring.sync = u.ring.sync)) ∧
    (portUp u port = true →
      let goes := fun (run : Bool) (w : State) => w.bus = some (carried port 0x82C true val) ∧
        w.ring.trigs = ((arg, masterNow u + cMs * lead) :: u.ring.trigs).take 8 ∧
        sent w false (0x20 + b2n run) (beBytes 4 arg ++ beBytes 12 (timeCode (masterNow u + cMs * lead)) ++
          (if run then beBytes 1 (fld val 16 8) else zeros 1) ++ zeros 3)
      let refused := fun (w : State) => w.bus = some ⟨port, 0x82C, true, val, .access⟩ ∧ w.ring = u.ring
      (ringValid u = true → u.ring.sync = true → arg ≠ 0 →
        (fld val 29 3 = 3 → Does (.ringCmdTrig t port val) s (goes false)) ∧ (fld val 29 3 = 4 → Does (.ringCmdRun t port val) s (goes true))) ∧
      (ringValid u = false ∨ u.ring.sync = false ∨ arg = 0 →
        (fld val 29 3 = 3 → Does (.ringCmdTrig t port val) s refused) ∧ (fld val 29 3 = 4 → Does (.ringCmdRun t port val) s refused))) ∧
    (take → c ≤ 60 * cS + masterNow u →
      Does (.trigReceived t rp h trig start) s (fun w => w.ring.trigs = ((trig, c) :: u.ring.trigs).take 8 ∧
        onward w (beBytes 4 trig ++ beBytes 12 start ++ zeros 1 ++ zeros 3)) ∧
      Does (.runReceived t rp h trig start tmpl) s (fun w => w.ring.trigs = ((trig, c) :: u.ring.trigs).take 8 ∧
        onward w (beBytes 4 trig ++ beBytes 12 start ++ beBytes 1 tmpl ++ zeros 3) ∧
        (runEn u = false → w.nw.jobNo = u.nw.jobNo) ∧
        (runEn u = true → (w.nw.jobNo = u.nw.jobNo ∧ ⟨rgJob, 24, 8, .add, 1⟩ ∈ w.evPend) ∨ w.nw.jobNo = nextJobNo u.nw.jobNo))) ∧
    (take → 60 * cS + masterNow u < c →
      Does (.trigReceived t rp h trig start) s (fun w => w.ring.trigs = u.ring.trigs ∧ ⟨rgRingErr, 0, 8, .add, 1⟩ ∈ w.evPend) ∧
      Does (.runReceived t rp h trig start tmpl) s (fun w => w.ring.trigs = u.ring.trigs ∧ w.nw.jobNo = u.nw.jobNo))

/-- With the transmitters on a port sends an IDLE frame in every slot that no other frame has; it is a beacon of the agreement in force while
that is confirmed, in its window, in its listen, resynchronised or made. With the fast domain powered and the transmitters on. RING_CMD_WAKE of a unit in a ring counts WAKE_SEQ on and sends WAKE both ways. RING_CMD_PROPOSE not
refused: with no veto of its own the unit proposes, holds the agreement as proposer and sends PROPOSE; with one it is vetoed with its code.
PROPOSE_RECEIVED from another unit: accepted with the unit's bit, or vetoed with the least code, and goes on; the unit's own back, with every
acceptance and no veto, is committed. COMMIT_RECEIVED commits an accepted agreement and goes on; the own one back is confirmed, or with a wake call
before it aborted with code 10. VERDICT_RECEIVED on a committed agreement confirms it or aborts it with its code. WAKE_RECEIVED for the first time goes
on and holds or latches the call in states 3 and 4, else acts; seen before that way it goes no further. AGREE_RETURN_TIMEOUT and VERDICT_TIMEOUT abort with
codes 9 and 11. SLEEP_INSTANT at T_n sets the rendezvous alarm and has a request waiting; RENDEZVOUS_START at T_w opens the window, whether the transmitters were off until then or not,
RENDEZVOUS_GUARD_EXPIRY starts the listen, LISTEN_EXPIRY fails it with a wake call. Not due, the agreement stays. WAKE_TONE_DETECTED in Night
requests Day unless CORE_FAILED or a block discards it; in another state nothing. -/
def Obligations.SleepAgreements : Prop :=
  ∀ (t : Instant) (rp : RingPort) (h : RingHdr) (a : AgreeMsg) (id result origin wseq slot seq : Nat) (out : Bool) (port : Port) (val : Word) (s : State),
    let u := advance t s
    let g := u.ring.agree
    let valid := ringOn u = true ∧ h.rsvd = 0
    let own := valid ∧ h.src + 1 = unitNo u
    let take := valid ∧ h.src + 1 ≠ unitNo u ∧ h.src < ringSize u ∧ h.hops < 15
    let onward := fun (w : State) (type : Nat) => ∃ f ∈ w.ring.tx, f.outA = (rp == .b) ∧ f.type = type ∧ f.src = h.src ∧ f.hops = h.hops + 1
    let sent := fun (w : State) (a : Bool) (type : Nat) => ∃ f ∈ w.ring.tx, f.outA = a ∧ f.type = type
    let arg := u.r.ringArg.toNat
    let tn := (masterNow u + cMs * ringLeadMs u) / 256 * 256
    let code := if proposalBad a.sleepS a.target then 8 else vetoCode u (displaces u a.agreeId) a.sleepS a.target (msgTn u a)
    let full := a.accept.toNat = 2 ^ ringSize u - 1 ∧ a.vetoed = 0 ∧ vetoCode u true g.sleepS g.target g.tn = 0
    (u.pwr.st = .night → Does (.wakeToneDetected t) s fun w => w.ring.toneDue = true ∧
      (u.clk.coreFailed = false → dayBlock u = false → w.pwr.pend ≠ none)) ∧
    (u.pwr.st ≠ .night → Does (.wakeToneDetected t) s fun w => w = u) ∧
    (ringTxOn u = true → (∀ f ∈ u.ring.tx, f.outA ≠ out ∨ f.at_ ≠ slot) →
      ∃ x, ringLine u out slot seq = some (256, x) ∧ frameHolds x = true ∧ (lineHdr x).type = 0 ∧
        ((lineBody x).drop 12).take 2 = beBytes 2 (if g.st ∈ [4, 6, 7, 8, 10] then g.id else 0)) ∧
    (ringTxOn u = false → ringLine u out slot seq = none) ∧
    (fastOn u = true →
      (g.st = 4 → g.tw ≤ u.tim.codes → Does (.rendezvousStart t) s fun w =>
        w.ring.agree = { g with st := 6, slept := false, quiet := false } ∧
        (u.ring.toneDue = true → ringOn u = true → w.ring.toneDue = false)) ∧
      (g.st ≠ 4 ∨ u.tim.codes < g.tw → Does (.rendezvousStart t) s fun w => w.ring.agree = g)) ∧
    (fastOn u = true → ringTxOn u = true →
      (portUp u port = true → fld val 29 3 = 1 → ringOn u = true → Does (.ringCmdWake t port val) s fun w =>
        w.bus = some (carried port 0x82C true val) ∧ w.ring.wakeSeq = (u.ring.wakeSeq + 1) % 65536 ∧ sent w true 0x33 ∧ sent w false 0x33) ∧
      (portUp u port = true → fld val 29 3 = 2 → ringOn u = true → u.ring.sync = true → arg ≠ 0 → arg ≤ 86400 → agreeHeld u = false →
        (vetoCode u false arg (fld val 16 8) tn = 0 → Does (.ringCmdPropose t port val) s fun w =>
          w.bus = some (carried port 0x82C true val) ∧ w.ring.agree.st = 1 ∧ w.ring.agree.proposer = true ∧
          w.ring.agree.id = (unitNo u - 1) * 4096 + u.ring.agreeSeq % 4096 ∧ w.ring.agree.tn = tn ∧ w.ring.agree.sleepS = arg ∧
          w.ring.agree.accept = 2 ^ (unitNo u - 1) ∧ sent w false 0x30) ∧
        (vetoCode u false arg (fld val 16 8) tn ≠ 0 → Does (.ringCmdPropose t port val) s fun w =>
          w.ring.agree.st = 5 ∧ w.ring.agree.veto = vetoCode u false arg (fld val 16 8) tn)) ∧
      (take → code = 0 → Does (.proposeReceived t rp h a) s fun w => w.ring.agree.st = 2 ∧ w.ring.agree.id = a.agreeId ∧
        w.ring.agree.accept = a.accept.toNat ||| 2 ^ (unitNo u - 1) ∧ onward w h.type) ∧
      (take → code ≠ 0 → Does (.proposeReceived t rp h a) s fun w => onward w h.type ∧
        (agreeHeld u = false → w.ring.agree.st = 5 ∧ w.ring.agree.veto = code) ∧ (agreeHeld u = true → w.ring.agree = g)) ∧
      (own → g.proposer = true → g.st = 1 → g.id = a.agreeId →
        (full → Does (.proposeReceived t rp h a) s fun w => w.ring.agree.st = 3 ∧ w.ring.agree.sentAt = u.now ∧ sent w false 0x31) ∧
        (¬full → Does (.proposeReceived t rp h a) s fun w => w.ring.agree.st = 5)) ∧
      (take → Does (.commitReceived t rp h a) s fun w => onward w h.type ∧
        (g.st = 2 → g.id = a.agreeId → w.ring.agree = { g with st := 3 }) ∧ (g.st ≠ 2 ∨ g.id ≠ a.agreeId → w.ring.agree = g)) ∧
      (own → g.proposer = true → g.st = 3 → g.id = a.agreeId → Does (.commitReceived t rp h a) s fun w =>
        (g.wakeBefore = true → w.ring.agree.st = 5 ∧ w.ring.agree.veto = 10) ∧
        (g.wakeBefore = false → w.ring.agree.st = 4 ∧ w.ring.agree.latched = g.held ∧ (g.held = true → w.nw.wakeLatch = true))) ∧
      (take → g.id = id →
        (g.st = 3 → result = 0 → Does (.verdictReceived t rp h id result) s fun w => w.ring.agree.st = 4 ∧ w.ring.agree.latched = g.held) ∧
        (g.st = 2 ∨ g.st = 3 → result ≠ 0 → Does (.verdictReceived t rp h id result) s fun w =>
          w.ring.agree.st = 5 ∧ w.ring.agree.veto = result)) ∧
      (take → g.id ≠ id ∨ (g.st ≠ 2 ∧ g.st ≠ 3) → Does (.verdictReceived t rp h id result) s fun w => w.ring.agree = g) ∧
      (take → (∀ x ∈ u.ring.wakeSeen, x.1 ≠ origin ∨ x.2.1 ≠ wseq) → u.ring.wakeTimes = [] →
        Does (.wakeReceived t rp h origin wseq id) s fun w => (origin, wseq, rp == .b) ∈ w.ring.wakeSeen ∧ onward w h.type ∧
          (g.st = 3 → w.ring.agree.held = true) ∧ (g.st = 4 → w.ring.agree.latched = true ∧ w.nw.wakeLatch = true) ∧
          (g.st ≠ 3 → g.st ≠ 4 → w.ring.toneDue = true)) ∧
      (take → (origin, wseq, rp == .b) ∈ u.ring.wakeSeen → Does (.wakeReceived t rp h origin wseq id) s fun w =>
        w.ring.wakeSeen = u.ring.wakeSeen ∧ w.ring.agree.st = g.st ∧ w.ring.agree.held = g.held) ∧
      (g.proposer = true → g.st = 1 ∨ g.st = 3 → g.sentAt + cMs * ringLeadMs u / 4 ≤ u.now → Does (.agreeReturnTimeout t) s fun w =>
        w.ring.agree.st = 5 ∧ w.ring.agree.veto = 9 ∧ sent w false 0x32) ∧
      (g.proposer = false ∨ g.st ∉ [1, 3] → Does (.agreeReturnTimeout t) s fun w => w.ring.agree = g) ∧
      (g.st = 2 ∨ g.st = 3 → (g.tn : Int) - ringOfs u ≤ (10 * cMs + u.tim.codes : Nat) → Does (.verdictTimeout t) s fun w =>
        w.ring.agree.st = 5 ∧ w.ring.agree.veto = 11) ∧
      (g.st ∉ [2, 3] → Does (.verdictTimeout t) s fun w => w.ring.agree = g) ∧
      (g.st = 4 → g.slept = false → g.tn ≤ u.tim.codes → u.pwr.st = .day → Does (.sleepInstant t) s fun w =>
        w.nw.alarmRdv = some g.alarm ∧ w.pwr.pend ≠ none) ∧
      (g.st ≠ 4 ∨ g.slept = true ∨ u.tim.codes < g.tn → Does (.sleepInstant t) s fun w => w.nw.alarmRdv = u.nw.alarmRdv) ∧
      (g.st = 6 → g.tw + cUs * g.guardUs ≤ u.tim.codes → Does (.rendezvousGuardExpiry t) s fun w =>
        w.ring.agree = { g with st := 7, listenAt := u.now }) ∧
      (g.st ≠ 6 ∨ u.tim.codes < g.tw + cUs * g.guardUs → Does (.rendezvousGuardExpiry t) s fun w => w.ring.agree = g) ∧
      (g.st = 7 → g.listenAt + cS * listenS u ≤ u.now → Does (.listenExpiry t) s fun w =>
        w.ring.agree.st = 9 ∧ (ringOn u = true → w.ring.wakeSeq = (u.ring.wakeSeq + 1) % 65536 ∧ sent w true 0x33 ∧ sent w false 0x33)) ∧
      (g.st ≠ 7 ∨ u.now < g.listenAt + cS * listenS u → Does (.listenExpiry t) s fun w => w.ring.agree = g))

/-- With the port running and HPRES high. A COMMAND frame kept whole, of at most 256 words and the length it states, with a known OP, is stored for
service, and the unit sends its status word and zeros; while an answer waits or an export runs it is discarded with code 4; while a command is held
it is discarded. A FETCH_ANSWER frame sends the status word and then the answer, and one that clocks all of it empties the answer area, ends a sequence whose
last answer it was, or has its next answer placed; one that does not leaves the answer. A FETCH_NOTE frame does the same with the notification,
and the head of the queue moves up. An ABORT frame empties the answer area and ends a sequence. A frame whose frame word breaks R347 is discarded
with code 3, command and answer as they were; bits beyond whole words count in PARTIAL. With the port stopped, HPRES low, or a frame of another row's kind, each frame row
changes nothing. SPI_FRAME_WHILE_STOPPED with HPRES high counts in PARTIAL and shows DISCARDED next. -/
def Obligations.SpiFrames : Prop :=
  ∀ (t : Instant) (f : SpiFrame) (s : State),
    let u := advance t s
    let n := f.words.length
    let kind := spiKind f
    let up := u.spi.running = true ∧ u.encl.hpres = true
    let clean := f.rdyViol = none ∧ f.partialBits % 32 = 0 ∧ f.hpresFell = false
    let sends := fun (w : State) (content : List Word) =>
      w.spi.sent = spiStatus u :: (content ++ List.replicate n 0).take (n - 1)
    let rows : List (Instr × Nat) :=
      [(.spiCommandFrame t f, 1), (.spiFetchAnswerFrame t f, 2), (.spiFetchNoteFrame t f, 3), (.spiAbortFrame t f, 4)]
    (up → clean → kind = 1 →
      (∀ w0 w1 rest, f.words = w0 :: w1 :: rest → n ≤ 256 → fld w0 0 9 = n - 1 → spiOps.contains (fld w1 24 8) = true →
        u.spi.ans = none → u.spi.exp = none → u.spi.rx = none → Does (.spiCommandFrame t f) s fun w =>
          w.spi.rx = some ⟨f.words, n - 1⟩ ∧ w.spi.ans = none ∧ sends w [] ∧ w = { u with spi := w.spi }) ∧
      (u.spi.ans ≠ none ∨ u.spi.exp ≠ none → Does (.spiCommandFrame t f) s fun w =>
        w.spi.rx = u.spi.rx ∧ w.spi.ans = u.spi.ans ∧ w.spi.disc = true ∧ w.spi.viol = word (4 * 2 ^ 28)) ∧
      (u.spi.ans = none → u.spi.exp = none → u.spi.rx ≠ none → Does (.spiCommandFrame t f) s fun w =>
        w.spi.rx = u.spi.rx ∧ w.spi.disc = true ∧ sends w [])) ∧
    (∀ ws, up → clean → kind = 2 → u.spi.ans = some ws →
      (ws.length + 1 ≤ n → Does (.spiFetchAnswerFrame t f) s fun w => sends w ws ∧
        (u.spi.exp = none → w.spi.ans = none ∧ w = { u with spi := w.spi }) ∧
        (∀ x, u.spi.exp = some x → x.next = x.stop → w.spi.ans = none ∧ w.spi.exp = none) ∧
        (∀ x, u.spi.exp = some x → x.next ≠ x.stop → w.spi.ans ≠ none ∧
          w.spi.exp = some { x with next := x.next + min 31 (x.stop - x.next) })) ∧
      (n < ws.length + 1 → Does (.spiFetchAnswerFrame t f) s fun w => sends w ws ∧ w.spi.ans = some ws ∧ w.spi.exp = u.spi.exp)) ∧
    (∀ ws, up → clean → kind = 3 → u.spi.note = some ws →
      (ws.length + 1 ≤ n → Does (.spiFetchNoteFrame t f) s fun w => sends w ws ∧
        w.spi.note = u.spi.queue.head?.map (·.1) ∧ w.spi.queue = u.spi.queue.tail) ∧
      (n < ws.length + 1 → Does (.spiFetchNoteFrame t f) s fun w => sends w ws ∧ w.spi.note = some ws ∧ w.spi.queue = u.spi.queue)) ∧
    (up → clean → kind = 4 → Does (.spiAbortFrame t f) s fun w => w.spi.ans = none ∧ w.spi.exp = none ∧ w.spi.rx = u.spi.rx ∧
      ∀ e ∈ w.evid.exports, e.port ≠ .spi) ∧
    (up → clean → kind = 0 → Does (.spiBadFrame t f) s fun w => w.spi.rx = u.spi.rx ∧ w.spi.ans = u.spi.ans ∧ w.spi.note = u.spi.note ∧
      w.spi.disc = true ∧ w.spi.viol = word (3 * 2 ^ 28 + fld (f.words.getD 0 0) 16 16)) ∧
    (up → kind = 5 → Does (.spiBadFrame t f) s fun w =>
      w.spi.rx = u.spi.rx ∧ w.spi.ans = u.spi.ans ∧ w.spi.note = u.spi.note ∧ w.spi.exp = u.spi.exp) ∧
    (∀ r ∈ rows, (up → kind = r.2 → f.partialBits % 32 ≠ 0 → Does r.1 s fun w => ⟨rgSpi, 24, 8, .add, 1⟩ ∈ w.evPend) ∧
      (u.spi.running = false ∨ (u.encl.hpres = false ∧ f.hpresFell = false) ∨ kind ≠ r.2 → Does r.1 s fun w => w = u)) ∧
    (u.spi.running = false ∨ (u.encl.hpres = false ∧ f.hpresFell = false) ∨ kind ∉ [0, 5] → Does (.spiBadFrame t f) s fun w => w = u) ∧
    (u.encl.hpres = true → Does (.spiFrameWhileStopped t) s fun w =>
      w = { u with spi := { u.spi with disc := true }, evPend := ⟨rgSpi, 24, 8, .add, 1⟩ :: u.evPend }) ∧
    (u.encl.hpres = false → Does (.spiFrameWhileStopped t) s fun w => w = u)

/-- For each command row of the SPI port: with no command stored, one of another OP, the port stopped or the management core restarting, nothing
happens; with one that R350 or maintenance Day refuses, the answer placed has that code; otherwise the answer placed, OP, code and TAG in its second
word, is: REG_READ the value of the register, or the code of its address; REG_WRITE the answer of the write and the number written; ECHO its body;
VSTORE_WRITE 0 with the bytes stored and no other byte of the store changed, ADDRESS beyond the store; VSTORE_READ the bytes; STREAM_PIECE WR_SEQ,
FILL and disposition, the next piece in order accepted where there is room, and no ring 3; JOB_SUBMIT the slot and the next job number, or REFUSED with code 1
while admission is closed; JOB_CANCEL 0 with the queued slots named ended; JOB_STATUS the slot's three words; EXPORT the records of R257, a sequence beyond 31,
GONE or UNSEALED; RELEASE TO as applied; CERT_READ and LOG_READ what was asked for and how much of it. Each answer frees the receive side.
SPI_EXPORT_TIMEOUT 2 s after an answer of a sequence was placed discards it and ends the sequence; otherwise nothing. -/
def Obligations.SpiCommands : Prop :=
  ∀ (t : Instant) (c : SpiCmd) (s : State),
    let u := advance t s
    let rows : List (Nat × Instr) :=
      [(0x01, .spiRegRead t), (0x02, .spiRegWrite t), (0x03, .spiEcho t), (0x10, .spiVstoreWrite t), (0x11, .spiVstoreRead t),
       (0x18, .spiStreamPiece t), (0x20, .spiJobSubmit t), (0x21, .spiJobCancel t), (0x22, .spiJobStatus t), (0x30, .spiExport t),
       (0x31, .spiRelease t), (0x38, .spiCertRead t), (0x40, .spiLogRead t)]
    let b := c.body
    let serves := fun (op : Nat) => u.spi.rx = some c ∧ spiServes u = true ∧ c.op = op ∧ 0 < c.received ∧ spiJudge u c = 0
    let ans := fun (w : State) (r : Nat) (body : List Word) => w.spi.rx = none ∧ w.spi.lastOp = c.op ∧ w.spi.lastResult = r ∧
      w.spi.ans = some (word (0x5A100000 + (body.length + 1)) :: word (2 ^ 24 * c.op + 2 ^ 16 * r + c.tag) :: body)
    let alone := fun (w : State) => w = { u with spi := w.spi }
    let a := wAt b 0
    let ring := vget u.seqr.srings a {}
    let first := dAt b 0
    (∀ r ∈ rows, (u.spi.rx = none ∨ spiServes u = false ∨ (u.spi.rx = some c ∧ c.op ≠ r.1) → Does r.2 s fun w => w = u) ∧
      (u.spi.rx = some c → spiServes u = true → c.op = r.1 → 0 < c.received → spiJudge u c ≠ 0 →
        Does r.2 s fun w => w.spi.rx = none ∧ w.spi.ans ≠ none ∧ w.spi.lastOp = c.op ∧ w.spi.lastResult = spiJudge u c)) ∧
    (serves 0x01 →
      (a % 4 ≠ 0 → Does (.spiRegRead t) s fun w => ans w 4 [] ∧ alone w) ∧
      (a % 4 = 0 → inSpace a = false → Does (.spiRegRead t) s fun w => ans w 5 [] ∧ alone w) ∧
      (a % 4 = 0 → inSpace a = true → wAt b 1 = 1 → Does (.spiRegRead t) s fun w => ans w 0 [(latched u a).getD (regVal u a)])) ∧
    (∀ v, serves 0x02 → b.drop 1 = [v] →
      (a % 4 ≠ 0 → Does (.spiRegWrite t) s fun w => ans w 4 [0] ∧ alone w) ∧
      (a % 4 = 0 → inSpace a = false → Does (.spiRegWrite t) s fun w => ans w 5 [0] ∧ alone w) ∧
      (a % 4 = 0 → inSpace a = true → Does (.spiRegWrite t) s fun w =>
        ans w (busWrite a v u).2.code [if (busWrite a v u).2 = .done then 1 else 0] ∧ w.r = (busWrite a v u).1.r)) ∧
    (serves 0x03 → Does (.spiEcho t) s fun w => ans w 0 b ∧ alone w) ∧
    (serves 0x10 →
      (vstoreSize < first + (wordsBytes (b.drop 2)).length → Does (.spiVstoreWrite t) s fun w => ans w 5 [] ∧ alone w) ∧
      (first + (wordsBytes (b.drop 2)).length ≤ vstoreSize → vstoreBusy u first (first + (wordsBytes (b.drop 2)).length) = false →
        Does (.spiVstoreWrite t) s fun w => ans w 0 [] ∧
          (Canon u → (∀ i < (wordsBytes (b.drop 2)).length, rdByte w.seg.vstore (first + i) = (wordsBytes (b.drop 2)).getD i 0) ∧
            ∀ x, x < first ∨ first + (wordsBytes (b.drop 2)).length ≤ x → rdByte w.seg.vstore x = rdByte u.seg.vstore x))) ∧
    (serves 0x11 → first + 24 * wAt b 2 ≤ vstoreSize →
      Does (.spiVstoreRead t) s fun w => ans w 0 (strWords (rdBytes u.seg.vstore first (24 * wAt b 2))) ∧ alone w) ∧
    (serves 0x18 →
      (sringOn u a = false → Does (.spiStreamPiece t) s fun w => ans w 0 [word ring.wr, word (sringFill ring), 3]) ∧
      (sringOn u a = true → wAt b 1 = ring.wr → ring.wr < 2 ^ 32 → ring.pieces = [] → sringFill ring < 128 * sringSize u a →
        Does (.spiStreamPiece t) s fun w => ∃ q, ans w 0 [word ((ring.wr + 1) % 2 ^ 32), q, 0] ∧
          (vget w.seqr.srings a {}).wr = (ring.wr + 1) % 2 ^ 32 ∧ (vget w.seqr.srings a {}).rd = ring.rd)) ∧
    (serves 0x20 →
      (seqClosed u = true → Does (.spiJobSubmit t) s fun w => ans w 8 [1, b.getD 8 0] ∧ w.seqr.slots = u.seqr.slots ∧ w.nw.jobNo = u.nw.jobNo) ∧
      ((submit 1 ⟨true, wordsBytes b⟩ none u).2.code = 0 → Does (.spiJobSubmit t) s fun w =>
        ∃ i, ans w 0 [word i, word (nextJobNo u.nw.jobNo), b.getD 8 0] ∧ w.nw.jobNo = nextJobNo u.nw.jobNo ∧
          (slotAt w i).jobNo = nextJobNo u.nw.jobNo ∧ (slotAt w i).source = 1)) ∧
    (serves 0x21 → Does (.spiJobCancel t) s fun w => ans w 0 [] ∧
      ∀ j < 16, (a % 65536).testBit j = true → (slotAt u j).st = .queued → (slotAt w j).st = .ending ∧ (slotAt w j).endCode = 2) ∧
    (serves 0x22 → Does (.spiJobStatus t) s fun w => ans w 0 [jobStat u a, jobNoOf u a, word (slotAt u a).desc.tag] ∧ alone w) ∧
    (serves 0x30 →
      (first < u.evid.oldest → Does (.spiExport t) s fun w => w.spi.lastResult = 9 ∧ w.spi.exp = u.spi.exp ∧ w.evid = u.evid) ∧
      (u.evid.oldest ≤ first → u.evid.sealedEnd < first → Does (.spiExport t) s fun w => w.spi.lastResult = 10 ∧ w.evid = u.evid) ∧
      (∀ n, exportJudge u first (wAt b 2) = .records n → Does (.spiExport t) s fun w =>
        ans w 0 (expBody u first (first + n) u.evid.sealedEnd) ∧ w.evid.held = u.evid.held ∧
        (n ≤ 31 → w.spi.exp = u.spi.exp) ∧ (31 < n → w.spi.exp = some ⟨first + 31, first + n, u.evid.sealedEnd, c.tag⟩))) ∧
    (serves 0x31 → Does (.spiRelease t) s fun w => ans w 0 (dWords (min first u.evid.sealedEnd)) ∧
      (exportCovered u (min first u.evid.sealedEnd) = false → w.evid.oldest = max u.evid.oldest (min first u.evid.sealedEnd))) ∧
    (serves 0x38 → Does (.spiCertRead t) s fun w => alone w ∧
      ans w 0 ([word a, word (certRead u a (wAt b 1)).length] ++ strWords (certRead u a (wAt b 1)))) ∧
    (serves 0x40 → Does (.spiLogRead t) s fun w => alone w ∧
      ans w 0 ([word (logRead u a (wAt b 1)).1, word (logRead u a (wAt b 1)).2.length] ++
        strWords ((logRead u a (wAt b 1)).2.flatMap entryBytes))) ∧
    (u.spi.exp ≠ none → u.spi.ans ≠ none → 2 * cS + u.spi.ansAt ≤ u.now → Does (.spiExportTimeout t) s fun w =>
      w.spi.ans = none ∧ w.spi.exp = none ∧ ∀ e ∈ w.evid.exports, e.port ≠ .spi) ∧
    (u.spi.exp = none ∨ u.spi.ans = none ∨ u.now < 2 * cS + u.spi.ansAt → Does (.spiExportTimeout t) s fun w => w = u)

/-- USB_BUS_RESET of a connected J8 counts, ends every transfer, returns address and configuration to 0 and enters the speed found, full speed while
FS_ONLY is 1; of a disconnected one it does nothing. Suspension begins and ends. Each standard request, as USB 2.0 defines it (PRESUMED, log 60), is
carried out only while the device has been reset, is neither suspended nor in a test mode, and the management core does not restart; it first
ends the transfer it cuts, which is counted and logged. GET_STATUS answers self-powered, no remote wakeup and the halts; CLEAR_FEATURE and SET_FEATURE act on
the halts of the two bulk endpoints, SET_FEATURE also enters a test mode at high speed; SET_ADDRESS, GET_CONFIGURATION, SET_CONFIGURATION, GET_INTERFACE and
SET_INTERFACE are those of one configuration and one interface; GET_DESCRIPTOR answers the descriptors of Table 15-7, or a STALL, which is
counted. No standard request changes more of the unit than the USB port, event counts and the trouble log. -/
def Obligations.UsbBusAndStandard : Prop :=
  (∀ (t : Instant) (high : Bool) (cut : Option UsbCut) (x : UsbSetup) (s : State),
    let u := advance t s
    let c := usbCut 0 x.cut u
    let rows : List Instr :=
      [.usbGetStatus t x, .usbClearFeature t x, .usbSetFeature t x, .usbSetAddress t x, .usbGetDescriptor t x, .usbGetConfiguration t x,
       .usbSetConfiguration t x, .usbGetInterface t x, .usbSetInterface t x]
    let shape := fun (ty va ix le : Nat) => x.bmRequestType = ty ∧ x.wValue = va ∧ x.wIndex = ix ∧ x.wLength = le
    let gives := fun (i : Instr) (d : List Byte) => Does i s fun w =>
      w = { c with usb := { c.usb with dataIn := d.take x.wLength, stall := false } }
    let sets := fun (i : Instr) (p : Usb) => Does i s fun w => w = { c with usb := { p with dataIn := [], stall := false } }
    let stalls := fun (i : Instr) => Does i s fun w =>
      w = { c with usb := { c.usb with dataIn := [], stall := true }, evPend := ⟨rgUsb, 8, 8, .add, 1⟩ :: c.evPend }
    (u.usb.dev ≠ 0 → Does (.usbBusReset t high cut) s fun w => w.usb.dev = 2 ∧ w.usb.addr = 0 ∧
      w.usb.high = (high && !bit u.r.usbCfg 1) ∧ w.usb.suspended = false ∧ w.usb.test = 0 ∧ w.usb.bulk = none ∧ w.usb.upOn = false ∧
      (u.usb.upOn = true → w.boot.stage = []) ∧ (u.usb.upOn = false → w.boot = u.boot) ∧ (∀ e ∈ w.evid.exports, e.port ≠ .usb) ∧
      ⟨rgUsb, 24, 8, .add, 1⟩ ∈ w.evPend ∧ (cut ≠ none → ⟨rgUsb, 16, 8, .add, 1⟩ ∈ w.evPend)) ∧
    (u.usb.dev = 0 → Does (.usbBusReset t high cut) s fun w => w = u) ∧
    (u.usb.dev ≠ 0 → Does (.usbSuspend t) s fun w => w = { u with usb := { u.usb with suspended := true } }) ∧
    (u.usb.dev = 0 → Does (.usbSuspend t) s fun w => w = u) ∧
    Does (.usbResume t) s (fun w => w = { u with usb := { u.usb with suspended := false } }) ∧
    (x.cut = none → c = u) ∧
    (x.cut ≠ none → ⟨rgUsb, 16, 8, .add, 1⟩ ∈ c.evPend ∧
      c = { u with evPend := c.evPend, nw := { u.nw with log := c.nw.log, logNext := (u.nw.logNext + 1) % 2 ^ 32 } }) ∧
    (∀ i ∈ rows, (usbControl u = false → Does i s fun w => w = u) ∧
      (usbControl u = true → Does i s fun w => w = { c with usb := w.usb, evPend := w.evPend })) ∧
    (usbControl u = true →
      (shape 0x80 0 0 2 → 3 ≤ u.usb.dev → gives (.usbGetStatus t x) [1, 0]) ∧
      (shape 0x81 0 0 2 → u.usb.dev = 4 → gives (.usbGetStatus t x) [0, 0]) ∧
      (shape 0x82 0 0x81 2 → u.usb.dev = 4 → gives (.usbGetStatus t x) [if u.usb.haltIn then 1 else 0, 0]) ∧
      (shape 0x82 0 0x02 2 → u.usb.dev = 4 → gives (.usbGetStatus t x) [if u.usb.haltOut then 1 else 0, 0]) ∧
      (shape 0x02 0 0x81 0 → u.usb.dev = 4 → sets (.usbClearFeature t x) { u.usb with haltIn := false } ∧
        sets (.usbSetFeature t x) { u.usb with haltIn := true }) ∧
      (shape 0x02 0 0x02 0 → u.usb.dev = 4 → sets (.usbClearFeature t x) { u.usb with haltOut := false } ∧
        sets (.usbSetFeature t x) { u.usb with haltOut := true }) ∧
      (∀ k, 1 ≤ k → k ≤ 5 → shape 0 2 (256 * k) 0 →
        (u.usb.high = true → sets (.usbSetFeature t x) { u.usb with test := k }) ∧
        (u.usb.high = false → stalls (.usbSetFeature t x))) ∧
      (∀ a ≤ 127, shape 0 a 0 0 → u.usb.dev ≠ 4 →
        sets (.usbSetAddress t x) { u.usb with addr := a, dev := if a = 0 then 2 else 3 }) ∧
      (shape 0x80 0 0 1 → 3 ≤ u.usb.dev → gives (.usbGetConfiguration t x) [if u.usb.dev = 4 then 1 else 0]) ∧
      (∀ v ≤ 1, shape 0 v 0 0 → 3 ≤ u.usb.dev →
        sets (.usbSetConfiguration t x) { u.usb with dev := 3 + v, haltIn := false, haltOut := false }) ∧
      (shape 0x81 0 0 1 → u.usb.dev = 4 → gives (.usbGetInterface t x) [0]) ∧
      (shape 0x01 0 0 0 → u.usb.dev = 4 → sets (.usbSetInterface t x) { u.usb with haltIn := false, haltOut := false }) ∧
      (x.bmRequestType = 0x80 →
        (∀ d, descOf u (x.wValue / 256) (x.wValue % 256) = some d → gives (.usbGetDescriptor t x) d) ∧
        (descOf u (x.wValue / 256) (x.wValue % 256) = none → stalls (.usbGetDescriptor t x))) ∧
      (x.bmRequestType ≠ 0x80 → stalls (.usbGetDescriptor t x)))) ∧
  (∀ s : State, descOf s 1 0 = some [18, 1, 0x00, 0x02, 0, 0, 0, 64, 0x5A, 0x3E, 0x40, 0x00, 0x00, 0x01, 1, 2, 3, 1] ∧
    descOf s 6 0 = some [10, 6, 0x00, 0x02, 0, 0, 0, 64, 1, 0] ∧
    (∀ x ∈ ([(2, s.usb.high), (7, !s.usb.high)] : List (Nat × Bool)), descOf s x.1 0 = some
      ([9, BitVec.ofNat 8 x.1, 32, 0, 1, 1, 0, 0xC0, 2, 9, 4, 0, 0, 2, 0xFF, 0x54, 1, 0] ++
        [7, 5, 0x81, 2, if x.2 then 0 else 64, if x.2 then 2 else 0, 0] ++ [7, 5, 0x02, 2, if x.2 then 0 else 64, if x.2 then 2 else 0, 0])) ∧
    ∃ d, descOf s 3 3 = some d ∧ d.length = 34)

/-- While control transfers are carried out, and after the transfer a setup cut is counted: a vendor request whose setup breaks Table 15-8 is
answered with a STALL and leaves LENGTH where only wLength breaks it, UNKNOWN_OP otherwise; otherwise it leaves OK and its data, or the result code of its
refusal: GET_INFO 16 registers; REG_READ and REG_WRITE registers, with DONE in CODE after ACCESS; CERT_READ bundle bytes; LAST_RESULT the result
of the request before; EXPORT_START, LOG_START and DEBUG_START open a stream with its header, or leave BUSY while one runs; BULK_ABORT
cuts it to the current packet; RELEASE states what it applied; UPLOAD_BEGIN empties the staging buffer and opens an upload; UPLOAD_COMMIT begins
a commit, or leaves REFUSED and its code; STAGE_STATUS G_BOOT_STAGE and the bytes received. A bulk IN packet is taken from the stream, and a short one
ends it; a bulk OUT packet is appended to the image; data beyond it or without an upload halts the endpoint. USB_BULK_TIMEOUT ends a stream
or an upload whose next packet is 2 s late. Otherwise packets and the timeout do nothing. -/
def Obligations.UsbVendor : Prop :=
  ∀ (t : Instant) (x : UsbSetup) (d : List Byte) (s : State),
    let u := advance t s
    let c := usbCut 0 x.cut u
    let vi := x.bmRequestType = 0xC0
    let vo := x.bmRequestType = 0x40
    let z := x.wValue = 0 ∧ x.wIndex = 0
    let n := x.wLength
    let a := usbAddr x
    let res := fun (w : State) (req code cd value : Nat) =>
      w.usb.lastReq = req ∧ w.usb.last = code ∧ w.usb.lastCode = cd ∧ w.usb.lastValue = value
    let data := fun (w : State) (b : List Byte) => w.usb.dataIn = b.take n ∧ w.usb.stall = false
    let alone := fun (w : State) => w = { c with usb := w.usb }
    let rows : List (Instr × Nat × Bool × Bool) :=
      [(.usbGetInfo t x, 0x01, decide (vi ∧ z), decide (1 ≤ n ∧ n ≤ 65535)),
       (.usbRegRead t x, 0x02, decide vi, decide (4 ≤ n ∧ n ≤ 256 ∧ n % 4 = 0)),
       (.usbRegWrite t x d, 0x03, decide vo, decide (4 ≤ n ∧ n ≤ 256 ∧ n % 4 = 0)),
       (.usbCertRead t x, 0x04, decide (vi ∧ x.wIndex = 0), decide (1 ≤ n ∧ n ≤ 4096)),
       (.usbLastResult t x, 0x05, decide (vi ∧ z), decide (1 ≤ n ∧ n ≤ 65535)),
       (.usbExportStart t x d, 0x10, decide (vo ∧ z), decide (n = 12)), (.usbLogStart t x d, 0x11, decide (vo ∧ z), decide (n = 8)),
       (.usbDebugStart t x d, 0x12, decide (vo ∧ z), decide (n = 8)), (.usbBulkAbort t x d, 0x13, decide (vo ∧ z), decide (n = 0)),
       (.usbRelease t x d, 0x14, decide (vo ∧ z), decide (n = 8)), (.usbUploadBegin t x d, 0x20, decide (vo ∧ z), decide (n = 4)),
       (.usbUploadCommit t x d, 0x21, decide (vo ∧ z), decide (n = 0)),
       (.usbStageStatus t x, 0x22, decide (vi ∧ z), decide (1 ≤ n ∧ n ≤ 65535))]
    let ready := fun (req : Nat) => usbControl u = true ∧ ∃ r ∈ rows, r.2.1 = req ∧ r.2.2.1 = true ∧ r.2.2.2 = true
    let full := d.length = n
    let first := leAt d 0 8
    let off := leAt d 0 4
    let cnt := leAt d 4 4
    (∀ r ∈ rows, (usbControl u = false → Does r.1 s fun w => w = u) ∧
      (usbControl u = true → (r.2.2.1 && r.2.2.2) = false → Does r.1 s fun w => res w r.2.1 (if r.2.2.1 then 2 else 1) 0 0 ∧
        w.usb.stall = true ∧ w.usb.bulk = u.usb.bulk ∧ w.usb.upOn = u.usb.upOn ∧ w.boot = u.boot ∧ w.evid.oldest = u.evid.oldest ∧
        w.r = u.r ∧ ⟨rgUsb, 8, 8, .add, 1⟩ ∈ w.evPend)) ∧
    (ready 0x01 → Does (.usbGetInfo t x) s fun w => res w 0x01 0 0 0 ∧ data w (leVals ([0x000, 0x004, 0x008, 0x00C, 0x010, 0x100, 0x050, 0x068,
      0x214, 0x218, 0x400, 0x408, 0x40C, 0x418, 0x41C, 0x610].map (regVal c)))) ∧
    (ready 0x02 →
      (∀ e, rangeJudge a (n / 4) = e → e ≠ .done → Does (.usbRegRead t x) s fun w => res w 0x02 e.code 0 0 ∧ w.usb.stall = true) ∧
      (rangeJudge a (n / 4) = .done → Does (.usbRegRead t x) s fun w => res w 0x02 0 0 0 ∧ data w (leVals (readWords (n / 4) a c).2) ∧
        (n = 4 → data w (leVals [(latched c a).getD (regVal c a)])))) ∧
    (ready 0x03 →
      (¬full → Does (.usbRegWrite t x d) s fun w => res w 0x03 2 0 0 ∧ alone w) ∧
      (∀ e, full → rangeJudge a (n / 4) = e → e ≠ .done → Does (.usbRegWrite t x d) s fun w => res w 0x03 e.code 0 0 ∧ alone w) ∧
      (full → rangeJudge a (n / 4) = .done → n = 4 → Does (.usbRegWrite t x d) s fun w =>
        res w 0x03 (busWrite a (word (leAt d 0 4)) c).2.code 0 0 ∧ w.r = (busWrite a (word (leAt d 0 4)) c).1.r)) ∧
    (ready 0x04 → Does (.usbCertRead t x) s fun w => res w 0x04 0 0 0 ∧ data w (certRead u x.wValue n) ∧ alone w) ∧
    (ready 0x05 → Does (.usbLastResult t x) s fun w => res w 0x05 0 0 0 ∧ alone w ∧ data w ([BitVec.ofNat 8 u.usb.lastReq,
      BitVec.ofNat 8 u.usb.last, 0, 0] ++ leBytes 4 u.usb.lastCode ++ leBytes 8 u.usb.lastValue)) ∧
    (∀ r ∈ [(Instr.usbExportStart t x d, 0x10), (.usbLogStart t x d, 0x11), (.usbDebugStart t x d, 0x12), (.usbBulkAbort t x d, 0x13),
        (.usbRelease t x d, 0x14), (.usbUploadBegin t x d, 0x20), (.usbUploadCommit t x d, 0x21)],
      ready r.2 → ¬full → Does r.1 s fun w => res w r.2 2 0 0 ∧ alone w) ∧
    (ready 0x10 → full → (u.usb.bulk ≠ none → Does (.usbExportStart t x d) s fun w => res w 0x10 11 0 0 ∧ alone w) ∧
      (u.usb.bulk = none → first < u.evid.oldest → Does (.usbExportStart t x d) s fun w => res w 0x10 9 0 0 ∧ w.evid = u.evid ∧
        w.usb.bulk = some ⟨1, bulkHeader 1 first u.evid.sealedEnd 0 9, u.now⟩) ∧
      (u.usb.bulk = none → u.evid.oldest ≤ first → u.evid.sealedEnd < first → Does (.usbExportStart t x d) s fun w =>
        res w 0x10 10 0 0 ∧ w.evid = u.evid ∧ w.usb.bulk = some ⟨1, bulkHeader 1 first u.evid.sealedEnd 0 10, u.now⟩) ∧
      (∀ k, u.usb.bulk = none → exportJudge u first (leAt d 8 4) = .records k → Does (.usbExportStart t x d) s fun w =>
        res w 0x10 0 0 0 ∧ w.evid.held = u.evid.held ∧ w.usb.bulk = some ⟨1, bulkHeader 1 first u.evid.sealedEnd k 0 ++
          ((u.evid.held.drop (first - u.evid.oldest)).take k).flatMap recBytes, u.now⟩)) ∧
    (ready 0x11 → full → (cnt = 0 ∨ 2048 < cnt → Does (.usbLogStart t x d) s fun w => res w 0x11 2 0 0 ∧ alone w) ∧
      (0 < cnt → cnt ≤ 2048 → u.usb.bulk ≠ none → Does (.usbLogStart t x d) s fun w => res w 0x11 11 0 0 ∧ alone w) ∧
      (0 < cnt → cnt ≤ 2048 → u.usb.bulk = none → Does (.usbLogStart t x d) s fun w => res w 0x11 0 0 0 ∧ alone w ∧
        w.usb.bulk = some ⟨2, bulkHeader 2 (logRead c off cnt).1 0 (logRead c off cnt).2.length 0 ++
          (logRead c off cnt).2.flatMap entryBytes, u.now⟩)) ∧
    (ready 0x12 → full → (cnt < 4 ∨ 65536 < cnt ∨ cnt % 4 ≠ 0 → Does (.usbDebugStart t x d) s fun w => res w 0x12 2 0 0 ∧ alone w) ∧
      (4 ≤ cnt → cnt ≤ 65536 → cnt % 4 = 0 →
        (u.usb.bulk ≠ none → Does (.usbDebugStart t x d) s fun w => res w 0x12 11 0 0 ∧ alone w) ∧
        (u.usb.bulk = none → bit u.r.usbCfg 0 = false → Does (.usbDebugStart t x d) s fun w => res w 0x12 7 0 0 ∧ alone w) ∧
        (u.usb.bulk = none → bit u.r.usbCfg 0 = true → 2 ^ 32 < off + cnt → Does (.usbDebugStart t x d) s fun w =>
          res w 0x12 5 0 0 ∧ alone w) ∧
        (u.usb.bulk = none → bit u.r.usbCfg 0 = true → off + cnt ≤ 2 ^ 32 → Does (.usbDebugStart t x d) s fun w => res w 0x12 0 0 0 ∧
          ∃ b, b.length = cnt ∧ w.usb.bulk = some ⟨3, bulkHeader 3 off 0 cnt 0 ++ b, u.now⟩))) ∧
    (ready 0x13 → full → Does (.usbBulkAbort t x d) s fun w => res w 0x13 0 0 0 ∧ alone w ∧
      w.usb.bulk = u.usb.bulk.map fun y => { y with data := y.data.take (if u.usb.high then 512 else 64) }) ∧
    (ready 0x14 → full → Does (.usbRelease t x d) s fun w => res w 0x14 0 0 (min first u.evid.sealedEnd) ∧
      (exportCovered u (min first u.evid.sealedEnd) = false → w.evid.oldest = max u.evid.oldest (min first u.evid.sealedEnd))) ∧
    (ready 0x20 → full → (off < 64 ∨ 1048576 < off ∨ off % 4 ≠ 0 → Does (.usbUploadBegin t x d) s fun w => res w 0x20 2 0 0 ∧ alone w) ∧
      (64 ≤ off → off ≤ 1048576 → off % 4 = 0 →
        (u.pwr.st = .dusk → Does (.usbUploadBegin t x d) s fun w => res w 0x20 7 0 0 ∧ alone w) ∧
        (u.pwr.st ≠ .dusk → Does (.usbUploadBegin t x d) s fun w => res w 0x20 0 0 0 ∧ w.usb.upOn = true ∧ w.usb.upLen = off ∧
          w.usb.upGot = 0 ∧ w.usb.upAt = u.now ∧ w.usb.haltOut = false ∧ w.boot.stage = [] ∧ w.boot.stageLen = off ∧
          w.tasp.upSess = none))) ∧
    (ready 0x21 → full → (u.pwr.st = .dusk → Does (.usbUploadCommit t x d) s fun w => res w 0x21 7 0 0 ∧ alone w) ∧
      (u.pwr.st ≠ .dusk → commitCode c ≠ 0 → Does (.usbUploadCommit t x d) s fun w => res w 0x21 8 (commitCode c) 0 ∧
        w.boot.commit = (mramSettle u).boot.commit ∧ w.mram = u.mram ∧ w.usb.upOn = u.usb.upOn) ∧
      (u.pwr.st ≠ .dusk → commitCode c = 0 → Does (.usbUploadCommit t x d) s fun w => res w 0x21 0 0 0 ∧ w.usb.upOn = false ∧
        w.boot.commit.map (fun j => (j.target, j.data, j.begun)) = some (if u.boot.bank = 2 then .a else .b, u.boot.stage, u.now))) ∧
    (ready 0x22 → Does (.usbStageStatus t x) s fun w => res w 0x22 0 0 0 ∧ alone w ∧
      data w (leVals [regVal c 0x068] ++ leBytes 4 u.usb.upGot)) ∧
    (usbBulkOn u = true → u.usb.haltOut = false →
      (u.usb.upOn = true → d.length ≤ u.usb.upLen - u.usb.upGot → Does (.usbBulkOutPacket t d) s fun w =>
        w.boot.stage = u.boot.stage ++ d ∧ w.usb.upGot = u.usb.upGot + d.length ∧ w.usb.upAt = u.now ∧ w.usb.haltOut = false) ∧
      (u.usb.upOn = true → u.usb.upLen - u.usb.upGot < d.length → Does (.usbBulkOutPacket t d) s fun w =>
        w.boot.stage = u.boot.stage ++ d.take (u.usb.upLen - u.usb.upGot) ∧ w.usb.haltOut = true) ∧
      (u.usb.upOn = false → Does (.usbBulkOutPacket t d) s fun w => w.boot = u.boot ∧ w.usb = { u.usb with haltOut := true } ∧
        ⟨rgUsb, 8, 8, .add, 1⟩ ∈ w.evPend)) ∧
    (usbBulkOn u = false ∨ u.usb.haltOut = true → Does (.usbBulkOutPacket t d) s fun w => w = u) ∧
    (∀ y, u.usb.bulk = some y → usbBulkOn u = true → u.usb.haltIn = false → Does (.usbBulkInPacket t) s fun w =>
      w.usb.pktIn = y.data.take (bulkSize u.usb.high) ∧
      (bulkSize u.usb.high ≤ y.data.length → w.usb.bulk = some { y with data := y.data.drop (bulkSize u.usb.high), lastAt := u.now } ∧
        w = { u with usb := w.usb }) ∧
      (y.data.length < bulkSize u.usb.high → w.usb.bulk = none ∧ ∀ e ∈ w.evid.exports, e.port ≠ .usb)) ∧
    (u.usb.bulk = none ∨ usbBulkOn u = false ∨ u.usb.haltIn = true → Does (.usbBulkInPacket t) s fun w => w = u) ∧
    (let late := ∃ y, u.usb.bulk = some y ∧ 2 * cS + y.lastAt ≤ u.now
     let stale := u.usb.upOn = true ∧ u.usb.upGot < u.usb.upLen ∧ 2 * cS + u.usb.upAt ≤ u.now
     Does (.usbBulkTimeout t) s fun w =>
      (late → w.usb.bulk = none ∧ (∀ e ∈ w.evid.exports, e.port ≠ .usb) ∧ ⟨rgUsb, 0, 8, .add, 1⟩ ∈ w.evPend) ∧
      (stale → w.usb.upOn = false ∧ w.boot.stage = [] ∧ ⟨rgUsb, 0, 8, .add, 1⟩ ∈ w.evPend) ∧
      (¬late → w.usb.bulk = u.usb.bulk) ∧ (¬stale → w.usb.upOn = u.usb.upOn ∧ w.boot = u.boot) ∧ (¬late → ¬stale → w = u))

/-- Each happening at J1 replaces the frames of the one before. The link comes up where the fast domain is powered, with EEE as configured, and ends the
condition of source 39; its loss discards queued frames and, while the services run, is an event of source 39 and its condition. With the services
running on a link: an offer while selecting is requested; an acknowledgement gives address, prefix, router and times; a refusal begins again without an
address (retries as RFC 2131, PRESUMED, log 61). A request for the unit's IPv4 address is answered and its sender cached, the oldest of 16 entries giving way, for 60 s. A prefix with the A flag
forms an address, up to two, which is probed; a duplicate is given up, and a duplicate link-local address turns IPv6 off. A
solicitation for a valid address is answered (log 62). An echo request to the unit of up to 1 472 payload bytes is answered, any other counted
in RX_ERR, as every frame or datagram the unit drops. A query is answered with a report of the PTP group joined. Otherwise nothing happens. -/
def Obligations.EthernetServices : Prop :=
  ∀ (t : Instant) (s : State),
    let u := advance t s
    let v : State := { u with eth := { u.eth with txNorm := [] } }
    let e := u.eth
    let bcast : NetAddr := ⟨false, 0xFFFFFFFF, 67⟩
    let dhcp := fun (ty : Nat) (a : BitVec 32) => if u.eth.link then [(⟨3, bcast, BitVec.ofNat 8 ty :: beBytes 4 a.toNat⟩ : EthFrame)] else []
    let same := fun (i : Instr) => Does i s fun w => w = v
    let counts := fun (i : Instr) => Does i s fun w => w = { v with evPend := ⟨rgEthRx, 24, 8, .add, 1⟩ :: u.evPend }
    (fastOn u = true → Does (.ethLinkUp t) s fun w => w.eth = { v.eth with link := true, eee := bit u.r.ethCfg 7 } ∧
      (scopeAt w 39 0).cond = false) ∧
    (fastOn u = false → same (.ethLinkUp t)) ∧
    (e.link = true → Does (.ethLinkDown t) s fun w =>
      w.eth = { v.eth with link := false, eee := false, txPri := [] } ∧ (e.running = true → (scopeAt w 39 0).cond = true ∧
        (fastOn u = true → (scopeAt w 39 0).lastEv = some u.now))) ∧
    (e.link = false → same (.ethLinkDown t)) ∧
    (∀ a, ethOn u = true → e.dhcpSt = 1 → Does (.dhcpMessage t (.offer a)) s fun w => w = { u with eth := { e with
      dhcpSt := 2, dhcpOffer := a, dhcpAt := 4 * cS + u.now, dhcpRetry := 4, txNorm := dhcp 3 a } }) ∧
    (∀ a mask router lease t1 t2, ethOn u = true → e.dhcpSt ∈ [2, 4, 5] →
      Does (.dhcpMessage t (.ack a mask router lease t1 t2)) s fun w => w = { u with eth := { e with
        dhcpSt := 3, ipv4 := a, mask := mask, router := router, dhcpOffer := a, dhcpAt := u.now + cS * t1, dhcpT2 := u.now + cS * t2,
        dhcpEnd := u.now + cS * lease, txNorm := [] } }) ∧
    (ethOn u = true → e.dhcpSt ∈ [2, 4, 5] → Does (.dhcpMessage t .nak) s fun w =>
      w.eth = { e with dhcpSt := 1, dhcpAt := 4 * cS + u.now, dhcpRetry := 4, ipv4 := 0, mask := 0, router := 0, txNorm := dhcp 1 0 }) ∧
    (∀ m, ethOn u = false ∨ e.dhcpSt = 0 → same (.dhcpMessage t m)) ∧
    (∀ a, e.dhcpSt ≠ 1 → same (.dhcpMessage t (.offer a))) ∧
    (e.running = false ∨ u.now < e.dhcpAt ∨ e.dhcpSt = 0 → same (.dhcpTimer t)) ∧
    (e.running = true → e.dhcpAt ≤ u.now →
      (e.dhcpSt = 1 → Does (.dhcpTimer t) s fun w => w = { u with eth := { e with
        dhcpRetry := min 64 (2 * e.dhcpRetry), dhcpAt := u.now + cS * min 64 (2 * e.dhcpRetry), txNorm := dhcp 1 0 } }) ∧
      (e.dhcpSt = 2 → e.dhcpRetry ≠ 64 → Does (.dhcpTimer t) s fun w => w = { u with eth := { e with
        dhcpRetry := min 64 (2 * e.dhcpRetry), dhcpAt := u.now + cS * min 64 (2 * e.dhcpRetry), txNorm := dhcp 3 e.dhcpOffer } }) ∧
      (e.dhcpSt = 2 → e.dhcpRetry = 64 → Does (.dhcpTimer t) s fun w => w.eth.dhcpSt = 1 ∧ w.eth.txNorm = dhcp 1 0) ∧
      (e.dhcpSt = 3 → Does (.dhcpTimer t) s fun w =>
        w.eth.dhcpSt = 4 ∧ w.eth.ipv4 = e.ipv4 ∧ w.eth.txNorm = dhcp 3 e.ipv4 ∧ 
        w.eth.dhcpAt = min e.dhcpT2 (u.now + max (60 * cS) ((e.dhcpT2 - u.now) / 2))) ∧
      (e.dhcpSt = 4 → e.dhcpT2 ≤ u.now → Does (.dhcpTimer t) s fun w =>
        w.eth.dhcpSt = 5 ∧ w.eth.ipv4 = e.ipv4 ∧ w.eth.txNorm = dhcp 3 e.ipv4) ∧
      (e.dhcpSt = 5 → e.dhcpEnd ≤ u.now → Does (.dhcpTimer t) s fun w =>
        w.eth.dhcpSt = 1 ∧ w.eth.ipv4 = 0 ∧ w.eth.txNorm = dhcp 1 0 ∧ w.nw.logNext = (u.nw.logNext + 1) % 2 ^ 32)) ∧
    (∀ sip tip mac,
      (ethOn u = true → e.ipv4 ≠ 0 → tip = e.ipv4 → Does (.arpRequest t sip tip mac) s fun w =>
        w.eth.txNorm = [⟨2, ⟨false, sip.setWidth 128, 0⟩, beBytes 6 Config.mac.toNat ++ beBytes 4 tip.toNat ++ beBytes 6 mac.toNat⟩] ∧
        (sip ≠ 0 → (sip, mac, u.now) ∈ w.eth.arp ∧ (e.arp.length ≤ 16 → w.eth.arp.length ≤ 16) ∧
          ∀ x ∈ w.eth.arp, x.1 = sip → x = (sip, mac, u.now)) ∧
        (sip = 0 → w.eth.arp = e.arp)) ∧
      (ethOn u = false ∨ e.ipv4 = 0 ∨ tip ≠ e.ipv4 → same (.arpRequest t sip tip mac))) ∧
    (∀ ip, Does (.arpEntryAgeOut t ip) s fun w => w = { u with eth := { e with arp := w.eth.arp } } ∧
      ∀ x, x ∈ w.eth.arp ↔ x ∈ e.arp ∧ ¬(x.1 = ip ∧ 60 * cS + x.2.2 ≤ u.now)) ∧
    (∀ (pre : BitVec 64) (flag : Bool),
      let a := pre ++ eui64 Config.mac
      let forms := v6On u = true ∧ flag = true ∧ linkLocal a = false ∧ (e.ipv6.filter fun x => !linkLocal x.1).length < 2 ∧
        ∀ x ∈ e.ipv6, x.1 ≠ a
      (forms → Does (.ipv6RouterAdvertisement t pre flag) s fun w => w.eth.ipv6 = e.ipv6 ++ [(a, false)] ∧
        w.eth.txNorm = [⟨4, ⟨true, a, 0⟩, 135 :: beBytes 16 a.toNat⟩]) ∧
      (¬forms → same (.ipv6RouterAdvertisement t pre flag))) ∧
    (∀ a,
      (v6On u = true → (a, false) ∈ e.ipv6 → Does (.ipv6DadDone t a false) s fun w => (a, true) ∈ w.eth.ipv6 ∧
        (∀ x ∈ w.eth.ipv6, x.1 = a → x.2 = true) ∧ ∀ x ∈ e.ipv6, x.1 ≠ a → x ∈ w.eth.ipv6) ∧
      (v6On u = true → (a, false) ∈ e.ipv6 → linkLocal a = true → Does (.ipv6DadDone t a true) s fun w =>
        w.eth = { v.eth with v6Off := true, ipv6 := [] } ∧ w.nw.logNext = (u.nw.logNext + 1) % 2 ^ 32) ∧
      (v6On u = true → (a, false) ∈ e.ipv6 → linkLocal a = false → Does (.ipv6DadDone t a true) s fun w =>
        ∀ x, x ∈ w.eth.ipv6 ↔ x ∈ e.ipv6 ∧ x.1 ≠ a) ∧
      (∀ dup, v6On u = false ∨ (a, false) ∉ e.ipv6 → same (.ipv6DadDone t a dup))) ∧
    (∀ target src mac,
      (v6On u = true → (target, true) ∈ e.ipv6 → Does (.ipv6NeighbourMessage t true target src mac) s fun w =>
        w = { v with eth := { v.eth with txNorm := [⟨4, ⟨true, if src = 0 then BitVec.ofNat 128 (0xFF02 * 2 ^ 112 + 1) else src, 0⟩,
          136 :: beBytes 16 target.toNat⟩] } }) ∧
      (v6On u = false ∨ (target, true) ∉ e.ipv6 → same (.ipv6NeighbourMessage t true target src mac)) ∧
      same (.ipv6NeighbourMessage t false target src mac)) ∧
    (∀ v6 src dst p,
      (ethOn u = true → ownAddr u v6 dst = true → p.length ≤ 1472 → routed u ⟨v6, src, 0⟩ = true →
        Does (.icmpEcho t v6 src dst p) s fun w => w = { v with eth := { v.eth with txNorm := [⟨5, ⟨v6, src, 0⟩, p⟩] } }) ∧
      (ethOn u = true → ownAddr u v6 dst = false ∨ 1472 < p.length ∨ routed u ⟨v6, src, 0⟩ = false → counts (.icmpEcho t v6 src dst p)) ∧
      (ethOn u = false → same (.icmpEcho t v6 src dst p))) ∧
    (∀ f len tagged, f ∈ [DroppedFrame.notServed, .badChecksum, .noRoute] ∨
        (f = .tooLong len tagged ∧ (if tagged then 1522 else 1518) < len) →
      (ethOn u = true → counts (.ethFrameDropped t f)) ∧ (ethOn u = false → same (.ethFrameDropped t f))) ∧
    (∀ len tagged, len ≤ (if tagged then 1522 else 1518) → same (.ethFrameDropped t (.tooLong len tagged))) ∧
    (∀ v6 group,
      (∀ g, ptpGroup u v6 = some g → ethOn u = true → group = 0 ∨ group = g → Does (.multicastListenerQuery t v6 group) s fun w =>
        w.eth.txNorm = [⟨6, ⟨v6, if v6 then BitVec.ofNat 128 (0xFF02 * 2 ^ 112 + 0x16) else g, 0⟩, beBytes 16 g.toNat⟩]) ∧
      (ethOn u = false ∨ ptpGroup u v6 = none ∨ (∃ g, ptpGroup u v6 = some g ∧ group ≠ 0 ∧ group ≠ g) →
        same (.multicastListenerQuery t v6 group)))

/-- A datagram that breaks Table 16-4 is counted, held in G_ETH_VIOL and answered as its code says, and no session changes: short, foreign or cut
ones only counted; with TASP off RX_ERR; a wrong OPKEY_ID or tag an event of source 38; reserved fields FORMAT. For every request row, with TASP on: an unknown
session answers NO_SESSION; a SEQ below the window is dropped; a full queue drops; a body that breaks its message answers LENGTH, a state that does not
offer it STATE; while the management core restarts the request waits. A request seen before is answered from the cache, flags 5. A served request marks its SEQ, its session's source and
idle time. OPEN with a free session answers a new number, the same number for the same source and nonce, and BUSY while four sessions are younger than 10 s;
CLOSE answers and frees the session. NOTE_SUB answers the next NSEQ; NOTE_RESEND sends held notes again. An idle session closes at SESS_IDLE_S; an upload without a
chunk for 10 s ends; the head of the notification queue is handed to the priority queue; a gap's next note goes out, or its series ends after RETX_MAX.
Otherwise the timers do nothing. -/
def Obligations.TaspSessions : Prop :=
  ∀ (t : Instant) (q : TaspReq) (src : NetAddr) (d : List Byte) (s : State),
    let u := advance t s
    let v : State := { u with eth := { u.eth with txNorm := [] } }
    let rows : List (Nat × Instr) :=
      [(0x01, .taspRegRead t q), (0x02, .taspRegWrite t q), (0x03, .taspEcho t q), (0x10, .taspVstoreWrite t q), (0x11, .taspVstoreRead t q),
       (0x18, .taspStreamPiece t q), (0x20, .taspJobSubmit t q), (0x21, .taspJobCancel t q), (0x22, .taspJobStatus t q),
       (0x24, .taspRingTrig t q), (0x30, .taspExport t q), (0x31, .taspRelease t q), (0x38, .taspCertRead t q), (0x40, .taspLogRead t q),
       (0x60, .taspOpen t q), (0x61, .taspClose t q), (0x62, .taspNoteSub t q), (0x63, .taspNoteResend t q), (0x70, .taspUploadBegin t q),
       (0x71, .taspUploadData t q), (0x72, .taspUploadCommit t q), (0x73, .taspStageStatus t q)]
    let on' := ethOn u = true ∧ u.tasp.on = true
    let sess := fun (w : State) (i : Nat) => vget w.tasp.sess i none
    let seen := fun (x : Sess) => seqAt x q.seq = .window ∧ x.seen.contains q.seq = true
    let room := u.tasp.reqs.length < 64 ∧ u.fw.restarting = none
    let way := routed u q.src = true
    let framed := fun (flags op result session : Nat) (b : List Byte) =>
      (⟨0, q.src, taspDatagram u.tasp flags op result session q.seq b⟩ : EthFrame)
    let viol := fun (w : State) (code value : Nat) => w.tasp.viol = word (2 ^ 28 * code + value % 65536)
    let tail := beBytes 8 u.boot.serial.toNat ++ [0x05, 0x84, 0, 0]
    let reject := Instr.taspDatagramRejected t src d
    let proper := 40 ≤ d.length ∧ tAt d 0 3 = 0x544101 ∧ 40 + tAt d 6 2 = d.length ∧ tAt d 6 2 ≤ 1412
    let tagOk := d.drop (d.length - 16) = (hmacSha256 u.tasp.key (d.take (d.length - 16))).take 16
    (ethOn u = false → Does reject s fun w => w = v) ∧
    (ethOn u = true → ¬proper → Does reject s fun w => w = { v with evPend := ⟨rgEthRx, 16, 8, .add, 1⟩ :: u.evPend }) ∧
    (ethOn u = true → proper → u.tasp.on = false → Does reject s fun w =>
      w = { v with evPend := ⟨rgEthRx, 24, 8, .add, 1⟩ :: u.evPend }) ∧
    (on' → proper → tAt d 8 4 ≠ u.tasp.keyId ∨ ¬tagOk → Does reject s fun w => w.tasp = u.tasp ∧ w.eth.txNorm = [] ∧
      ⟨rgEthRx, 8, 8, .add, 1⟩ ∈ w.evPend ∧ (fastOn u = true → (scopeAt w 38 0).lastEv = some u.now)) ∧
    (on' → proper → tAt d 8 4 = u.tasp.keyId → tagOk → tAt d 3 1 ≠ 0 ∨ tAt d 5 1 ≠ 0 ∨ tAt d 20 4 ≠ 0 → routed u src = true →
      Does reject s fun w => viol w 7 0 ∧
        w.eth.txNorm = [⟨0, src, taspDatagram u.tasp 1 (tAt d 4 1) 13 (tAt d 12 4) (tAt d 16 4) []⟩]) ∧
    (∀ r ∈ rows,
      (¬on' → Does r.2 s fun w => w = v) ∧
      (on' → way → r.1 ≠ 0x60 → sessPos u q.session = none → Does r.2 s fun w => viol w 8 q.session ∧ w.tasp.sess = u.tasp.sess ∧
        w.eth.txNorm = [framed 1 r.1 12 q.session []]) ∧
      (∀ i x, on' → r.1 ≠ 0x60 → sessPos u q.session = some i → sess u i = some x → seqAt x q.seq = .below → Does r.2 s fun w =>
        viol w 9 q.seq ∧ w.eth.txNorm = [] ∧ ⟨rgEthRx, 0, 8, .add, 1⟩ ∈ w.evPend ∧
        sess w i = some { x with src := q.src, lastAt := u.now } ∧ ∀ j, j ≠ i → sess w j = sess u j) ∧
      (∀ i x, on' → way → room → r.1 ≠ 0x60 → sessPos u q.session = some i → sess u i = some x → seqAt x q.seq ≠ .below → ¬seen x →
        (taspBodyOk r.1 q.body = false → Does r.2 s fun w => viol w 12 q.body.length ∧
          ∃ b, framed 1 r.1 2 q.session b ∈ w.eth.txNorm) ∧
        (taspBodyOk r.1 q.body = true → taspOffered u r.1 = false → Does r.2 s fun w => w.boot = u.boot ∧ w.seqr = u.seqr ∧ w.seg = u.seg ∧
          ∃ b, framed 1 r.1 7 q.session b ∈ w.eth.txNorm) ∧
        (r.1 ≠ 0x61 → Does r.2 s fun w => ∃ y, sess w i = some y ∧ y.num = x.num ∧ y.src = q.src ∧ y.lastAt = u.now ∧ q.seq ∈ y.seen ∧
          y.high = (if seqAt x q.seq = .above then q.seq else x.high))) ∧
      (∀ i x, on' → 64 ≤ u.tasp.reqs.length → r.1 ≠ 0x60 → sessPos u q.session = some i → sess u i = some x → seqAt x q.seq = .above →
        Does r.2 s fun w => viol w 10 0 ∧ w.tasp.reqs = u.tasp.reqs ∧ w.eth.txNorm = [] ∧ ⟨rgEthTx, 0, 8, .add, 1⟩ ∈ w.evPend) ∧
      (∀ i x, on' → u.tasp.reqs.length < 64 → u.fw.restarting ≠ none → r.1 ≠ 0x60 → sessPos u q.session = some i → sess u i = some x →
        seqAt x q.seq = .above → Does r.2 s fun w => w.tasp.reqs = u.tasp.reqs ++ [(r.1, q)] ∧ w.eth.txNorm = [] ∧ w.boot = u.boot ∧ w.r = u.r) ∧
      (∀ i x c, on' → way → r.1 ≠ 0x60 → sessPos u q.session = some i → sess u i = some x → seen x →
        (∀ y ∈ u.tasp.reqs, ¬(y.2.session = q.session ∧ y.2.seq = q.seq)) → x.cache.find? (fun c => c.seq == q.seq) = some c →
        r.1 ∉ [0x03, 0x11, 0x18, 0x30, 0x38, 0x40, 0x63] → Does r.2 s fun w =>
          w.eth.txNorm = [⟨0, q.src, taspDatagram u.tasp 5 c.op c.result x.num q.seq c.body⟩] ∧ w.boot = u.boot ∧ w.seqr = u.seqr)) ∧
    (on' → way → room → taspBodyOk 0x60 q.body = true →
      (∀ i x, (∀ j < i, ∀ y, sess u j = some y → ¬(y.origin = q.src ∧ y.cnonce = tAt q.body 0 8)) → i < 4 → sess u i = some x →
        x.origin = q.src → x.cnonce = tAt q.body 0 8 → Does (.taspOpen t q) s fun w =>
          framed 1 0x60 0 0 (beBytes 4 x.num ++ tail) ∈ w.eth.txNorm ∧
          sess w i = some { x with src := q.src, lastAt := u.now } ∧ ∀ j, j ≠ i → sess w j = sess u j) ∧
      ((∀ j < 4, ∀ y, sess u j = some y → ¬(y.origin = q.src ∧ y.cnonce = tAt q.body 0 8)) →
        (∀ i, i < 4 → (∀ j < i, sess u j ≠ none) → sess u i = none → Does (.taspOpen t q) s fun w => ∃ n, 0 < n ∧ n < 2 ^ 32 ∧
          (∀ j < 4, ∀ y, sess u j = some y → y.num ≠ n) ∧ framed 1 0x60 0 0 (beBytes 4 n ++ tail) ∈ w.eth.txNorm ∧
          (∃ y, sess w i = some y ∧ y.num = n ∧ y.high = q.seq ∧ y.seen = [q.seq] ∧ y.sub = false ∧ y.nseq = 1 ∧ y.notes = [] ∧
            y.src = q.src ∧ y.lastAt = u.now) ∧
          ∀ j, j ≠ i → sess w j = sess u j) ∧
        ((∀ j < 4, ∃ y, sess u j = some y ∧ u.now < 10 * cS + y.lastAt) → Does (.taspOpen t q) s fun w =>
          w.tasp.sess = u.tasp.sess ∧ ∃ b, framed 1 0x60 11 0 b ∈ w.eth.txNorm))) ∧
    (∀ i x, on' → way → room → sessPos u q.session = some i → sess u i = some x → seqAt x q.seq ≠ .below → ¬seen x →
      (q.body = [] → Does (.taspClose t q) s fun w => sess w i = none ∧ (∀ j, j ≠ i → sess w j = sess u j) ∧
        w.eth.txNorm = [framed 1 0x61 0 q.session []]) ∧
      (∀ en : Bool, q.body = [if en then 1 else 0, 0, 0, 0] → taspOffered u 0x62 = true → Does (.taspNoteSub t q) s fun w =>
        ∃ y, sess w i = some y ∧ y.sub = en ∧ y.nseq = (if en && !x.sub then 1 else x.nseq) ∧
          framed 1 0x62 0 q.session (beBytes 4 y.nseq) ∈ w.eth.txNorm) ∧
      (∀ o rest, taspBodyOk 0x63 q.body = true → taspOffered u 0x63 = true → x.notes = o :: rest → Does (.taspNoteResend t q) s fun w =>
        (tAt q.body 0 4 = o.1 → (∀ n ∈ x.notes.take (tAt q.body 4 1),
            (⟨0, q.src, taspDatagram u.tasp 6 0x50 0 x.num n.1 n.2⟩ : EthFrame) ∈ w.eth.txNorm) ∧
          framed 1 0x63 0 q.session (beBytes 4 o.1 ++ beBytes 1 (x.notes.take (tAt q.body 4 1)).length ++ [0, 0, 0]) ∈ w.eth.txNorm) ∧
        (tAt q.body 0 4 ≠ o.1 → serial o.1 (tAt q.body 0 4) < 2 ^ 31 →
          framed 1 0x63 9 q.session (beBytes 4 o.1 ++ beBytes 1 (x.notes.take (tAt q.body 4 1)).length ++ [0, 0, 0]) ∈ w.eth.txNorm))) ∧
    (∀ (k : Fin 4) x, sess u k = some x →
      (x.lastAt + cS * (if fld u.r.ethCfg 8 8 < 10 then 60 else fld u.r.ethCfg 8 8) ≤ u.now → Does (.taspSessionIdleExpiry t k) s fun w =>
        sess w k = none ∧ (∀ j, j ≠ k.val → sess w j = sess u j) ∧ w = { u with tasp := { u.tasp with sess := w.tasp.sess } }) ∧
      (u.now < x.lastAt + cS * (if fld u.r.ethCfg 8 8 < 10 then 60 else fld u.r.ethCfg 8 8) →
        Does (.taspSessionIdleExpiry t k) s fun w => w = u)) ∧
    (∀ k : Fin 4, sess u k = none → Does (.taspSessionIdleExpiry t k) s fun w => w = u) ∧
    (let stale := u.tasp.upSess ≠ none ∧ u.boot.stage.length < u.boot.stageLen ∧ 10 * cS + u.tasp.upAt ≤ u.now
     (stale → Does (.taspUploadTimeout t) s fun w => w.tasp.upSess = none ∧ w.boot.stage = [] ∧ w.boot.stageLen = 0) ∧
     (¬stale → Does (.taspUploadTimeout t) s fun w => w = u)) ∧
    (∀ n rest, u.eth.running = true → u.tasp.queue = n :: rest → Does (.taspEventHandover t) s fun w => w.tasp = { u.tasp with queue := rest } ∧
      (routed u n.dst = true → w.eth.txPri = [⟨0, n.dst, n.body⟩]) ∧
      (routed u n.dst = false → w.eth = u.eth ∧ ⟨rgEthRx, 24, 8, .add, 1⟩ ∈ w.evPend)) ∧
    (u.eth.running = false ∨ u.tasp.queue = [] → Does (.taspEventHandover t) s fun w => w = u) ∧
    (∀ k : Fin 4,
      (∀ g x, (vget u.seqr.srings k {}).gap = some g → g.next ≤ u.now → g.sent < retxMax u → sessNum u g.session = some x →
        Does (.streamGapRetry t k) s fun w =>
          (vget w.seqr.srings k {}).gap = some { g with sent := g.sent + 1, next := u.now + cUs * retxUs u } ∧
          (ethOn u = true → haveSource u x.src = true → routed u x.src = true → w.eth.txNorm = [⟨0, x.src, taspDatagram u.tasp 2 0x19 0 x.num 0
            (beBytes 1 k ++ [0, 0, 0] ++ beBytes 4 g.missing ++ beBytes 1 (g.sent + 1) ++ [0, 0, 0])⟩])) ∧
      (∀ g, (vget u.seqr.srings k {}).gap = some g → g.next ≤ u.now → retxMax u ≤ g.sent → Does (.streamGapRetry t k) s fun w =>
        (vget w.seqr.srings k {}).gap = none ∧ (vget w.seqr.srings k {}).gaveUp = some g.missing ∧ ⟨rgEthTx, 8, 8, .add, 1⟩ ∈ w.evPend ∧
        w.nw.logNext = (u.nw.logNext + 2) % 2 ^ 32 ∧ w.eth.txNorm = []) ∧
      ((vget u.seqr.srings k {}).gap = none ∨ (∃ g, (vget u.seqr.srings k {}).gap = some g ∧ u.now < g.next) →
        Does (.streamGapRetry t k) s fun w => w = v))

/-- With TASP on, the management core running, room in the queue, a SEQ not seen before in an open session, a body that keeps Table 16-3 and an OP
offered in the power state, where p is the unit once the request is accepted: REG_READ answers the values; REG_WRITE writes; ECHO its body;
VSTORE_WRITE stores its bytes and no other, ADDRESS beyond the store; VSTORE_READ the bytes; STREAM_PIECE WR_SEQ, FILL and disposition, the next piece
in order accepted where there is room; JOB_SUBMIT the slot and job number, or REFUSED with CODE 1 while admission is closed; JOB_CANCEL ends queued jobs named;
JOB_STATUS the slot's three words; RING_TRIG S, or ACCESS where the ring refuses it; EXPORT datagrams of at most 43 records, or GONE, or UNSEALED; RELEASE TO as
applied; CERT_READ and LOG_READ what was asked; UPLOAD_BEGIN empties staging for a new image; UPLOAD_DATA appends the next chunk, repeats are accepted
and others are LENGTH; UPLOAD_COMMIT begins a commit or is REFUSED; STAGE_STATUS the staging state and bytes received. -/
def Obligations.TaspRequests : Prop :=
  ∀ (t : Instant) (q : TaspReq) (i : Nat) (x : Sess) (s : State),
    let u := advance t s
    let p := modSess i (markSeen q.seq) (modSess i (fun y => { y with src := q.src, lastAt := u.now })
      { u with eth := { u.eth with txNorm := [] } })
    let b := q.body
    let a := tAt b 0 4
    let first := tAt b 0 8
    let bytes := b.drop 8
    let ring := vget u.seqr.srings (tAt b 0 1) {}
    let serves := fun (op : Nat) => ethOn u = true ∧ u.tasp.on = true ∧ u.fw.restarting = none ∧ u.tasp.reqs.length < 64 ∧
      sessPos u q.session = some i ∧ vget u.tasp.sess i none = some x ∧ routed u q.src = true ∧
      (seqAt x q.seq = .above ∨ (seqAt x q.seq = .window ∧ q.seq ∉ x.seen)) ∧ taspBodyOk op b = true ∧ taspOffered u op = true
    let ans := fun (w : State) (op r : Nat) (body : List Byte) =>
      (⟨0, q.src, taspDatagram u.tasp 1 op r q.session q.seq body⟩ : EthFrame) ∈ w.eth.txNorm
    let alone := fun (w : State) => w = { p with eth := w.eth, tasp := w.tasp }
    (serves 0x01 →
      (∀ e, rangeJudge a (tAt b 4 2) = e → e ≠ .done → Does (.taspRegRead t q) s fun w => ans w 0x01 e.code [] ∧ alone w) ∧
      (rangeJudge a (tAt b 4 2) = .done → Does (.taspRegRead t q) s fun w => ans w 0x01 0 (beVals (readWords (tAt b 4 2) a p).2) ∧
        (tAt b 4 2 = 1 → ans w 0x01 0 (beVals [(latched u a).getD (regVal p a)])))) ∧
    (serves 0x02 →
      (∀ e, rangeJudge a (tAt b 4 2) = e → e ≠ .done → Does (.taspRegWrite t q) s fun w => ans w 0x02 e.code [0, 0, 0, 0] ∧ alone w) ∧
      (rangeJudge a (tAt b 4 2) = .done → tAt b 4 2 = 1 → Does (.taspRegWrite t q) s fun w =>
        w.r = (busWrite a (word (tAt b 8 4)) p).1.r ∧ ans w 0x02 (busWrite a (word (tAt b 8 4)) p).2.code
          [0, if (busWrite a (word (tAt b 8 4)) p).2 = .done then 1 else 0, 0, 0])) ∧
    (serves 0x03 → Does (.taspEcho t q) s fun w => ans w 0x03 0 b ∧ alone w) ∧
    (serves 0x10 →
      (vstoreSize < first + bytes.length → Does (.taspVstoreWrite t q) s fun w => ans w 0x10 5 [] ∧ alone w) ∧
      (first + bytes.length ≤ vstoreSize → vstoreBusy u first (first + bytes.length) = false → Does (.taspVstoreWrite t q) s fun w =>
        ans w 0x10 0 [] ∧ (Canon u → (∀ j < bytes.length, rdByte w.seg.vstore (first + j) = bytes.getD j 0) ∧
          ∀ j, j < first ∨ first + bytes.length ≤ j → rdByte w.seg.vstore j = rdByte u.seg.vstore j)) ∧
      (first + bytes.length ≤ vstoreSize → vstoreBusy u first (first + bytes.length) = true → Does (.taspVstoreWrite t q) s fun w =>
        ans w 0x10 6 [] ∧ w.seg = u.seg)) ∧
    (serves 0x11 →
      (first + 24 * tAt b 8 4 ≤ vstoreSize → Does (.taspVstoreRead t q) s fun w =>
        ans w 0x11 0 (rdBytes u.seg.vstore first (24 * tAt b 8 4)) ∧ alone w) ∧
      (vstoreSize < first + 24 * tAt b 8 4 → Does (.taspVstoreRead t q) s fun w => ans w 0x11 5 [] ∧ alone w)) ∧
    (serves 0x18 →
      (sringOn u (tAt b 0 1) = false → Does (.taspStreamPiece t q) s fun w =>
        ans w 0x18 0 (beBytes 4 ring.wr ++ beBytes 4 (sringFill ring) ++ [3, 0, 0, 0])) ∧
      (sringOn u (tAt b 0 1) = true → tAt b 4 4 = ring.wr → ring.wr < 2 ^ 32 → ring.pieces = [] →
        sringFill ring < 128 * sringSize u (tAt b 0 1) → Does (.taspStreamPiece t q) s fun w =>
          ∃ k, ans w 0x18 0 (beBytes 4 ((ring.wr + 1) % 2 ^ 32) ++ beBytes 4 k ++ [0, 0, 0, 0]) ∧
          (vget w.seqr.srings (tAt b 0 1) {}).wr = (ring.wr + 1) % 2 ^ 32 ∧ (vget w.seqr.srings (tAt b 0 1) {}).rd = ring.rd)) ∧
    (serves 0x20 →
      (seqClosed u = true → Does (.taspJobSubmit t q) s fun w => w.seqr.slots = u.seqr.slots ∧ w.nw.jobNo = u.nw.jobNo ∧
        ∃ n, n.length = 4 ∧ ans w 0x20 8 ([1, 0, 0, 0] ++ n ++ beBytes 4 (tAt b 32 4))) ∧
      ((submit 0 ⟨true, b⟩ none p).2.code = 0 → Does (.taspJobSubmit t q) s fun w => ∃ k,
        ans w 0x20 0 (beBytes 1 k ++ [0, 0, 0] ++ beBytes 4 (nextJobNo u.nw.jobNo) ++ beBytes 4 (tAt b 32 4)) ∧
        w.nw.jobNo = nextJobNo u.nw.jobNo ∧ (slotAt w k).jobNo = nextJobNo u.nw.jobNo ∧ (slotAt w k).source = 0)) ∧
    (serves 0x21 → Does (.taspJobCancel t q) s fun w => ans w 0x21 0 [] ∧
      ∀ j < 16, (tAt b 0 2).testBit j = true → (slotAt u j).st = .queued → (slotAt w j).st = .ending ∧ (slotAt w j).endCode = 2) ∧
    (serves 0x22 → Does (.taspJobStatus t q) s fun w => alone w ∧
      ans w 0x22 0 (beVals [jobStat u (tAt b 0 1), jobNoOf u (tAt b 0 1), word (slotAt u (tAt b 0 1)).desc.tag])) ∧
    (serves 0x24 →
      let lead := if tAt b 4 2 = 0 then 20 else tAt b 4 2
      let start := masterNow u + cMs * lead
      (ringValid u = true → u.ring.sync = true → a ≠ 0 → fastOn u = true → Does (.taspRingTrig t q) s fun w =>
        ans w 0x24 0 (beBytes 12 (timeCode start)) ∧ w.ring.trigs = ((a, start) :: u.ring.trigs).take 8) ∧
      (ringValid u = false ∨ u.ring.sync = false ∨ a = 0 → Does (.taspRingTrig t q) s fun w => w.ring = u.ring ∧
        ∃ n, n.length = 12 ∧ ans w 0x24 6 n)) ∧
    (serves 0x30 →
      (first < u.evid.oldest → Does (.taspExport t q) s fun w => w.evid = u.evid ∧
        ans w 0x30 9 (beBytes 8 first ++ [0, 0, 0, 1] ++ beBytes 8 u.evid.sealedEnd ++ [0, 0, 0, 0])) ∧
      (u.evid.oldest ≤ first → u.evid.sealedEnd < first → Does (.taspExport t q) s fun w => w.evid = u.evid ∧
        ans w 0x30 10 (beBytes 8 first ++ [0, 0, 0, 1] ++ beBytes 8 u.evid.sealedEnd ++ [0, 0, 0, 0])) ∧
      (∀ n, exportJudge u first (tAt b 8 4) = .records n → Does (.taspExport t q) s fun w => w.evid = u.evid ∧
        ∀ k, 43 * k < n → k < tAt b 12 1 → ans w 0x30 0 (beBytes 8 (first + 43 * k) ++ beBytes 2 (min 43 (n - 43 * k)) ++ beBytes 1 k ++
          [if n ≤ 43 * (k + 1) then 1 else 0] ++ beBytes 8 u.evid.sealedEnd ++ [0, 0, 0, 0] ++
          ((u.evid.held.drop (first + 43 * k - u.evid.oldest)).take (min 43 (n - 43 * k))).flatMap recBytes))) ∧
    (serves 0x31 → Does (.taspRelease t q) s fun w => ans w 0x31 0 (beBytes 8 (min first u.evid.sealedEnd)) ∧
      (exportCovered u (min first u.evid.sealedEnd) = false → w.evid.oldest = max u.evid.oldest (min first u.evid.sealedEnd))) ∧
    (serves 0x38 → Does (.taspCertRead t q) s fun w => alone w ∧
      ans w 0x38 0 (beBytes 4 a ++ beBytes 2 (certRead u a (tAt b 4 2)).length ++ [0, 0] ++ certRead u a (tAt b 4 2))) ∧
    (serves 0x40 → Does (.taspLogRead t q) s fun w => alone w ∧
      ans w 0x40 0 (beBytes 4 (logRead u a (tAt b 4 2)).1 ++ beBytes 2 (logRead u a (tAt b 4 2)).2.length ++ [0, 0] ++
        (logRead u a (tAt b 4 2)).2.flatMap entryBytes)) ∧
    (serves 0x70 → Does (.taspUploadBegin t q) s fun w => ans w 0x70 0 [] ∧ w.tasp.upSess = some q.session ∧ w.tasp.upAt = u.now ∧
      w.boot.stage = [] ∧ w.boot.stageLen = a ∧ w.usb.upOn = false) ∧
    (serves 0x71 →
      let have' := u.boot.stage.length
      let mine := u.tasp.upSess = some q.session ∧ a + (b.length - 4) ≤ u.boot.stageLen
      (mine → a = have' → Does (.taspUploadData t q) s fun w => ans w 0x71 0 (beBytes 4 (have' + (b.length - 4))) ∧
        w.boot.stage = u.boot.stage ++ b.drop 4 ∧ w.tasp.upAt = u.now) ∧
      (mine → a + (b.length - 4) ≤ have' → a ≠ have' → Does (.taspUploadData t q) s fun w => ans w 0x71 0 (beBytes 4 have') ∧ alone w) ∧
      (¬mine ∨ (a ≠ have' ∧ have' < a + (b.length - 4)) → Does (.taspUploadData t q) s fun w => ans w 0x71 2 (beBytes 4 have') ∧ alone w)) ∧
    (serves 0x72 →
      (commitCode u = 0 → Does (.taspUploadCommit t q) s fun w => ans w 0x72 0 [] ∧ w.tasp.upSess = none ∧ w.usb.upOn = false ∧
        w.boot.commit.map (fun j => (j.target, j.data, j.begun)) = some (if u.boot.bank = 2 then .a else .b, u.boot.stage, u.now)) ∧
      (commitCode u ≠ 0 → Does (.taspUploadCommit t q) s fun w => ans w 0x72 8 [] ∧ w.boot.commit = (mramSettle u).boot.commit ∧ w.mram = u.mram)) ∧
    (serves 0x73 → Does (.taspStageStatus t q) s fun w => alone w ∧
      ans w 0x73 0 (beBytes 4 (bootStage u).toNat ++ beBytes 4 u.boot.stage.length))

/-- FAULT_QUIET_EXPIRY of a severe scope without software exit whose cause no longer persists: it is not severe, its history is empty,
SEVERE_EXITS and the log say so, and what its reaction held is decided again; otherwise nothing. A write of G_FLT_CLEAR through a running port: for a severe
scope that persists it is refused with ACCESS, counted and logged; for one that does not, it leaves severity; a scope that is not severe and
a source from 48 on nothing; with ALL_OCT, where every severe octet scope persists, all stay severe. A write of G_FLT_CFG changes, with the note of substituted fields, the settings of the
selected source alone; one that makes stop octet the reaction of a severe octet scope in Day puts the octet's pins in the safe state. Service starts the
watchdog's count again, as does a write that enables it or changes FWD_MS, which is refused in Day. Due, the watchdog counts, is an event of source 33,
the core restarts, and a bulk stream is cut to its packet. When the restart is done the SPI command in service is answered REFUSED and the requests that
waited are served. The end of a suppressed second writes the count of events unlogged. Otherwise nothing happens. -/
def Obligations.FaultsAndFirmware : Prop :=
  ∀ (t : Instant) (src : Fin 48) (oct : Fin 8) (port : Port) (val : Word) (cut : Option UsbCut) (s : State),
    let u := advance t s
    let l := assureLapse u
    let up := portUp u port = true
    let at' := fun (w : State) => scopeAt w src (if srcOct src then oct else 0)
    let loc := if srcOct src then some oct.val else none
    let entry := fun (w : State) (code n : Nat) =>
      w.nw.log.getLast? = some (logHead src code (srcValue loc none n) (tamNow u) u.tim.valid)
    let due := fastOn u = true ∧ (at' u).severe = true ∧ fltSoft u src = false ∧
      persists u src (if srcOct src then oct else 0) = false
    let fsrc := fld val 0 6
    let foct := if srcOct fsrc then fld val 8 3 else 0
    let one := srcOct fsrc = false ∨ bit val 15 = false
    let still := fun (k : Nat) => persists l fsrc k = true
    let sev := fun (w : State) (k : Nat) => (scopeAt w fsrc k).severe
    let i := selSrc l
    let unlogged := (at' u).unlogged
    (due → Does (.faultQuietExpiry t src oct) s fun w => ∃ m, w = afterRelease m ∧ (at' m).severe = false ∧ (at' m).ticks = [] ∧
      (at' m).exits = min ((at' u).exits + 1) 0xFFFFFF ∧ entry m 3 (min ((at' u).exits + 1) 0xFFFFFF) ∧ m.octs = u.octs ∧ m.pins = u.pins) ∧
    (¬due → Does (.faultQuietExpiry t src oct) s fun w => w = u) ∧
    (up → 48 ≤ fsrc ∨ (one ∧ sev l foct = false) →
      Does (.faultClearWrite t port val) s fun w => w = { l with bus := some (carried port 0x720 true val) }) ∧
    (up → fsrc < 48 → one → sev l foct = true → still foct → Does (.faultClearWrite t port val) s fun w => w.flt = u.flt ∧
      w.bus = some ⟨port, 0x720, true, val, .access⟩ ∧ ⟨rgFlt, 16, 8, .add, 1⟩ ∈ w.evPend ∧
      w.nw.log.getLast? = some (logHead fsrc 5 (srcValue (if srcOct fsrc then some foct else none) none 0) (tamNow u) u.tim.valid)) ∧
    (up → fsrc < 48 → one → sev l foct = true → ¬still foct → Does (.faultClearWrite t port val) s fun w => ∃ m,
      w = { afterRelease m with bus := some (carried port 0x720 true val) } ∧ sev m foct = false ∧ (scopeAt m fsrc foct).ticks = [] ∧
      m.nw.log.getLast? = some (logHead fsrc 4 (srcValue (if srcOct fsrc then some foct else none) none 0) (tamNow u) u.tim.valid)) ∧
    (up → srcOct fsrc = true → bit val 15 = true → (∀ k < 8, sev l k = true → still k) → Does (.faultClearWrite t port val) s fun w =>
      w.flt = u.flt ∧ w.bus = some ⟨port, 0x720, true, val, if (List.range 8).any (fun k => sev l k) then .access else .done⟩) ∧
    (up → Does (.faultCfgWrite t port val) s fun w =>
      w.bus = some (carried port 0x710 true val) ∧ w.r = { l.r with fltCfg := w.r.fltCfg, subst := w.r.subst } ∧
      vget w.r.fltCfg i 0 = (vget l.r.fltCfg i 0 &&& 0x0000004F) ||| (val &&& 0xFFFFFFB0) ∧
      (∀ j, j ≠ i → vget w.r.fltCfg j 0 = vget l.r.fltCfg j 0) ∧
      (∀ k < 8, srcOct i = true → u.pwr.st = .day → (scopeAt u i k).severe = true → fltReact u i ≠ 1 → fld val 4 2 = 1 →
        ∃ m, w = { afterRelease m with bus := w.bus } ∧ ∀ n, n < 64 → n / 8 = k → (pinAt m n).safe = true ∧ (pinAt m n).drv = false)) ∧
    (fastOn u = true → Does (.fwWatchdogService t) s fun w => w = { u with fw := { u.fw with lastService := u.now } }) ∧
    (fastOn u = false → Does (.fwWatchdogService t) s fun w => w = u) ∧
    (up → u.pwr.st = .day → Does (.fwdCfgWrite t port val) s fun w => w = { l with bus := some ⟨port, 0x728, true, val, .access⟩ }) ∧
    (up → u.pwr.st ≠ .day → Does (.fwdCfgWrite t port val) s fun w => w.bus = some (carried port 0x728 true val) ∧
      w.r.fwdCfg = (l.r.fwdCfg &&& 0x7FFF0000) ||| (val &&& 0x8000FFFF) ∧
      w.fw.lastService = (if (bit val 31 && !bit l.r.fwdCfg 31) || fld val 0 16 != fld l.r.fwdCfg 0 16 then u.now else u.fw.lastService)) ∧
    (let ms := if fld u.r.fwdCfg 0 16 < 10 ∨ 1000 < fld u.r.fwdCfg 0 16 then 100 else fld u.r.fwdCfg 0 16
     let bites := fastOn u = true ∧ bit u.r.fwdCfg 31 = true ∧ u.fw.restarting = none ∧ u.fw.lastService + cMs * ms ≤ u.now
     (bites → Does (.fwWatchdogExpiry t cut) s fun w =>
       w.fw = ⟨u.now, some u.now, if u.spi.rx ≠ none then some .spi else none⟩ ∧ ⟨rgFlt, 24, 8, .add, 1⟩ ∈ w.evPend ∧
       (scopeAt w 33 0).lastEv = some u.now ∧ (cut ≠ none → ⟨rgUsb, 16, 8, .add, 1⟩ ∈ w.evPend) ∧
       w.usb.bulk = u.usb.bulk.map fun y => { y with data := y.data.take (if u.usb.high then 512 else 64) }) ∧
     (¬bites → Does (.fwWatchdogExpiry t cut) s fun w => w = u)) ∧
    (u.fw.restarting ≠ none → Does (.fwRestartDone t) s fun w => w.fw.restarting = none ∧ w.fw.inService = none ∧ w.tasp.reqs = [] ∧
      (∀ c, u.fw.inService = some .spi → u.spi.rx = some c → u.tasp.reqs = [] → w.spi.rx = none ∧ w.spi.lastOp = c.op ∧ w.spi.lastResult = 8 ∧
        w.spi.ans ≠ none) ∧
      (∀ q k x, u.fw.inService = none → u.spi.rx = none → ethOn u = true → u.tasp.reqs = [(0x03, q)] → q.body.length ≤ 1412 →
        sessPos u q.session = some k → vget u.tasp.sess k none = some x → routed u q.src = true →
        w.eth.txNorm = [⟨0, q.src, taspDatagram u.tasp 1 0x03 0 q.session q.seq q.body⟩])) ∧
    (u.fw.restarting = none → Does (.fwRestartDone t) s fun w => w = { u with eth := { u.eth with txNorm := [] } }) ∧
    (∀ k, fastOn u = true → (at' u).logAt = some k → cS + k ≤ u.now → unlogged ≠ 0 → Does (.logSuppressPeriodEnd t src oct) s fun w =>
      entry w 6 (min unlogged 0xFFFFFF) ∧ at' w = { at' u with unlogged := 0 } ∧ w.nw.logNext = (u.nw.logNext + 1) % 2 ^ 32 ∧
      w = { u with nw := w.nw, flt := w.flt, evPend := w.evPend }) ∧
    (fastOn u = false ∨ (at' u).logAt = none ∨ (∃ k, (at' u).logAt = some k ∧ u.now < cS + k) ∨ unlogged = 0 →
      Does (.logSuppressPeriodEnd t src oct) s fun w => w = u)

/-- For every state with a command waiting: the step answers a next state, in which the rest of the queue waits in its order and the instant is
not before that of the state; and where every memory of the state (MRAM, the vector store, the timing-set memory, the segment table and its
results, the wave tables of the octets) lists rising addresses with no entry equal to what an unlisted address reads as, so does every memory after the
step. A state with none waiting keeps all of it too. -/
def Obligations.StepKeepsMemory : Prop :=
  (∀ (s : State) (c : Instr) (rest : List Instr), s.pending = c :: rest →
    ∃ w, step s = .next w ∧ w.pending = rest ∧ s.now ≤ w.now ∧ (Canon s → Canon w)) ∧
  (∀ s w : State, s.pending = [] → step s = .next w → w.pending = [] ∧ s.now ≤ w.now ∧ (Canon s → Canon w))

/-- Where no buffer of a state holds more than the spec gives it room for (the trouble log 2 048 entries, the SPI notification queue 64, the TASP notification
and request queues 64 each, the notes held for each session 256, the ARP cache 16, ring triggers 8, nonces 16, PTP masters 4, each capture FIFO 4 096)
and the oldest entry of the trouble log is no continuation, the same holds after every step, whatever the command at the front of the queue. -/
def Obligations.CapacitiesKept : Prop :=
  ∀ s w : State, Capacity s → step s = .next w → Capacity w

/-- At State.reset every memory is in its canonical form and every buffer is within its room: the invariants that every step keeps hold at reset. -/
def Obligations.InvariantsAtReset : Prop :=
  Canon State.reset ∧ Capacity State.reset
end

