-- ==== Sys2Proof/Laws/Memory.lean ====
section
/-!
SUPPORT. Memory.lean: reading after writing, and the canonical form, of the sparse memories of Machine/Bits.lean; reading after
changing an array.
-/

set_option Elab.async false

namespace Sys2Proof.Machine

/-! ### Arrays -/

theorem vget_vmod_same {α : Type} {n : Nat} (v : Vector α n) (i : Nat) (f : α → α) (d : α) (h : i < n) :
    vget (vmod v i f) i d = f (vget v i d) := by
  simp [vget, vmod, h]

theorem vget_vmod_ne {α : Type} {n : Nat} (v : Vector α n) (i j : Nat) (f : α → α) (d : α) (h : i ≠ j) :
    vget (vmod v i f) j d = vget v j d := by
  unfold vget vmod
  split
  · split
    · simp [h]
    · rfl
  · rfl

/-- What an element reads as after a change of element `i`. -/
theorem vget_vmod {α : Type} {n : Nat} (v : Vector α n) (i j : Nat) (f : α → α) (d : α) :
    vget (vmod v i f) j d = if i = j ∧ i < n then f (vget v j d) else vget v j d := by
  by_cases h : i = j
  · subst h
    by_cases hn : i < n
    · simp [vget_vmod_same, hn]
    · simp [vmod, hn]
  · simp [vget_vmod_ne, h]

theorem vget_vmap {α : Type} {n : Nat} (v : Vector α n) (f : Nat → α → α) (i : Nat) (d : α) (h : i < n) :
    vget (vmap v f) i d = f i (vget v i d) := by
  simp [vget, vmap, h]

theorem vget_ge {α : Type} {n : Nat} (v : Vector α n) (i : Nat) (d : α) (h : n ≤ i) : vget v i d = d := by
  simp [vget, Nat.not_lt.mpr h]

/-! ### Sparse memories -/

section Sparse

variable {α : Type} [DecidableEq α] {dflt : Nat → α}

/-- Every listed key of a canonical memory lies above `a`. -/
def above (a : Nat) : List (Nat × α) → Prop
  | [] => True
  | (b, _) :: _ => a < b

theorem swf_cons {a : Nat} {x : α} {m : List (Nat × α)} :
    swf dflt ((a, x) :: m) = true ↔ x ≠ dflt a ∧ above a m ∧ swf dflt m = true := by
  cases m with
  | nil => simp [swf, above]
  | cons p m => simp [swf, above, Bool.and_eq_true, and_assoc]

theorem sget_above {a b : Nat} {m : List (Nat × α)} (hw : swf dflt m = true) (hm : above b m) (h : a ≤ b) :
    sget dflt m a = dflt a := by
  induction m generalizing b with
  | nil => rfl
  | cons p m ih =>
    obtain ⟨c, x⟩ := p
    have hc : b < c := hm
    obtain ⟨_, h2, h3⟩ := swf_cons.mp hw
    rw [sget, if_neg (by omega)]
    exact ih h3 h2 (by omega)

theorem above_sput {keep : Bool} {a b : Nat} {x : α} {m : List (Nat × α)} (hw : swf dflt m = true) (hm : above b m)
    (h : b < a) : above b (sput keep a x m) := by
  cases m with
  | nil => cases keep <;> simp [sput, above, h]
  | cons p m =>
    obtain ⟨c, y⟩ := p
    have hc : b < c := hm
    obtain ⟨_, h2, _⟩ := swf_cons.mp hw
    rw [sput]
    split
    · cases keep
      · exact hc
      · exact h
    · split
      · cases keep
        · cases m with
          | nil => trivial
          | cons q m => exact Nat.lt_trans hc h2
        · exact h
      · exact hc

/-- A write keeps the canonical form. -/
theorem swf_sset (m : List (Nat × α)) (a : Nat) (x : α) (hw : swf dflt m = true) : swf dflt (sset dflt m a x) = true := by
  unfold sset
  induction m with
  | nil => by_cases h : x = dflt a <;> simp [sput, swf, h]
  | cons p m ih =>
    obtain ⟨c, y⟩ := p
    obtain ⟨h1, h2, h3⟩ := swf_cons.mp hw
    rw [sput]
    split
    · rename_i hlt
      by_cases h : x = dflt a
      · simpa [h] using hw
      · simpa [h] using swf_cons.mpr ⟨h, (show above a ((c, y) :: m) from hlt), hw⟩
    · split
      · rename_i heq
        subst heq
        by_cases h : x = dflt a
        · simpa [h] using h3
        · simpa [h] using swf_cons.mpr ⟨h, h2, h3⟩
      · exact swf_cons.mpr ⟨h1, above_sput h3 h2 (by omega), ih h3⟩

/-- A read after a write to the same key gives the value written, and every other key reads as before. -/
theorem sget_sset (m : List (Nat × α)) (a b : Nat) (x : α) (hw : swf dflt m = true) :
    sget dflt (sset dflt m a x) b = if b = a then x else sget dflt m b := by
  unfold sset
  induction m with
  | nil =>
    by_cases h : x = dflt a <;> by_cases hb : b = a <;> simp [sput, sget, h, hb]
  | cons p m ih =>
    obtain ⟨c, y⟩ := p
    obtain ⟨h1, h2, h3⟩ := swf_cons.mp hw
    rw [sput]
    split
    · rename_i hlt
      by_cases hb : b = a
      · subst hb
        by_cases h : x = dflt b
        · simp only [h, ne_eq, not_true_eq_false, decide_false, Bool.false_eq_true, if_false, if_true]
          exact sget_above hw (b := b) hlt (Nat.le_refl _)
        · simp [h, sget]
      · by_cases h : x = dflt a <;> simp [h, sget, hb]
    · split
      · rename_i heq
        subst heq
        by_cases hb : b = a
        · subst hb
          by_cases h : x = dflt b
          · simp only [h, ne_eq, not_true_eq_false, decide_false, Bool.false_eq_true, if_false, if_true]
            exact sget_above h3 h2 (Nat.le_refl _)
          · simp [h, sget]
        · by_cases h : x = dflt a <;> simp [h, sget, hb]
      · rename_i hac
        simp only [sget]
        by_cases hb : b = c
        · subst hb
          simp [Ne.symm hac]
        · simp only [hb, if_false]
          exact ih h3

end Sparse

/-! ### Byte memories -/

theorem wrByte_wf (m : List Host.Cell) (a : Nat) (b : Byte) (h : Memory.wf m = true) : Memory.wf (wrByte m a b) = true :=
  swf_sset m a b h

theorem rdByte_wrByte (m : List Host.Cell) (a c : Nat) (b : Byte) (h : Memory.wf m = true) :
    rdByte (wrByte m a b) c = if c = a then b else rdByte m c :=
  sget_sset m a c b h

/-- Writing bytes keeps the canonical form. -/
theorem wrBytes_wf (bs : List Byte) (m : List Host.Cell) (a : Nat) (h : Memory.wf m = true) :
    Memory.wf (wrBytes m a bs) = true := by
  induction bs generalizing m a with
  | nil => exact h
  | cons b bs ih => exact ih _ _ (wrByte_wf m a b h)

/-- The bytes written read back, and every byte outside them reads as before. -/
theorem rdByte_wrBytes (bs : List Byte) (m : List Host.Cell) (a c : Nat) (h : Memory.wf m = true) :
    rdByte (wrBytes m a bs) c = if a ≤ c ∧ c < a + bs.length then bs.getD (c - a) 0 else rdByte m c := by
  induction bs generalizing m a with
  | nil => simp [wrBytes]
  | cons b bs ih =>
    rw [wrBytes, ih _ _ (wrByte_wf m a b h), rdByte_wrByte _ _ _ _ h]
    by_cases hc : c = a
    · subst hc
      simp
    · by_cases h1 : a + 1 ≤ c ∧ c < a + 1 + bs.length
      · have h2 : a ≤ c ∧ c < a + (b :: bs).length := by simp; omega
        have h3 : c - a = (c - (a + 1)) + 1 := by omega
        rw [if_pos h1, if_pos h2, h3]
        simp
      · have h2 : ¬ (a ≤ c ∧ c < a + (b :: bs).length) := by simp; omega
        rw [if_neg h1, if_neg h2, if_neg hc]

theorem wrWord_wf (m : List (Nat × Word)) (i : Nat) (w : Word) (h : swf (fun _ => (0 : Word)) m = true) :
    swf (fun _ => (0 : Word)) (wrWord m i w) = true :=
  swf_sset m i w h

theorem rdWord_wrWord (m : List (Nat × Word)) (i j : Nat) (w : Word) (h : swf (fun _ => (0 : Word)) m = true) :
    rdWord (wrWord m i w) j = if j = i then w else rdWord m j :=
  sget_sset m i j w h

end Sys2Proof.Machine
end

