-- ==== Sys2Proof/Laws/Kept.lean ====
section
/-!
SUPPORT. Kept.lean: what every shared operation keeps, as one relation between two states. Each operation `f` has, in the files after this one, the
one lemma `f_kept : Kept z s → Kept z (f … s)`; an operation that takes another as an argument asks the same of it.
-/

set_option Elab.async false

namespace Sys2Proof.Machine

/-! ### The parts that invariants are about -/

@[reducible] def SegOk (g : Seg) : Prop :=
  Memory.wf g.vstore = true ∧ swf (fun _ => (0 : Word)) g.tset = true ∧ swf (fun _ => (0 : Word)) g.mem = true ∧
  swf (fun _ => ((0, 0) : Nat × Nat)) g.stat = true

def OctsOk (v : Vector OctCh 8) : Prop := ∀ k, swf waveReset (vget v k {}).wave = true

def CapsOk (v : Vector Cap 8) : Prop := ∀ k, (vget v k {}).fifo.length ≤ 4096

def LogOk (l : List LogEntry) : Prop := l.length ≤ 2048 ∧ ∀ e, l.head? = some e → isCont e = false

@[reducible] def TaspOk (p : Tasp) : Prop :=
  p.queue.length ≤ 64 ∧ p.reqs.length ≤ 64 ∧ ∀ i x, vget p.sess i none = some x → x.notes.length ≤ 256

/-- An operation keeps the queue of commands, does not turn time back, and keeps every memory canonical and every buffer within its room. -/
structure Kept (s w : State) : Prop where
  pending : w.pending = s.pending
  now : s.now ≤ w.now
  mram : Memory.wf s.mram = true → Memory.wf w.mram = true
  seg : SegOk s.seg → SegOk w.seg
  octs : OctsOk s.octs → OctsOk w.octs
  log : LogOk s.nw.log → LogOk w.nw.log
  spi : s.spi.queue.length ≤ 64 → w.spi.queue.length ≤ 64
  tasp : TaspOk s.tasp → TaspOk w.tasp
  arp : s.eth.arp.length ≤ 16 → w.eth.arp.length ≤ 16
  trigs : s.ring.trigs.length ≤ 8 → w.ring.trigs.length ≤ 8
  pool : s.sl.pool ≤ 16 → w.sl.pool ≤ 16
  masters : s.ptp.masters.length ≤ 4 → w.ptp.masters.length ≤ 4
  caps : CapsOk s.caps → CapsOk w.caps

theorem Kept.refl (s : State) : Kept s s := ⟨rfl, Nat.le_refl _, id, id, id, id, id, id, id, id, id, id, id⟩

theorem Kept.trans {a b c : State} (h : Kept a b) (g : Kept b c) : Kept a c :=
  ⟨g.pending.trans h.pending, Nat.le_trans h.now g.now, g.mram ∘ h.mram, g.seg ∘ h.seg, g.octs ∘ h.octs, g.log ∘ h.log,
   g.spi ∘ h.spi, g.tasp ∘ h.tasp, g.arp ∘ h.arp, g.trigs ∘ h.trigs, g.pool ∘ h.pool, g.masters ∘ h.masters, g.caps ∘ h.caps⟩

/-- A state written out field by field from `t`. -/
theorem Kept.mk' {s t : State} {hap free latch bus ev evPend r encl pwr nw clk tim ptp mram boot rt pins octs seg seqr caps evid arb
    sl cal ring spi usb eth tasp flt fw} {now : Instant} (h : Kept s t)
    (hmram : Memory.wf t.mram = true → Memory.wf mram = true)
    (hseg : SegOk t.seg → SegOk seg) (hocts : OctsOk t.octs → OctsOk octs) (hlog : LogOk t.nw.log → LogOk nw.log)
    (hspi : t.spi.queue.length ≤ 64 → spi.queue.length ≤ 64) (htasp : TaspOk t.tasp → TaspOk tasp)
    (harp : t.eth.arp.length ≤ 16 → eth.arp.length ≤ 16) (htrigs : t.ring.trigs.length ≤ 8 → ring.trigs.length ≤ 8)
    (hpool : t.sl.pool ≤ 16 → sl.pool ≤ 16) (hmasters : t.ptp.masters.length ≤ 4 → ptp.masters.length ≤ 4)
    (hcaps : CapsOk t.caps → CapsOk caps) (hnow : t.now ≤ now := by exact Nat.le_refl _) :
    Kept s (State.mk t.pending now hap free latch bus ev evPend r encl pwr nw clk tim ptp mram boot rt pins octs seg seqr caps evid arb
      sl cal ring spi usb eth tasp flt fw) :=
  h.trans ⟨rfl, hnow, hmram, hseg, hocts, hlog, hspi, htasp, harp, htrigs, hpool, hmasters, hcaps⟩

/-- A state that differs from `t` in none of these parts. -/
theorem Kept.same {s t : State} {hap free latch bus ev evPend r encl pwr nw clk tim ptp boot rt pins seg seqr evid arb
    sl cal ring spi usb eth tasp flt fw} (h : Kept s t)
    (hseg : SegOk t.seg → SegOk seg) (hlog : LogOk t.nw.log → LogOk nw.log)
    (hspi : t.spi.queue.length ≤ 64 → spi.queue.length ≤ 64) (htasp : TaspOk t.tasp → TaspOk tasp)
    (harp : t.eth.arp.length ≤ 16 → eth.arp.length ≤ 16) (htrigs : t.ring.trigs.length ≤ 8 → ring.trigs.length ≤ 8)
    (hpool : t.sl.pool ≤ 16 → sl.pool ≤ 16) (hmasters : t.ptp.masters.length ≤ 4 → ptp.masters.length ≤ 4) :
    Kept s (State.mk t.pending t.now hap free latch bus ev evPend r encl pwr nw clk tim ptp t.mram boot rt pins t.octs seg seqr t.caps
      evid arb sl cal ring spi usb eth tasp flt fw) :=
  h.trans ⟨rfl, Nat.le_refl _, id, hseg, id, hlog, hspi, htasp, harp, htrigs, hpool, hmasters, id⟩

theorem Kept.foldl {α : Type} {s t : State} (f : State → α → State) (l : List α) (h : Kept s t)
    (hf : ∀ u a, Kept s u → Kept s (f u a)) : Kept s (l.foldl f t) := by
  induction l generalizing t with
  | nil => exact h
  | cons a l ih => exact ih (hf _ _ h)

theorem Kept.foldr {α : Type} {s t : State} (f : α → State → State) (l : List α) (h : Kept s t)
    (hf : ∀ u a, Kept s u → Kept s (f a u)) : Kept s (l.foldr f t) := by
  induction l with
  | nil => exact h
  | cons a l ih => exact hf _ _ ih

theorem OctsOk.vmod {v : Vector OctCh 8} {k : Nat} {f : OctCh → OctCh} (h : OctsOk v)
    (hf : ∀ o, swf waveReset o.wave = true → swf waveReset (f o).wave = true) : OctsOk (vmod v k f) := by
  intro j
  rw [vget_vmod]
  split
  · exact hf _ (h j)
  · exact h j

theorem OctsOk.vmap {v : Vector OctCh 8} {f : Nat → OctCh → OctCh} (h : OctsOk v)
    (hf : ∀ k o, swf waveReset o.wave = true → swf waveReset (f k o).wave = true) : OctsOk (vmap v f) := by
  intro j
  by_cases hj : j < 8
  · rw [vget_vmap _ _ _ _ hj]
    exact hf _ _ (h j)
  · rw [vget_ge _ _ _ (Nat.not_lt.mp hj)]
    rfl

theorem CapsOk.vmap {v : Vector Cap 8} {f : Nat → Cap → Cap} (h : CapsOk v)
    (hf : ∀ k o, o.fifo.length ≤ 4096 → (f k o).fifo.length ≤ 4096) : CapsOk (vmap v f) := by
  intro j
  by_cases hj : j < 8
  · rw [vget_vmap _ _ _ _ hj]
    exact hf _ _ (h j)
  · rw [vget_ge _ _ _ (Nat.not_lt.mp hj)]
    exact Nat.zero_le _

theorem CapsOk.vmod {v : Vector Cap 8} {k : Nat} {f : Cap → Cap} (h : CapsOk v)
    (hf : ∀ c, c.fifo.length ≤ 4096 → (f c).fifo.length ≤ 4096) : CapsOk (vmod v k f) := by
  intro j
  rw [vget_vmod]
  split
  · exact hf _ (h j)
  · exact h j

theorem Kept.modOct {s t : State} (h : Kept s t) (k : Nat) (f : OctCh → OctCh)
    (hf : ∀ o, swf waveReset o.wave = true → swf waveReset (f o).wave = true) : Kept s (modOct k f t) :=
  h.mk' id id (fun g => g.vmod hf) id id id id id id id id

theorem Kept.modCap {s t : State} (h : Kept s t) (k : Nat) (f : Cap → Cap)
    (hf : ∀ c, c.fifo.length ≤ 4096 → (f c).fifo.length ≤ 4096) : Kept s (modCap k f t) :=
  h.mk' id id id id id id id id id id (fun g => g.vmod hf)

end Sys2Proof.Machine
end

