-- ==== Sys2Proof/Laws/State.lean ====
section
/-!
SUPPORT. State.lean: what every update of State leaves in each of its fields, field by field, and what is then read of a pin, an octet, a FIFO or a job
slot. No later proof needs to unfold one of these updates.
-/

set_option Elab.async false

namespace Sys2Proof.Machine

open Sys2Proof

variable (s : State)

/-! ### bump -/

section
variable (reg lo w n : Nat)
@[simp] theorem bump_pending : (bump reg lo w n s).pending = s.pending := rfl
@[simp] theorem bump_now : (bump reg lo w n s).now = s.now := rfl
@[simp] theorem bump_hap : (bump reg lo w n s).hap = s.hap := rfl
@[simp] theorem bump_free : (bump reg lo w n s).free = s.free := rfl
@[simp] theorem bump_latch : (bump reg lo w n s).latch = s.latch := rfl
@[simp] theorem bump_bus : (bump reg lo w n s).bus = s.bus := rfl
@[simp] theorem bump_ev : (bump reg lo w n s).ev = s.ev := rfl
@[simp] theorem bump_evPend : (bump reg lo w n s).evPend = ⟨reg, lo, w, .add, n⟩ :: s.evPend := rfl
@[simp] theorem bump_r : (bump reg lo w n s).r = s.r := rfl
@[simp] theorem bump_encl : (bump reg lo w n s).encl = s.encl := rfl
@[simp] theorem bump_pwr : (bump reg lo w n s).pwr = s.pwr := rfl
@[simp] theorem bump_nw : (bump reg lo w n s).nw = s.nw := rfl
@[simp] theorem bump_clk : (bump reg lo w n s).clk = s.clk := rfl
@[simp] theorem bump_tim : (bump reg lo w n s).tim = s.tim := rfl
@[simp] theorem bump_ptp : (bump reg lo w n s).ptp = s.ptp := rfl
@[simp] theorem bump_mram : (bump reg lo w n s).mram = s.mram := rfl
@[simp] theorem bump_boot : (bump reg lo w n s).boot = s.boot := rfl
@[simp] theorem bump_rt : (bump reg lo w n s).rt = s.rt := rfl
@[simp] theorem bump_pins : (bump reg lo w n s).pins = s.pins := rfl
@[simp] theorem bump_octs : (bump reg lo w n s).octs = s.octs := rfl
@[simp] theorem bump_seg : (bump reg lo w n s).seg = s.seg := rfl
@[simp] theorem bump_seqr : (bump reg lo w n s).seqr = s.seqr := rfl
@[simp] theorem bump_caps : (bump reg lo w n s).caps = s.caps := rfl
@[simp] theorem bump_evid : (bump reg lo w n s).evid = s.evid := rfl
@[simp] theorem bump_arb : (bump reg lo w n s).arb = s.arb := rfl
@[simp] theorem bump_sl : (bump reg lo w n s).sl = s.sl := rfl
@[simp] theorem bump_cal : (bump reg lo w n s).cal = s.cal := rfl
@[simp] theorem bump_ring : (bump reg lo w n s).ring = s.ring := rfl
@[simp] theorem bump_spi : (bump reg lo w n s).spi = s.spi := rfl
@[simp] theorem bump_usb : (bump reg lo w n s).usb = s.usb := rfl
@[simp] theorem bump_eth : (bump reg lo w n s).eth = s.eth := rfl
@[simp] theorem bump_tasp : (bump reg lo w n s).tasp = s.tasp := rfl
@[simp] theorem bump_flt : (bump reg lo w n s).flt = s.flt := rfl
@[simp] theorem bump_fw : (bump reg lo w n s).fw = s.fw := rfl
end

/-! ### bumpMax -/

section
variable (reg lo w n : Nat)
@[simp] theorem bumpMax_pending : (bumpMax reg lo w n s).pending = s.pending := rfl
@[simp] theorem bumpMax_now : (bumpMax reg lo w n s).now = s.now := rfl
@[simp] theorem bumpMax_hap : (bumpMax reg lo w n s).hap = s.hap := rfl
@[simp] theorem bumpMax_free : (bumpMax reg lo w n s).free = s.free := rfl
@[simp] theorem bumpMax_latch : (bumpMax reg lo w n s).latch = s.latch := rfl
@[simp] theorem bumpMax_bus : (bumpMax reg lo w n s).bus = s.bus := rfl
@[simp] theorem bumpMax_ev : (bumpMax reg lo w n s).ev = s.ev := rfl
@[simp] theorem bumpMax_evPend : (bumpMax reg lo w n s).evPend = ⟨reg, lo, w, .max, n⟩ :: s.evPend := rfl
@[simp] theorem bumpMax_r : (bumpMax reg lo w n s).r = s.r := rfl
@[simp] theorem bumpMax_encl : (bumpMax reg lo w n s).encl = s.encl := rfl
@[simp] theorem bumpMax_pwr : (bumpMax reg lo w n s).pwr = s.pwr := rfl
@[simp] theorem bumpMax_nw : (bumpMax reg lo w n s).nw = s.nw := rfl
@[simp] theorem bumpMax_clk : (bumpMax reg lo w n s).clk = s.clk := rfl
@[simp] theorem bumpMax_tim : (bumpMax reg lo w n s).tim = s.tim := rfl
@[simp] theorem bumpMax_ptp : (bumpMax reg lo w n s).ptp = s.ptp := rfl
@[simp] theorem bumpMax_mram : (bumpMax reg lo w n s).mram = s.mram := rfl
@[simp] theorem bumpMax_boot : (bumpMax reg lo w n s).boot = s.boot := rfl
@[simp] theorem bumpMax_rt : (bumpMax reg lo w n s).rt = s.rt := rfl
@[simp] theorem bumpMax_pins : (bumpMax reg lo w n s).pins = s.pins := rfl
@[simp] theorem bumpMax_octs : (bumpMax reg lo w n s).octs = s.octs := rfl
@[simp] theorem bumpMax_seg : (bumpMax reg lo w n s).seg = s.seg := rfl
@[simp] theorem bumpMax_seqr : (bumpMax reg lo w n s).seqr = s.seqr := rfl
@[simp] theorem bumpMax_caps : (bumpMax reg lo w n s).caps = s.caps := rfl
@[simp] theorem bumpMax_evid : (bumpMax reg lo w n s).evid = s.evid := rfl
@[simp] theorem bumpMax_arb : (bumpMax reg lo w n s).arb = s.arb := rfl
@[simp] theorem bumpMax_sl : (bumpMax reg lo w n s).sl = s.sl := rfl
@[simp] theorem bumpMax_cal : (bumpMax reg lo w n s).cal = s.cal := rfl
@[simp] theorem bumpMax_ring : (bumpMax reg lo w n s).ring = s.ring := rfl
@[simp] theorem bumpMax_spi : (bumpMax reg lo w n s).spi = s.spi := rfl
@[simp] theorem bumpMax_usb : (bumpMax reg lo w n s).usb = s.usb := rfl
@[simp] theorem bumpMax_eth : (bumpMax reg lo w n s).eth = s.eth := rfl
@[simp] theorem bumpMax_tasp : (bumpMax reg lo w n s).tasp = s.tasp := rfl
@[simp] theorem bumpMax_flt : (bumpMax reg lo w n s).flt = s.flt := rfl
@[simp] theorem bumpMax_fw : (bumpMax reg lo w n s).fw = s.fw := rfl
end

/-! ### bumpSet -/

section
variable (reg lo : Nat)
@[simp] theorem bumpSet_pending : (bumpSet reg lo s).pending = s.pending := rfl
@[simp] theorem bumpSet_now : (bumpSet reg lo s).now = s.now := rfl
@[simp] theorem bumpSet_hap : (bumpSet reg lo s).hap = s.hap := rfl
@[simp] theorem bumpSet_free : (bumpSet reg lo s).free = s.free := rfl
@[simp] theorem bumpSet_latch : (bumpSet reg lo s).latch = s.latch := rfl
@[simp] theorem bumpSet_bus : (bumpSet reg lo s).bus = s.bus := rfl
@[simp] theorem bumpSet_ev : (bumpSet reg lo s).ev = s.ev := rfl
@[simp] theorem bumpSet_evPend : (bumpSet reg lo s).evPend = ⟨reg, lo, 1, .set, 1⟩ :: s.evPend := rfl
@[simp] theorem bumpSet_r : (bumpSet reg lo s).r = s.r := rfl
@[simp] theorem bumpSet_encl : (bumpSet reg lo s).encl = s.encl := rfl
@[simp] theorem bumpSet_pwr : (bumpSet reg lo s).pwr = s.pwr := rfl
@[simp] theorem bumpSet_nw : (bumpSet reg lo s).nw = s.nw := rfl
@[simp] theorem bumpSet_clk : (bumpSet reg lo s).clk = s.clk := rfl
@[simp] theorem bumpSet_tim : (bumpSet reg lo s).tim = s.tim := rfl
@[simp] theorem bumpSet_ptp : (bumpSet reg lo s).ptp = s.ptp := rfl
@[simp] theorem bumpSet_mram : (bumpSet reg lo s).mram = s.mram := rfl
@[simp] theorem bumpSet_boot : (bumpSet reg lo s).boot = s.boot := rfl
@[simp] theorem bumpSet_rt : (bumpSet reg lo s).rt = s.rt := rfl
@[simp] theorem bumpSet_pins : (bumpSet reg lo s).pins = s.pins := rfl
@[simp] theorem bumpSet_octs : (bumpSet reg lo s).octs = s.octs := rfl
@[simp] theorem bumpSet_seg : (bumpSet reg lo s).seg = s.seg := rfl
@[simp] theorem bumpSet_seqr : (bumpSet reg lo s).seqr = s.seqr := rfl
@[simp] theorem bumpSet_caps : (bumpSet reg lo s).caps = s.caps := rfl
@[simp] theorem bumpSet_evid : (bumpSet reg lo s).evid = s.evid := rfl
@[simp] theorem bumpSet_arb : (bumpSet reg lo s).arb = s.arb := rfl
@[simp] theorem bumpSet_sl : (bumpSet reg lo s).sl = s.sl := rfl
@[simp] theorem bumpSet_cal : (bumpSet reg lo s).cal = s.cal := rfl
@[simp] theorem bumpSet_ring : (bumpSet reg lo s).ring = s.ring := rfl
@[simp] theorem bumpSet_spi : (bumpSet reg lo s).spi = s.spi := rfl
@[simp] theorem bumpSet_usb : (bumpSet reg lo s).usb = s.usb := rfl
@[simp] theorem bumpSet_eth : (bumpSet reg lo s).eth = s.eth := rfl
@[simp] theorem bumpSet_tasp : (bumpSet reg lo s).tasp = s.tasp := rfl
@[simp] theorem bumpSet_flt : (bumpSet reg lo s).flt = s.flt := rfl
@[simp] theorem bumpSet_fw : (bumpSet reg lo s).fw = s.fw := rfl
end

/-! ### answer -/

section
variable (p : Port) (a : Nat) (wr : Bool) (v : Word) (x : BusRes)
@[simp] theorem answer_pending : (answer p a wr v x s).pending = s.pending := rfl
@[simp] theorem answer_now : (answer p a wr v x s).now = s.now := rfl
@[simp] theorem answer_hap : (answer p a wr v x s).hap = s.hap := rfl
@[simp] theorem answer_free : (answer p a wr v x s).free = s.free := rfl
@[simp] theorem answer_latch : (answer p a wr v x s).latch = s.latch := rfl
@[simp] theorem answer_bus : (answer p a wr v x s).bus = some ⟨p, a, wr, v, x⟩ := rfl
@[simp] theorem answer_ev : (answer p a wr v x s).ev = s.ev := rfl
@[simp] theorem answer_evPend : (answer p a wr v x s).evPend = s.evPend := rfl
@[simp] theorem answer_r : (answer p a wr v x s).r = s.r := rfl
@[simp] theorem answer_encl : (answer p a wr v x s).encl = s.encl := rfl
@[simp] theorem answer_pwr : (answer p a wr v x s).pwr = s.pwr := rfl
@[simp] theorem answer_nw : (answer p a wr v x s).nw = s.nw := rfl
@[simp] theorem answer_clk : (answer p a wr v x s).clk = s.clk := rfl
@[simp] theorem answer_tim : (answer p a wr v x s).tim = s.tim := rfl
@[simp] theorem answer_ptp : (answer p a wr v x s).ptp = s.ptp := rfl
@[simp] theorem answer_mram : (answer p a wr v x s).mram = s.mram := rfl
@[simp] theorem answer_boot : (answer p a wr v x s).boot = s.boot := rfl
@[simp] theorem answer_rt : (answer p a wr v x s).rt = s.rt := rfl
@[simp] theorem answer_pins : (answer p a wr v x s).pins = s.pins := rfl
@[simp] theorem answer_octs : (answer p a wr v x s).octs = s.octs := rfl
@[simp] theorem answer_seg : (answer p a wr v x s).seg = s.seg := rfl
@[simp] theorem answer_seqr : (answer p a wr v x s).seqr = s.seqr := rfl
@[simp] theorem answer_caps : (answer p a wr v x s).caps = s.caps := rfl
@[simp] theorem answer_evid : (answer p a wr v x s).evid = s.evid := rfl
@[simp] theorem answer_arb : (answer p a wr v x s).arb = s.arb := rfl
@[simp] theorem answer_sl : (answer p a wr v x s).sl = s.sl := rfl
@[simp] theorem answer_cal : (answer p a wr v x s).cal = s.cal := rfl
@[simp] theorem answer_ring : (answer p a wr v x s).ring = s.ring := rfl
@[simp] theorem answer_spi : (answer p a wr v x s).spi = s.spi := rfl
@[simp] theorem answer_usb : (answer p a wr v x s).usb = s.usb := rfl
@[simp] theorem answer_eth : (answer p a wr v x s).eth = s.eth := rfl
@[simp] theorem answer_tasp : (answer p a wr v x s).tasp = s.tasp := rfl
@[simp] theorem answer_flt : (answer p a wr v x s).flt = s.flt := rfl
@[simp] theorem answer_fw : (answer p a wr v x s).fw = s.fw := rfl
end

/-! ### settle -/

@[simp] theorem settle_pending : (settle s).pending = s.pending := rfl
@[simp] theorem settle_now : (settle s).now = s.now := rfl
@[simp] theorem settle_hap : (settle s).hap = s.hap := rfl
@[simp] theorem settle_free : (settle s).free = s.free := rfl
@[simp] theorem settle_latch : (settle s).latch = s.latch := rfl
@[simp] theorem settle_bus : (settle s).bus = s.bus := rfl
@[simp] theorem settle_ev : (settle s).ev = s.evPend.reverse.foldl applyBump s.ev := rfl
@[simp] theorem settle_evPend : (settle s).evPend = [] := rfl
@[simp] theorem settle_r : (settle s).r = s.r := rfl
@[simp] theorem settle_encl : (settle s).encl = s.encl := rfl
@[simp] theorem settle_pwr : (settle s).pwr = s.pwr := rfl
@[simp] theorem settle_nw : (settle s).nw = s.nw := rfl
@[simp] theorem settle_clk : (settle s).clk = s.clk := rfl
@[simp] theorem settle_tim : (settle s).tim = s.tim := rfl
@[simp] theorem settle_ptp : (settle s).ptp = s.ptp := rfl
@[simp] theorem settle_mram : (settle s).mram = s.mram := rfl
@[simp] theorem settle_boot : (settle s).boot = s.boot := rfl
@[simp] theorem settle_rt : (settle s).rt = s.rt := rfl
@[simp] theorem settle_pins : (settle s).pins = s.pins := rfl
@[simp] theorem settle_octs : (settle s).octs = s.octs := rfl
@[simp] theorem settle_seg : (settle s).seg = s.seg := rfl
@[simp] theorem settle_seqr : (settle s).seqr = s.seqr := rfl
@[simp] theorem settle_caps : (settle s).caps = s.caps := rfl
@[simp] theorem settle_evid : (settle s).evid = s.evid := rfl
@[simp] theorem settle_arb : (settle s).arb = s.arb := rfl
@[simp] theorem settle_sl : (settle s).sl = s.sl := rfl
@[simp] theorem settle_cal : (settle s).cal = s.cal := rfl
@[simp] theorem settle_ring : (settle s).ring = s.ring := rfl
@[simp] theorem settle_spi : (settle s).spi = s.spi := rfl
@[simp] theorem settle_usb : (settle s).usb = s.usb := rfl
@[simp] theorem settle_eth : (settle s).eth = s.eth := rfl
@[simp] theorem settle_tasp : (settle s).tasp = s.tasp := rfl
@[simp] theorem settle_flt : (settle s).flt = s.flt := rfl
@[simp] theorem settle_fw : (settle s).fw = s.fw := rfl

/-! ### modPin -/

section
variable (n : Nat) (f : PinCh → PinCh)
@[simp] theorem modPin_pending : (modPin n f s).pending = s.pending := rfl
@[simp] theorem modPin_now : (modPin n f s).now = s.now := rfl
@[simp] theorem modPin_hap : (modPin n f s).hap = s.hap := rfl
@[simp] theorem modPin_free : (modPin n f s).free = s.free := rfl
@[simp] theorem modPin_latch : (modPin n f s).latch = s.latch := rfl
@[simp] theorem modPin_bus : (modPin n f s).bus = s.bus := rfl
@[simp] theorem modPin_ev : (modPin n f s).ev = s.ev := rfl
@[simp] theorem modPin_evPend : (modPin n f s).evPend = s.evPend := rfl
@[simp] theorem modPin_r : (modPin n f s).r = s.r := rfl
@[simp] theorem modPin_encl : (modPin n f s).encl = s.encl := rfl
@[simp] theorem modPin_pwr : (modPin n f s).pwr = s.pwr := rfl
@[simp] theorem modPin_nw : (modPin n f s).nw = s.nw := rfl
@[simp] theorem modPin_clk : (modPin n f s).clk = s.clk := rfl
@[simp] theorem modPin_tim : (modPin n f s).tim = s.tim := rfl
@[simp] theorem modPin_ptp : (modPin n f s).ptp = s.ptp := rfl
@[simp] theorem modPin_mram : (modPin n f s).mram = s.mram := rfl
@[simp] theorem modPin_boot : (modPin n f s).boot = s.boot := rfl
@[simp] theorem modPin_rt : (modPin n f s).rt = s.rt := rfl
@[simp] theorem modPin_pins : (modPin n f s).pins = vmod s.pins n f := rfl
@[simp] theorem modPin_octs : (modPin n f s).octs = s.octs := rfl
@[simp] theorem modPin_seg : (modPin n f s).seg = s.seg := rfl
@[simp] theorem modPin_seqr : (modPin n f s).seqr = s.seqr := rfl
@[simp] theorem modPin_caps : (modPin n f s).caps = s.caps := rfl
@[simp] theorem modPin_evid : (modPin n f s).evid = s.evid := rfl
@[simp] theorem modPin_arb : (modPin n f s).arb = s.arb := rfl
@[simp] theorem modPin_sl : (modPin n f s).sl = s.sl := rfl
@[simp] theorem modPin_cal : (modPin n f s).cal = s.cal := rfl
@[simp] theorem modPin_ring : (modPin n f s).ring = s.ring := rfl
@[simp] theorem modPin_spi : (modPin n f s).spi = s.spi := rfl
@[simp] theorem modPin_usb : (modPin n f s).usb = s.usb := rfl
@[simp] theorem modPin_eth : (modPin n f s).eth = s.eth := rfl
@[simp] theorem modPin_tasp : (modPin n f s).tasp = s.tasp := rfl
@[simp] theorem modPin_flt : (modPin n f s).flt = s.flt := rfl
@[simp] theorem modPin_fw : (modPin n f s).fw = s.fw := rfl
end

/-! ### modOct -/

section
variable (n : Nat) (f : OctCh → OctCh)
@[simp] theorem modOct_pending : (modOct n f s).pending = s.pending := rfl
@[simp] theorem modOct_now : (modOct n f s).now = s.now := rfl
@[simp] theorem modOct_hap : (modOct n f s).hap = s.hap := rfl
@[simp] theorem modOct_free : (modOct n f s).free = s.free := rfl
@[simp] theorem modOct_latch : (modOct n f s).latch = s.latch := rfl
@[simp] theorem modOct_bus : (modOct n f s).bus = s.bus := rfl
@[simp] theorem modOct_ev : (modOct n f s).ev = s.ev := rfl
@[simp] theorem modOct_evPend : (modOct n f s).evPend = s.evPend := rfl
@[simp] theorem modOct_r : (modOct n f s).r = s.r := rfl
@[simp] theorem modOct_encl : (modOct n f s).encl = s.encl := rfl
@[simp] theorem modOct_pwr : (modOct n f s).pwr = s.pwr := rfl
@[simp] theorem modOct_nw : (modOct n f s).nw = s.nw := rfl
@[simp] theorem modOct_clk : (modOct n f s).clk = s.clk := rfl
@[simp] theorem modOct_tim : (modOct n f s).tim = s.tim := rfl
@[simp] theorem modOct_ptp : (modOct n f s).ptp = s.ptp := rfl
@[simp] theorem modOct_mram : (modOct n f s).mram = s.mram := rfl
@[simp] theorem modOct_boot : (modOct n f s).boot = s.boot := rfl
@[simp] theorem modOct_rt : (modOct n f s).rt = s.rt := rfl
@[simp] theorem modOct_pins : (modOct n f s).pins = s.pins := rfl
@[simp] theorem modOct_octs : (modOct n f s).octs = vmod s.octs n f := rfl
@[simp] theorem modOct_seg : (modOct n f s).seg = s.seg := rfl
@[simp] theorem modOct_seqr : (modOct n f s).seqr = s.seqr := rfl
@[simp] theorem modOct_caps : (modOct n f s).caps = s.caps := rfl
@[simp] theorem modOct_evid : (modOct n f s).evid = s.evid := rfl
@[simp] theorem modOct_arb : (modOct n f s).arb = s.arb := rfl
@[simp] theorem modOct_sl : (modOct n f s).sl = s.sl := rfl
@[simp] theorem modOct_cal : (modOct n f s).cal = s.cal := rfl
@[simp] theorem modOct_ring : (modOct n f s).ring = s.ring := rfl
@[simp] theorem modOct_spi : (modOct n f s).spi = s.spi := rfl
@[simp] theorem modOct_usb : (modOct n f s).usb = s.usb := rfl
@[simp] theorem modOct_eth : (modOct n f s).eth = s.eth := rfl
@[simp] theorem modOct_tasp : (modOct n f s).tasp = s.tasp := rfl
@[simp] theorem modOct_flt : (modOct n f s).flt = s.flt := rfl
@[simp] theorem modOct_fw : (modOct n f s).fw = s.fw := rfl
end

/-! ### modCap -/

section
variable (n : Nat) (f : Cap → Cap)
@[simp] theorem modCap_pending : (modCap n f s).pending = s.pending := rfl
@[simp] theorem modCap_now : (modCap n f s).now = s.now := rfl
@[simp] theorem modCap_hap : (modCap n f s).hap = s.hap := rfl
@[simp] theorem modCap_free : (modCap n f s).free = s.free := rfl
@[simp] theorem modCap_latch : (modCap n f s).latch = s.latch := rfl
@[simp] theorem modCap_bus : (modCap n f s).bus = s.bus := rfl
@[simp] theorem modCap_ev : (modCap n f s).ev = s.ev := rfl
@[simp] theorem modCap_evPend : (modCap n f s).evPend = s.evPend := rfl
@[simp] theorem modCap_r : (modCap n f s).r = s.r := rfl
@[simp] theorem modCap_encl : (modCap n f s).encl = s.encl := rfl
@[simp] theorem modCap_pwr : (modCap n f s).pwr = s.pwr := rfl
@[simp] theorem modCap_nw : (modCap n f s).nw = s.nw := rfl
@[simp] theorem modCap_clk : (modCap n f s).clk = s.clk := rfl
@[simp] theorem modCap_tim : (modCap n f s).tim = s.tim := rfl
@[simp] theorem modCap_ptp : (modCap n f s).ptp = s.ptp := rfl
@[simp] theorem modCap_mram : (modCap n f s).mram = s.mram := rfl
@[simp] theorem modCap_boot : (modCap n f s).boot = s.boot := rfl
@[simp] theorem modCap_rt : (modCap n f s).rt = s.rt := rfl
@[simp] theorem modCap_pins : (modCap n f s).pins = s.pins := rfl
@[simp] theorem modCap_octs : (modCap n f s).octs = s.octs := rfl
@[simp] theorem modCap_seg : (modCap n f s).seg = s.seg := rfl
@[simp] theorem modCap_seqr : (modCap n f s).seqr = s.seqr := rfl
@[simp] theorem modCap_caps : (modCap n f s).caps = vmod s.caps n f := rfl
@[simp] theorem modCap_evid : (modCap n f s).evid = s.evid := rfl
@[simp] theorem modCap_arb : (modCap n f s).arb = s.arb := rfl
@[simp] theorem modCap_sl : (modCap n f s).sl = s.sl := rfl
@[simp] theorem modCap_cal : (modCap n f s).cal = s.cal := rfl
@[simp] theorem modCap_ring : (modCap n f s).ring = s.ring := rfl
@[simp] theorem modCap_spi : (modCap n f s).spi = s.spi := rfl
@[simp] theorem modCap_usb : (modCap n f s).usb = s.usb := rfl
@[simp] theorem modCap_eth : (modCap n f s).eth = s.eth := rfl
@[simp] theorem modCap_tasp : (modCap n f s).tasp = s.tasp := rfl
@[simp] theorem modCap_flt : (modCap n f s).flt = s.flt := rfl
@[simp] theorem modCap_fw : (modCap n f s).fw = s.fw := rfl
end

/-! ### modSlot -/

section
variable (n : Nat) (f : Slot → Slot)
@[simp] theorem modSlot_pending : (modSlot n f s).pending = s.pending := rfl
@[simp] theorem modSlot_now : (modSlot n f s).now = s.now := rfl
@[simp] theorem modSlot_hap : (modSlot n f s).hap = s.hap := rfl
@[simp] theorem modSlot_free : (modSlot n f s).free = s.free := rfl
@[simp] theorem modSlot_latch : (modSlot n f s).latch = s.latch := rfl
@[simp] theorem modSlot_bus : (modSlot n f s).bus = s.bus := rfl
@[simp] theorem modSlot_ev : (modSlot n f s).ev = s.ev := rfl
@[simp] theorem modSlot_evPend : (modSlot n f s).evPend = s.evPend := rfl
@[simp] theorem modSlot_r : (modSlot n f s).r = s.r := rfl
@[simp] theorem modSlot_encl : (modSlot n f s).encl = s.encl := rfl
@[simp] theorem modSlot_pwr : (modSlot n f s).pwr = s.pwr := rfl
@[simp] theorem modSlot_nw : (modSlot n f s).nw = s.nw := rfl
@[simp] theorem modSlot_clk : (modSlot n f s).clk = s.clk := rfl
@[simp] theorem modSlot_tim : (modSlot n f s).tim = s.tim := rfl
@[simp] theorem modSlot_ptp : (modSlot n f s).ptp = s.ptp := rfl
@[simp] theorem modSlot_mram : (modSlot n f s).mram = s.mram := rfl
@[simp] theorem modSlot_boot : (modSlot n f s).boot = s.boot := rfl
@[simp] theorem modSlot_rt : (modSlot n f s).rt = s.rt := rfl
@[simp] theorem modSlot_pins : (modSlot n f s).pins = s.pins := rfl
@[simp] theorem modSlot_octs : (modSlot n f s).octs = s.octs := rfl
@[simp] theorem modSlot_seg : (modSlot n f s).seg = s.seg := rfl
@[simp] theorem modSlot_seqr : (modSlot n f s).seqr = { s.seqr with slots := vmod s.seqr.slots n f } := rfl
@[simp] theorem modSlot_caps : (modSlot n f s).caps = s.caps := rfl
@[simp] theorem modSlot_evid : (modSlot n f s).evid = s.evid := rfl
@[simp] theorem modSlot_arb : (modSlot n f s).arb = s.arb := rfl
@[simp] theorem modSlot_sl : (modSlot n f s).sl = s.sl := rfl
@[simp] theorem modSlot_cal : (modSlot n f s).cal = s.cal := rfl
@[simp] theorem modSlot_ring : (modSlot n f s).ring = s.ring := rfl
@[simp] theorem modSlot_spi : (modSlot n f s).spi = s.spi := rfl
@[simp] theorem modSlot_usb : (modSlot n f s).usb = s.usb := rfl
@[simp] theorem modSlot_eth : (modSlot n f s).eth = s.eth := rfl
@[simp] theorem modSlot_tasp : (modSlot n f s).tasp = s.tasp := rfl
@[simp] theorem modSlot_flt : (modSlot n f s).flt = s.flt := rfl
@[simp] theorem modSlot_fw : (modSlot n f s).fw = s.fw := rfl
end

/-! ### modScope -/

section
variable (src oct : Nat) (f : FltScope → FltScope)
@[simp] theorem modScope_pending : (modScope src oct f s).pending = s.pending := rfl
@[simp] theorem modScope_now : (modScope src oct f s).now = s.now := rfl
@[simp] theorem modScope_hap : (modScope src oct f s).hap = s.hap := rfl
@[simp] theorem modScope_free : (modScope src oct f s).free = s.free := rfl
@[simp] theorem modScope_latch : (modScope src oct f s).latch = s.latch := rfl
@[simp] theorem modScope_bus : (modScope src oct f s).bus = s.bus := rfl
@[simp] theorem modScope_ev : (modScope src oct f s).ev = s.ev := rfl
@[simp] theorem modScope_evPend : (modScope src oct f s).evPend = s.evPend := rfl
@[simp] theorem modScope_r : (modScope src oct f s).r = s.r := rfl
@[simp] theorem modScope_encl : (modScope src oct f s).encl = s.encl := rfl
@[simp] theorem modScope_pwr : (modScope src oct f s).pwr = s.pwr := rfl
@[simp] theorem modScope_nw : (modScope src oct f s).nw = s.nw := rfl
@[simp] theorem modScope_clk : (modScope src oct f s).clk = s.clk := rfl
@[simp] theorem modScope_tim : (modScope src oct f s).tim = s.tim := rfl
@[simp] theorem modScope_ptp : (modScope src oct f s).ptp = s.ptp := rfl
@[simp] theorem modScope_mram : (modScope src oct f s).mram = s.mram := rfl
@[simp] theorem modScope_boot : (modScope src oct f s).boot = s.boot := rfl
@[simp] theorem modScope_rt : (modScope src oct f s).rt = s.rt := rfl
@[simp] theorem modScope_pins : (modScope src oct f s).pins = s.pins := rfl
@[simp] theorem modScope_octs : (modScope src oct f s).octs = s.octs := rfl
@[simp] theorem modScope_seg : (modScope src oct f s).seg = s.seg := rfl
@[simp] theorem modScope_seqr : (modScope src oct f s).seqr = s.seqr := rfl
@[simp] theorem modScope_caps : (modScope src oct f s).caps = s.caps := rfl
@[simp] theorem modScope_evid : (modScope src oct f s).evid = s.evid := rfl
@[simp] theorem modScope_arb : (modScope src oct f s).arb = s.arb := rfl
@[simp] theorem modScope_sl : (modScope src oct f s).sl = s.sl := rfl
@[simp] theorem modScope_cal : (modScope src oct f s).cal = s.cal := rfl
@[simp] theorem modScope_ring : (modScope src oct f s).ring = s.ring := rfl
@[simp] theorem modScope_spi : (modScope src oct f s).spi = s.spi := rfl
@[simp] theorem modScope_usb : (modScope src oct f s).usb = s.usb := rfl
@[simp] theorem modScope_eth : (modScope src oct f s).eth = s.eth := rfl
@[simp] theorem modScope_tasp : (modScope src oct f s).tasp = s.tasp := rfl
@[simp] theorem modScope_flt : (modScope src oct f s).flt = vmod s.flt (scopeIx src oct) f := rfl
@[simp] theorem modScope_fw : (modScope src oct f s).fw = s.fw := rfl
end

/-! ### modChan -/

section
variable (n : Nat) (f : Chan → Chan)
@[simp] theorem modChan_pending : (modChan n f s).pending = s.pending := rfl
@[simp] theorem modChan_now : (modChan n f s).now = s.now := rfl
@[simp] theorem modChan_hap : (modChan n f s).hap = s.hap := rfl
@[simp] theorem modChan_free : (modChan n f s).free = s.free := rfl
@[simp] theorem modChan_latch : (modChan n f s).latch = s.latch := rfl
@[simp] theorem modChan_bus : (modChan n f s).bus = s.bus := rfl
@[simp] theorem modChan_ev : (modChan n f s).ev = s.ev := rfl
@[simp] theorem modChan_evPend : (modChan n f s).evPend = s.evPend := rfl
@[simp] theorem modChan_r : (modChan n f s).r = s.r := rfl
@[simp] theorem modChan_encl : (modChan n f s).encl = s.encl := rfl
@[simp] theorem modChan_pwr : (modChan n f s).pwr = s.pwr := rfl
@[simp] theorem modChan_nw : (modChan n f s).nw = s.nw := rfl
@[simp] theorem modChan_clk : (modChan n f s).clk = s.clk := rfl
@[simp] theorem modChan_tim : (modChan n f s).tim = s.tim := rfl
@[simp] theorem modChan_ptp : (modChan n f s).ptp = s.ptp := rfl
@[simp] theorem modChan_mram : (modChan n f s).mram = s.mram := rfl
@[simp] theorem modChan_boot : (modChan n f s).boot = s.boot := rfl
@[simp] theorem modChan_rt : (modChan n f s).rt = s.rt := rfl
@[simp] theorem modChan_pins : (modChan n f s).pins = s.pins := rfl
@[simp] theorem modChan_octs : (modChan n f s).octs = s.octs := rfl
@[simp] theorem modChan_seg : (modChan n f s).seg = s.seg := rfl
@[simp] theorem modChan_seqr : (modChan n f s).seqr = s.seqr := rfl
@[simp] theorem modChan_caps : (modChan n f s).caps = s.caps := rfl
@[simp] theorem modChan_evid : (modChan n f s).evid = s.evid := rfl
@[simp] theorem modChan_arb : (modChan n f s).arb = s.arb := rfl
@[simp] theorem modChan_sl : (modChan n f s).sl = s.sl := rfl
@[simp] theorem modChan_cal : (modChan n f s).cal = { s.cal with ch := vmod s.cal.ch n f } := rfl
@[simp] theorem modChan_ring : (modChan n f s).ring = s.ring := rfl
@[simp] theorem modChan_spi : (modChan n f s).spi = s.spi := rfl
@[simp] theorem modChan_usb : (modChan n f s).usb = s.usb := rfl
@[simp] theorem modChan_eth : (modChan n f s).eth = s.eth := rfl
@[simp] theorem modChan_tasp : (modChan n f s).tasp = s.tasp := rfl
@[simp] theorem modChan_flt : (modChan n f s).flt = s.flt := rfl
@[simp] theorem modChan_fw : (modChan n f s).fw = s.fw := rfl
end

/-! ### modAgree -/

section
variable (f : Agree → Agree)
@[simp] theorem modAgree_pending : (modAgree f s).pending = s.pending := rfl
@[simp] theorem modAgree_now : (modAgree f s).now = s.now := rfl
@[simp] theorem modAgree_hap : (modAgree f s).hap = s.hap := rfl
@[simp] theorem modAgree_free : (modAgree f s).free = s.free := rfl
@[simp] theorem modAgree_latch : (modAgree f s).latch = s.latch := rfl
@[simp] theorem modAgree_bus : (modAgree f s).bus = s.bus := rfl
@[simp] theorem modAgree_ev : (modAgree f s).ev = s.ev := rfl
@[simp] theorem modAgree_evPend : (modAgree f s).evPend = s.evPend := rfl
@[simp] theorem modAgree_r : (modAgree f s).r = s.r := rfl
@[simp] theorem modAgree_encl : (modAgree f s).encl = s.encl := rfl
@[simp] theorem modAgree_pwr : (modAgree f s).pwr = s.pwr := rfl
@[simp] theorem modAgree_nw : (modAgree f s).nw = s.nw := rfl
@[simp] theorem modAgree_clk : (modAgree f s).clk = s.clk := rfl
@[simp] theorem modAgree_tim : (modAgree f s).tim = s.tim := rfl
@[simp] theorem modAgree_ptp : (modAgree f s).ptp = s.ptp := rfl
@[simp] theorem modAgree_mram : (modAgree f s).mram = s.mram := rfl
@[simp] theorem modAgree_boot : (modAgree f s).boot = s.boot := rfl
@[simp] theorem modAgree_rt : (modAgree f s).rt = s.rt := rfl
@[simp] theorem modAgree_pins : (modAgree f s).pins = s.pins := rfl
@[simp] theorem modAgree_octs : (modAgree f s).octs = s.octs := rfl
@[simp] theorem modAgree_seg : (modAgree f s).seg = s.seg := rfl
@[simp] theorem modAgree_seqr : (modAgree f s).seqr = s.seqr := rfl
@[simp] theorem modAgree_caps : (modAgree f s).caps = s.caps := rfl
@[simp] theorem modAgree_evid : (modAgree f s).evid = s.evid := rfl
@[simp] theorem modAgree_arb : (modAgree f s).arb = s.arb := rfl
@[simp] theorem modAgree_sl : (modAgree f s).sl = s.sl := rfl
@[simp] theorem modAgree_cal : (modAgree f s).cal = s.cal := rfl
@[simp] theorem modAgree_ring : (modAgree f s).ring = { s.ring with agree := f s.ring.agree } := rfl
@[simp] theorem modAgree_spi : (modAgree f s).spi = s.spi := rfl
@[simp] theorem modAgree_usb : (modAgree f s).usb = s.usb := rfl
@[simp] theorem modAgree_eth : (modAgree f s).eth = s.eth := rfl
@[simp] theorem modAgree_tasp : (modAgree f s).tasp = s.tasp := rfl
@[simp] theorem modAgree_flt : (modAgree f s).flt = s.flt := rfl
@[simp] theorem modAgree_fw : (modAgree f s).fw = s.fw := rfl
end

/-! ### modSess -/

section
variable (n : Nat) (f : Sess → Sess)
@[simp] theorem modSess_pending : (modSess n f s).pending = s.pending := rfl
@[simp] theorem modSess_now : (modSess n f s).now = s.now := rfl
@[simp] theorem modSess_hap : (modSess n f s).hap = s.hap := rfl
@[simp] theorem modSess_free : (modSess n f s).free = s.free := rfl
@[simp] theorem modSess_latch : (modSess n f s).latch = s.latch := rfl
@[simp] theorem modSess_bus : (modSess n f s).bus = s.bus := rfl
@[simp] theorem modSess_ev : (modSess n f s).ev = s.ev := rfl
@[simp] theorem modSess_evPend : (modSess n f s).evPend = s.evPend := rfl
@[simp] theorem modSess_r : (modSess n f s).r = s.r := rfl
@[simp] theorem modSess_encl : (modSess n f s).encl = s.encl := rfl
@[simp] theorem modSess_pwr : (modSess n f s).pwr = s.pwr := rfl
@[simp] theorem modSess_nw : (modSess n f s).nw = s.nw := rfl
@[simp] theorem modSess_clk : (modSess n f s).clk = s.clk := rfl
@[simp] theorem modSess_tim : (modSess n f s).tim = s.tim := rfl
@[simp] theorem modSess_ptp : (modSess n f s).ptp = s.ptp := rfl
@[simp] theorem modSess_mram : (modSess n f s).mram = s.mram := rfl
@[simp] theorem modSess_boot : (modSess n f s).boot = s.boot := rfl
@[simp] theorem modSess_rt : (modSess n f s).rt = s.rt := rfl
@[simp] theorem modSess_pins : (modSess n f s).pins = s.pins := rfl
@[simp] theorem modSess_octs : (modSess n f s).octs = s.octs := rfl
@[simp] theorem modSess_seg : (modSess n f s).seg = s.seg := rfl
@[simp] theorem modSess_seqr : (modSess n f s).seqr = s.seqr := rfl
@[simp] theorem modSess_caps : (modSess n f s).caps = s.caps := rfl
@[simp] theorem modSess_evid : (modSess n f s).evid = s.evid := rfl
@[simp] theorem modSess_arb : (modSess n f s).arb = s.arb := rfl
@[simp] theorem modSess_sl : (modSess n f s).sl = s.sl := rfl
@[simp] theorem modSess_cal : (modSess n f s).cal = s.cal := rfl
@[simp] theorem modSess_ring : (modSess n f s).ring = s.ring := rfl
@[simp] theorem modSess_spi : (modSess n f s).spi = s.spi := rfl
@[simp] theorem modSess_usb : (modSess n f s).usb = s.usb := rfl
@[simp] theorem modSess_eth : (modSess n f s).eth = s.eth := rfl
@[simp] theorem modSess_tasp : (modSess n f s).tasp = { s.tasp with sess := vmod s.tasp.sess n fun o => o.map f } := rfl
@[simp] theorem modSess_flt : (modSess n f s).flt = s.flt := rfl
@[simp] theorem modSess_fw : (modSess n f s).fw = s.fw := rfl
end

/-! ### modArb -/

section
variable (f : Arb → Arb)
@[simp] theorem modArb_pending : (modArb f s).pending = s.pending := rfl
@[simp] theorem modArb_now : (modArb f s).now = s.now := rfl
@[simp] theorem modArb_hap : (modArb f s).hap = s.hap := rfl
@[simp] theorem modArb_free : (modArb f s).free = s.free := rfl
@[simp] theorem modArb_latch : (modArb f s).latch = s.latch := rfl
@[simp] theorem modArb_bus : (modArb f s).bus = s.bus := rfl
@[simp] theorem modArb_ev : (modArb f s).ev = s.ev := rfl
@[simp] theorem modArb_evPend : (modArb f s).evPend = s.evPend := rfl
@[simp] theorem modArb_r : (modArb f s).r = s.r := rfl
@[simp] theorem modArb_encl : (modArb f s).encl = s.encl := rfl
@[simp] theorem modArb_pwr : (modArb f s).pwr = s.pwr := rfl
@[simp] theorem modArb_nw : (modArb f s).nw = s.nw := rfl
@[simp] theorem modArb_clk : (modArb f s).clk = s.clk := rfl
@[simp] theorem modArb_tim : (modArb f s).tim = s.tim := rfl
@[simp] theorem modArb_ptp : (modArb f s).ptp = s.ptp := rfl
@[simp] theorem modArb_mram : (modArb f s).mram = s.mram := rfl
@[simp] theorem modArb_boot : (modArb f s).boot = s.boot := rfl
@[simp] theorem modArb_rt : (modArb f s).rt = s.rt := rfl
@[simp] theorem modArb_pins : (modArb f s).pins = s.pins := rfl
@[simp] theorem modArb_octs : (modArb f s).octs = s.octs := rfl
@[simp] theorem modArb_seg : (modArb f s).seg = s.seg := rfl
@[simp] theorem modArb_seqr : (modArb f s).seqr = s.seqr := rfl
@[simp] theorem modArb_caps : (modArb f s).caps = s.caps := rfl
@[simp] theorem modArb_evid : (modArb f s).evid = s.evid := rfl
@[simp] theorem modArb_arb : (modArb f s).arb = f s.arb := rfl
@[simp] theorem modArb_sl : (modArb f s).sl = s.sl := rfl
@[simp] theorem modArb_cal : (modArb f s).cal = s.cal := rfl
@[simp] theorem modArb_ring : (modArb f s).ring = s.ring := rfl
@[simp] theorem modArb_spi : (modArb f s).spi = s.spi := rfl
@[simp] theorem modArb_usb : (modArb f s).usb = s.usb := rfl
@[simp] theorem modArb_eth : (modArb f s).eth = s.eth := rfl
@[simp] theorem modArb_tasp : (modArb f s).tasp = s.tasp := rfl
@[simp] theorem modArb_flt : (modArb f s).flt = s.flt := rfl
@[simp] theorem modArb_fw : (modArb f s).fw = s.fw := rfl
end

/-! ### modClk -/

section
variable (f : Clk → Clk)
@[simp] theorem modClk_pending : (modClk f s).pending = s.pending := rfl
@[simp] theorem modClk_now : (modClk f s).now = s.now := rfl
@[simp] theorem modClk_hap : (modClk f s).hap = s.hap := rfl
@[simp] theorem modClk_free : (modClk f s).free = s.free := rfl
@[simp] theorem modClk_latch : (modClk f s).latch = s.latch := rfl
@[simp] theorem modClk_bus : (modClk f s).bus = s.bus := rfl
@[simp] theorem modClk_ev : (modClk f s).ev = s.ev := rfl
@[simp] theorem modClk_evPend : (modClk f s).evPend = s.evPend := rfl
@[simp] theorem modClk_r : (modClk f s).r = s.r := rfl
@[simp] theorem modClk_encl : (modClk f s).encl = s.encl := rfl
@[simp] theorem modClk_pwr : (modClk f s).pwr = s.pwr := rfl
@[simp] theorem modClk_nw : (modClk f s).nw = s.nw := rfl
@[simp] theorem modClk_clk : (modClk f s).clk = f s.clk := rfl
@[simp] theorem modClk_tim : (modClk f s).tim = s.tim := rfl
@[simp] theorem modClk_ptp : (modClk f s).ptp = s.ptp := rfl
@[simp] theorem modClk_mram : (modClk f s).mram = s.mram := rfl
@[simp] theorem modClk_boot : (modClk f s).boot = s.boot := rfl
@[simp] theorem modClk_rt : (modClk f s).rt = s.rt := rfl
@[simp] theorem modClk_pins : (modClk f s).pins = s.pins := rfl
@[simp] theorem modClk_octs : (modClk f s).octs = s.octs := rfl
@[simp] theorem modClk_seg : (modClk f s).seg = s.seg := rfl
@[simp] theorem modClk_seqr : (modClk f s).seqr = s.seqr := rfl
@[simp] theorem modClk_caps : (modClk f s).caps = s.caps := rfl
@[simp] theorem modClk_evid : (modClk f s).evid = s.evid := rfl
@[simp] theorem modClk_arb : (modClk f s).arb = s.arb := rfl
@[simp] theorem modClk_sl : (modClk f s).sl = s.sl := rfl
@[simp] theorem modClk_cal : (modClk f s).cal = s.cal := rfl
@[simp] theorem modClk_ring : (modClk f s).ring = s.ring := rfl
@[simp] theorem modClk_spi : (modClk f s).spi = s.spi := rfl
@[simp] theorem modClk_usb : (modClk f s).usb = s.usb := rfl
@[simp] theorem modClk_eth : (modClk f s).eth = s.eth := rfl
@[simp] theorem modClk_tasp : (modClk f s).tasp = s.tasp := rfl
@[simp] theorem modClk_flt : (modClk f s).flt = s.flt := rfl
@[simp] theorem modClk_fw : (modClk f s).fw = s.fw := rfl
end

/-! ### modUsb -/

section
variable (f : Usb → Usb)
@[simp] theorem modUsb_pending : (modUsb f s).pending = s.pending := rfl
@[simp] theorem modUsb_now : (modUsb f s).now = s.now := rfl
@[simp] theorem modUsb_hap : (modUsb f s).hap = s.hap := rfl
@[simp] theorem modUsb_free : (modUsb f s).free = s.free := rfl
@[simp] theorem modUsb_latch : (modUsb f s).latch = s.latch := rfl
@[simp] theorem modUsb_bus : (modUsb f s).bus = s.bus := rfl
@[simp] theorem modUsb_ev : (modUsb f s).ev = s.ev := rfl
@[simp] theorem modUsb_evPend : (modUsb f s).evPend = s.evPend := rfl
@[simp] theorem modUsb_r : (modUsb f s).r = s.r := rfl
@[simp] theorem modUsb_encl : (modUsb f s).encl = s.encl := rfl
@[simp] theorem modUsb_pwr : (modUsb f s).pwr = s.pwr := rfl
@[simp] theorem modUsb_nw : (modUsb f s).nw = s.nw := rfl
@[simp] theorem modUsb_clk : (modUsb f s).clk = s.clk := rfl
@[simp] theorem modUsb_tim : (modUsb f s).tim = s.tim := rfl
@[simp] theorem modUsb_ptp : (modUsb f s).ptp = s.ptp := rfl
@[simp] theorem modUsb_mram : (modUsb f s).mram = s.mram := rfl
@[simp] theorem modUsb_boot : (modUsb f s).boot = s.boot := rfl
@[simp] theorem modUsb_rt : (modUsb f s).rt = s.rt := rfl
@[simp] theorem modUsb_pins : (modUsb f s).pins = s.pins := rfl
@[simp] theorem modUsb_octs : (modUsb f s).octs = s.octs := rfl
@[simp] theorem modUsb_seg : (modUsb f s).seg = s.seg := rfl
@[simp] theorem modUsb_seqr : (modUsb f s).seqr = s.seqr := rfl
@[simp] theorem modUsb_caps : (modUsb f s).caps = s.caps := rfl
@[simp] theorem modUsb_evid : (modUsb f s).evid = s.evid := rfl
@[simp] theorem modUsb_arb : (modUsb f s).arb = s.arb := rfl
@[simp] theorem modUsb_sl : (modUsb f s).sl = s.sl := rfl
@[simp] theorem modUsb_cal : (modUsb f s).cal = s.cal := rfl
@[simp] theorem modUsb_ring : (modUsb f s).ring = s.ring := rfl
@[simp] theorem modUsb_spi : (modUsb f s).spi = s.spi := rfl
@[simp] theorem modUsb_usb : (modUsb f s).usb = f s.usb := rfl
@[simp] theorem modUsb_eth : (modUsb f s).eth = s.eth := rfl
@[simp] theorem modUsb_tasp : (modUsb f s).tasp = s.tasp := rfl
@[simp] theorem modUsb_flt : (modUsb f s).flt = s.flt := rfl
@[simp] theorem modUsb_fw : (modUsb f s).fw = s.fw := rfl
end

/-! ### modEncl -/

section
variable (f : Encl → Encl)
@[simp] theorem modEncl_pending : (modEncl f s).pending = s.pending := rfl
@[simp] theorem modEncl_now : (modEncl f s).now = s.now := rfl
@[simp] theorem modEncl_hap : (modEncl f s).hap = s.hap := rfl
@[simp] theorem modEncl_free : (modEncl f s).free = s.free := rfl
@[simp] theorem modEncl_latch : (modEncl f s).latch = s.latch := rfl
@[simp] theorem modEncl_bus : (modEncl f s).bus = s.bus := rfl
@[simp] theorem modEncl_ev : (modEncl f s).ev = s.ev := rfl
@[simp] theorem modEncl_evPend : (modEncl f s).evPend = s.evPend := rfl
@[simp] theorem modEncl_r : (modEncl f s).r = s.r := rfl
@[simp] theorem modEncl_encl : (modEncl f s).encl = f s.encl := rfl
@[simp] theorem modEncl_pwr : (modEncl f s).pwr = s.pwr := rfl
@[simp] theorem modEncl_nw : (modEncl f s).nw = s.nw := rfl
@[simp] theorem modEncl_clk : (modEncl f s).clk = s.clk := rfl
@[simp] theorem modEncl_tim : (modEncl f s).tim = s.tim := rfl
@[simp] theorem modEncl_ptp : (modEncl f s).ptp = s.ptp := rfl
@[simp] theorem modEncl_mram : (modEncl f s).mram = s.mram := rfl
@[simp] theorem modEncl_boot : (modEncl f s).boot = s.boot := rfl
@[simp] theorem modEncl_rt : (modEncl f s).rt = s.rt := rfl
@[simp] theorem modEncl_pins : (modEncl f s).pins = s.pins := rfl
@[simp] theorem modEncl_octs : (modEncl f s).octs = s.octs := rfl
@[simp] theorem modEncl_seg : (modEncl f s).seg = s.seg := rfl
@[simp] theorem modEncl_seqr : (modEncl f s).seqr = s.seqr := rfl
@[simp] theorem modEncl_caps : (modEncl f s).caps = s.caps := rfl
@[simp] theorem modEncl_evid : (modEncl f s).evid = s.evid := rfl
@[simp] theorem modEncl_arb : (modEncl f s).arb = s.arb := rfl
@[simp] theorem modEncl_sl : (modEncl f s).sl = s.sl := rfl
@[simp] theorem modEncl_cal : (modEncl f s).cal = s.cal := rfl
@[simp] theorem modEncl_ring : (modEncl f s).ring = s.ring := rfl
@[simp] theorem modEncl_spi : (modEncl f s).spi = s.spi := rfl
@[simp] theorem modEncl_usb : (modEncl f s).usb = s.usb := rfl
@[simp] theorem modEncl_eth : (modEncl f s).eth = s.eth := rfl
@[simp] theorem modEncl_tasp : (modEncl f s).tasp = s.tasp := rfl
@[simp] theorem modEncl_flt : (modEncl f s).flt = s.flt := rfl
@[simp] theorem modEncl_fw : (modEncl f s).fw = s.fw := rfl
end

/-! ### modPwr -/

section
variable (f : Pwr → Pwr)
@[simp] theorem modPwr_pending : (modPwr f s).pending = s.pending := rfl
@[simp] theorem modPwr_now : (modPwr f s).now = s.now := rfl
@[simp] theorem modPwr_hap : (modPwr f s).hap = s.hap := rfl
@[simp] theorem modPwr_free : (modPwr f s).free = s.free := rfl
@[simp] theorem modPwr_latch : (modPwr f s).latch = s.latch := rfl
@[simp] theorem modPwr_bus : (modPwr f s).bus = s.bus := rfl
@[simp] theorem modPwr_ev : (modPwr f s).ev = s.ev := rfl
@[simp] theorem modPwr_evPend : (modPwr f s).evPend = s.evPend := rfl
@[simp] theorem modPwr_r : (modPwr f s).r = s.r := rfl
@[simp] theorem modPwr_encl : (modPwr f s).encl = s.encl := rfl
@[simp] theorem modPwr_pwr : (modPwr f s).pwr = f s.pwr := rfl
@[simp] theorem modPwr_nw : (modPwr f s).nw = s.nw := rfl
@[simp] theorem modPwr_clk : (modPwr f s).clk = s.clk := rfl
@[simp] theorem modPwr_tim : (modPwr f s).tim = s.tim := rfl
@[simp] theorem modPwr_ptp : (modPwr f s).ptp = s.ptp := rfl
@[simp] theorem modPwr_mram : (modPwr f s).mram = s.mram := rfl
@[simp] theorem modPwr_boot : (modPwr f s).boot = s.boot := rfl
@[simp] theorem modPwr_rt : (modPwr f s).rt = s.rt := rfl
@[simp] theorem modPwr_pins : (modPwr f s).pins = s.pins := rfl
@[simp] theorem modPwr_octs : (modPwr f s).octs = s.octs := rfl
@[simp] theorem modPwr_seg : (modPwr f s).seg = s.seg := rfl
@[simp] theorem modPwr_seqr : (modPwr f s).seqr = s.seqr := rfl
@[simp] theorem modPwr_caps : (modPwr f s).caps = s.caps := rfl
@[simp] theorem modPwr_evid : (modPwr f s).evid = s.evid := rfl
@[simp] theorem modPwr_arb : (modPwr f s).arb = s.arb := rfl
@[simp] theorem modPwr_sl : (modPwr f s).sl = s.sl := rfl
@[simp] theorem modPwr_cal : (modPwr f s).cal = s.cal := rfl
@[simp] theorem modPwr_ring : (modPwr f s).ring = s.ring := rfl
@[simp] theorem modPwr_spi : (modPwr f s).spi = s.spi := rfl
@[simp] theorem modPwr_usb : (modPwr f s).usb = s.usb := rfl
@[simp] theorem modPwr_eth : (modPwr f s).eth = s.eth := rfl
@[simp] theorem modPwr_tasp : (modPwr f s).tasp = s.tasp := rfl
@[simp] theorem modPwr_flt : (modPwr f s).flt = s.flt := rfl
@[simp] theorem modPwr_fw : (modPwr f s).fw = s.fw := rfl
end

/-! ### modTim -/

section
variable (f : Tim → Tim)
@[simp] theorem modTim_pending : (modTim f s).pending = s.pending := rfl
@[simp] theorem modTim_now : (modTim f s).now = s.now := rfl
@[simp] theorem modTim_hap : (modTim f s).hap = s.hap := rfl
@[simp] theorem modTim_free : (modTim f s).free = s.free := rfl
@[simp] theorem modTim_latch : (modTim f s).latch = s.latch := rfl
@[simp] theorem modTim_bus : (modTim f s).bus = s.bus := rfl
@[simp] theorem modTim_ev : (modTim f s).ev = s.ev := rfl
@[simp] theorem modTim_evPend : (modTim f s).evPend = s.evPend := rfl
@[simp] theorem modTim_r : (modTim f s).r = s.r := rfl
@[simp] theorem modTim_encl : (modTim f s).encl = s.encl := rfl
@[simp] theorem modTim_pwr : (modTim f s).pwr = s.pwr := rfl
@[simp] theorem modTim_nw : (modTim f s).nw = s.nw := rfl
@[simp] theorem modTim_clk : (modTim f s).clk = s.clk := rfl
@[simp] theorem modTim_tim : (modTim f s).tim = f s.tim := rfl
@[simp] theorem modTim_ptp : (modTim f s).ptp = s.ptp := rfl
@[simp] theorem modTim_mram : (modTim f s).mram = s.mram := rfl
@[simp] theorem modTim_boot : (modTim f s).boot = s.boot := rfl
@[simp] theorem modTim_rt : (modTim f s).rt = s.rt := rfl
@[simp] theorem modTim_pins : (modTim f s).pins = s.pins := rfl
@[simp] theorem modTim_octs : (modTim f s).octs = s.octs := rfl
@[simp] theorem modTim_seg : (modTim f s).seg = s.seg := rfl
@[simp] theorem modTim_seqr : (modTim f s).seqr = s.seqr := rfl
@[simp] theorem modTim_caps : (modTim f s).caps = s.caps := rfl
@[simp] theorem modTim_evid : (modTim f s).evid = s.evid := rfl
@[simp] theorem modTim_arb : (modTim f s).arb = s.arb := rfl
@[simp] theorem modTim_sl : (modTim f s).sl = s.sl := rfl
@[simp] theorem modTim_cal : (modTim f s).cal = s.cal := rfl
@[simp] theorem modTim_ring : (modTim f s).ring = s.ring := rfl
@[simp] theorem modTim_spi : (modTim f s).spi = s.spi := rfl
@[simp] theorem modTim_usb : (modTim f s).usb = s.usb := rfl
@[simp] theorem modTim_eth : (modTim f s).eth = s.eth := rfl
@[simp] theorem modTim_tasp : (modTim f s).tasp = s.tasp := rfl
@[simp] theorem modTim_flt : (modTim f s).flt = s.flt := rfl
@[simp] theorem modTim_fw : (modTim f s).fw = s.fw := rfl
end

/-! ### modPtp -/

section
variable (f : Ptp → Ptp)
@[simp] theorem modPtp_pending : (modPtp f s).pending = s.pending := rfl
@[simp] theorem modPtp_now : (modPtp f s).now = s.now := rfl
@[simp] theorem modPtp_hap : (modPtp f s).hap = s.hap := rfl
@[simp] theorem modPtp_free : (modPtp f s).free = s.free := rfl
@[simp] theorem modPtp_latch : (modPtp f s).latch = s.latch := rfl
@[simp] theorem modPtp_bus : (modPtp f s).bus = s.bus := rfl
@[simp] theorem modPtp_ev : (modPtp f s).ev = s.ev := rfl
@[simp] theorem modPtp_evPend : (modPtp f s).evPend = s.evPend := rfl
@[simp] theorem modPtp_r : (modPtp f s).r = s.r := rfl
@[simp] theorem modPtp_encl : (modPtp f s).encl = s.encl := rfl
@[simp] theorem modPtp_pwr : (modPtp f s).pwr = s.pwr := rfl
@[simp] theorem modPtp_nw : (modPtp f s).nw = s.nw := rfl
@[simp] theorem modPtp_clk : (modPtp f s).clk = s.clk := rfl
@[simp] theorem modPtp_tim : (modPtp f s).tim = s.tim := rfl
@[simp] theorem modPtp_ptp : (modPtp f s).ptp = f s.ptp := rfl
@[simp] theorem modPtp_mram : (modPtp f s).mram = s.mram := rfl
@[simp] theorem modPtp_boot : (modPtp f s).boot = s.boot := rfl
@[simp] theorem modPtp_rt : (modPtp f s).rt = s.rt := rfl
@[simp] theorem modPtp_pins : (modPtp f s).pins = s.pins := rfl
@[simp] theorem modPtp_octs : (modPtp f s).octs = s.octs := rfl
@[simp] theorem modPtp_seg : (modPtp f s).seg = s.seg := rfl
@[simp] theorem modPtp_seqr : (modPtp f s).seqr = s.seqr := rfl
@[simp] theorem modPtp_caps : (modPtp f s).caps = s.caps := rfl
@[simp] theorem modPtp_evid : (modPtp f s).evid = s.evid := rfl
@[simp] theorem modPtp_arb : (modPtp f s).arb = s.arb := rfl
@[simp] theorem modPtp_sl : (modPtp f s).sl = s.sl := rfl
@[simp] theorem modPtp_cal : (modPtp f s).cal = s.cal := rfl
@[simp] theorem modPtp_ring : (modPtp f s).ring = s.ring := rfl
@[simp] theorem modPtp_spi : (modPtp f s).spi = s.spi := rfl
@[simp] theorem modPtp_usb : (modPtp f s).usb = s.usb := rfl
@[simp] theorem modPtp_eth : (modPtp f s).eth = s.eth := rfl
@[simp] theorem modPtp_tasp : (modPtp f s).tasp = s.tasp := rfl
@[simp] theorem modPtp_flt : (modPtp f s).flt = s.flt := rfl
@[simp] theorem modPtp_fw : (modPtp f s).fw = s.fw := rfl
end

/-! ### modRing -/

section
variable (f : Ring → Ring)
@[simp] theorem modRing_pending : (modRing f s).pending = s.pending := rfl
@[simp] theorem modRing_now : (modRing f s).now = s.now := rfl
@[simp] theorem modRing_hap : (modRing f s).hap = s.hap := rfl
@[simp] theorem modRing_free : (modRing f s).free = s.free := rfl
@[simp] theorem modRing_latch : (modRing f s).latch = s.latch := rfl
@[simp] theorem modRing_bus : (modRing f s).bus = s.bus := rfl
@[simp] theorem modRing_ev : (modRing f s).ev = s.ev := rfl
@[simp] theorem modRing_evPend : (modRing f s).evPend = s.evPend := rfl
@[simp] theorem modRing_r : (modRing f s).r = s.r := rfl
@[simp] theorem modRing_encl : (modRing f s).encl = s.encl := rfl
@[simp] theorem modRing_pwr : (modRing f s).pwr = s.pwr := rfl
@[simp] theorem modRing_nw : (modRing f s).nw = s.nw := rfl
@[simp] theorem modRing_clk : (modRing f s).clk = s.clk := rfl
@[simp] theorem modRing_tim : (modRing f s).tim = s.tim := rfl
@[simp] theorem modRing_ptp : (modRing f s).ptp = s.ptp := rfl
@[simp] theorem modRing_mram : (modRing f s).mram = s.mram := rfl
@[simp] theorem modRing_boot : (modRing f s).boot = s.boot := rfl
@[simp] theorem modRing_rt : (modRing f s).rt = s.rt := rfl
@[simp] theorem modRing_pins : (modRing f s).pins = s.pins := rfl
@[simp] theorem modRing_octs : (modRing f s).octs = s.octs := rfl
@[simp] theorem modRing_seg : (modRing f s).seg = s.seg := rfl
@[simp] theorem modRing_seqr : (modRing f s).seqr = s.seqr := rfl
@[simp] theorem modRing_caps : (modRing f s).caps = s.caps := rfl
@[simp] theorem modRing_evid : (modRing f s).evid = s.evid := rfl
@[simp] theorem modRing_arb : (modRing f s).arb = s.arb := rfl
@[simp] theorem modRing_sl : (modRing f s).sl = s.sl := rfl
@[simp] theorem modRing_cal : (modRing f s).cal = s.cal := rfl
@[simp] theorem modRing_ring : (modRing f s).ring = f s.ring := rfl
@[simp] theorem modRing_spi : (modRing f s).spi = s.spi := rfl
@[simp] theorem modRing_usb : (modRing f s).usb = s.usb := rfl
@[simp] theorem modRing_eth : (modRing f s).eth = s.eth := rfl
@[simp] theorem modRing_tasp : (modRing f s).tasp = s.tasp := rfl
@[simp] theorem modRing_flt : (modRing f s).flt = s.flt := rfl
@[simp] theorem modRing_fw : (modRing f s).fw = s.fw := rfl
end

/-! ### modSpi -/

section
variable (f : Spi → Spi)
@[simp] theorem modSpi_pending : (modSpi f s).pending = s.pending := rfl
@[simp] theorem modSpi_now : (modSpi f s).now = s.now := rfl
@[simp] theorem modSpi_hap : (modSpi f s).hap = s.hap := rfl
@[simp] theorem modSpi_free : (modSpi f s).free = s.free := rfl
@[simp] theorem modSpi_latch : (modSpi f s).latch = s.latch := rfl
@[simp] theorem modSpi_bus : (modSpi f s).bus = s.bus := rfl
@[simp] theorem modSpi_ev : (modSpi f s).ev = s.ev := rfl
@[simp] theorem modSpi_evPend : (modSpi f s).evPend = s.evPend := rfl
@[simp] theorem modSpi_r : (modSpi f s).r = s.r := rfl
@[simp] theorem modSpi_encl : (modSpi f s).encl = s.encl := rfl
@[simp] theorem modSpi_pwr : (modSpi f s).pwr = s.pwr := rfl
@[simp] theorem modSpi_nw : (modSpi f s).nw = s.nw := rfl
@[simp] theorem modSpi_clk : (modSpi f s).clk = s.clk := rfl
@[simp] theorem modSpi_tim : (modSpi f s).tim = s.tim := rfl
@[simp] theorem modSpi_ptp : (modSpi f s).ptp = s.ptp := rfl
@[simp] theorem modSpi_mram : (modSpi f s).mram = s.mram := rfl
@[simp] theorem modSpi_boot : (modSpi f s).boot = s.boot := rfl
@[simp] theorem modSpi_rt : (modSpi f s).rt = s.rt := rfl
@[simp] theorem modSpi_pins : (modSpi f s).pins = s.pins := rfl
@[simp] theorem modSpi_octs : (modSpi f s).octs = s.octs := rfl
@[simp] theorem modSpi_seg : (modSpi f s).seg = s.seg := rfl
@[simp] theorem modSpi_seqr : (modSpi f s).seqr = s.seqr := rfl
@[simp] theorem modSpi_caps : (modSpi f s).caps = s.caps := rfl
@[simp] theorem modSpi_evid : (modSpi f s).evid = s.evid := rfl
@[simp] theorem modSpi_arb : (modSpi f s).arb = s.arb := rfl
@[simp] theorem modSpi_sl : (modSpi f s).sl = s.sl := rfl
@[simp] theorem modSpi_cal : (modSpi f s).cal = s.cal := rfl
@[simp] theorem modSpi_ring : (modSpi f s).ring = s.ring := rfl
@[simp] theorem modSpi_spi : (modSpi f s).spi = f s.spi := rfl
@[simp] theorem modSpi_usb : (modSpi f s).usb = s.usb := rfl
@[simp] theorem modSpi_eth : (modSpi f s).eth = s.eth := rfl
@[simp] theorem modSpi_tasp : (modSpi f s).tasp = s.tasp := rfl
@[simp] theorem modSpi_flt : (modSpi f s).flt = s.flt := rfl
@[simp] theorem modSpi_fw : (modSpi f s).fw = s.fw := rfl
end

/-! ### modEth -/

section
variable (f : Eth → Eth)
@[simp] theorem modEth_pending : (modEth f s).pending = s.pending := rfl
@[simp] theorem modEth_now : (modEth f s).now = s.now := rfl
@[simp] theorem modEth_hap : (modEth f s).hap = s.hap := rfl
@[simp] theorem modEth_free : (modEth f s).free = s.free := rfl
@[simp] theorem modEth_latch : (modEth f s).latch = s.latch := rfl
@[simp] theorem modEth_bus : (modEth f s).bus = s.bus := rfl
@[simp] theorem modEth_ev : (modEth f s).ev = s.ev := rfl
@[simp] theorem modEth_evPend : (modEth f s).evPend = s.evPend := rfl
@[simp] theorem modEth_r : (modEth f s).r = s.r := rfl
@[simp] theorem modEth_encl : (modEth f s).encl = s.encl := rfl
@[simp] theorem modEth_pwr : (modEth f s).pwr = s.pwr := rfl
@[simp] theorem modEth_nw : (modEth f s).nw = s.nw := rfl
@[simp] theorem modEth_clk : (modEth f s).clk = s.clk := rfl
@[simp] theorem modEth_tim : (modEth f s).tim = s.tim := rfl
@[simp] theorem modEth_ptp : (modEth f s).ptp = s.ptp := rfl
@[simp] theorem modEth_mram : (modEth f s).mram = s.mram := rfl
@[simp] theorem modEth_boot : (modEth f s).boot = s.boot := rfl
@[simp] theorem modEth_rt : (modEth f s).rt = s.rt := rfl
@[simp] theorem modEth_pins : (modEth f s).pins = s.pins := rfl
@[simp] theorem modEth_octs : (modEth f s).octs = s.octs := rfl
@[simp] theorem modEth_seg : (modEth f s).seg = s.seg := rfl
@[simp] theorem modEth_seqr : (modEth f s).seqr = s.seqr := rfl
@[simp] theorem modEth_caps : (modEth f s).caps = s.caps := rfl
@[simp] theorem modEth_evid : (modEth f s).evid = s.evid := rfl
@[simp] theorem modEth_arb : (modEth f s).arb = s.arb := rfl
@[simp] theorem modEth_sl : (modEth f s).sl = s.sl := rfl
@[simp] theorem modEth_cal : (modEth f s).cal = s.cal := rfl
@[simp] theorem modEth_ring : (modEth f s).ring = s.ring := rfl
@[simp] theorem modEth_spi : (modEth f s).spi = s.spi := rfl
@[simp] theorem modEth_usb : (modEth f s).usb = s.usb := rfl
@[simp] theorem modEth_eth : (modEth f s).eth = f s.eth := rfl
@[simp] theorem modEth_tasp : (modEth f s).tasp = s.tasp := rfl
@[simp] theorem modEth_flt : (modEth f s).flt = s.flt := rfl
@[simp] theorem modEth_fw : (modEth f s).fw = s.fw := rfl
end

/-! ### modTasp -/

section
variable (f : Tasp → Tasp)
@[simp] theorem modTasp_pending : (modTasp f s).pending = s.pending := rfl
@[simp] theorem modTasp_now : (modTasp f s).now = s.now := rfl
@[simp] theorem modTasp_hap : (modTasp f s).hap = s.hap := rfl
@[simp] theorem modTasp_free : (modTasp f s).free = s.free := rfl
@[simp] theorem modTasp_latch : (modTasp f s).latch = s.latch := rfl
@[simp] theorem modTasp_bus : (modTasp f s).bus = s.bus := rfl
@[simp] theorem modTasp_ev : (modTasp f s).ev = s.ev := rfl
@[simp] theorem modTasp_evPend : (modTasp f s).evPend = s.evPend := rfl
@[simp] theorem modTasp_r : (modTasp f s).r = s.r := rfl
@[simp] theorem modTasp_encl : (modTasp f s).encl = s.encl := rfl
@[simp] theorem modTasp_pwr : (modTasp f s).pwr = s.pwr := rfl
@[simp] theorem modTasp_nw : (modTasp f s).nw = s.nw := rfl
@[simp] theorem modTasp_clk : (modTasp f s).clk = s.clk := rfl
@[simp] theorem modTasp_tim : (modTasp f s).tim = s.tim := rfl
@[simp] theorem modTasp_ptp : (modTasp f s).ptp = s.ptp := rfl
@[simp] theorem modTasp_mram : (modTasp f s).mram = s.mram := rfl
@[simp] theorem modTasp_boot : (modTasp f s).boot = s.boot := rfl
@[simp] theorem modTasp_rt : (modTasp f s).rt = s.rt := rfl
@[simp] theorem modTasp_pins : (modTasp f s).pins = s.pins := rfl
@[simp] theorem modTasp_octs : (modTasp f s).octs = s.octs := rfl
@[simp] theorem modTasp_seg : (modTasp f s).seg = s.seg := rfl
@[simp] theorem modTasp_seqr : (modTasp f s).seqr = s.seqr := rfl
@[simp] theorem modTasp_caps : (modTasp f s).caps = s.caps := rfl
@[simp] theorem modTasp_evid : (modTasp f s).evid = s.evid := rfl
@[simp] theorem modTasp_arb : (modTasp f s).arb = s.arb := rfl
@[simp] theorem modTasp_sl : (modTasp f s).sl = s.sl := rfl
@[simp] theorem modTasp_cal : (modTasp f s).cal = s.cal := rfl
@[simp] theorem modTasp_ring : (modTasp f s).ring = s.ring := rfl
@[simp] theorem modTasp_spi : (modTasp f s).spi = s.spi := rfl
@[simp] theorem modTasp_usb : (modTasp f s).usb = s.usb := rfl
@[simp] theorem modTasp_eth : (modTasp f s).eth = s.eth := rfl
@[simp] theorem modTasp_tasp : (modTasp f s).tasp = f s.tasp := rfl
@[simp] theorem modTasp_flt : (modTasp f s).flt = s.flt := rfl
@[simp] theorem modTasp_fw : (modTasp f s).fw = s.fw := rfl
end

/-! ### modPort -/

section
variable (p : RingPort) (f : RPort → RPort)
@[simp] theorem modPort_pending : (modPort p f s).pending = s.pending := by cases p <;> rfl
@[simp] theorem modPort_now : (modPort p f s).now = s.now := by cases p <;> rfl
@[simp] theorem modPort_free : (modPort p f s).free = s.free := by cases p <;> rfl
@[simp] theorem modPort_latch : (modPort p f s).latch = s.latch := by cases p <;> rfl
@[simp] theorem modPort_bus : (modPort p f s).bus = s.bus := by cases p <;> rfl
@[simp] theorem modPort_ev : (modPort p f s).ev = s.ev := by cases p <;> rfl
@[simp] theorem modPort_evPend : (modPort p f s).evPend = s.evPend := by cases p <;> rfl
@[simp] theorem modPort_r : (modPort p f s).r = s.r := by cases p <;> rfl
@[simp] theorem modPort_encl : (modPort p f s).encl = s.encl := by cases p <;> rfl
@[simp] theorem modPort_pwr : (modPort p f s).pwr = s.pwr := by cases p <;> rfl
@[simp] theorem modPort_nw : (modPort p f s).nw = s.nw := by cases p <;> rfl
@[simp] theorem modPort_clk : (modPort p f s).clk = s.clk := by cases p <;> rfl
@[simp] theorem modPort_tim : (modPort p f s).tim = s.tim := by cases p <;> rfl
@[simp] theorem modPort_ptp : (modPort p f s).ptp = s.ptp := by cases p <;> rfl
@[simp] theorem modPort_mram : (modPort p f s).mram = s.mram := by cases p <;> rfl
@[simp] theorem modPort_boot : (modPort p f s).boot = s.boot := by cases p <;> rfl
@[simp] theorem modPort_rt : (modPort p f s).rt = s.rt := by cases p <;> rfl
@[simp] theorem modPort_pins : (modPort p f s).pins = s.pins := by cases p <;> rfl
@[simp] theorem modPort_octs : (modPort p f s).octs = s.octs := by cases p <;> rfl
@[simp] theorem modPort_seg : (modPort p f s).seg = s.seg := by cases p <;> rfl
@[simp] theorem modPort_seqr : (modPort p f s).seqr = s.seqr := by cases p <;> rfl
@[simp] theorem modPort_caps : (modPort p f s).caps = s.caps := by cases p <;> rfl
@[simp] theorem modPort_evid : (modPort p f s).evid = s.evid := by cases p <;> rfl
@[simp] theorem modPort_arb : (modPort p f s).arb = s.arb := by cases p <;> rfl
@[simp] theorem modPort_sl : (modPort p f s).sl = s.sl := by cases p <;> rfl
@[simp] theorem modPort_cal : (modPort p f s).cal = s.cal := by cases p <;> rfl
@[simp] theorem modPort_spi : (modPort p f s).spi = s.spi := by cases p <;> rfl
@[simp] theorem modPort_usb : (modPort p f s).usb = s.usb := by cases p <;> rfl
@[simp] theorem modPort_eth : (modPort p f s).eth = s.eth := by cases p <;> rfl
@[simp] theorem modPort_tasp : (modPort p f s).tasp = s.tasp := by cases p <;> rfl
@[simp] theorem modPort_flt : (modPort p f s).flt = s.flt := by cases p <;> rfl
@[simp] theorem modPort_fw : (modPort p f s).fw = s.fw := by cases p <;> rfl
end

@[simp] theorem portAt_modPort (p q : RingPort) (f : RPort → RPort) :
    portAt (modPort p f s) q = if q = p then f (portAt s q) else portAt s q := by
  cases p <;> cases q <;> rfl

/-! ### assureLapse, pass and advance: the passing of time -/

/-- Noting lapsed assumptions adds to the events of the cycle and changes nothing else. -/
theorem assureLapse_eq (s : State) : assureLapse s = { s with evPend := (assureLapse s).evPend } := by
  have h : ∀ (l : List Nat) (u : State), (∃ e, u = { s with evPend := e }) →
      ∃ e, l.foldl (fun s i => if assureBit s i || lapseNoted s i then s else bumpSet rgAssureHist i s) u = { s with evPend := e } := by
    intro l
    induction l with
    | nil => exact fun _ h => h
    | cons i l ih =>
      rintro _ ⟨e, rfl⟩
      refine ih _ ?_
      by_cases hb : assureBit { s with evPend := e } i || lapseNoted { s with evPend := e } i
      · exact ⟨e, if_pos hb⟩
      · exact ⟨_, if_neg hb⟩
  unfold assureLapse
  split
  · obtain ⟨e, he⟩ := h assureBits s ⟨_, rfl⟩
    rw [he]
  · rfl

/-- What time alone changes: the instant, the time base and the Nightwatch counter, and the events of cycles gone by. -/
theorem pass_eq (t : Instant) : pass t s = { s with
    now := max s.now t, hap := if sameCycle t (max s.now t) then t else max s.now t
    ev := (pass t s).ev, evPend := (pass t s).evPend
    tim := timAdvance s.tim (max s.now t - s.now), nw := { s.nw with codes := s.nw.codes + (max s.now t - s.now) } } := by
  unfold pass
  dsimp only
  by_cases h : cycleOf (max s.now t) = cycleOf s.now
  · simp only [h, if_true]
  · simp only [h, if_false]
    rw [assureLapse_eq]
    rfl

section
variable (t : Instant)
@[simp] theorem pass_now : (pass t s).now = max s.now t := by rw [pass_eq]
@[simp] theorem pass_tim : (pass t s).tim = timAdvance s.tim (max s.now t - s.now) := by rw [pass_eq]
@[simp] theorem pass_nw : (pass t s).nw = { s.nw with codes := s.nw.codes + (max s.now t - s.now) } := by rw [pass_eq]
@[simp] theorem pass_pending : (pass t s).pending = s.pending := by rw [pass_eq]
@[simp] theorem pass_free : (pass t s).free = s.free := by rw [pass_eq]
@[simp] theorem pass_latch : (pass t s).latch = s.latch := by rw [pass_eq]
@[simp] theorem pass_bus : (pass t s).bus = s.bus := by rw [pass_eq]
@[simp] theorem pass_r : (pass t s).r = s.r := by rw [pass_eq]
@[simp] theorem pass_encl : (pass t s).encl = s.encl := by rw [pass_eq]
@[simp] theorem pass_pwr : (pass t s).pwr = s.pwr := by rw [pass_eq]
@[simp] theorem pass_clk : (pass t s).clk = s.clk := by rw [pass_eq]
@[simp] theorem pass_ptp : (pass t s).ptp = s.ptp := by rw [pass_eq]
@[simp] theorem pass_mram : (pass t s).mram = s.mram := by rw [pass_eq]
@[simp] theorem pass_boot : (pass t s).boot = s.boot := by rw [pass_eq]
@[simp] theorem pass_rt : (pass t s).rt = s.rt := by rw [pass_eq]
@[simp] theorem pass_pins : (pass t s).pins = s.pins := by rw [pass_eq]
@[simp] theorem pass_octs : (pass t s).octs = s.octs := by rw [pass_eq]
@[simp] theorem pass_seg : (pass t s).seg = s.seg := by rw [pass_eq]
@[simp] theorem pass_seqr : (pass t s).seqr = s.seqr := by rw [pass_eq]
@[simp] theorem pass_caps : (pass t s).caps = s.caps := by rw [pass_eq]
@[simp] theorem pass_evid : (pass t s).evid = s.evid := by rw [pass_eq]
@[simp] theorem pass_arb : (pass t s).arb = s.arb := by rw [pass_eq]
@[simp] theorem pass_sl : (pass t s).sl = s.sl := by rw [pass_eq]
@[simp] theorem pass_cal : (pass t s).cal = s.cal := by rw [pass_eq]
@[simp] theorem pass_ring : (pass t s).ring = s.ring := by rw [pass_eq]
@[simp] theorem pass_spi : (pass t s).spi = s.spi := by rw [pass_eq]
@[simp] theorem pass_usb : (pass t s).usb = s.usb := by rw [pass_eq]
@[simp] theorem pass_eth : (pass t s).eth = s.eth := by rw [pass_eq]
@[simp] theorem pass_tasp : (pass t s).tasp = s.tasp := by rw [pass_eq]
@[simp] theorem pass_flt : (pass t s).flt = s.flt := by rw [pass_eq]
@[simp] theorem pass_fw : (pass t s).fw = s.fw := by rw [pass_eq]

/-- Events counted in the present cycle stay until the cycle is over, and then count. -/
theorem pass_ev : (pass t s).ev = if cycleOf (max s.now t) = cycleOf s.now then s.ev else (settle (assureLapse s)).ev := by
  unfold pass; dsimp only; split <;> rfl
theorem pass_evPend : (pass t s).evPend = if cycleOf (max s.now t) = cycleOf s.now then s.evPend else [] := by
  unfold pass; dsimp only; split <;> rfl
end

/-- With nothing due in the cycles being played, a command's instant comes by time alone. -/
theorem advance_idle (t : Instant) (h : s.seqr.acts = []) : advance t s = pass t s := by
  have : ∀ n u, runActs n u s = s := by
    intro n u
    cases n with
    | zero => rfl
    | succ n => unfold runActs; rw [h]
  unfold advance
  rw [this]

/-! ### Reading what an update changed -/

@[simp] theorem pinAt_modPin (n m : Nat) (f : PinCh → PinCh) :
    pinAt (modPin n f s) m = if n = m ∧ n < 64 then f (pinAt s m) else pinAt s m := vget_vmod ..
@[simp] theorem octAt_modOct (n m : Nat) (f : OctCh → OctCh) :
    octAt (modOct n f s) m = if n = m ∧ n < 8 then f (octAt s m) else octAt s m := vget_vmod ..
@[simp] theorem capAt_modCap (n m : Nat) (f : Cap → Cap) :
    capAt (modCap n f s) m = if n = m ∧ n < 8 then f (capAt s m) else capAt s m := vget_vmod ..
@[simp] theorem slotAt_modSlot (n m : Nat) (f : Slot → Slot) :
    slotAt (modSlot n f s) m = if n = m ∧ n < 16 then f (slotAt s m) else slotAt s m := vget_vmod ..

end Sys2Proof.Machine
end

