-- ==== Sys2Proof/Laws/KeptOps.lean ====
section
/-!
SUPPORT. KeptOps.lean: what is kept (Kept.lean) by the shared operations over registers, faults, ranges, captures, timing, segments, pins and notices.
-/

set_option Elab.async false
set_option linter.unreachableTactic false
set_option linter.unusedTactic false

namespace Sys2Proof.Machine

open Sys2Proof

/-! ### Ops.lean -/

theorem settle_kept {z s : State} (hk : Kept z s)  : Kept z (settle s) := by
  unfold settle
  repeat' first
    | with_reducible assumption
    | fail_if_no_progress with_reducible refine Kept.same ?_ id id id id id id id id

theorem bump_kept {z s : State} (hk : Kept z s) (reg : Nat) (lo : Nat) (width : Nat) (amt : Nat) : Kept z (bump reg lo width amt s) := by
  unfold bump
  repeat' first
    | with_reducible assumption
    | fail_if_no_progress with_reducible refine Kept.same ?_ id id id id id id id id

theorem bumpMax_kept {z s : State} (hk : Kept z s) (reg : Nat) (lo : Nat) (width : Nat) (v : Nat) : Kept z (bumpMax reg lo width v s) := by
  unfold bumpMax
  repeat' first
    | with_reducible assumption
    | fail_if_no_progress with_reducible refine Kept.same ?_ id id id id id id id id

theorem bumpSet_kept {z s : State} (hk : Kept z s) (reg : Nat) (lo : Nat) : Kept z (bumpSet reg lo s) := by
  unfold bumpSet
  repeat' first
    | with_reducible assumption
    | fail_if_no_progress with_reducible refine Kept.same ?_ id id id id id id id id

theorem answer_kept {z s : State} (hk : Kept z s) (port : Port) (addr : Nat) (wr : Bool) (val : Word) (res : BusRes) : Kept z (answer port addr wr val res s) := by
  unfold answer
  repeat' first
    | with_reducible assumption
    | fail_if_no_progress with_reducible refine Kept.same ?_ id id id id id id id id

theorem logDrop_ok {n : Nat} {l : List LogEntry} (h : LogOk l) : LogOk (logDrop n l) := by
  unfold logDrop
  split
  · exact h
  · refine ⟨Nat.le_trans (List.Sublist.length_le (List.dropWhile_sublist _)) (by rw [List.length_drop]; have := h.1; omega), ?_⟩
    intro e he
    have := List.head?_dropWhile_not isCont (l.drop n)
    rw [he] at this
    simpa using this

theorem logDrop_length (n : Nat) (l : List LogEntry) : (logDrop n l).length ≤ l.length - n := by
  unfold logDrop
  split
  · simp_all
  · exact Nat.le_trans (List.Sublist.length_le (List.dropWhile_sublist _)) (by rw [List.length_drop])

theorem logWrite_kept {s0 s : State} (hk : Kept s0 s) (es : List LogEntry) (h1 : es.length ≤ 2048)
    (h2 : ∀ e, es.head? = some e → isCont e = false) : Kept s0 (logWrite es s) := by
  have key : LogOk s.nw.log → LogOk (logDrop (s.nw.log.length + es.length - 2048) s.nw.log ++ es) := by
    intro h
    refine ⟨?_, ?_⟩
    · rw [List.length_append]
      have := logDrop_length (s.nw.log.length + es.length - 2048) s.nw.log
      have := h.1
      omega
    · intro e he
      rcases hd : logDrop (s.nw.log.length + es.length - 2048) s.nw.log with _ | ⟨a, l⟩
      · rw [hd] at he; exact h2 e (by simpa using he)
      · rw [hd] at he
        exact (logDrop_ok (n := s.nw.log.length + es.length - 2048) h).2 e (by rw [hd]; simpa using he)
  unfold logWrite
  dsimp only
  split
  · exact hk.mk' id id id key id id id id id id id
  · exact (bump_kept hk _ _ _ _).mk' id id id key id id id id id id id

theorem isCont_logHead (src code value c : Nat) (valid : Bool) : isCont (logHead src code value c valid) = false := by
  have hlt : c % cS / 256 < 2 ^ 30 := by
    have : c % cS < cS := Nat.mod_lt _ (by decide)
    unfold cS at *
    omega
  unfold isCont logHead bit word
  simp only [BitVec.toNat_ofNat]
  cases valid
  · have h : (2 ^ 31 * b2n false + c % cS / 256) % 2 ^ 32 = c % cS / 256 := by
      simp only [b2n, Bool.false_eq_true, if_false]; omega
    rw [h]
    exact Nat.testBit_lt_two_pow hlt
  · have h : (2 ^ 31 * b2n true + c % cS / 256) % 2 ^ 32 = 2 ^ 31 + c % cS / 256 := by
      simp only [b2n, if_true]; omega
    rw [h, Nat.testBit_two_pow_add_gt (by omega)]
    exact Nat.testBit_lt_two_pow hlt

theorem logConts_length (n : Nat) (ws : List Nat) : (logConts n ws).length ≤ n := by
  induction n generalizing ws with
  | zero => simp [logConts]
  | succ n ih => cases ws with
    | nil => simp [logConts]
    | cons w ws => simpa [logConts] using ih _

theorem logPut_kept {s0 s : State} (hk : Kept s0 s) (src code value : Nat) (ws : List Nat) :
    Kept s0 (logPut src code value ws s) := by
  refine logWrite_kept hk _ ?_ ?_
  · have := logConts_length 3 ws
    rw [List.length_cons]; omega
  · intro e he
    rw [List.head?_cons] at he
    rw [← Option.some.inj he]
    exact isCont_logHead _ _ _ _ _

theorem notice_kept {z s : State} (hk : Kept z s) (code : Nat) (value : Nat) (ws : List Nat) : Kept z (notice code value ws s) := by
  unfold notice
  repeat' first
    | with_reducible assumption
    | with_reducible apply logPut_kept

theorem pushUnit_kept {z s : State} (hk : Kept z s) (r : Rec) (k : Instant) : Kept z (pushUnit r k s) := by
  unfold pushUnit
  repeat' first
    | with_reducible assumption
    | split
    | fail_if_no_progress with_reducible refine Kept.same ?_ id id id id id id id id

theorem modSlot_kept {z s : State} (hk : Kept z s) (i : Nat) (f : Slot → Slot) : Kept z (modSlot i f s) := by
  unfold modSlot
  repeat' first
    | with_reducible assumption
    | fail_if_no_progress with_reducible refine Kept.same ?_ id id id id id id id id

theorem modPin_kept {z s : State} (hk : Kept z s) (n : Nat) (f : PinCh → PinCh) : Kept z (modPin n f s) := by
  unfold modPin
  repeat' first
    | with_reducible assumption
    | fail_if_no_progress with_reducible refine Kept.same ?_ id id id id id id id id

theorem modOct_kept {s0 s : State} (hk : Kept s0 s) (k : Nat) (f : OctCh → OctCh)
    (hf : ∀ o, swf waveReset o.wave = true → swf waveReset (f o).wave = true) : Kept s0 (modOct k f s) :=
  hk.modOct k f hf

theorem modCap_kept {s0 s : State} (hk : Kept s0 s) (k : Nat) (f : Cap → Cap)
    (hf : ∀ c, c.fifo.length ≤ 4096 → (f c).fifo.length ≤ 4096) : Kept s0 (modCap k f s) :=
  hk.modCap k f hf

theorem modScope_kept {z s : State} (hk : Kept z s) (src : Nat) (oct : Nat) (f : FltScope → FltScope) : Kept z (modScope src oct f s) := by
  unfold modScope
  repeat' first
    | with_reducible assumption
    | fail_if_no_progress with_reducible refine Kept.same ?_ id id id id id id id id

theorem usbConnect_kept {z s : State} (hk : Kept z s)  : Kept z (usbConnect s) := by
  unfold usbConnect
  repeat' first
    | with_reducible assumption
    | split
    | fail_if_no_progress with_reducible refine Kept.same ?_ id id id id id id id id

theorem holdRequest_kept {z s : State} (hk : Kept z s) (p : PwrPend) : Kept z (holdRequest p s) := by
  unfold holdRequest
  try dsimp only
  repeat' first
    | with_reducible assumption
    | split
    | fail_if_no_progress with_reducible refine Kept.same ?_ id id id id id id id id

theorem duskUndo_kept {z s : State} (hk : Kept z s)  : Kept z (duskUndo s) := by
  unfold duskUndo
  try dsimp only
  repeat' first
    | with_reducible assumption
    | (intro u hu)
    | split
    | fail_if_no_progress with_reducible refine Kept.same ?_ id id id id id id id id

theorem duskAct_kept {z s : State} (hk : Kept z s) (p : PwrPend) : Kept z (duskAct p s) := by
  unfold duskAct
  try dsimp only
  repeat' first
    | with_reducible assumption
    | with_reducible apply holdRequest_kept
    | (intro u hu)
    | split
    | fail_if_no_progress with_reducible refine Kept.same ?_ id id id id id id id id

theorem duskRequest_kept {z s : State} (hk : Kept z s) (p : PwrPend) : Kept z (duskRequest p s) := by
  unfold duskRequest
  try dsimp only
  repeat' first
    | with_reducible assumption
    | with_reducible apply duskUndo_kept
    | with_reducible apply duskAct_kept
    | (intro u hu)
    | split
    | fail_if_no_progress with_reducible refine Kept.same ?_ id id id id id id id id

theorem pwrRequest_kept {z s : State} (hk : Kept z s) (target0 : PwrSt) (source : Nat) (cause : Nat) : Kept z (pwrRequest target0 source cause s) := by
  unfold pwrRequest
  try dsimp only
  repeat' first
    | with_reducible assumption
    | with_reducible apply notice_kept
    | with_reducible apply duskRequest_kept
    | with_reducible apply holdRequest_kept
    | split
    | fail_if_no_progress with_reducible refine Kept.same ?_ id id id id id id id id

/-! ### Fault.lean -/

theorem mapPins_kept {z s : State} (hk : Kept z s) (mask : Nat) (f : Nat → PinCh → PinCh) : Kept z (mapPins mask f s) := by
  unfold mapPins
  repeat' first
    | with_reducible assumption
    | fail_if_no_progress with_reducible refine Kept.same ?_ id id id id id id id id

theorem safePins_kept {z s : State} (hk : Kept z s) (mask : Nat) : Kept z (safePins mask s) := by
  unfold safePins
  repeat' first
    | with_reducible assumption
    | with_reducible apply mapPins_kept

theorem swapMade_kept {z s : State} (hk : Kept z s) (k : Nat) : Kept z (swapMade k s) := by
  unfold swapMade
  repeat' first
    | with_reducible assumption
    | with_reducible apply bump_kept

theorem returnXpt_kept {z s : State} (hk : Kept z s) (mask : Nat) : Kept z (returnXpt mask s) := by
  unfold returnXpt
  try dsimp only
  repeat' first
    | with_reducible assumption
    | with_reducible apply swapMade_kept
    | with_reducible refine Kept.foldl _ _ ?_ (fun u a hu => ?_)
    | (intro u hu)
    | (refine Kept.mk' ?_ id id (fun g => OctsOk.vmap g (fun k o ho => by repeat' (first | with_reducible exact ho | split))) id id id id id id id id)
    | split
    | fail_if_no_progress with_reducible refine Kept.same ?_ id id id id id id id id

theorem orderStop_kept {z s : State} (hk : Kept z s) (gran : Bool) (code : Nat) (cause : Nat) (line : Bool) (i : Nat) : Kept z (orderStop gran code cause line i s) := by
  unfold orderStop
  repeat' first
    | with_reducible assumption
    | with_reducible apply modSlot_kept
    | split

theorem faultStop_kept {z s : State} (hk : Kept z s) (mask : Nat) (src : Nat) : Kept z (faultStop mask src s) := by
  unfold faultStop
  repeat' first
    | with_reducible assumption
    | with_reducible apply orderStop_kept
    | with_reducible refine Kept.foldl _ _ ?_ (fun u a hu => ?_)

theorem calRequest_kept {z s : State} (hk : Kept z s) (mask : Nat) : Kept z (calRequest mask s) := by
  unfold calRequest
  try dsimp only
  repeat' first
    | with_reducible assumption
    | with_reducible apply notice_kept
    | split
    | (refine Kept.mk' ?_ id id (fun g => OctsOk.vmap g (fun k o ho => by repeat' (first | with_reducible exact ho | split))) id id id id id id id id)

theorem unitRequest_kept {s0 s : State} (hk : Kept s0 s) (l : List Nat) : Kept s0 (unitRequest l s) := by
  induction l generalizing s with
  | nil => exact hk.mk' id id id id id id id id id id id
  | cons k l ih =>
    unfold unitRequest
    split
    · dsimp only
      split
      · exact ih (calRequest_kept hk _)
      · exact (calRequest_kept hk _).mk' id id id id id id id id id id id
    · exact ih hk

theorem unitAdvance_kept {z s : State} (hk : Kept z s) (k : Nat) : Kept z (unitAdvance k s) := by
  unfold unitAdvance
  repeat' first
    | with_reducible assumption
    | with_reducible apply unitRequest_kept
    | split

theorem schedule_kept {z s : State} (hk : Kept z s) (a : Act) : Kept z (schedule a s) := by
  unfold schedule
  try dsimp only
  repeat' first
    | with_reducible assumption
    | (intro u hu)
    | split
    | fail_if_no_progress with_reducible refine Kept.same ?_ id id id id id id id id

theorem strobeAfter_kept {z s : State} (hk : Kept z s) (k : Nat) : Kept z (strobeAfter k s) := by
  unfold strobeAfter
  try dsimp only
  repeat' first
    | with_reducible assumption
    | with_reducible apply schedule_kept
    | (intro u hu)
    | split
    | fail_if_no_progress with_reducible refine Kept.same ?_ id id id id id id id id

theorem calRec_kept {z s : State} (hk : Kept z s) (sub mask pin : Nat) (pinValid : Bool) (quality : Nat) : Kept z (calRec sub mask pin pinValid quality s) := by
  unfold calRec
  try dsimp only
  repeat' first
    | with_reducible assumption
    | with_reducible apply pushUnit_kept
    | (intro u hu)
    | split
    | fail_if_no_progress with_reducible refine Kept.same ?_ id id id id id id id id

theorem abandonWindow_kept {z s : State} (hk : Kept z s) (k : Nat) : Kept z (abandonWindow k s) := by
  unfold abandonWindow
  try dsimp only
  repeat' first
    | with_reducible assumption
    | ((with_reducible refine modOct_kept ?_ _ _ (fun _ hx => ?_)); rotate_left; exact hx)
    | with_reducible apply unitAdvance_kept
    | with_reducible apply strobeAfter_kept
    | with_reducible apply calRec_kept
    | with_reducible apply bump_kept
    | (intro u hu)
    | split
    | fail_if_no_progress with_reducible refine Kept.same ?_ id id id id id id id id

theorem abandonWindows_kept {z s : State} (hk : Kept z s) (mask : Nat) : Kept z (abandonWindows mask s) := by
  unfold abandonWindows
  repeat' first
    | with_reducible assumption
    | with_reducible apply abandonWindow_kept
    | with_reducible refine Kept.foldl _ _ ?_ (fun u a hu => ?_)

theorem stopOctets_kept {z s : State} (hk : Kept z s) (mask : Nat) (src : Nat) : Kept z (stopOctets mask src s) := by
  unfold stopOctets
  repeat' first
    | with_reducible assumption
    | with_reducible apply faultStop_kept
    | with_reducible apply abandonWindows_kept
    | with_reducible apply returnXpt_kept
    | with_reducible apply safePins_kept
    | split

theorem react_kept {z s : State} (hk : Kept z s) (src : Nat) (oct : Nat) (fresh : Bool) : Kept z (react src oct fresh s) := by
  unfold react
  repeat' first
    | with_reducible assumption
    | with_reducible apply stopOctets_kept
    | with_reducible apply faultStop_kept
    | with_reducible apply pwrRequest_kept
    | split

theorem scopeLog_kept {z s : State} (hk : Kept z s) (src oct code detail : Nat) : Kept z (scopeLog src oct code detail s) := by
  unfold scopeLog
  try dsimp only
  repeat' first
    | with_reducible assumption
    | with_reducible apply logPut_kept
    | (intro u hu)
    | split
    | fail_if_no_progress with_reducible refine Kept.same ?_ id id id id id id id id

theorem leaveSevere_kept {z s : State} (hk : Kept z s) (src oct : Nat) (auto : Bool) (detail : Nat) : Kept z (leaveSevere src oct auto detail s) := by
  unfold leaveSevere
  try dsimp only
  repeat' first
    | with_reducible assumption
    | with_reducible apply scopeLog_kept
    | with_reducible apply modScope_kept
    | (intro u hu)
    | split
    | fail_if_no_progress with_reducible refine Kept.same ?_ id id id id id id id id

theorem erase_reverse_length {α : Type} [BEq α] (l : List α) (e : α) : (l.reverse.erase e).reverse.length ≤ l.length := by
  rw [List.length_reverse]
  exact Nat.le_trans (List.Sublist.length_le List.erase_sublist) (by rw [List.length_reverse])

theorem dropWhile_isCont_ok (l : List LogEntry) (h : l.length ≤ 2048) : LogOk (l.dropWhile isCont) := by
  refine ⟨Nat.le_trans (List.Sublist.length_le (List.dropWhile_sublist _)) h, ?_⟩
  intro e he
  have := List.head?_dropWhile_not isCont l
  rw [he] at this
  simpa using this

theorem unlog_kept {z s : State} (hk : Kept z s) (e : LogEntry) : Kept z (unlog e s) := by
  unfold unlog
  split
  · exact hk.mk' id id id (fun h => dropWhile_isCont_ok _ (Nat.le_trans (erase_reverse_length _ _) h.1)) id id id id id id id
  · exact hk

theorem uncount_kept {z s : State} (hk : Kept z s) (src oct : Nat) : Kept z (uncount src oct s) := by
  unfold uncount
  try dsimp only
  repeat' first
    | with_reducible assumption
    | with_reducible apply modScope_kept
    | (intro u hu)
    | split
    | fail_if_no_progress with_reducible refine Kept.same ?_ id id id id id id id id

theorem clearRefused_kept {z s : State} (hk : Kept z s) (src oct : Nat) : Kept z (clearRefused src oct s) := by
  unfold clearRefused
  try dsimp only
  repeat' first
    | with_reducible assumption
    | with_reducible apply scopeLog_kept
    | with_reducible apply bump_kept
    | (intro u hu)
    | split
    | fail_if_no_progress with_reducible refine Kept.same ?_ id id id id id id id id

theorem exitBack_kept {z s : State} (hk : Kept z s) (src oct : Nat) : Kept z (exitBack src oct s) := by
  unfold exitBack
  try dsimp only
  repeat' first
    | with_reducible assumption
    | with_reducible apply unlog_kept
    | with_reducible apply modScope_kept
    | with_reducible apply react_kept
    | with_reducible apply uncount_kept
    | with_reducible apply clearRefused_kept
    | (intro u hu)
    | split
    | fail_if_no_progress with_reducible refine Kept.same ?_ id id id id id id id id

theorem logEvent_kept {z s : State} (hk : Kept z s) (a : FltAt) (detail : Nat) (ws : List Nat) : Kept z (logEvent a detail ws s) := by
  unfold logEvent
  try dsimp only
  repeat' first
    | with_reducible assumption
    | with_reducible apply modScope_kept
    | with_reducible apply logPut_kept
    | with_reducible apply bump_kept
    | split

theorem goSevere_kept {z s : State} (hk : Kept z s) (a : FltAt) : Kept z (goSevere a s) := by
  unfold goSevere
  repeat' first
    | with_reducible assumption
    | with_reducible apply modScope_kept
    | with_reducible apply react_kept
    | with_reducible apply bump_kept
    | with_reducible apply logPut_kept

theorem fault_kept {z s : State} (hk : Kept z s) (a : FltAt) (detail : Nat) (ws : List Nat) : Kept z (fault a detail ws s) := by
  unfold fault
  try dsimp only
  repeat' first
    | with_reducible assumption
    | with_reducible apply exitBack_kept
    | with_reducible apply modScope_kept
    | with_reducible apply logEvent_kept
    | with_reducible apply bump_kept
    | with_reducible apply react_kept
    | with_reducible apply goSevere_kept
    | (intro u hu)
    | split
    | fail_if_no_progress with_reducible refine Kept.same ?_ id id id id id id id id

theorem faultU_kept {z s : State} (hk : Kept z s) (src : Nat) (detail : Nat) : Kept z (faultU src detail s) := by
  unfold faultU
  repeat' first
    | with_reducible assumption
    | with_reducible apply fault_kept

theorem setCond_kept {z s : State} (hk : Kept z s) (src : Nat) (oct : Nat) (c : Bool) : Kept z (setCond src oct c s) := by
  unfold setCond
  repeat' first
    | with_reducible assumption
    | with_reducible apply modScope_kept

/-! ### Range.lean -/

theorem noteRange_kept {z s : State} (hk : Kept z s) (off : Nat) (sel : Nat) (subs : List (Nat × Nat)) : Kept z (noteRange off sel subs s) := by
  unfold noteRange
  repeat' first
    | with_reducible assumption
    | with_reducible apply setCond_kept
    | with_reducible apply faultU_kept
    | with_reducible refine Kept.foldl _ _ ?_ (fun u a hu => ?_)
    | fail_if_no_progress with_reducible refine Kept.same ?_ id id id id id id id id

/-! ### Assure.lean -/

theorem assureLapse_kept {z s : State} (hk : Kept z s)  : Kept z (assureLapse s) := by
  unfold assureLapse
  try dsimp only
  repeat' first
    | with_reducible assumption
    | with_reducible apply bumpSet_kept
    | with_reducible refine Kept.foldl _ _ ?_ (fun u a hu => ?_)
    | (intro u hu)
    | split
    | fail_if_no_progress with_reducible refine Kept.same ?_ id id id id id id id id

theorem pass_kept {s0 s : State} (hk : Kept s0 s) (t : Instant) : Kept s0 (pass t s) := by
  unfold pass
  dsimp only
  split
  · exact hk.mk' id id id id id id id id id id id (Nat.le_max_left _ _)
  · rw [assureLapse_eq]
    exact hk.mk' id id id id id id id id id id id (Nat.le_max_left _ _)

/-! ### Capture.lean -/

theorem lossAdd_fifo (jobNo lo hi time : Nat) (notify : Bool) (c : Cap) : (lossAdd jobNo lo hi time notify c).fifo = c.fifo := by
  unfold lossAdd; split <;> rfl

theorem foldl_lossAdd_fifo {α : Type} (a b d e : α → Nat) (nl : Bool) (l : List α) (c : Cap) :
    (l.foldl (fun c r => lossAdd (a r) (b r) (d r) (e r) nl c) c).fifo = c.fifo := by
  induction l generalizing c with
  | nil => rfl
  | cons r l ih => exact (ih _).trans (lossAdd_fifo _ _ _ _ _ _)

/-- An accepted record makes a FIFO one longer, and only where its fill leaves room; a dropped one leaves it as it is. -/
theorem capOffer_fifo (fill k : Nat) (q : QRec) (lo hi time : Nat) (nl : Bool) (c : Cap) (hf : c.fifo.length ≤ fill)
    (h : c.fifo.length ≤ 4096) : (capOffer fill k q lo hi time nl c).1.fifo.length ≤ 4096 := by
  unfold capOffer
  split
  · rename_i hlt
    unfold capRoom at hlt
    simp only [List.length_append, List.length_cons, List.length_nil]
    omega
  · dsimp only
    rw [foldl_lossAdd_fifo (fun r : QRec × Nat × Nat => r.1.body.jobNo.toNat) (fun r => r.2.1) (fun r => r.2.2) (fun _ => time),
      lossAdd_fifo]
    exact h

theorem fifo_le_capFill (s : State) (k : Nat) : (vget s.caps k {}).fifo.length ≤ capFill s k := Nat.le_add_right _ _

theorem lossCloseAt_kept {s0 s : State} (hk : Kept s0 s) (k : Nat) : Kept s0 (lossCloseAt k s) := by
  unfold lossCloseAt
  dsimp only
  split
  · exact hk
  · split
    · rename_i hlt
      refine fault_kept (bumpMax_kept (hk.mk' id id id id id id id id id id (fun g j => ?_)) _ _ _ _) _ _ _
      rw [vget_vmod]
      split
      · rename_i hj
        obtain ⟨rfl, _⟩ := hj
        have h1 : capFill s k < 4094 := hlt.1
        have h2 := fifo_le_capFill s k
        simp only [List.length_append, List.length_cons, List.length_nil]
        omega
      · exact g j
    · exact hk

theorem capIn_kept {s0 s : State} (hk0 : Kept s0 s) (k : Nat) (q : QRec) (lo hi : Nat) : Kept s0 (capIn k q lo hi s) := by
  unfold capIn
  split
  · exact hk0
  · have hk := lossCloseAt_kept hk0 k
    generalize lossCloseAt k s = u at hk
    have h1 : ∀ time nl, Kept s0 (modCap k (fun _ => (capOffer (capFill u k) k q lo hi time nl (capAt u k)).1) u) := fun _ _ =>
      hk.mk' id id id id id id id id id id (fun g j => by
        rw [vget_vmod]
        split
        · exact capOffer_fifo _ _ _ _ _ _ _ _ (fifo_le_capFill u k) (g k)
        · exact g j)
    dsimp only
    split
    · exact bumpMax_kept (h1 _ _) _ _ _ _
    · exact bump_kept (bumpMax_kept (h1 _ _) _ _ _ _) _ _ _ _

theorem formAt_kept {z s : State} (hk : Kept z s) (k : Nat) (q : QRec) (lo hi : Nat) : Kept z (formAt k q lo hi s) := by
  unfold formAt
  try dsimp only
  repeat' first
    | with_reducible assumption
    | with_reducible apply capIn_kept
    | with_reducible apply schedule_kept
    | (intro u hu)
    | split
    | fail_if_no_progress with_reducible refine Kept.same ?_ id id id id id id id id

theorem dropActs_kept {z s : State} (hk : Kept z s) (jobNo mask : Nat) : Kept z (dropActs jobNo mask s) :=
  hk.mk' id id id id id id id id id id (fun g => CapsOk.vmap g (fun k c hc => by split <;> exact hc))

theorem closeOct_kept {z s : State} (hk : Kept z s) (at_ : Instant) (closed : Bool) (k : Nat) : Kept z (closeOct at_ closed k s) := by
  unfold closeOct
  try dsimp only
  repeat' first
    | with_reducible assumption
    | ((with_reducible refine modCap_kept ?_ _ _ (fun _ hx => ?_)); rotate_left; exact hx)
    | with_reducible apply formAt_kept
    | with_reducible refine Kept.foldl _ _ ?_ (fun u a hu => ?_)
    | (intro u hu)
    | split
    | fail_if_no_progress with_reducible refine Kept.same ?_ id id id id id id id id

theorem closeOcts_kept {z s : State} (hk : Kept z s) (at_ : Instant) (mask : Nat) : Kept z (closeOcts at_ mask s) := by
  unfold closeOcts
  repeat' first
    | with_reducible assumption
    | with_reducible apply closeOct_kept
    | with_reducible refine Kept.foldl _ _ ?_ (fun u a hu => ?_)

theorem timeStateRec_kept {z s : State} (hk : Kept z s) (sub : Nat) (step : Int) : Kept z (timeStateRec sub step s) := by
  unfold timeStateRec
  try dsimp only
  repeat' first
    | with_reducible assumption
    | with_reducible apply pushUnit_kept
    | with_reducible apply closeOcts_kept
    | (intro u hu)
    | split
    | fail_if_no_progress with_reducible refine Kept.same ?_ id id id id id id id id

theorem resetRing_kept {z s : State} (hk : Kept z s) (r : Nat) : Kept z (resetRing r s) := by
  unfold resetRing
  repeat' first
    | with_reducible assumption
    | with_reducible apply bump_kept
    | fail_if_no_progress with_reducible refine Kept.same ?_ id id id id id id id id

theorem resetRings_kept {z s : State} (hk : Kept z s) (mask : Nat) : Kept z (resetRings mask s) := by
  unfold resetRings
  repeat' first
    | with_reducible assumption
    | with_reducible apply resetRing_kept
    | with_reducible refine Kept.foldl _ _ ?_ (fun u a hu => ?_)

theorem endPins_kept {z s : State} (hk : Kept z s) (code mask : Nat) (act ran : Bool) : Kept z (endPins code mask act ran s) := by
  unfold endPins
  try dsimp only
  repeat' first
    | with_reducible assumption
    | with_reducible apply safePins_kept
    | with_reducible apply mapPins_kept
    | (intro u hu)
    | split
    | fail_if_no_progress with_reducible refine Kept.same ?_ id id id id id id id id

theorem endFault_kept {z s : State} (hk : Kept z s) (i : Nat) (code : Nat) (cause : Nat) : Kept z (endFault i code cause s) := by
  unfold endFault
  repeat' first
    | with_reducible assumption
    | with_reducible apply faultU_kept
    | split

theorem endJob_kept {z s : State} (hk : Kept z s) (code cause : Nat) (line : Bool) (i : Nat) : Kept z (endJob code cause line i s) := by
  unfold endJob
  try dsimp only
  repeat' first
    | with_reducible assumption
    | with_reducible apply modSlot_kept
    | with_reducible apply endPins_kept
    | with_reducible apply closeOcts_kept
    | with_reducible apply dropActs_kept
    | with_reducible apply resetRings_kept
    | with_reducible apply endFault_kept
    | (intro u hu)
    | split
    | fail_if_no_progress with_reducible refine Kept.same ?_ id id id id id id id id

theorem endJobs_kept {z s : State} (hk : Kept z s) (code : Nat) (cause : Nat) (line : Bool) (l : List Nat) : Kept z (endJobs code cause line l s) := by
  unfold endJobs
  repeat' first
    | with_reducible assumption
    | with_reducible apply endJob_kept
    | with_reducible refine Kept.foldl _ _ ?_ (fun u a hu => ?_)

theorem formEnd_kept {z s : State} (hk : Kept z s) (i : Nat) : Kept z (formEnd i s) := by
  unfold formEnd
  try dsimp only
  repeat' first
    | with_reducible assumption
    | with_reducible apply pushUnit_kept
    | with_reducible apply modSlot_kept
    | (intro u hu)
    | split
    | fail_if_no_progress with_reducible refine Kept.same ?_ id id id id id id id id

theorem formEnds_kept {z s : State} (hk : Kept z s)  : Kept z (formEnds s) := by
  unfold formEnds
  repeat' first
    | with_reducible assumption
    | with_reducible apply formEnd_kept
    | with_reducible refine Kept.foldl _ _ ?_ (fun u a hu => ?_)

/-! ### Acts.lean -/

theorem inputStep_kept {z s : State} (hk : Kept z s) (n : Nat) (u : Int) : Kept z (inputStep n u s) := by
  unfold inputStep
  try dsimp only
  repeat' first
    | with_reducible assumption
    | with_reducible apply modPin_kept
    | (intro u hu)
    | split
    | fail_if_no_progress with_reducible refine Kept.same ?_ id id id id id id id id

theorem closeRun_kept {z s : State} (hk : Kept z s) (k : Nat) (at_ : Instant) : Kept z (closeRun k at_ s) := by
  unfold closeRun
  try dsimp only
  repeat' first
    | with_reducible assumption
    | with_reducible apply formAt_kept
    | ((with_reducible refine modCap_kept ?_ _ _ (fun _ hx => ?_)); rotate_left; exact hx)
    | (intro u hu)
    | split
    | fail_if_no_progress with_reducible refine Kept.same ?_ id id id id id id id id

theorem closeGrp_kept {z s : State} (hk : Kept z s) (k : Nat) (at_ : Instant) : Kept z (closeGrp k at_ s) := by
  unfold closeGrp
  try dsimp only
  repeat' first
    | with_reducible assumption
    | ((with_reducible refine modCap_kept ?_ _ _ (fun _ hx => ?_)); rotate_left; exact hx)
    | with_reducible apply formAt_kept
    | (intro u hu)
    | split
    | fail_if_no_progress with_reducible refine Kept.same ?_ id id id id id id id id

theorem passCycle_kept {z s : State} (hk : Kept z s) (k : Nat) (a : CycAt) (rs : List PinRes) : Kept z (passCycle k a rs s) := by
  unfold passCycle
  try dsimp only
  repeat' first
    | with_reducible assumption
    | with_reducible apply formAt_kept
    | ((with_reducible refine modCap_kept ?_ _ _ (fun _ hx => ?_)); rotate_left; exact hx)
    | (intro u hu)
    | split
    | fail_if_no_progress with_reducible refine Kept.same ?_ id id id id id id id id

theorem failCycle_kept {z s : State} (hk : Kept z s) (k : Nat) (a : CycAt) (rs : List PinRes) : Kept z (failCycle k a rs s) := by
  unfold failCycle
  try dsimp only
  repeat' first
    | with_reducible assumption
    | with_reducible apply closeRun_kept
    | with_reducible apply formAt_kept
    | ((with_reducible refine modCap_kept ?_ _ _ (fun _ hx => ?_)); rotate_left; exact hx)
    | with_reducible apply closeGrp_kept
    | with_reducible refine Kept.foldl _ _ ?_ (fun u a hu => ?_)
    | (intro u hu)
    | split
    | fail_if_no_progress with_reducible refine Kept.same ?_ id id id id id id id id

theorem openCycle_kept {z s : State} (hk : Kept z s) (k : Nat) (a : CycAt) (m n : Nat) : Kept z (openCycle k a m n s) := by
  unfold openCycle
  try dsimp only
  repeat' first
    | with_reducible assumption
    | with_reducible apply closeRun_kept
    | ((with_reducible refine modCap_kept ?_ _ _ (fun _ hx => ?_)); rotate_left; exact hx)
    | (intro u hu)
    | split
    | fail_if_no_progress with_reducible refine Kept.same ?_ id id id id id id id id

theorem octResult_kept {z s : State} (hk : Kept z s) (k : Nat) (r : PinRes) : Kept z (octResult k r s) := by
  unfold octResult
  try dsimp only
  repeat' first
    | with_reducible assumption
    | ((with_reducible refine modCap_kept ?_ _ _ (fun _ hx => ?_)); rotate_left; exact hx)
    | with_reducible apply failCycle_kept
    | with_reducible apply passCycle_kept
    | (intro u hu)
    | split
    | fail_if_no_progress with_reducible refine Kept.same ?_ id id id id id id id id

theorem pinC1_kept {z s : State} (hk : Kept z s) (n : Nat) : Kept z (pinC1 n s) := by
  unfold pinC1
  try dsimp only
  repeat' first
    | with_reducible assumption
    | with_reducible apply octResult_kept
    | with_reducible apply modPin_kept
    | (intro u hu)
    | split
    | fail_if_no_progress with_reducible refine Kept.same ?_ id id id id id id id id

theorem pinC2_kept {z s : State} (hk : Kept z s) (n : Nat) : Kept z (pinC2 n s) := by
  unfold pinC2
  try dsimp only
  repeat' first
    | with_reducible assumption
    | with_reducible apply octResult_kept
    | with_reducible apply modPin_kept
    | with_reducible apply formAt_kept
    | (intro u hu)
    | split
    | fail_if_no_progress with_reducible refine Kept.same ?_ id id id id id id id id

theorem clipEvents_kept {z s : State} (hk : Kept z s) (k : Nat) (before : List (BitVec 5)) : Kept z (clipEvents k before s) := by
  unfold clipEvents
  try dsimp only
  repeat' first
    | with_reducible assumption
    | with_reducible apply fault_kept
    | with_reducible refine Kept.foldl _ _ ?_ (fun u a hu => ?_)
    | (intro u hu)
    | split
    | fail_if_no_progress with_reducible refine Kept.same ?_ id id id id id id id id

theorem waveOut_wave (o : OctCh) : (waveOut o).wave = o.wave := by
  unfold waveOut
  split <;> rfl

theorem loadWave_wave (now : Instant) (d : Bool) (o : OctCh) : (loadWave now d o).wave = o.wave := by
  unfold loadWave
  dsimp only
  rw [waveOut_wave]
  split <;> rfl

theorem octAt_mapPins (m : Nat) (f : Nat → PinCh → PinCh) (s : State) (k : Nat) : octAt (mapPins m f s) k = octAt s k := by
  unfold octAt mapPins
  rfl

theorem modOct_at_kept {s0 s : State} (hk : Kept s0 s) (k : Nat) (o : OctCh) (h : o.wave = (octAt s k).wave) :
    Kept s0 (modOct k (fun _ => o) s) :=
  hk.mk' id id (fun g j => by
    rw [vget_vmod]
    split
    · rw [h]; exact g k
    · exact g j) id id id id id id id id

theorem loadOct_kept {s0 s : State} (hk : Kept s0 s) (k : Nat) (dayEntry : Bool) : Kept s0 (loadOct k dayEntry s) := by
  unfold loadOct
  dsimp only
  apply clipEvents_kept
  refine modOct_at_kept (mapPins_kept hk _ _) _ _ ?_
  rw [octAt_mapPins]
  exact loadWave_wave _ _ (octAt s k)

theorem strobe_kept {z s : State} (hk : Kept z s) (k : Nat) (src : Nat) : Kept z (strobe k src s) := by
  unfold strobe
  try dsimp only
  repeat' first
    | with_reducible assumption
    | with_reducible apply loadOct_kept
    | ((with_reducible refine modOct_kept ?_ _ _ (fun _ hx => ?_)); rotate_left; exact hx)
    | split

theorem dayStrobe_kept {z s : State} (hk : Kept z s) (k : Nat) : Kept z (dayStrobe k s) := by
  unfold dayStrobe
  repeat' first
    | with_reducible assumption
    | with_reducible apply loadOct_kept
    | ((with_reducible refine modOct_kept ?_ _ _ (fun _ hx => ?_)); rotate_left; exact hx)
    | split

theorem strobeOrDefer_kept {z s : State} (hk : Kept z s) (k : Nat) (src : Nat) : Kept z (strobeOrDefer k src s) := by
  unfold strobeOrDefer
  repeat' first
    | with_reducible assumption
    | with_reducible apply strobe_kept
    | ((with_reducible refine modOct_kept ?_ _ _ (fun _ hx => ?_)); rotate_left; exact hx)
    | split

theorem fireDeferred_kept {z s : State} (hk : Kept z s) (k : Nat) : Kept z (fireDeferred k s) := by
  unfold fireDeferred
  try dsimp only
  repeat' first
    | with_reducible assumption
    | with_reducible apply strobe_kept
    | ((with_reducible refine modOct_kept ?_ _ _ (fun _ hx => ?_)); rotate_left; exact hx)
    | split

theorem runAct_kept {z s : State} (hk : Kept z s) (a : Act) : Kept z (runAct a s) := by
  unfold runAct
  try dsimp only
  repeat' first
    | with_reducible assumption
    | with_reducible apply inputStep_kept
    | with_reducible apply modPin_kept
    | with_reducible apply pinC1_kept
    | with_reducible apply pinC2_kept
    | with_reducible apply capIn_kept
    | with_reducible apply strobe_kept
    | with_reducible apply fireDeferred_kept
    | (intro u hu)
    | split
    | fail_if_no_progress with_reducible refine Kept.same ?_ id id id id id id id id

theorem runActs_kept {s0 s : State} (hk : Kept s0 s) (f : Nat) (t : Instant) : Kept s0 (runActs f t s) := by
  induction f generalizing s with
  | zero => exact hk
  | succ f ih =>
    unfold runActs
    split
    · exact hk
    · split
      · exact ih (runAct_kept (pass_kept (hk.same id id id id id id id id) _) _)
      · exact hk

theorem advance_kept {s0 s : State} (hk : Kept s0 s) (t : Instant) : Kept s0 (advance t s) :=
  pass_kept (runActs_kept hk _ _) t

/-! ### Timing.lean -/

theorem noteUndo_kept {z s : State} (hk : Kept z s) (tset : Bool) (ix : Nat) (old : Word) (stat : Nat × Nat) : Kept z (noteUndo tset ix old stat s) := by
  unfold noteUndo
  try dsimp only
  repeat' first
    | with_reducible assumption
    | (intro u hu)
    | split
    | fail_if_no_progress with_reducible refine Kept.same ?_ id id id id id id id id

theorem tsetWrite_kept {z s : State} (hk : Kept z s) (ix : Nat) (val : Word) : Kept z (tsetWrite ix val s).1 := by
  unfold tsetWrite
  try dsimp only
  repeat' first
    | with_reducible assumption
    | with_reducible apply bump_kept
    | with_reducible apply noteUndo_kept
    | (intro u hu)
    | with_reducible refine Kept.mk' ?_ id (fun g => ⟨g.1, wrWord_wf _ _ _ g.2.1, g.2.2.1, g.2.2.2⟩) id id id id id id id id id
    | split
    | fail_if_no_progress with_reducible refine Kept.same ?_ id id id id id id id id

theorem probeWrite_kept {z s : State} (hk : Kept z s) (val : Word) : Kept z (probeWrite val s).1 := by
  unfold probeWrite
  repeat' first
    | with_reducible assumption
    | split
    | fail_if_no_progress with_reducible refine Kept.same ?_ id id id id id id id id

theorem portWrite_kept {s0 s : State} (hk : Kept s0 s) (port : Port) (addr : Nat) (val : Word) (f : State → State × BusRes)
    (hf : ∀ u, Kept s0 u → Kept s0 (f u).1) : Kept s0 (portWrite port addr val f s) := by
  unfold portWrite
  split
  · exact answer_kept (hf _ (assureLapse_kept hk)) _ _ _ _ _
  · exact hk

theorem probeDone_kept {z s : State} (hk : Kept z s)  : Kept z (probeDone s) := by
  unfold probeDone
  repeat' first
    | with_reducible assumption
    | split
    | fail_if_no_progress with_reducible refine Kept.same ?_ id id id id id id id id

/-! ### Segments.lean -/

theorem setStat_kept {z s : State} (hk : Kept z s) (e : Nat) (v : Nat × Nat) : Kept z (setStat e v s) := by
  unfold setStat
  repeat' first
    | with_reducible assumption
    | with_reducible refine Kept.mk' ?_ id (fun g => ⟨g.1, g.2.1, g.2.2.1, swf_sset _ _ _ g.2.2.2⟩) id id id id id id id id id

theorem noteDirty_kept {z s : State} (hk : Kept z s) (e : Nat) : Kept z (noteDirty e s) := by
  unfold noteDirty
  repeat' first
    | with_reducible assumption
    | split
    | fail_if_no_progress with_reducible refine Kept.same ?_ id id id id id id id id

theorem segWrite_kept {z s : State} (hk : Kept z s) (ix : Nat) (val : Word) : Kept z (segWrite ix val s).1 := by
  unfold segWrite
  try dsimp only
  repeat' first
    | with_reducible assumption
    | with_reducible apply bump_kept
    | with_reducible apply noteUndo_kept
    | with_reducible apply noteDirty_kept
    | with_reducible apply setStat_kept
    | (intro u hu)
    | with_reducible refine Kept.mk' ?_ id (fun g => ⟨g.1, g.2.1, wrWord_wf _ _ _ g.2.2.1, g.2.2.2⟩) id id id id id id id id id
    | split
    | fail_if_no_progress with_reducible refine Kept.same ?_ id id id id id id id id

theorem refuseBus_kept {z s : State} (hk : Kept z s) (addr : Nat) : Kept z (refuseBus addr s) := by
  unfold refuseBus
  try dsimp only
  repeat' first
    | with_reducible assumption
    | (intro u hu)
    | split
    | fail_if_no_progress with_reducible refine Kept.same ?_ id id id id id id id id

theorem takeBack_kept {z s : State} (hk : Kept z s) (u : SegUndo) : Kept z (takeBack u s) := by
  unfold takeBack
  try dsimp only
  repeat' first
    | with_reducible assumption
    | with_reducible apply refuseBus_kept
    | with_reducible apply bump_kept
    | with_reducible apply setStat_kept
    | (intro u hu)
    | with_reducible refine Kept.mk' ?_ id (fun g => ⟨g.1, wrWord_wf _ _ _ g.2.1, g.2.2.1, g.2.2.2⟩) id id id id id id id id id
    | with_reducible refine Kept.mk' ?_ id (fun g => ⟨g.1, g.2.1, wrWord_wf _ _ _ g.2.2.1, g.2.2.2⟩) id id id id id id id id id
    | split
    | fail_if_no_progress with_reducible refine Kept.same ?_ id id id id id id id id

theorem takeBackFor_kept {z s : State} (hk : Kept z s) (sets : Nat) (es : List Nat) : Kept z (takeBackFor sets es s) := by
  unfold takeBackFor
  try dsimp only
  repeat' first
    | with_reducible assumption
    | with_reducible apply takeBack_kept
    | with_reducible refine Kept.foldl _ _ ?_ (fun u a hu => ?_)
    | (intro u hu)
    | split
    | fail_if_no_progress with_reducible refine Kept.same ?_ id id id id id id id id

theorem segLoadWrite_kept {z s : State} (hk : Kept z s) (val : Word) : Kept z (segLoadWrite val s).1 := by
  unfold segLoadWrite
  repeat' first
    | with_reducible assumption
    | split
    | fail_if_no_progress with_reducible refine Kept.same ?_ id id id id id id id id

theorem loadEntry_kept {z s : State} (hk : Kept z s) (dirty : List (Nat × Nat)) (e : Nat) : Kept z (loadEntry dirty e s) := by
  unfold loadEntry
  repeat' first
    | with_reducible assumption
    | with_reducible apply setStat_kept
    | split

theorem segLoadDone_kept {z s : State} (hk : Kept z s)  : Kept z (segLoadDone s) := by
  unfold segLoadDone
  repeat' first
    | with_reducible assumption
    | with_reducible apply loadEntry_kept
    | split
    | with_reducible refine Kept.foldl _ _ ?_ (fun u a hu => ?_)
    | fail_if_no_progress with_reducible refine Kept.same ?_ id id id id id id id id

theorem vstoreWrite_kept {z s : State} (hk : Kept z s) (a : Nat) (bs : List Byte) : Kept z (vstoreWrite a bs s).1 := by
  unfold vstoreWrite
  repeat' first
    | with_reducible assumption
    | with_reducible apply bump_kept
    | split
    | with_reducible refine Kept.mk' ?_ id (fun g => ⟨wrBytes_wf _ _ _ g.1, g.2⟩) id id id id id id id id id

theorem urReleaseAll_kept {z s : State} (hk : Kept z s)  : Kept z (urReleaseAll s) := by
  unfold urReleaseAll
  repeat' first
    | with_reducible assumption
    | fail_if_no_progress with_reducible refine Kept.same ?_ id id id id id id id id

theorem segCtrlWrite_kept {z s : State} (hk : Kept z s) (val : Word) : Kept z (segCtrlWrite val s).1 := by
  unfold segCtrlWrite
  repeat' first
    | with_reducible assumption
    | with_reducible apply urReleaseAll_kept
    | split
    | fail_if_no_progress with_reducible refine Kept.same ?_ id id id id id id id id

/-! ### Pins.lean -/

theorem pinRegWrite_kept {z s : State} (hk : Kept z s) (n : Nat) (r : Nat) (val : Word) : Kept z (pinRegWrite n r val s) := by
  unfold pinRegWrite
  repeat' first
    | with_reducible assumption
    | with_reducible apply modPin_kept
    | ((with_reducible refine modOct_kept ?_ _ _ (fun _ hx => ?_)); rotate_left; exact hx)

theorem waveRegWrite_kept {z s : State} (hk : Kept z s) (k : Nat) (r : Nat) (val : Word) : Kept z (waveRegWrite k r val s) := by
  unfold waveRegWrite
  repeat' first
    | with_reducible assumption
    | ((with_reducible refine modOct_kept ?_ _ _ (fun _ hx => ?_)); rotate_left; exact hx)
    | split

theorem loadCtrlWrite_kept {z s : State} (hk : Kept z s) (k : Nat) (val : Word) : Kept z (loadCtrlWrite k val s).1 := by
  unfold loadCtrlWrite
  repeat' first
    | with_reducible assumption
    | with_reducible apply noteRange_kept
    | with_reducible apply strobeOrDefer_kept
    | ((with_reducible refine modOct_kept ?_ _ _ (fun _ hx => ?_)); rotate_left; exact hx)
    | split

theorem pinStatusWrite_kept {z s : State} (hk : Kept z s) (n : Nat) (val : Word) : Kept z (pinStatusWrite n val s).1 := by
  unfold pinStatusWrite
  try dsimp only
  repeat' first
    | with_reducible assumption
    | with_reducible apply modPin_kept
    | (intro u hu)
    | split
    | fail_if_no_progress with_reducible refine Kept.same ?_ id id id id id id id id

theorem waveTabWrite_kept {s0 s : State} (hk : Kept s0 s) (ix : Nat) (val : Word) : Kept s0 (waveTabWrite ix val s).1 := by
  unfold waveTabWrite
  split
  · exact hk
  · split
    · exact hk
    · exact modOct_kept hk _ _ (fun o ho => swf_sset _ _ _ ho)

theorem overcurrent_kept {z s : State} (hk : Kept z s) (n : Nat) (peakMa : Nat) : Kept z (overcurrent n peakMa s) := by
  unfold overcurrent
  repeat' first
    | with_reducible assumption
    | with_reducible apply fault_kept
    | with_reducible apply modPin_kept
    | split

theorem waveTick_kept {s0 s : State} (hk : Kept s0 s) (k : Nat) : Kept s0 (waveTick k s) := by
  unfold waveTick
  dsimp only
  split
  · apply clipEvents_kept
    refine modOct_at_kept (mapPins_kept hk _ _) _ _ ?_
    rw [octAt_mapPins, waveOut_wave]
  · exact hk

/-! ### Notes.lean -/

theorem noteLatency_kept {z s : State} (hk : Kept z s) (strobe : Option Instant) : Kept z (noteLatency strobe s) := by
  unfold noteLatency
  repeat' first
    | with_reducible assumption
    | with_reducible apply bumpMax_kept
    | with_reducible apply bump_kept
    | split

theorem spiHandover_kept {z s : State} (hk : Kept z s)  : Kept z (spiHandover s) := by
  unfold spiHandover
  try dsimp only
  repeat' first
    | with_reducible assumption
    | with_reducible apply noteLatency_kept
    | (intro u hu)
    | split
    | fail_if_no_progress with_reducible refine Kept.same ?_ id id id id id id id id

theorem spiNoteMove_kept {s0 s : State} (hk : Kept s0 s) : Kept s0 (spiNoteMove s) := by
  unfold spiNoteMove
  split
  · split
    · exact hk
    · rename_i q rest hq
      refine spiHandover_kept (hk.mk' id id id id (fun h => ?_) id id id id id id)
      rw [hq, List.length_cons] at h
      exact Nat.le_of_succ_le h
  · exact hk

theorem spiNotify_kept {s0 s : State} (hk : Kept s0 s) (recNo : Nat) (r : Rec) (strobe : Option Instant) :
    Kept s0 (spiNotify recNo r strobe s) := by
  unfold spiNotify
  split
  · exact hk
  · split
    · rename_i hlt
      refine spiNoteMove_kept (hk.mk' id id id id (fun g => ?_) id id id id id id)
      simp only [List.length_append, List.length_cons, List.length_nil]
      omega
    · exact faultU_kept (bump_kept hk _ _ _ _) _ _

theorem TaspOk.setSess {p : Tasp} (h : TaspOk p) (k : Nat) (f : Option Sess → Option Sess)
    (hf : ∀ x, f (vget p.sess k none) = some x → x.notes.length ≤ 256) :
    ∀ i x, vget (vmod p.sess k f) i none = some x → x.notes.length ≤ 256 := by
  intro i x hx
  rw [vget_vmod] at hx
  split at hx
  · rename_i hi
    obtain ⟨rfl, _⟩ := hi
    exact hf x hx
  · exact h.2.2 i x hx

theorem taspEvent_kept {s0 s : State} (hk : Kept s0 s) (i : Nat) (body : List Byte) (strobe : Option Instant) :
    Kept s0 (taspEvent i body strobe s) := by
  unfold taspEvent
  split
  · exact hk
  · rename_i x hx
    split
    · have hn : ∀ y : Sess, some { x with nseq := nextNseq x.nseq, notes := ((x.notes ++ [(x.nseq, body)]).drop (x.notes.length + 1 - 256)) } = some y →
          y.notes.length ≤ 256 := by
        intro y hy
        rw [← Option.some.inj hy]
        simp only [List.length_drop, List.length_append, List.length_cons, List.length_nil]
        omega
      dsimp only
      split
      · rename_i hq
        refine hk.mk' id id id id id (fun g => ⟨?_, g.2.1, TaspOk.setSess g i _ hn⟩) id id id id id
        simp only [List.length_append, List.length_cons, List.length_nil]
        have := hq.1
        omega
      · apply faultU_kept
        apply bump_kept
        exact hk.mk' id id id id id (fun g => ⟨g.1, g.2.1, TaspOk.setSess g i _ hn⟩) id id id id id
    · exact hk

theorem notifyRec_kept {z s : State} (hk : Kept z s) (recNo : Nat) (r : Rec) (strobe : Option Instant) : Kept z (notifyRec recNo r strobe s) := by
  unfold notifyRec
  repeat' first
    | with_reducible assumption
    | with_reducible apply taspEvent_kept
    | with_reducible apply spiNotify_kept
    | split
    | with_reducible refine Kept.foldl _ _ ?_ (fun u a hu => ?_)

theorem taspHandover_kept {s0 s : State} (hk : Kept s0 s) : Kept s0 (taspHandover s) := by
  unfold taspHandover
  split
  · exact hk
  · rename_i q rest hq
    have h1 : TaspOk s.tasp → TaspOk { s.tasp with queue := rest } :=
      fun g => ⟨by have := g.1; rw [hq, List.length_cons] at this; exact Nat.le_of_succ_le this, g.2⟩
    dsimp only
    split
    · apply noteLatency_kept
      exact hk.mk' id id id id id h1 id id id id id
    · apply bump_kept
      exact hk.mk' id id id id id h1 id id id id id

end Sys2Proof.Machine
end

