-- ==== Sys2Proof/Laws/KeptEngines.lean ====
section
/-!
SUPPORT. KeptEngines.lean: what is kept (Kept.lean) by the certificate chain, seals, jobs, players, the arbiter, the store and calibration.
-/

set_option Elab.async false
set_option linter.unreachableTactic false
set_option linter.unusedTactic false

namespace Sys2Proof.Machine

open Sys2Proof

/-! ### Chain.lean -/

theorem chainCopy_kept {z s : State} (hk : Kept z s)  : Kept z (chainCopy s) := by
  unfold chainCopy
  repeat' first
    | with_reducible assumption
    | fail_if_no_progress with_reducible refine Kept.same ?_ id id id id id id id id

theorem fullSet_kept {z s : State} (hk : Kept z s)  : Kept z (fullSet s) := by
  unfold fullSet
  repeat' first
    | with_reducible assumption
    | with_reducible apply setCond_kept
    | with_reducible apply orderStop_kept
    | with_reducible apply faultU_kept
    | with_reducible apply endJobs_kept
    | split
    | with_reducible refine Kept.foldl _ _ ?_ (fun u a hu => ?_)
    | fail_if_no_progress with_reducible refine Kept.same ?_ id id id id id id id id

theorem fullClear_kept {z s : State} (hk : Kept z s)  : Kept z (fullClear s) := by
  unfold fullClear
  repeat' first
    | with_reducible assumption
    | with_reducible apply setCond_kept
    | split
    | fail_if_no_progress with_reducible refine Kept.same ?_ id id id id id id id id

theorem unformEnds_kept {z s : State} (hk : Kept z s)  : Kept z (unformEnds s) := by
  unfold unformEnds
  repeat' first
    | with_reducible assumption
    | fail_if_no_progress with_reducible refine Kept.same ?_ id id id id id id id id

theorem suspend_kept {z s : State} (hk : Kept z s)  : Kept z (suspend s) := by
  unfold suspend
  have h0 := unformEnds_kept hk
  clear hk
  generalize unformEnds s = u0 at h0
  try dsimp only
  repeat' first
    | with_reducible assumption
    | with_reducible apply unformEnds_kept
    | with_reducible apply faultU_kept
    | with_reducible apply setCond_kept
    | (intro u hu)
    | split
    | fail_if_no_progress with_reducible refine Kept.same ?_ id id id id id id id id

theorem endsNext_kept {z s : State} (hk : Kept z s)  : Kept z (endsNext s) := by
  unfold endsNext
  try dsimp only
  repeat' first
    | with_reducible assumption
    | (intro u hu)
    | split
    | fail_if_no_progress with_reducible refine Kept.same ?_ id id id id id id id id

theorem resume_kept {z s : State} (hk : Kept z s)  : Kept z (resume s) := by
  unfold resume
  try dsimp only
  repeat' first
    | with_reducible assumption
    | with_reducible apply setCond_kept
    | with_reducible apply pushUnit_kept
    | with_reducible apply endsNext_kept
    | with_reducible refine Kept.foldl _ _ ?_ (fun u a hu => ?_)
    | (intro u hu)
    | split
    | fail_if_no_progress with_reducible refine Kept.same ?_ id id id id id id id id

theorem sealDue_kept {z s : State} (hk : Kept z s) (trig : Nat) (k : Instant) : Kept z (sealDue trig k s) := by
  unfold sealDue
  repeat' first
    | with_reducible assumption
    | split
    | fail_if_no_progress with_reducible refine Kept.same ?_ id id id id id id id id

theorem sealTriggers_kept {z s : State} (hk : Kept z s) (r : Rec) : Kept z (sealTriggers r s) := by
  unfold sealTriggers
  repeat' first
    | with_reducible assumption
    | with_reducible apply sealDue_kept
    | split

theorem chainRec_kept {z s : State} (hk : Kept z s) (w : Nat) (r : Rec) : Kept z (chainRec w r s) := by
  unfold chainRec
  repeat' first
    | with_reducible assumption
    | with_reducible apply chainCopy_kept
    | fail_if_no_progress with_reducible refine Kept.same ?_ id id id id id id id id

theorem endChained_kept {z s : State} (hk : Kept z s) (jobNo : Nat) : Kept z (endChained jobNo s) := by
  unfold endChained
  repeat' first
    | with_reducible assumption
    | fail_if_no_progress with_reducible refine Kept.same ?_ id id id id id id id id

theorem chained_kept {z s : State} (hk : Kept z s) (w : Nat) (r : Rec) (strobe : Option Instant) : Kept z (chained w r strobe s) := by
  unfold chained
  repeat' first
    | with_reducible assumption
    | with_reducible apply notifyRec_kept
    | with_reducible apply chainRec_kept
    | with_reducible apply endChained_kept
    | with_reducible apply fullSet_kept
    | with_reducible apply sealTriggers_kept
    | split

theorem takeSnap_kept {z s : State} (hk : Kept z s)  : Kept z (takeSnap s) := by
  unfold takeSnap
  try dsimp only
  repeat' first
    | with_reducible assumption
    | (intro u hu)
    | split
    | fail_if_no_progress with_reducible refine Kept.same ?_ id id id id id id id id

theorem portSettle_kept {z s : State} (hk : Kept z s)  : Kept z (portSettle s) := by
  unfold portSettle
  try dsimp only
  repeat' first
    | with_reducible assumption
    | (intro u hu)
    | split
    | fail_if_no_progress with_reducible refine Kept.same ?_ id id id id id id id id

theorem mramSettle_kept {z s : State} (hk : Kept z s)  : Kept z (mramSettle s) := by
  unfold mramSettle
  try dsimp only
  repeat' first
    | with_reducible assumption
    | with_reducible apply takeSnap_kept
    | with_reducible apply portSettle_kept
    | (intro u hu)
    | split
    | fail_if_no_progress with_reducible refine Kept.same ?_ id id id id id id id id

theorem startCkpt_kept {z s0 : State} (hk : Kept z s0) (dusk : Bool) : Kept z (startCkpt dusk s0) := by
  unfold startCkpt
  have h := mramSettle_kept hk
  generalize mramSettle s0 = s at h
  extract_lets slot cpSeq d
  split
  · exact h.same id id id id id id id id
  · exact h.mk' (fun g => wrBytes_wf _ _ _ g) id id id id id id id id id id

theorem sealsWritten_kept {s0 s : State} (hk : Kept s0 s) (n : Nat) : Kept s0 (sealsWritten n s) := by
  induction n generalizing s with
  | zero => exact hk
  | succ n ih =>
    unfold sealsWritten
    split
    · exact hk
    · split
      · exact hk
      · apply ih
        split
        · apply startCkpt_kept
          exact hk.mk' id id id id id id id id id id id
        · exact hk.mk' id id id id id id id id id id id

theorem takeCand_kept {s0 s : State} (hk : Kept s0 s) (c : Cand) : Kept s0 (takeCand c s) := by
  unfold takeCand
  split
  · refine modCap_kept hk _ _ (fun x hx => ?_)
    exact Nat.le_trans (List.length_erase_le) hx
  · exact hk.mk' id id id id id id id id id id id

theorem takeCand_sl (c : Cand) (s : State) : (takeCand c s).sl = s.sl := by
  unfold takeCand
  split <;> rfl

theorem chainPart0_kept {s0 s : State} (hk : Kept s0 s) (c : Cand) : Kept s0 (chainPart0 c s) := by
  unfold chainPart0
  dsimp only
  apply chained_kept
  exact (takeCand_kept hk c).mk' id id id id id id id id (fun g => by rw [takeCand_sl] at g; exact g) id id

theorem chainStep_kept {z s0 : State} (hk : Kept z s0)  : Kept z (chainStep s0) := by
  unfold chainStep
  try dsimp only
  repeat' first
    | with_reducible assumption
    | with_reducible apply formEnds_kept
    | with_reducible apply suspend_kept
    | with_reducible apply chainPart0_kept
    | with_reducible apply chained_kept
    | with_reducible apply takeCand_kept
    | split

theorem exportCount_kept {z s : State} (hk : Kept z s) (r : ExpRes) : Kept z (exportCount r s) := by
  unfold exportCount
  repeat' first
    | with_reducible assumption
    | with_reducible apply bump_kept
    | split

theorem applyRelease_kept {z s : State} (hk : Kept z s) (upto : Nat) : Kept z (applyRelease upto s) := by
  unfold applyRelease
  repeat' first
    | with_reducible assumption
    | with_reducible apply assureLapse_kept
    | with_reducible apply resume_kept
    | with_reducible apply fullClear_kept
    | with_reducible apply chainCopy_kept
    | split
    | fail_if_no_progress with_reducible refine Kept.same ?_ id id id id id id id id

theorem release_kept {z s : State} (hk : Kept z s) (upto : Nat) : Kept z (release upto s).1 := by
  unfold release
  try dsimp only
  repeat' first
    | with_reducible assumption
    | with_reducible apply bump_kept
    | with_reducible apply applyRelease_kept
    | split
    | fail_if_no_progress with_reducible refine Kept.same ?_ id id id id id id id id

theorem releaseWaiting_kept {z s : State} (hk : Kept z s)  : Kept z (releaseWaiting s) := by
  unfold releaseWaiting
  repeat' first
    | with_reducible assumption
    | with_reducible apply applyRelease_kept
    | with_reducible refine Kept.foldl _ _ ?_ (fun u a hu => ?_)
    | fail_if_no_progress with_reducible refine Kept.same ?_ id id id id id id id id

theorem exportBegin_kept {z s : State} (hk : Kept z s) (port : Port) (first : Nat) (n : Nat) : Kept z (exportBegin port first n s) := by
  unfold exportBegin
  repeat' first
    | with_reducible assumption
    | fail_if_no_progress with_reducible refine Kept.same ?_ id id id id id id id id

theorem exportEnd_kept {z s : State} (hk : Kept z s) (port : Port) : Kept z (exportEnd port s) := by
  unfold exportEnd
  repeat' first
    | with_reducible assumption
    | with_reducible apply releaseWaiting_kept
    | fail_if_no_progress with_reducible refine Kept.same ?_ id id id id id id id id

theorem fst_kept {α : Type} {s0 s : State} {b : α} (hk : Kept s0 s) : Kept s0 (s, b).1 := hk

theorem evidReleaseWrite_kept {s0 s : State} (hk : Kept s0 s) (val : Word) : Kept s0 (evidReleaseWrite val s).1 := by
  unfold evidReleaseWrite
  exact fst_kept (release_kept hk _)

/-! ### Seals.lean -/

theorem sealInterval_kept {z s : State} (hk : Kept z s)  : Kept z (sealInterval s) := by
  unfold sealInterval
  repeat' first
    | with_reducible assumption
    | with_reducible apply sealDue_kept
    | split
    | fail_if_no_progress with_reducible refine Kept.same ?_ id id id id id id id id

theorem sealWaits_kept {z s : State} (hk : Kept z s)  : Kept z (sealWaits s) := by
  unfold sealWaits
  repeat' first
    | with_reducible assumption
    | with_reducible apply bump_kept
    | split
    | fail_if_no_progress with_reducible refine Kept.same ?_ id id id id id id id id

theorem sealForm_kept {z s : State} (hk : Kept z s)  : Kept z (sealForm s) := by
  unfold sealForm
  try dsimp only
  repeat' first
    | with_reducible assumption
    | with_reducible apply closeOcts_kept
    | with_reducible apply pushUnit_kept
    | with_reducible apply sealWaits_kept
    | with_reducible refine Kept.foldl _ _ ?_ (fun u a hu => ?_)
    | (intro u hu)
    | split
    | fail_if_no_progress with_reducible refine Kept.same ?_ id id id id id id id id

theorem sealSigned_kept {s0 s : State} (hk : Kept s0 s) : Kept s0 (sealSigned s) := by
  unfold sealSigned
  split
  · exact hk
  · extract_lets str _ s1 s2 _ s3 s4
    have h1 : Kept s0 s1 := hk.mk' id id id id id id id id (fun g => Nat.le_trans (Nat.sub_le _ _) g) id id
    clear_value s1 str
    have h2 : Kept s0 s2 := Kept.foldl _ _ h1 (fun u a hu => chained_kept hu _ _ _)
    clear_value s2
    have h3 : Kept s0 s3 := h2.mk' id id id id id id id id id id id
    clear_value s3
    have h4 : Kept s0 s4 := sealsWritten_kept h3 1
    clear_value s4
    split
    · exact h4
    · exact faultU_kept h4 _ _

theorem nonceRefill_kept {s0 s : State} (hk : Kept s0 s) : Kept s0 (nonceRefill s) := by
  unfold nonceRefill
  split
  · exact (sealWaits_kept hk).mk' id id id id id id id id (fun _ => Nat.min_le_left _ _) id id
  · exact hk

theorem mramViol_kept {z s : State} (hk : Kept z s) (row : Nat) : Kept z (mramViol row s) := by
  unfold mramViol
  repeat' first
    | with_reducible assumption
    | with_reducible apply faultU_kept
    | with_reducible apply bump_kept

theorem ckptSpoil_wf (slot : Nat) {m : List Host.Cell} (h : Memory.wf m = true) : Memory.wf (ckptSpoil slot m) = true :=
  wrBytes_wf _ _ _ h

theorem ckptFail_kept {z s : State} (hk : Kept z s) : Kept z (ckptFail s) := by
  unfold ckptFail
  split
  · exact hk
  · refine bump_kept ?_ _ _ _ _
    exact hk.mk' (ckptSpoil_wf _) id id id id id id id id id id

theorem ckptCut_kept {z s : State} (hk : Kept z s)  : Kept z (ckptCut s) := by
  unfold ckptCut
  try dsimp only
  repeat' first
    | with_reducible assumption
    | with_reducible apply faultU_kept
    | with_reducible apply ckptFail_kept
    | (intro u hu)
    | split
    | fail_if_no_progress with_reducible refine Kept.same ?_ id id id id id id id id

theorem ckptLoad_kept {z s : State} (hk : Kept z s)  : Kept z (ckptLoad s) := by
  unfold ckptLoad
  repeat' first
    | with_reducible assumption
    | fail_if_no_progress with_reducible refine Kept.same ?_ id id id id id id id id

theorem ckptDone_kept {z s : State} (hk : Kept z s) (ok : Bool) : Kept z (ckptDone ok s) := by
  unfold ckptDone
  split
  · exact hk
  · split
    · refine bump_kept (ckptLoad_kept ?_) _ _ _ _
      exact hk.mk' (fun g => wrBytes_wf _ _ _ g) id id id id id id id id id id
    · exact mramViol_kept (ckptFail_kept hk) _

/-! ### Jobs.lean -/

theorem drawFree_kept {z s : State} (hk : Kept z s)  : Kept z (drawFree s).2 := by
  unfold drawFree
  repeat' first
    | with_reducible assumption
    | fail_if_no_progress with_reducible refine Kept.same ?_ id id id id id id id id

theorem refuse_kept {z s : State} (hk : Kept z s) (source code : Nat) : Kept z (refuse source code s).1 := by
  unfold refuse
  try dsimp only
  repeat' first
    | with_reducible assumption
    | with_reducible apply bump_kept
    | with_reducible apply faultU_kept
    | (intro u hu)
    | split
    | fail_if_no_progress with_reducible refine Kept.same ?_ id id id id id id id id

theorem place_kept {z s : State} (hk : Kept z s) (source : Nat) (d : JobDesc) (i : Nat) : Kept z (place source d i s) := by
  unfold place
  try dsimp only
  repeat' first
    | with_reducible assumption
    | (intro u hu)
    | split
    | fail_if_no_progress with_reducible refine Kept.same ?_ id id id id id id id id

theorem submitEdge_kept {z s : State} (hk : Kept z s) (d : JobDesc) (f : Option TFail) : Kept z (submitEdge d f s) := by
  unfold submitEdge
  try dsimp only
  repeat' first
    | with_reducible assumption
    | with_reducible apply drawFree_kept
    | split
    | fail_if_no_progress with_reducible refine Kept.same ?_ id id id id id id id id

theorem markDue_kept {z s : State} (hk : Kept z s) (i : Nat) : Kept z (markDue i s) := by
  unfold markDue
  try dsimp only
  repeat' first
    | with_reducible assumption
    | with_reducible apply modSlot_kept
    | split

theorem ringsFromRd_kept {z s : State} (hk : Kept z s) (mask : Nat) : Kept z (ringsFromRd mask s) := by
  unfold ringsFromRd
  repeat' first
    | with_reducible assumption
    | fail_if_no_progress with_reducible refine Kept.same ?_ id id id id id id id id

theorem beginCheck_kept {z s00 : State} (hk : Kept z s00) (i : Nat) (st : Option Nat) (late : Bool) : Kept z (beginCheck i st late s00) := by
  unfold beginCheck
  try dsimp only
  repeat' first
    | with_reducible assumption
    | with_reducible apply takeBackFor_kept
    | with_reducible apply ringsFromRd_kept
    | with_reducible apply modSlot_kept
    | with_reducible refine Kept.foldl _ _ ?_ (fun u a hu => ?_)
    | (intro u hu)
    | split
    | fail_if_no_progress with_reducible refine Kept.same ?_ id id id id id id id id

theorem atHead_kept {z s : State} (hk : Kept z s) (i : Nat) (a : Admit) : Kept z (atHead i a s) := by
  unfold atHead
  repeat' first
    | with_reducible assumption
    | with_reducible apply modSlot_kept
    | fail_if_no_progress with_reducible refine Kept.same ?_ id id id id id id id id

theorem decideOne_kept {z s : State} (hk : Kept z s) (i : Nat) : Kept z (decideOne i s).1 := by
  unfold decideOne
  try dsimp only
  repeat' first
    | with_reducible assumption
    | with_reducible apply endJob_kept
    | with_reducible apply beginCheck_kept
    | with_reducible apply atHead_kept
    | split

theorem decideDue_kept {s0 s : State} (hk : Kept s0 s) (l : List Nat) : Kept s0 (decideDue l s) := by
  induction l generalizing s with
  | nil =>
    unfold decideDue
    exact hk.mk' id id id id id id id id id id id
  | cons i l ih =>
    unfold decideDue
    split
    · exact ih (decideOne_kept hk i)
    · exact decideOne_kept hk i

theorem jobDue_kept {z s : State} (hk : Kept z s)  : Kept z (jobDue s) := by
  unfold jobDue
  try dsimp only
  repeat' first
    | with_reducible assumption
    | with_reducible apply markDue_kept
    | with_reducible apply decideDue_kept
    | split
    | with_reducible refine Kept.foldl _ _ ?_ (fun u a hu => ?_)

theorem submit_kept {z s : State} (hk : Kept z s) (source : Nat) (raw : RawDesc) (occ : Option (Nat × Nat)) : Kept z (submit source raw occ s).1 := by
  unfold submit
  try dsimp only
  repeat' first
    | with_reducible assumption
    | with_reducible apply refuse_kept
    | with_reducible apply submitEdge_kept
    | with_reducible apply bump_kept
    | with_reducible apply place_kept
    | with_reducible apply jobDue_kept
    | (intro u hu)
    | split
    | fail_if_no_progress with_reducible refine Kept.same ?_ id id id id id id id id

theorem startCheckDone_kept {z s : State} (hk : Kept z s) (i : Nat) : Kept z (startCheckDone i s) := by
  unfold startCheckDone
  try dsimp only
  repeat' first
    | with_reducible assumption
    | with_reducible apply jobDue_kept
    | with_reducible apply endJob_kept
    | with_reducible apply modSlot_kept
    | split
    | fail_if_no_progress with_reducible refine Kept.same ?_ id id id id id id id id

theorem judge_kept {z s : State} (hk : Kept z s) (i : Nat) : Kept z (judge i s) := by
  unfold judge
  try dsimp only
  repeat' first
    | with_reducible assumption
    | with_reducible apply endJob_kept
    | with_reducible apply modSlot_kept
    | split

theorem startPins_kept {z s : State} (hk : Kept z s) (mask : Nat) : Kept z (startPins mask s) := by
  unfold startPins
  repeat' first
    | with_reducible assumption
    | with_reducible apply mapPins_kept

theorem noteStart_kept {z s : State} (hk : Kept z s) (i : Nat) : Kept z (noteStart i s) := by
  unfold noteStart
  try dsimp only
  repeat' first
    | with_reducible assumption
    | (intro u hu)
    | split
    | fail_if_no_progress with_reducible refine Kept.same ?_ id id id id id id id id

theorem jobStart_kept {z s : State} (hk : Kept z s) (i : Nat) : Kept z (jobStart i s) := by
  unfold jobStart
  try dsimp only
  repeat' first
    | with_reducible assumption
    | with_reducible apply startPins_kept
    | with_reducible apply modSlot_kept
    | with_reducible apply noteStart_kept
    | with_reducible apply pushUnit_kept
    | with_reducible apply orderStop_kept
    | (intro u hu)
    | split
    | fail_if_no_progress with_reducible refine Kept.same ?_ id id id id id id id id

theorem lateExpiry_kept {z s : State} (hk : Kept z s) (i : Nat) : Kept z (lateExpiry i s) := by
  unfold lateExpiry
  try dsimp only
  repeat' first
    | with_reducible assumption
    | with_reducible apply jobDue_kept
    | with_reducible apply endJob_kept
    | split

theorem holdExpiry_kept {z s : State} (hk : Kept z s) (i : Nat) : Kept z (holdExpiry i s) := by
  unfold holdExpiry
  try dsimp only
  repeat' first
    | with_reducible assumption
    | with_reducible apply jobDue_kept
    | with_reducible apply endJob_kept
    | split

theorem admitExpiry_kept {z s : State} (hk : Kept z s) (i : Nat) : Kept z (admitExpiry i s) := by
  unfold admitExpiry
  try dsimp only
  repeat' first
    | with_reducible assumption
    | with_reducible apply jobDue_kept
    | with_reducible apply endJob_kept
    | split

theorem wakeCondition_kept {z s : State} (hk : Kept z s) (i : Nat) : Kept z (wakeCondition i s) := by
  unfold wakeCondition
  try dsimp only
  repeat' first
    | with_reducible assumption
    | with_reducible apply pwrRequest_kept
    | split

theorem unstart_kept {z s : State} (hk : Kept z s) (i : Nat) : Kept z (unstart i s) := by
  unfold unstart
  split
  · exact hk
  · rename_i u _
    extract_lets x m s0 s1
    split
    · have h0 : Kept z s0 := by
        unfold s0
        split
        · exact hk.same id id id id id id id id
        · exact hk
      have h1 : Kept z s1 := dropActs_kept (modSlot_kept h0 _ _) _ _
      generalize s1 = v at h1
      exact h1.mk' id id (fun g => g.vmap (fun k o ho => by split <;> exact ho)) id id id id id id id
        (fun g => g.vmap (fun k c hc => by split <;> exact hc))
    · exact hk

theorem cancelSlot_kept {z s00 : State} (hk : Kept z s00) (i : Nat) : Kept z (cancelSlot i s00) := by
  unfold cancelSlot
  try dsimp only
  repeat' first
    | with_reducible assumption
    | with_reducible apply jobDue_kept
    | with_reducible apply unstart_kept
    | with_reducible apply modSlot_kept
    | with_reducible apply endJob_kept
    | with_reducible apply orderStop_kept
    | (intro u hu)
    | split
    | fail_if_no_progress with_reducible refine Kept.same ?_ id id id id id id id id

theorem cancelMask_kept {z s : State} (hk : Kept z s) (mask : Nat) : Kept z (cancelMask mask s) := by
  unfold cancelMask
  repeat' first
    | with_reducible assumption
    | with_reducible apply cancelSlot_kept
    | with_reducible refine Kept.foldl _ _ ?_ (fun u a hu => ?_)

theorem jobEndChained_kept {z s : State} (hk : Kept z s) (i : Nat) : Kept z (jobEndChained i s) := by
  unfold jobEndChained
  try dsimp only
  repeat' first
    | with_reducible assumption
    | with_reducible apply jobDue_kept
    | with_reducible apply modSlot_kept
    | split

theorem sringResetWrite_kept {z s : State} (hk : Kept z s) (val : Word) : Kept z (sringResetWrite val s).1 := by
  unfold sringResetWrite
  try dsimp only
  repeat' first
    | with_reducible assumption
    | with_reducible apply resetRings_kept
    | split

/-! ### Player.lean -/

theorem scheduleAll_kept {z s : State} (hk : Kept z s) (l : List Act) : Kept z (scheduleAll l s) := by
  unfold scheduleAll
  try dsimp only
  repeat' first
    | with_reducible assumption
    | with_reducible refine Kept.foldl _ _ ?_ (fun u a hu => ?_)
    | (intro u hu)
    | split
    | fail_if_no_progress with_reducible refine Kept.same ?_ id id id id id id id id

theorem fetchInto_kept {z s : State} (hk : Kept z s) (i : Nat) : Kept z (fetchInto i s) := by
  unfold fetchInto
  try dsimp only
  repeat' first
    | with_reducible assumption
    | with_reducible apply modSlot_kept
    | split
    | fail_if_no_progress with_reducible refine Kept.same ?_ id id id id id id id id

theorem vfFetch_kept {z s : State} (hk : Kept z s)  : Kept z (vfFetch s) := by
  unfold vfFetch
  try dsimp only
  repeat' first
    | with_reducible assumption
    | with_reducible apply fetchInto_kept
    | split

theorem underrun_kept {z s : State} (hk : Kept z s) (i : Nat) (e : Nat) (cause : Nat) : Kept z (underrun i e cause s) := by
  unfold underrun
  repeat' first
    | with_reducible assumption
    | with_reducible apply endJob_kept
    | with_reducible apply mapPins_kept
    | with_reducible apply faultU_kept
    | split
    | fail_if_no_progress with_reducible refine Kept.same ?_ id id id id id id id id

theorem allocCache_kept {z s : State} (hk : Kept z s) (i : Nat) (e : Nat) : Kept z (allocCache i e s) := by
  unfold allocCache
  try dsimp only
  repeat' first
    | with_reducible assumption
    | with_reducible apply modSlot_kept
    | split

theorem segStrobes_kept {z s : State} (hk : Kept z s) (i : Nat) (e : Nat) : Kept z (segStrobes i e s) := by
  unfold segStrobes
  try dsimp only
  repeat' first
    | with_reducible assumption
    | with_reducible apply strobe_kept
    | split
    | with_reducible refine Kept.foldl _ _ ?_ (fun u a hu => ?_)

theorem cycleEnds_kept {z s : State} (hk : Kept z s) (i : Nat) : Kept z (cycleEnds i s) := by
  unfold cycleEnds
  try dsimp only
  repeat' first
    | with_reducible assumption
    | with_reducible apply modSlot_kept
    | (intro u hu)
    | split
    | fail_if_no_progress with_reducible refine Kept.same ?_ id id id id id id id id

theorem octOpens_kept {z s : State} (hk : Kept z s) (a : CycAt) (v : Vec192) (k : Nat) : Kept z (octOpens a v k s) := by
  unfold octOpens
  try dsimp only
  repeat' first
    | with_reducible assumption
    | with_reducible apply openCycle_kept
    | (intro u hu)
    | split
    | fail_if_no_progress with_reducible refine Kept.same ?_ id id id id id id id id

theorem playCycle_kept {z s0 : State} (hk : Kept z s0) (i e : Nat) (v : Vec192) (obs : List PinObs) : Kept z (playCycle i e v obs s0) := by
  unfold playCycle
  try dsimp only
  repeat' first
    | with_reducible assumption
    | with_reducible apply segStrobes_kept
    | with_reducible apply octOpens_kept
    | with_reducible apply mapPins_kept
    | with_reducible apply scheduleAll_kept
    | with_reducible apply modSlot_kept
    | with_reducible refine Kept.foldl _ _ ?_ (fun u a hu => ?_)
    | (intro u hu)
    | split
    | fail_if_no_progress with_reducible refine Kept.same ?_ id id id id id id id id

theorem vectorOrigin_kept {z s0 : State} (hk : Kept z s0) (i : Nat) (obs : List PinObs) : Kept z (vectorOrigin i obs s0) := by
  unfold vectorOrigin
  try dsimp only
  repeat' first
    | with_reducible assumption
    | with_reducible apply cycleEnds_kept
    | with_reducible apply jobDue_kept
    | with_reducible apply endJob_kept
    | with_reducible apply allocCache_kept
    | with_reducible apply playCycle_kept
    | with_reducible apply underrun_kept
    | (intro u hu)
    | split
    | fail_if_no_progress with_reducible refine Kept.same ?_ id id id id id id id id

theorem vectorCycle_kept {z s : State} (hk : Kept z s) (i : Nat) (obs : List PinObs) : Kept z (vectorCycle i obs s) := by
  unfold vectorCycle
  try dsimp only
  repeat' first
    | with_reducible assumption
    | with_reducible apply vectorOrigin_kept
    | with_reducible apply scheduleAll_kept
    | (intro u hu)
    | split
    | fail_if_no_progress with_reducible refine Kept.same ?_ id id id id id id id id

/-! ### Arbiter.lean -/

theorem modArb_kept {z s : State} (hk : Kept z s) (f : Arb → Arb) : Kept z (modArb f s) := by
  unfold modArb
  repeat' first
    | with_reducible assumption
    | fail_if_no_progress with_reducible refine Kept.same ?_ id id id id id id id id

theorem arbGrant_kept {z s : State} (hk : Kept z s) (d : Nat) (r : ArbReq) : Kept z (arbGrant d r s) := by
  unfold arbGrant
  try dsimp only
  repeat' first
    | with_reducible assumption
    | with_reducible apply bumpMax_kept
    | with_reducible apply bump_kept
    | with_reducible apply modArb_kept
    | (intro u hu)
    | split
    | fail_if_no_progress with_reducible refine Kept.same ?_ id id id id id id id id

theorem refTake_kept {z s : State} (hk : Kept z s) (c : Nat) : Kept z (refTake c s) := by
  unfold refTake
  try dsimp only
  repeat' first
    | with_reducible assumption
    | with_reducible apply modArb_kept
    | (intro u hu)
    | split
    | fail_if_no_progress with_reducible refine Kept.same ?_ id id id id id id id id

theorem dbgGrant_kept {z s : State} (hk : Kept z s) (c : Nat) (q : DbgReq) : Kept z (dbgGrant c q s) := by
  unfold dbgGrant
  try dsimp only
  repeat' first
    | with_reducible assumption
    | with_reducible apply modArb_kept
    | (intro u hu)
    | split
    | fail_if_no_progress with_reducible refine Kept.same ?_ id id id id id id id id

theorem arbDecide_kept {z s : State} (hk : Kept z s) (d : Nat) : Kept z (arbDecide d s) := by
  unfold arbDecide
  try dsimp only
  repeat' first
    | with_reducible assumption
    | with_reducible apply refTake_kept
    | with_reducible apply dbgGrant_kept
    | with_reducible apply arbGrant_kept
    | with_reducible apply modArb_kept
    | (intro u hu)
    | split
    | fail_if_no_progress with_reducible refine Kept.same ?_ id id id id id id id id

theorem settleEnd_kept {z s : State} (hk : Kept z s)  : Kept z (settleEnd s) := by
  unfold settleEnd
  try dsimp only
  repeat' first
    | with_reducible assumption
    | with_reducible apply arbDecide_kept
    | (intro u hu)
    | split
    | fail_if_no_progress with_reducible refine Kept.same ?_ id id id id id id id id

theorem settleIdle_kept {z s : State} (hk : Kept z s)  : Kept z (settleIdle s) := by
  unfold settleIdle
  try dsimp only
  repeat' first
    | with_reducible assumption
    | with_reducible apply arbDecide_kept
    | (intro u hu)
    | split
    | fail_if_no_progress with_reducible refine Kept.same ?_ id id id id id id id id

theorem settleDbg_kept {z s : State} (hk : Kept z s)  : Kept z (settleDbg s) := by
  unfold settleDbg
  try dsimp only
  repeat' first
    | with_reducible assumption
    | with_reducible apply refTake_kept
    | with_reducible apply dbgGrant_kept
    | (intro u hu)
    | split
    | fail_if_no_progress with_reducible refine Kept.same ?_ id id id id id id id id

theorem arbSettle_kept {z s : State} (hk : Kept z s)  : Kept z (arbSettle s) := by
  unfold arbSettle
  try dsimp only
  repeat' first
    | with_reducible assumption
    | with_reducible apply settleDbg_kept
    | with_reducible apply settleIdle_kept
    | with_reducible apply settleEnd_kept
    | (intro u hu)
    | split
    | fail_if_no_progress with_reducible refine Kept.same ?_ id id id id id id id id

theorem transferred_kept {z s : State} (hk : Kept z s) (i : Nat) (b : Nat) : Kept z (transferred i b s) := by
  unfold transferred
  repeat' first
    | with_reducible assumption
    | with_reducible apply vfFetch_kept
    | with_reducible apply sealsWritten_kept
    | split
    | fail_if_no_progress with_reducible refine Kept.same ?_ id id id id id id id id

theorem transferComplete_kept {z s : State} (hk : Kept z s)  : Kept z (transferComplete s) := by
  unfold transferComplete
  try dsimp only
  repeat' first
    | with_reducible assumption
    | with_reducible apply transferred_kept
    | with_reducible apply modArb_kept
    | (intro u hu)
    | split
    | fail_if_no_progress with_reducible refine Kept.same ?_ id id id id id id id id

theorem swFlush_kept {z s : State} (hk : Kept z s)  : Kept z (swFlush s) := by
  unfold swFlush
  try dsimp only
  repeat' first
    | with_reducible assumption
    | with_reducible refine Kept.foldl _ _ ?_ (fun u a hu => ?_)
    | (intro u hu)
    | split
    | fail_if_no_progress with_reducible refine Kept.same ?_ id id id id id id id id

theorem arbWindow_kept {z s0 : State} (hk : Kept z s0)  : Kept z (arbWindow s0) := by
  unfold arbWindow
  try dsimp only
  repeat' first
    | with_reducible assumption
    | with_reducible apply assureLapse_kept
    | with_reducible apply swFlush_kept
    | with_reducible apply modArb_kept
    | (intro u hu)
    | split
    | fail_if_no_progress with_reducible refine Kept.same ?_ id id id id id id id id

theorem arbReady_kept {z s : State} (hk : Kept z s)  : Kept z (arbReady s) := by
  unfold arbReady
  try dsimp only
  repeat' first
    | with_reducible assumption
    | with_reducible apply arbWindow_kept
    | with_reducible apply arbSettle_kept
    | (intro u hu)
    | split
    | fail_if_no_progress with_reducible refine Kept.same ?_ id id id id id id id id

theorem arbRaise_kept {z s : State} (hk : Kept z s) (i len : Nat) : Kept z (arbRaise i len s) := by
  unfold arbRaise
  try dsimp only
  repeat' first
    | with_reducible assumption
    | with_reducible apply modArb_kept
    | (intro u hu)
    | split
    | fail_if_no_progress with_reducible refine Kept.same ?_ id id id id id id id id

theorem refDue_kept {z s : State} (hk : Kept z s)  : Kept z (refDue s) := by
  unfold refDue
  repeat' first
    | with_reducible assumption
    | with_reducible apply refTake_kept
    | with_reducible apply modArb_kept
    | split

theorem dbgCut_kept {z s : State} (hk : Kept z s)  : Kept z (dbgCut s) := by
  unfold dbgCut
  repeat' first
    | with_reducible assumption
    | with_reducible apply modArb_kept
    | split

theorem refInterrupt_kept {z s : State} (hk : Kept z s)  : Kept z (refInterrupt s) := by
  unfold refInterrupt
  try dsimp only
  repeat' first
    | with_reducible assumption
    | with_reducible apply bump_kept
    | with_reducible apply refTake_kept
    | with_reducible apply dbgCut_kept
    | (intro u hu)
    | split
    | fail_if_no_progress with_reducible refine Kept.same ?_ id id id id id id id id

theorem refDone_kept {z s : State} (hk : Kept z s)  : Kept z (refDone s) := by
  unfold refDone
  try dsimp only
  repeat' first
    | with_reducible assumption
    | with_reducible apply modArb_kept
    | (intro u hu)
    | split
    | fail_if_no_progress with_reducible refine Kept.same ?_ id id id id id id id id

theorem dbgRaise_kept {z s0 : State} (hk : Kept z s0) (beats : Nat) : Kept z (dbgRaise beats s0) := by
  unfold dbgRaise
  try dsimp only
  repeat' first
    | with_reducible assumption
    | with_reducible apply assureLapse_kept
    | with_reducible apply modArb_kept
    | (intro u hu)
    | split
    | fail_if_no_progress with_reducible refine Kept.same ?_ id id id id id id id id

theorem arbPreempt_kept {z s : State} (hk : Kept z s)  : Kept z (arbPreempt s) := by
  unfold arbPreempt
  try dsimp only
  repeat' first
    | with_reducible assumption
    | with_reducible apply bump_kept
    | with_reducible apply arbGrant_kept
    | (intro u hu)
    | split
    | fail_if_no_progress with_reducible refine Kept.same ?_ id id id id id id id id

theorem gwdFire_kept {z s : State} (hk : Kept z s)  : Kept z (gwdFire s) := by
  unfold gwdFire
  try dsimp only
  repeat' first
    | with_reducible assumption
    | with_reducible apply modArb_kept
    | with_reducible apply faultU_kept
    | with_reducible apply bump_kept
    | with_reducible apply bumpSet_kept
    | (intro u hu)
    | split
    | fail_if_no_progress with_reducible refine Kept.same ?_ id id id id id id id id

theorem arbClockStart_kept {z s : State} (hk : Kept z s)  : Kept z (arbClockStart s) := by
  unfold arbClockStart
  try dsimp only
  repeat' first
    | with_reducible assumption
    | with_reducible apply modArb_kept
    | with_reducible apply refDue_kept
    | (intro u hu)
    | split
    | fail_if_no_progress with_reducible refine Kept.same ?_ id id id id id id id id

theorem arbClockStop_kept {z s : State} (hk : Kept z s)  : Kept z (arbClockStop s) := by
  unfold arbClockStop
  try dsimp only
  repeat' first
    | with_reducible assumption
    | with_reducible apply sealsWritten_kept
    | with_reducible apply modArb_kept
    | with_reducible apply refDue_kept
    | (intro u hu)
    | split
    | fail_if_no_progress with_reducible refine Kept.same ?_ id id id id id id id id

/-! ### Store.lean -/

theorem storeBegin_kept {z s0 : State} (hk : Kept z s0) : Kept z (storeBegin s0) := by
  unfold storeBegin
  have h := mramSettle_kept hk
  generalize mramSettle s0 = s at h
  dsimp only
  split
  · exact h.same id id id id id id id id
  · split
    · exact h
    · exact h.mk' (fun g => wrBytes_wf _ _ _ g) id id id id id id id id id id

theorem storeEnd_kept {z s : State} (hk : Kept z s) (last : Nat) : Kept z (storeEnd last s) := by
  unfold storeEnd
  try dsimp only
  repeat' first
    | with_reducible assumption
    | with_reducible apply storeBegin_kept
    | (intro u hu)
    | split
    | dsimp only
    | fail_if_no_progress with_reducible refine Kept.same ?_ id id id id id id id id

theorem storeAbandon_kept {z s : State} (hk : Kept z s) (last : Nat) : Kept z (storeAbandon last s) := by
  unfold storeAbandon
  try dsimp only
  repeat' first
    | with_reducible assumption
    | with_reducible apply storeEnd_kept
    | with_reducible apply faultU_kept
    | with_reducible apply bump_kept
    | (intro u hu)
    | split

theorem storeDone_kept {z s0 : State} (hk : Kept z s0) (ok : Bool) : Kept z (storeDone ok s0) := by
  unfold storeDone
  have h := mramSettle_kept hk
  generalize mramSettle s0 = s at h
  extract_lets
  split
  · exact h
  · split
    · exact h
    · extract_lets j s1
      have h1 : Kept z s1 := h.mk' (fun g => wrBytes_wf _ _ _ g) id id id id id id id id id id
      generalize s1 = u at h1
      split
      · refine storeEnd_kept ?_ _
        exact h1.mk' (fun g => wrBytes_wf _ _ _ g) id id id id id id id id id id
      · exact storeAbandon_kept (mramViol_kept h1 _) _

theorem commitAbandon_kept {z s : State} (hk : Kept z s)  : Kept z (commitAbandon s) := by
  unfold commitAbandon
  try dsimp only
  repeat' first
    | with_reducible assumption
    | with_reducible apply drawFree_kept
    | (intro u hu)
    | split
    | dsimp only
    | fail_if_no_progress with_reducible refine Kept.same ?_ id id id id id id id id

theorem commitDone_kept {z s0 : State} (hk : Kept z s0) (ok : Bool) : Kept z (commitDone ok s0) := by
  unfold commitDone
  have h := mramSettle_kept hk
  generalize mramSettle s0 = s at h
  extract_lets
  split
  · exact h
  · split
    · exact h
    · split
      · exact h.mk' (fun g => wrBytes_wf _ _ _ g) id id id id id id id id id id
      · refine mramViol_kept (commitAbandon_kept ?_) _
        exact h.mk' (fun g => wrBytes_wf _ _ _ g) id id id id id id id id id id

theorem smallFail_kept {z s : State} (hk : Kept z s) (w : SmallWrite) : Kept z (smallFail w s) := by
  unfold smallFail
  have h := drawFree_kept hk
  generalize drawFree s = p at h
  dsimp only
  refine mramViol_kept ?_ _
  refine h.mk' (fun g => ?_) id id id id id id id id id id
  split
  · exact wrBytes_wf _ _ _ g
  · exact g

theorem mramBusy_kept {z s0 : State} (hk : Kept z s0)  : Kept z (mramBusy s0) := by
  unfold mramBusy
  have h0 := mramSettle_kept hk
  clear hk
  generalize mramSettle s0 = u0 at h0
  try dsimp only
  repeat' first
    | with_reducible assumption
    | with_reducible apply mramSettle_kept
    | with_reducible apply mramViol_kept
    | with_reducible apply ckptFail_kept
    | with_reducible apply storeAbandon_kept
    | with_reducible apply commitAbandon_kept
    | with_reducible apply smallFail_kept
    | (intro u hu)
    | split
    | fail_if_no_progress with_reducible refine Kept.same ?_ id id id id id id id id

theorem storeLine_kept {z s0 : State} (hk : Kept z s0) : Kept z (storeLine s0) := by
  unfold storeLine
  have h := mramSettle_kept hk
  generalize mramSettle s0 = s at h
  extract_lets
  split
  · exact h
  · split
    · exact h.mk' (fun g => wrBytes_wf _ _ _ (wrBytes_wf _ _ _ g)) id id id id id id id id id id
    · exact storeAbandon_kept h _

/-! ### Calib.lean -/

theorem modChan_kept {z s : State} (hk : Kept z s) (c : Nat) (f : Chan → Chan) : Kept z (modChan c f s) := by
  unfold modChan
  repeat' first
    | with_reducible assumption
    | fail_if_no_progress with_reducible refine Kept.same ?_ id id id id id id id id

theorem checkFail_kept {z s : State} (hk : Kept z s) (group : Nat) (c : Nat) (o : Nat × Nat) : Kept z (checkFail group c o s) := by
  unfold checkFail
  repeat' first
    | with_reducible assumption
    | with_reducible apply fault_kept
    | with_reducible apply bump_kept
    | split

theorem endLevel'_kept {z s : State} (hk : Kept z s) (c : Nat) (m : ChMeas) : Kept z (endLevel' c m s) := by
  unfold endLevel'
  try dsimp only
  repeat' first
    | with_reducible assumption
    | with_reducible apply modChan_kept
    | (intro u hu)
    | split
    | fail_if_no_progress with_reducible refine Kept.same ?_ id id id id id id id id

theorem noteQual_kept {z s : State} (hk : Kept z s) (c : Nat) (m : ChMeas) : Kept z (noteQual c m s) := by
  unfold noteQual
  try dsimp only
  repeat' first
    | with_reducible assumption
    | with_reducible apply modChan_kept
    | (intro u hu)
    | split
    | fail_if_no_progress with_reducible refine Kept.same ?_ id id id id id id id id

theorem endTiming_kept {z s : State} (hk : Kept z s) (src c : Nat) (m : ChMeas) : Kept z (endTiming src c m s) := by
  unfold endTiming
  try dsimp only
  repeat' first
    | with_reducible assumption
    | with_reducible apply modChan_kept
    | with_reducible apply noteQual_kept
    | (intro u hu)
    | split
    | fail_if_no_progress with_reducible refine Kept.same ?_ id id id id id id id id

theorem endSkew_kept {z s : State} (hk : Kept z s) (c : Nat) (m : ChMeas) : Kept z (endSkew c m s) := by
  unfold endSkew
  try dsimp only
  repeat' first
    | with_reducible assumption
    | with_reducible apply modChan_kept
    | (intro u hu)
    | split
    | fail_if_no_progress with_reducible refine Kept.same ?_ id id id id id id id id

theorem rollTiming_kept {z s : State} (hk : Kept z s) (c : Nat) (m : ChMeas) : Kept z (rollTiming c m s) := by
  unfold rollTiming
  try dsimp only
  repeat' first
    | with_reducible assumption
    | with_reducible apply checkFail_kept
    | with_reducible apply endTiming_kept
    | with_reducible apply mramSettle_kept
    | (intro u hu)
    | split
    | fail_if_no_progress with_reducible refine Kept.same ?_ id id id id id id id id

theorem rollSkew_kept {z s : State} (hk : Kept z s) (c : Nat) (m : ChMeas) : Kept z (rollSkew c m s) := by
  unfold rollSkew
  try dsimp only
  repeat' first
    | with_reducible assumption
    | with_reducible apply checkFail_kept
    | with_reducible apply endSkew_kept
    | with_reducible apply mramSettle_kept
    | (intro u hu)
    | split
    | fail_if_no_progress with_reducible refine Kept.same ?_ id id id id id id id id

theorem rollBegin_kept {z s : State} (hk : Kept z s) (k : Nat) : Kept z (rollBegin k s) := by
  unfold rollBegin
  repeat' first
    | with_reducible assumption
    | ((with_reducible refine modOct_kept ?_ _ _ (fun _ hx => ?_)); rotate_left; exact hx)
    | split

theorem rollSettle_kept {z s : State} (hk : Kept z s) (k : Nat) : Kept z (rollSettle k s) := by
  unfold rollSettle
  try dsimp only
  repeat' first
    | with_reducible assumption
    | ((with_reducible refine modOct_kept ?_ _ _ (fun _ hx => ?_)); rotate_left; exact hx)
    | (intro u hu)
    | split
    | fail_if_no_progress with_reducible refine Kept.same ?_ id id id id id id id id

theorem rollStart_kept {z s : State} (hk : Kept z s) (k : Nat) : Kept z (rollStart k s) := by
  unfold rollStart
  repeat' first
    | with_reducible assumption
    | with_reducible apply rollBegin_kept
    | split

theorem windowBegin_kept {z s0 : State} (hk : Kept z s0) (k : Nat) : Kept z (windowBegin k s0) := by
  unfold windowBegin
  have h0 := jobDue_kept hk
  clear hk
  generalize jobDue s0 = u0 at h0
  try dsimp only
  repeat' first
    | with_reducible assumption
    | with_reducible apply jobDue_kept
    | ((with_reducible refine modOct_kept ?_ _ _ (fun _ hx => ?_)); rotate_left; exact hx)
    | with_reducible apply returnXpt_kept
    | with_reducible apply rollSettle_kept
    | with_reducible apply calRec_kept
    | with_reducible apply safePins_kept
    | with_reducible apply unitAdvance_kept
    | (intro u hu)
    | split
    | fail_if_no_progress with_reducible refine Kept.same ?_ id id id id id id id id

theorem windowStep_kept {z s : State} (hk : Kept z s) (k : Nat) (meas : List ChMeas) : Kept z (windowStep k meas s) := by
  unfold windowStep
  repeat' first
    | with_reducible assumption
    | ((with_reducible refine modOct_kept ?_ _ _ (fun _ hx => ?_)); rotate_left; exact hx)
    | split

theorem windowChecks_kept {z s : State} (hk : Kept z s) (k : Nat) (ms : List ChMeas) : Kept z (windowChecks k ms s) := by
  unfold windowChecks
  try dsimp only
  repeat' first
    | with_reducible assumption
    | with_reducible apply checkFail_kept
    | with_reducible refine Kept.foldl _ _ ?_ (fun u a hu => ?_)
    | (intro u hu)
    | split
    | fail_if_no_progress with_reducible refine Kept.same ?_ id id id id id id id id

theorem windowGroups_kept {z s : State} (hk : Kept z s) (k : Nat) (ms : List ChMeas) : Kept z (windowGroups k ms s) := by
  unfold windowGroups
  try dsimp only
  repeat' first
    | with_reducible assumption
    | with_reducible apply endTiming_kept
    | with_reducible apply endLevel'_kept
    | with_reducible apply endSkew_kept
    | with_reducible apply modChan_kept
    | split
    | with_reducible refine Kept.foldl _ _ ?_ (fun u a hu => ?_)

theorem windowApply_kept {z s0 : State} (hk : Kept z s0) (k : Nat) (w : Win) : Kept z (windowApply k w s0) := by
  unfold windowApply
  have h0 := mramSettle_kept hk
  clear hk
  generalize mramSettle s0 = u0 at h0
  try dsimp only
  repeat' first
    | with_reducible assumption
    | with_reducible apply mramSettle_kept
    | with_reducible apply windowGroups_kept
    | ((with_reducible refine modOct_kept ?_ _ _ (fun _ hx => ?_)); rotate_left; exact hx)
    | with_reducible apply setCond_kept
    | with_reducible apply mapPins_kept
    | with_reducible apply bump_kept
    | with_reducible apply calRec_kept
    | with_reducible apply rollBegin_kept
    | with_reducible apply strobeAfter_kept
    | with_reducible apply unitAdvance_kept
    | with_reducible apply jobDue_kept
    | with_reducible apply storeBegin_kept
    | (intro u hu)
    | split
    | fail_if_no_progress with_reducible refine Kept.same ?_ id id id id id id id id

theorem windowDone_kept {z s : State} (hk : Kept z s) (k : Nat) (w : Win) : Kept z (windowDone k w s) := by
  unfold windowDone
  try dsimp only
  repeat' first
    | with_reducible assumption
    | with_reducible apply windowChecks_kept
    | with_reducible apply windowApply_kept
    | with_reducible apply jobDue_kept
    | (intro u hu)
    | split
    | fail_if_no_progress with_reducible refine Kept.same ?_ id id id id id id id id

theorem calCancel_kept {z s : State} (hk : Kept z s) (mask : Nat) : Kept z (calCancel mask s) := by
  unfold calCancel
  repeat' first
    | with_reducible assumption
    | (refine Kept.mk' ?_ id id (fun g => OctsOk.vmap g (fun k o ho => by repeat' (first | with_reducible exact ho | split))) id id id id id id id id)

theorem unitBegin_kept {z s : State} (hk : Kept z s)  : Kept z (unitBegin s) := by
  unfold unitBegin
  repeat' first
    | with_reducible assumption
    | split
    | fail_if_no_progress with_reducible refine Kept.same ?_ id id id id id id id id

theorem calReqWrite_kept {z s : State} (hk : Kept z s) (val : Word) : Kept z (calReqWrite val s).1 := by
  unfold calReqWrite
  try dsimp only
  repeat' first
    | with_reducible assumption
    | with_reducible apply calCancel_kept
    | with_reducible apply calRequest_kept
    | with_reducible apply unitBegin_kept
    | with_reducible apply storeBegin_kept
    | with_reducible apply jobDue_kept
    | split

theorem unitStepDone_kept {z s : State} (hk : Kept z s) (phases : List Int) : Kept z (unitStepDone phases s) := by
  unfold unitStepDone
  repeat' first
    | with_reducible assumption
    | with_reducible apply unitRequest_kept
    | split
    | (refine Kept.mk' ?_ id id (fun g => OctsOk.vmap g (fun k o ho => by repeat' (first | with_reducible exact ho | split))) id id id id id id id id)

theorem calOverdueAt_kept {z s : State} (hk : Kept z s) (k : Nat) : Kept z (calOverdueAt k s) := by
  unfold calOverdueAt
  repeat' first
    | with_reducible assumption
    | ((with_reducible refine modOct_kept ?_ _ _ (fun _ hx => ?_)); rotate_left; exact hx)
    | split

theorem tempRequests_kept {z s : State} (hk : Kept z s)  : Kept z (tempRequests s) := by
  unfold tempRequests
  repeat' first
    | with_reducible assumption
    | with_reducible apply calRequest_kept
    | split
    | with_reducible refine Kept.foldl _ _ ?_ (fun u a hu => ?_)

theorem recover_kept {z s : State} (hk : Kept z s) (k : Nat) : Kept z (recover k s) := by
  unfold recover
  repeat' first
    | with_reducible assumption
    | with_reducible apply calRequest_kept
    | split

theorem spareFails_kept {z s : State} (hk : Kept z s) (k : Nat) (phase : Nat) : Kept z (spareFails k phase s) := by
  unfold spareFails
  repeat' first
    | with_reducible assumption
    | with_reducible apply recover_kept
    | with_reducible apply setCond_kept
    | with_reducible apply fault_kept
    | ((with_reducible refine modOct_kept ?_ _ _ (fun _ hx => ?_)); rotate_left; exact hx)

theorem rollPhase_kept {z s0 : State} (hk : Kept z s0) (k : Nat) (m : ChMeas) : Kept z (rollPhase k m s0) := by
  unfold rollPhase
  try dsimp only
  repeat' first
    | with_reducible assumption
    | with_reducible apply rollSettle_kept
    | ((with_reducible refine modOct_kept ?_ _ _ (fun _ hx => ?_)); rotate_left; exact hx)
    | with_reducible apply noteQual_kept
    | with_reducible apply spareFails_kept
    | with_reducible apply rollTiming_kept
    | with_reducible apply rollSkew_kept
    | (intro u hu)
    | split
    | fail_if_no_progress with_reducible refine Kept.same ?_ id id id id id id id id

theorem swapIn_kept {z s0 : State} (hk : Kept z s0) (k : Nat) : Kept z (swapIn k s0) := by
  unfold swapIn
  try dsimp only
  repeat' first
    | with_reducible assumption
    | with_reducible apply rollSettle_kept
    | ((with_reducible refine modOct_kept ?_ _ _ (fun _ hx => ?_)); rotate_left; exact hx)
    | with_reducible apply swapMade_kept
    | (intro u hu)
    | split
    | fail_if_no_progress with_reducible refine Kept.same ?_ id id id id id id id id

theorem rollResult_kept {z s : State} (hk : Kept z s) (k i : Nat) (m : ChMeas) : Kept z (rollResult k i m s) := by
  unfold rollResult
  try dsimp only
  repeat' first
    | with_reducible assumption
    | with_reducible apply rollTiming_kept
    | with_reducible apply calRec_kept
    | ((with_reducible refine modOct_kept ?_ _ _ (fun _ hx => ?_)); rotate_left; exact hx)
    | with_reducible apply bump_kept
    | with_reducible apply recover_kept
    | (intro u hu)
    | split
    | fail_if_no_progress with_reducible refine Kept.same ?_ id id id id id id id id

theorem handBack_kept {z s : State} (hk : Kept z s) (k : Nat) : Kept z (handBack k s) := by
  unfold handBack
  try dsimp only
  repeat' first
    | with_reducible assumption
    | with_reducible apply rollResult_kept
    | with_reducible apply swapMade_kept
    | ((with_reducible refine modOct_kept ?_ _ _ (fun _ hx => ?_)); rotate_left; exact hx)
    | (intro u hu)
    | split

theorem rollGap_kept {z s0 : State} (hk : Kept z s0) (k : Nat) : Kept z (rollGap k s0) := by
  unfold rollGap
  try dsimp only
  repeat' first
    | with_reducible assumption
    | with_reducible apply rollSettle_kept
    | with_reducible apply rollBegin_kept
    | with_reducible apply rollStart_kept
    | (intro u hu)
    | split
    | fail_if_no_progress with_reducible refine Kept.same ?_ id id id id id id id id

end Sys2Proof.Machine
end

