-- ==== Sys2Proof/Laws/KeptLinks.lean ====
section
/-!
SUPPORT. KeptLinks.lean: what is kept (Kept.lean) by the ring, sleep, routines and the time units.
-/

set_option Elab.async false
set_option linter.unreachableTactic false
set_option linter.unusedTactic false

namespace Sys2Proof.Machine

open Sys2Proof

/-! ### Ring.lean -/

theorem modRing_kept {s0 s : State} (hk : Kept s0 s) (f : Ring → Ring)
    (hf : ∀ r, r.trigs.length ≤ 8 → (f r).trigs.length ≤ 8) : Kept s0 (modRing f s) :=
  hk.mk' id id id id id id id (hf _) id id id

theorem modPort_kept {z s : State} (hk : Kept z s) (rp : RingPort) (f : RPort → RPort) : Kept z (modPort rp f s) := by
  unfold modPort
  repeat' first
    | with_reducible assumption
    | ((with_reducible refine modRing_kept ?_ _ (fun _ hx => ?_)); rotate_left; exact hx)
    | split

theorem txPut_kept {z s : State} (hk : Kept z s) (k : Instant) (fs : List RFrame) : Kept z (txPut k fs s) := by
  unfold txPut
  try dsimp only
  repeat' first
    | with_reducible assumption
    | ((with_reducible refine modRing_kept ?_ _ (fun _ hx => ?_)); rotate_left; exact hx)
    | (intro u hu)
    | split
    | fail_if_no_progress with_reducible refine Kept.same ?_ id id id id id id id id

theorem originateAt_kept {z s : State} (hk : Kept z s) (k : Instant) (type : Nat) (outA outB : Bool) (body : List Byte) (mt : Option Int) : Kept z (originateAt k type outA outB body mt s) := by
  unfold originateAt
  try dsimp only
  repeat' first
    | with_reducible assumption
    | with_reducible apply txPut_kept
    | ((with_reducible refine modRing_kept ?_ _ (fun _ hx => ?_)); rotate_left; exact hx)
    | (intro u hu)
    | split
    | fail_if_no_progress with_reducible refine Kept.same ?_ id id id id id id id id

theorem originate_kept {z s : State} (hk : Kept z s) (type : Nat) (outA outB : Bool) (body : List Byte) : Kept z (originate type outA outB body s) := by
  unfold originate
  try dsimp only
  repeat' first
    | with_reducible assumption
    | with_reducible apply originateAt_kept
    | (intro u hu)
    | split
    | fail_if_no_progress with_reducible refine Kept.same ?_ id id id id id id id id

theorem forwardTime_kept {z s : State} (hk : Kept z s) (rp : RingPort) (h : RingHdr) (body : List Byte) (mt : Option Int) : Kept z (forwardTime rp h body mt s) := by
  unfold forwardTime
  try dsimp only
  repeat' first
    | with_reducible assumption
    | with_reducible apply txPut_kept
    | (intro u hu)
    | split
    | fail_if_no_progress with_reducible refine Kept.same ?_ id id id id id id id id

theorem forward_kept {z s : State} (hk : Kept z s) (rp : RingPort) (h : RingHdr) (body : List Byte) : Kept z (forward rp h body s) := by
  unfold forward
  try dsimp only
  repeat' first
    | with_reducible assumption
    | with_reducible apply forwardTime_kept
    | (intro u hu)
    | split
    | fail_if_no_progress with_reducible refine Kept.same ?_ id id id id id id id id

theorem ringViol_kept {z s : State} (hk : Kept z s) (row : Nat) (h : RingHdr) : Kept z (ringViol row h s) := by
  unfold ringViol
  repeat' first
    | with_reducible assumption
    | with_reducible apply fault_kept
    | with_reducible apply bump_kept

theorem syncLost_kept {z s : State} (hk : Kept z s)  : Kept z (syncLost s) := by
  unfold syncLost
  try dsimp only
  repeat' first
    | with_reducible assumption
    | with_reducible apply notice_kept
    | with_reducible apply modSlot_kept
    | with_reducible apply faultU_kept
    | ((with_reducible refine modRing_kept ?_ _ (fun _ hx => ?_)); rotate_left; exact hx)
    | split
    | with_reducible refine Kept.foldl _ _ ?_ (fun u a hu => ?_)

theorem masterSet_kept {z s : State} (hk : Kept z s) (m : Option Nat) : Kept z (masterSet m s) := by
  unfold masterSet
  repeat' first
    | with_reducible assumption
    | with_reducible apply syncLost_kept
    | ((with_reducible refine modRing_kept ?_ _ (fun _ hx => ?_)); rotate_left; exact hx)

theorem resign_kept {z s : State} (hk : Kept z s)  : Kept z (resign s) := by
  unfold resign
  repeat' first
    | with_reducible assumption
    | with_reducible apply masterSet_kept
    | with_reducible apply originate_kept
    | split

theorem ringWatch_kept {z s0 : State} (hk : Kept z s0) (old : State) : Kept z (ringWatch old s0) := by
  unfold ringWatch
  repeat' first
    | with_reducible assumption
    | with_reducible apply resign_kept
    | with_reducible apply faultU_kept
    | with_reducible apply setCond_kept
    | split

theorem ringCmd_kept {z s : State} (hk : Kept z s) (f : State → State) (hh_f : ∀ u, Kept z u → Kept z (f u)) : Kept z (ringCmd f s) := by
  unfold ringCmd
  repeat' first
    | with_reducible assumption
    | with_reducible apply hh_f
    | with_reducible apply ringWatch_kept
    | ((with_reducible refine modRing_kept ?_ _ (fun _ hx => ?_)); rotate_left; exact hx)
    | split

theorem frameIn_kept {z s0 : State} (hk : Kept z s0) (rp : RingPort) (h : RingHdr) (mine : State → State) (take : State → State) (hh_mine : ∀ u, Kept z u → Kept z (mine u)) (hh_take : ∀ u, Kept z u → Kept z (take u)) : Kept z (frameIn rp h mine take s0) := by
  unfold frameIn
  try dsimp only
  repeat' first
    | with_reducible assumption
    | with_reducible apply hh_mine
    | with_reducible apply hh_take
    | with_reducible apply ringCmd_kept
    | with_reducible apply modPort_kept
    | with_reducible apply ringViol_kept
    | (intro u hu)
    | split

theorem alignLost_kept {z s : State} (hk : Kept z s) (rp : RingPort) : Kept z (alignLost rp s) := by
  unfold alignLost
  repeat' first
    | with_reducible assumption
    | with_reducible apply modPort_kept
    | with_reducible apply bump_kept
    | ((with_reducible refine modRing_kept ?_ _ (fun _ hx => ?_)); rotate_left; exact hx)

theorem linkIn_kept {z s0 : State} (hk : Kept z s0) (rp : RingPort) (h : RingHdr) (take : State → State) (htake : ∀ u, Kept z u → Kept z (take u)) : Kept z (linkIn rp h take s0) := by
  unfold linkIn
  try dsimp only
  repeat' first
    | with_reducible assumption
    | with_reducible apply htake
    | with_reducible apply ringCmd_kept
    | with_reducible apply modPort_kept
    | with_reducible apply ringViol_kept
    | (intro u hu)
    | split
    | fail_if_no_progress with_reducible refine Kept.same ?_ id id id id id id id id

theorem frameDiscard_kept {z s : State} (hk : Kept z s) (rp : RingPort) (line : Nat) : Kept z (frameDiscard rp line s) := by
  unfold frameDiscard
  try dsimp only
  repeat' first
    | with_reducible assumption
    | with_reducible apply modPort_kept
    | with_reducible apply bump_kept
    | with_reducible apply alignLost_kept
    | with_reducible apply ringViol_kept
    | (intro u hu)
    | split
    | fail_if_no_progress with_reducible refine Kept.same ?_ id id id id id id id id

theorem alignIn_kept {z s : State} (hk : Kept z s) (rp : RingPort) (n line : Nat) : Kept z (alignIn rp n line s) := by
  unfold alignIn
  try dsimp only
  repeat' first
    | with_reducible assumption
    | with_reducible apply modPort_kept
    | (intro u hu)
    | split
    | fail_if_no_progress with_reducible refine Kept.same ?_ id id id id id id id id

theorem surveySend_kept {z s : State} (hk : Kept z s)  : Kept z (surveySend s) := by
  unfold surveySend
  repeat' first
    | with_reducible assumption
    | with_reducible apply originate_kept
    | ((with_reducible refine modRing_kept ?_ _ (fun _ hx => ?_)); rotate_left; exact hx)
    | split

theorem surveyBack_kept {z s : State} (hk : Kept z s) (h : RingHdr) (seen : Nat) (dup : Nat) : Kept z (surveyBack h seen dup s) := by
  unfold surveyBack
  repeat' first
    | with_reducible assumption
    | with_reducible apply ringViol_kept
    | ((with_reducible refine modRing_kept ?_ _ (fun _ hx => ?_)); rotate_left; exact hx)
    | split

theorem surveyMissing_kept {z s : State} (hk : Kept z s)  : Kept z (surveyMissing s) := by
  unfold surveyMissing
  repeat' first
    | with_reducible assumption
    | ((with_reducible refine modRing_kept ?_ _ (fun _ hx => ?_)); rotate_left; exact hx)
    | split

theorem delaySend_kept {z s : State} (hk : Kept z s)  : Kept z (delaySend s) := by
  unfold delaySend
  try dsimp only
  repeat' first
    | with_reducible assumption
    | with_reducible apply originate_kept
    | ((with_reducible refine modRing_kept ?_ _ (fun _ hx => ?_)); rotate_left; exact hx)
    | (intro u hu)
    | split
    | fail_if_no_progress with_reducible refine Kept.same ?_ id id id id id id id id

theorem delayIn_kept {z s : State} (hk : Kept z s) (lastD : Nat) : Kept z (delayIn lastD s) := by
  unfold delayIn
  try dsimp only
  repeat' first
    | with_reducible assumption
    | with_reducible apply originateAt_kept
    | ((with_reducible refine modRing_kept ?_ _ (fun _ hx => ?_)); rotate_left; exact hx)
    | (intro u hu)
    | split
    | fail_if_no_progress with_reducible refine Kept.same ?_ id id id id id id id id

theorem delayDone_kept {z s : State} (hk : Kept z s) (h : RingHdr) (residence : Int) : Kept z (delayDone h residence s) := by
  unfold delayDone
  try dsimp only
  repeat' first
    | with_reducible assumption
    | with_reducible apply ringViol_kept
    | ((with_reducible refine modRing_kept ?_ _ (fun _ hx => ?_)); rotate_left; exact hx)
    | (intro u hu)
    | split
    | fail_if_no_progress with_reducible refine Kept.same ?_ id id id id id id id id

theorem ringTick_kept {z s : State} (hk : Kept z s)  : Kept z (ringTick s) := by
  unfold ringTick
  try dsimp only
  repeat' first
    | with_reducible assumption
    | with_reducible apply originateAt_kept
    | with_reducible apply originate_kept
    | ((with_reducible refine modRing_kept ?_ _ (fun _ hx => ?_)); rotate_left; exact hx)
    | (intro u hu)
    | split
    | fail_if_no_progress with_reducible refine Kept.same ?_ id id id id id id id id

theorem claimIn_kept {z s : State} (hk : Kept z s) (rp : RingPort) (h : RingHdr) (body : List Byte) : Kept z (claimIn rp h body s) := by
  unfold claimIn
  repeat' first
    | with_reducible assumption
    | with_reducible apply masterSet_kept
    | with_reducible apply forward_kept
    | ((with_reducible refine modRing_kept ?_ _ (fun _ hx => ?_)); rotate_left; exact hx)
    | split

theorem claimDone_kept {z s : State} (hk : Kept z s)  : Kept z (claimDone s) := by
  unfold claimDone
  repeat' first
    | with_reducible assumption
    | with_reducible apply masterSet_kept
    | ((with_reducible refine modRing_kept ?_ _ (fun _ hx => ?_)); rotate_left; exact hx)
    | split

theorem timeSample_kept {z s : State} (hk : Kept z s) (rp : RingPort) (h : RingHdr) (mtime st : Nat) (valid : Bool) (tod : Nat) : Kept z (timeSample rp h mtime st valid tod s) := by
  unfold timeSample
  try dsimp only
  repeat' first
    | with_reducible assumption
    | with_reducible apply modPort_kept
    | ((with_reducible refine modRing_kept ?_ _ (fun _ hx => ?_)); rotate_left; exact hx)
    | with_reducible apply forwardTime_kept
    | (intro u hu)
    | split
    | fail_if_no_progress with_reducible refine Kept.same ?_ id id id id id id id id

theorem timeIn_kept {z s : State} (hk : Kept z s) (rp : RingPort) (h : RingHdr) (mtime : Nat) (st : Nat) (valid : Bool) (tod : Nat) : Kept z (timeIn rp h mtime st valid tod s) := by
  unfold timeIn
  repeat' first
    | with_reducible assumption
    | with_reducible apply timeSample_kept
    | with_reducible apply ringViol_kept
    | with_reducible apply jobDue_kept
    | with_reducible apply masterSet_kept
    | split

theorem trigKeep_kept {z s : State} (hk : Kept z s) (trig start : Nat) : Kept z (trigKeep trig start s) := by
  unfold trigKeep
  exact jobDue_kept (modRing_kept hk _ (fun r _ => by simp only [List.length_take]; exact Nat.min_le_left _ _))

theorem runSubmit_kept {z s : State} (hk : Kept z s) (tmpl : Nat) (trig : Nat) : Kept z (runSubmit tmpl trig s) := by
  unfold runSubmit
  repeat' first
    | with_reducible assumption
    | with_reducible apply submit_kept
    | split

theorem trigOriginate_kept {z s : State} (hk : Kept z s) (run : Bool) (trig : Nat) (leadMs : Nat) (tmpl : Nat) : Kept z (trigOriginate run trig leadMs tmpl s).1 := by
  unfold trigOriginate
  try dsimp only
  repeat' first
    | with_reducible assumption
    | with_reducible apply trigKeep_kept
    | with_reducible apply originate_kept
    | with_reducible apply runSubmit_kept
    | (intro u hu)
    | split

theorem runTemplate_kept {z s : State} (hk : Kept z s) (trig : Nat) (tmpl : Option Nat) : Kept z (runTemplate trig tmpl s) := by
  unfold runTemplate
  try dsimp only
  repeat' first
    | with_reducible assumption
    | with_reducible apply runSubmit_kept
    | (intro u hu)
    | split

theorem trigIn_kept {z s : State} (hk : Kept z s) (rp : RingPort) (h : RingHdr) (trig : Nat) (start : Nat) (tmpl : Option Nat) : Kept z (trigIn rp h trig start tmpl s) := by
  unfold trigIn
  try dsimp only
  repeat' first
    | with_reducible assumption
    | with_reducible apply ringViol_kept
    | with_reducible apply runTemplate_kept
    | with_reducible apply forward_kept
    | with_reducible apply trigKeep_kept
    | (intro u hu)
    | split

/-! ### Sleep.lean -/

theorem modAgree_kept {s0 s : State} (hk : Kept s0 s) (f : Agree → Agree) : Kept s0 (modAgree f s) :=
  modRing_kept hk _ (fun _ h => h)

theorem wakeAct_kept {z s : State} (hk : Kept z s)  : Kept z (wakeAct s) := by
  unfold wakeAct
  repeat' first
    | with_reducible assumption
    | with_reducible apply pwrRequest_kept

theorem wakeReach_kept {z s : State} (hk : Kept z s)  : Kept z (wakeReach s) := by
  unfold wakeReach
  repeat' first
    | with_reducible assumption
    | with_reducible apply modAgree_kept
    | with_reducible apply wakeAct_kept
    | ((with_reducible refine modRing_kept ?_ _ (fun _ hx => ?_)); rotate_left; exact hx)
    | split
    | fail_if_no_progress with_reducible refine Kept.same ?_ id id id id id id id id

theorem wakeBefore_kept {z s : State} (hk : Kept z s)  : Kept z (wakeBefore s) := by
  unfold wakeBefore
  repeat' first
    | with_reducible assumption
    | with_reducible apply modAgree_kept
    | split

theorem sendTone_kept {z s : State} (hk : Kept z s)  : Kept z (sendTone s) := by
  unfold sendTone
  try dsimp only
  repeat' first
    | with_reducible assumption
    | with_reducible apply txPut_kept
    | (intro u hu)
    | split
    | fail_if_no_progress with_reducible refine Kept.same ?_ id id id id id id id id

theorem toneNow_kept {z s : State} (hk : Kept z s)  : Kept z (toneNow s) := by
  unfold toneNow
  try dsimp only
  repeat' first
    | with_reducible assumption
    | ((with_reducible refine modRing_kept ?_ _ (fun _ hx => ?_)); rotate_left; exact hx)
    | with_reducible apply sendTone_kept
    | (intro u hu)
    | split
    | fail_if_no_progress with_reducible refine Kept.same ?_ id id id id id id id id

theorem wakeCall_kept {z s : State} (hk : Kept z s)  : Kept z (wakeCall s) := by
  unfold wakeCall
  try dsimp only
  repeat' first
    | with_reducible assumption
    | with_reducible apply wakeBefore_kept
    | with_reducible apply originate_kept
    | with_reducible apply sendTone_kept
    | ((with_reducible refine modRing_kept ?_ _ (fun _ hx => ?_)); rotate_left; exact hx)
    | (intro u hu)
    | split
    | fail_if_no_progress with_reducible refine Kept.same ?_ id id id id id id id id

theorem wakeIn_kept {z s0 : State} (hk : Kept z s0) (rp : RingPort) (h : RingHdr) (origin : Nat) (wakeSeq : Nat) (agreeId : Nat) : Kept z (wakeIn rp h origin wakeSeq agreeId s0) := by
  unfold wakeIn
  try dsimp only
  repeat' first
    | with_reducible assumption
    | with_reducible apply wakeBefore_kept
    | with_reducible apply ringViol_kept
    | with_reducible apply forward_kept
    | with_reducible apply wakeReach_kept
    | ((with_reducible refine modRing_kept ?_ _ (fun _ hx => ?_)); rotate_left; exact hx)
    | split

theorem sendVerdict_kept {z s : State} (hk : Kept z s) (id : Nat) (result : Nat) : Kept z (sendVerdict id result s) := by
  unfold sendVerdict
  repeat' first
    | with_reducible assumption
    | with_reducible apply originate_kept

theorem agreeAbort_kept {z s : State} (hk : Kept z s) (code : Nat) : Kept z (agreeAbort code s) := by
  unfold agreeAbort
  repeat' first
    | with_reducible assumption
    | with_reducible apply bump_kept
    | with_reducible apply modAgree_kept
    | with_reducible apply wakeAct_kept
    | ((with_reducible refine modRing_kept ?_ _ (fun _ hx => ?_)); rotate_left; exact hx)
    | split

theorem propose_kept {z s : State} (hk : Kept z s) (sleepS target : Nat) : Kept z (propose sleepS target s) := by
  unfold propose
  try dsimp only
  repeat' first
    | with_reducible assumption
    | ((with_reducible refine modRing_kept ?_ _ (fun _ hx => ?_)); rotate_left; exact hx)
    | with_reducible apply originate_kept
    | with_reducible apply modAgree_kept
    | with_reducible apply bump_kept
    | with_reducible apply agreeAbort_kept
    | (intro u hu)
    | split
    | fail_if_no_progress with_reducible refine Kept.same ?_ id id id id id id id id

theorem proposeBack_kept {z s : State} (hk : Kept z s) (a : AgreeMsg) : Kept z (proposeBack a s) := by
  unfold proposeBack
  try dsimp only
  repeat' first
    | with_reducible assumption
    | with_reducible apply originate_kept
    | with_reducible apply modAgree_kept
    | with_reducible apply agreeAbort_kept
    | with_reducible apply sendVerdict_kept
    | split

theorem displace_kept {z s : State} (hk : Kept z s)  : Kept z (displace s) := by
  unfold displace
  repeat' first
    | with_reducible assumption
    | with_reducible apply agreeAbort_kept
    | with_reducible apply sendVerdict_kept
    | split

theorem proposeIn_kept {z s : State} (hk : Kept z s) (rp : RingPort) (h : RingHdr) (a : AgreeMsg) : Kept z (proposeIn rp h a s) := by
  unfold proposeIn
  try dsimp only
  repeat' first
    | with_reducible assumption
    | with_reducible apply forward_kept
    | with_reducible apply displace_kept
    | with_reducible apply modAgree_kept
    | with_reducible apply ringViol_kept
    | with_reducible apply bump_kept
    | split

theorem agreeConfirm_kept {z s : State} (hk : Kept z s)  : Kept z (agreeConfirm s) := by
  unfold agreeConfirm
  try dsimp only
  repeat' first
    | with_reducible assumption
    | with_reducible apply modAgree_kept
    | with_reducible apply fault_kept
    | split
    | fail_if_no_progress with_reducible refine Kept.same ?_ id id id id id id id id

theorem commitBack_kept {z s : State} (hk : Kept z s) (a : AgreeMsg) : Kept z (commitBack a s) := by
  unfold commitBack
  try dsimp only
  repeat' first
    | with_reducible assumption
    | with_reducible apply agreeAbort_kept
    | with_reducible apply sendVerdict_kept
    | with_reducible apply agreeConfirm_kept
    | split

theorem commitIn_kept {z s : State} (hk : Kept z s) (rp : RingPort) (h : RingHdr) (a : AgreeMsg) : Kept z (commitIn rp h a s) := by
  unfold commitIn
  repeat' first
    | with_reducible assumption
    | with_reducible apply modAgree_kept
    | with_reducible apply forward_kept
    | split

theorem verdictIn_kept {z s : State} (hk : Kept z s) (rp : RingPort) (h : RingHdr) (id : Nat) (result : Nat) : Kept z (verdictIn rp h id result s) := by
  unfold verdictIn
  try dsimp only
  repeat' first
    | with_reducible assumption
    | with_reducible apply forward_kept
    | with_reducible apply agreeConfirm_kept
    | with_reducible apply agreeAbort_kept
    | split

theorem returnTimeout_kept {z s : State} (hk : Kept z s)  : Kept z (returnTimeout s) := by
  unfold returnTimeout
  try dsimp only
  repeat' first
    | with_reducible assumption
    | with_reducible apply agreeAbort_kept
    | with_reducible apply sendVerdict_kept
    | split

theorem verdictTimeout_kept {z s : State} (hk : Kept z s)  : Kept z (verdictTimeout s) := by
  unfold verdictTimeout
  try dsimp only
  repeat' first
    | with_reducible assumption
    | with_reducible apply agreeAbort_kept
    | split

theorem sleepInstant_kept {z s : State} (hk : Kept z s)  : Kept z (sleepInstant s) := by
  unfold sleepInstant
  try dsimp only
  repeat' first
    | with_reducible assumption
    | with_reducible apply pwrRequest_kept
    | split
    | fail_if_no_progress with_reducible refine Kept.same ?_ id id id id id id id id

theorem rendezvousStart_kept {z s : State} (hk : Kept z s)  : Kept z (rendezvousStart s) := by
  unfold rendezvousStart
  try dsimp only
  repeat' first
    | with_reducible assumption
    | with_reducible apply toneNow_kept
    | with_reducible apply modAgree_kept
    | (intro u hu)
    | split
    | fail_if_no_progress with_reducible refine Kept.same ?_ id id id id id id id id

theorem rendezvousLost_kept {z s : State} (hk : Kept z s)  : Kept z (rendezvousLost s) := by
  unfold rendezvousLost
  try dsimp only
  repeat' first
    | with_reducible assumption
    | with_reducible apply bump_kept
    | with_reducible apply modAgree_kept
    | with_reducible apply timeStateRec_kept
    | with_reducible apply fault_kept
    | split

theorem listenFail_kept {z s : State} (hk : Kept z s)  : Kept z (listenFail s) := by
  unfold listenFail
  try dsimp only
  repeat' first
    | with_reducible assumption
    | with_reducible apply modAgree_kept
    | with_reducible apply bump_kept
    | with_reducible apply wakeCall_kept
    | with_reducible apply pwrRequest_kept
    | with_reducible apply timeStateRec_kept
    | with_reducible apply notice_kept
    | (intro u hu)
    | split
    | fail_if_no_progress with_reducible refine Kept.same ?_ id id id id id id id id

theorem beacon_kept {z s : State} (hk : Kept z s) (rp : RingPort) (agreeId : Nat) : Kept z (beacon rp agreeId s) := by
  unfold beacon
  try dsimp only
  repeat' first
    | with_reducible assumption
    | with_reducible apply modAgree_kept
    | with_reducible apply bump_kept
    | with_reducible apply timeStateRec_kept
    | with_reducible apply notice_kept
    | (intro u hu)
    | split
    | fail_if_no_progress with_reducible refine Kept.same ?_ id id id id id id id id

theorem idleIn_kept {z s : State} (hk : Kept z s) (rp : RingPort) (serial : BitVec 64) (agreeId : Nat) : Kept z (idleIn rp serial agreeId s) := by
  unfold idleIn
  try dsimp only
  repeat' first
    | with_reducible assumption
    | with_reducible apply modPort_kept
    | ((with_reducible refine modRing_kept ?_ _ (fun _ hx => ?_)); rotate_left; exact hx)
    | with_reducible apply masterSet_kept
    | with_reducible apply beacon_kept
    | (intro u hu)
    | split
    | fail_if_no_progress with_reducible refine Kept.same ?_ id id id id id id id id

theorem ringCmdAct_kept {z s : State} (hk : Kept z s) (val : Word) : Kept z (ringCmdAct val s) := by
  unfold ringCmdAct
  try dsimp only
  repeat' first
    | with_reducible assumption
    | with_reducible apply wakeCall_kept
    | with_reducible apply propose_kept
    | with_reducible apply trigOriginate_kept
    | (intro u hu)
    | split

theorem ringCmdWrite_kept {z s : State} (hk : Kept z s) (val : Word) : Kept z (ringCmdWrite val s).1 := by
  unfold ringCmdWrite
  try dsimp only
  repeat' first
    | with_reducible assumption
    | with_reducible apply ringCmd_kept
    | with_reducible apply ringCmdAct_kept
    | (intro u hu)
    | split

/-! ### Routine.lean -/

theorem rtSkip_kept {z s : State} (hk : Kept z s) (i : Nat) (n : Nat) : Kept z (rtSkip i n s) := by
  unfold rtSkip
  repeat' first
    | with_reducible assumption
    | with_reducible apply faultU_kept
    | with_reducible apply bump_kept
    | split

theorem armAlarm_kept {z s : State} (hk : Kept z s)  : Kept z (armAlarm s) := by
  unfold armAlarm
  try dsimp only
  repeat' first
    | with_reducible assumption
    | (intro u hu)
    | split
    | fail_if_no_progress with_reducible refine Kept.same ?_ id id id id id id id id

theorem rtRecompute_kept {z s : State} (hk : Kept z s) (count : Bool) : Kept z (rtRecompute count s) := by
  unfold rtRecompute
  repeat' first
    | with_reducible assumption
    | with_reducible apply rtSkip_kept
    | with_reducible apply armAlarm_kept
    | split
    | with_reducible refine Kept.foldl _ _ ?_ (fun u a hu => ?_)
    | fail_if_no_progress with_reducible refine Kept.same ?_ id id id id id id id id

theorem rtConsume_kept {z s : State} (hk : Kept z s) (i : Nat) : Kept z (rtConsume i s) := by
  unfold rtConsume
  repeat' first
    | with_reducible assumption
    | with_reducible apply armAlarm_kept
    | fail_if_no_progress with_reducible refine Kept.same ?_ id id id id id id id id

theorem rtAct_kept {z s : State} (hk : Kept z s) (e : RtEntry) : Kept z (rtAct e s) := by
  unfold rtAct
  try dsimp only
  repeat' first
    | with_reducible assumption
    | with_reducible apply pwrRequest_kept
    | with_reducible apply calRequest_kept
    | with_reducible apply ringCmd_kept
    | with_reducible apply propose_kept
    | (intro u hu)
    | split
    | fail_if_no_progress with_reducible refine Kept.same ?_ id id id id id id id id

theorem rtOccurOne_kept {z s : State} (hk : Kept z s) (i : Nat) : Kept z (rtOccurOne s i) := by
  unfold rtOccurOne
  try dsimp only
  repeat' first
    | with_reducible assumption
    | with_reducible apply rtConsume_kept
    | with_reducible apply rtSkip_kept
    | with_reducible apply rtAct_kept
    | (intro u hu)
    | split
    | fail_if_no_progress with_reducible refine Kept.same ?_ id id id id id id id id

theorem rtOccur_kept {z s : State} (hk : Kept z s) (i : Nat) : Kept z (rtOccur i s) := by
  unfold rtOccur
  try dsimp only
  repeat' first
    | with_reducible assumption
    | with_reducible apply rtOccurOne_kept
    | with_reducible refine Kept.foldl _ _ ?_ (fun u a hu => ?_)
    | (intro u hu)
    | split
    | fail_if_no_progress with_reducible refine Kept.same ?_ id id id id id id id id

theorem rtSubmitOne_kept {z s : State} (hk : Kept z s) (i : Nat) : Kept z (rtSubmitOne s i) := by
  unfold rtSubmitOne
  try dsimp only
  repeat' first
    | with_reducible assumption
    | with_reducible apply submit_kept
    | with_reducible apply rtConsume_kept
    | with_reducible apply rtSkip_kept
    | (intro u hu)
    | split
    | fail_if_no_progress with_reducible refine Kept.same ?_ id id id id id id id id

theorem rtSubmit_kept {z s : State} (hk : Kept z s) (i : Nat) : Kept z (rtSubmit i s) := by
  unfold rtSubmit
  try dsimp only
  repeat' first
    | with_reducible assumption
    | with_reducible apply rtSubmitOne_kept
    | with_reducible refine Kept.foldl _ _ ?_ (fun u a hu => ?_)
    | (intro u hu)
    | split
    | fail_if_no_progress with_reducible refine Kept.same ?_ id id id id id id id id

theorem rtAfter_kept {z s : State} (hk : Kept z s)  : Kept z (rtAfter s) := by
  unfold rtAfter
  try dsimp only
  repeat' first
    | with_reducible assumption
    | with_reducible apply pwrRequest_kept
    | split
    | fail_if_no_progress with_reducible refine Kept.same ?_ id id id id id id id id

theorem bootRoutineWrite_kept {z s : State} (hk : Kept z s) (val : Word) : Kept z (bootRoutineWrite val s) := by
  unfold bootRoutineWrite
  repeat' first
    | with_reducible assumption
    | with_reducible apply rtRecompute_kept
    | split
    | fail_if_no_progress with_reducible refine Kept.same ?_ id id id id id id id id

theorem alarmFire_kept {z s : State} (hk : Kept z s)  : Kept z (alarmFire s) := by
  unfold alarmFire
  try dsimp only
  repeat' first
    | with_reducible assumption
    | with_reducible apply pwrRequest_kept
    | with_reducible apply modAgree_kept
    | (intro u hu)
    | split
    | fail_if_no_progress with_reducible refine Kept.same ?_ id id id id id id id id

/-! ### Time.lean -/

theorem modTim_kept {z s : State} (hk : Kept z s) (f : Tim → Tim) : Kept z (modTim f s) := by
  unfold modTim
  repeat' first
    | with_reducible assumption
    | fail_if_no_progress with_reducible refine Kept.same ?_ id id id id id id id id

theorem setSt_kept {z s : State} (hk : Kept z s) (st : TimeSt) : Kept z (setSt st s) := by
  unfold setSt
  try dsimp only
  repeat' first
    | with_reducible assumption
    | with_reducible apply modTim_kept
    | with_reducible apply setCond_kept
    | with_reducible apply timeStateRec_kept
    | with_reducible apply faultU_kept
    | split
    | fail_if_no_progress with_reducible refine Kept.same ?_ id id id id id id id id

theorem loseLock_kept {z s : State} (hk : Kept z s)  : Kept z (loseLock s) := by
  unfold loseLock
  repeat' first
    | with_reducible assumption
    | with_reducible apply setSt_kept
    | split

theorem reviewDiscipline_kept {z s : State} (hk : Kept z s)  : Kept z (reviewDiscipline s) := by
  unfold reviewDiscipline
  try dsimp only
  repeat' first
    | with_reducible assumption
    | with_reducible apply modTim_kept
    | with_reducible apply setSt_kept
    | with_reducible apply loseLock_kept
    | split

theorem stepKept_kept {z s : State} (hk : Kept z s) (a : Int) : Kept z (stepKept a s) := by
  unfold stepKept
  repeat' first
    | with_reducible assumption
    | fail_if_no_progress with_reducible refine Kept.same ?_ id id id id id id id id

theorem rearm_kept {z s : State} (hk : Kept z s)  : Kept z (rearm s) := by
  unfold rearm
  repeat' first
    | with_reducible assumption
    | with_reducible apply armAlarm_kept
    | split

theorem becameValid_kept {z s : State} (hk : Kept z s) (was : Bool) : Kept z (becameValid was s) := by
  unfold becameValid
  repeat' first
    | with_reducible assumption
    | with_reducible apply jobDue_kept
    | with_reducible apply rtRecompute_kept
    | with_reducible apply rearm_kept
    | split

theorem applyStep_kept {z s : State} (hk : Kept z s) (src : Nat) : Kept z (applyStep src s) := by
  unfold applyStep
  try dsimp only
  repeat' first
    | with_reducible assumption
    | with_reducible apply modTim_kept
    | with_reducible apply stepKept_kept
    | with_reducible apply timeStateRec_kept
    | with_reducible apply bump_kept
    | with_reducible apply ringWatch_kept
    | with_reducible apply becameValid_kept
    | (intro u hu)
    | split
    | fail_if_no_progress with_reducible refine Kept.same ?_ id id id id id id id id

theorem stepNotice_kept {z s : State} (hk : Kept z s) (a : Int) : Kept z (stepNotice a s) := by
  unfold stepNotice
  try dsimp only
  repeat' first
    | with_reducible assumption
    | with_reducible apply notice_kept
    | (intro u hu)
    | split
    | fail_if_no_progress with_reducible refine Kept.same ?_ id id id id id id id id

theorem stepDue_kept {z s : State} (hk : Kept z s) (old : Int × Int) : Kept z (stepDue old s) := by
  unfold stepDue
  try dsimp only
  repeat' first
    | with_reducible assumption
    | with_reducible apply modTim_kept
    | with_reducible apply stepNotice_kept
    | with_reducible apply applyStep_kept
    | (intro u hu)
    | split
    | fail_if_no_progress with_reducible refine Kept.same ?_ id id id id id id id id

theorem acquire_kept {z s : State} (hk : Kept z s) (e : Int) : Kept z (acquire e s) := by
  unfold acquire
  repeat' first
    | with_reducible assumption
    | with_reducible apply modTim_kept
    | split

theorem ppsStarts_kept {z s : State} (hk : Kept z s) (ts : Int) : Kept z (ppsStarts ts s) := by
  unfold ppsStarts
  repeat' first
    | with_reducible assumption
    | fail_if_no_progress with_reducible refine Kept.same ?_ id id id id id id id id

theorem hostApply_kept {z s : State} (hk : Kept z s) (n : Int) : Kept z (hostApply n s) := by
  unfold hostApply
  try dsimp only
  repeat' first
    | with_reducible assumption
    | with_reducible apply modTim_kept
    | with_reducible apply ringWatch_kept
    | with_reducible apply becameValid_kept
    | with_reducible apply timeStateRec_kept
    | (intro u hu)
    | split
    | fail_if_no_progress with_reducible refine Kept.same ?_ id id id id id id id id

theorem ppsMeasured_kept {z s : State} (hk : Kept z s) (e : Int) (old : Int × Int) : Kept z (ppsMeasured e old s) := by
  unfold ppsMeasured
  try dsimp only
  repeat' first
    | with_reducible assumption
    | with_reducible apply acquire_kept
    | with_reducible apply stepDue_kept
    | with_reducible apply setSt_kept
    | with_reducible apply modTim_kept
    | (intro u hu)
    | split
    | fail_if_no_progress with_reducible refine Kept.same ?_ id id id id id id id id

theorem ppsOutlier_kept {z s : State} (hk : Kept z s) (e : Int) : Kept z (ppsOutlier e s) := by
  unfold ppsOutlier
  try dsimp only
  repeat' first
    | with_reducible assumption
    | with_reducible apply faultU_kept
    | with_reducible apply modTim_kept
    | with_reducible apply bump_kept
    | (intro u hu)
    | split
    | fail_if_no_progress with_reducible refine Kept.same ?_ id id id id id id id id

theorem ppsTimed_kept {z s : State} (hk : Kept z s)  : Kept z (ppsTimed s) := by
  unfold ppsTimed
  try dsimp only
  repeat' first
    | with_reducible assumption
    | with_reducible apply ppsStarts_kept
    | with_reducible apply hostApply_kept
    | with_reducible apply stepDue_kept
    | with_reducible apply ppsOutlier_kept
    | with_reducible apply ppsMeasured_kept
    | with_reducible apply loseLock_kept
    | (intro u hu)
    | split
    | fail_if_no_progress with_reducible refine Kept.same ?_ id id id id id id id id

theorem ppsEdge_kept {z s : State} (hk : Kept z s)  : Kept z (ppsEdge s) := by
  unfold ppsEdge
  try dsimp only
  repeat' first
    | with_reducible assumption
    | with_reducible apply reviewDiscipline_kept
    | with_reducible apply modTim_kept
    | with_reducible apply stepDue_kept
    | with_reducible apply hostApply_kept
    | with_reducible apply ppsTimed_kept
    | (intro u hu)
    | split
    | fail_if_no_progress with_reducible refine Kept.same ?_ id id id id id id id id

theorem ppsMissing_kept {z s : State} (hk : Kept z s)  : Kept z (ppsMissing s) := by
  unfold ppsMissing
  repeat' first
    | with_reducible assumption
    | with_reducible apply loseLock_kept
    | with_reducible apply reviewDiscipline_kept
    | with_reducible apply modTim_kept
    | split

theorem ref10Lost_kept {z s : State} (hk : Kept z s)  : Kept z (ref10Lost s) := by
  unfold ref10Lost
  repeat' first
    | with_reducible assumption
    | with_reducible apply loseLock_kept
    | split

theorem holdExpired_kept {z s : State} (hk : Kept z s)  : Kept z (holdExpired s) := by
  unfold holdExpired
  repeat' first
    | with_reducible assumption
    | with_reducible apply setSt_kept
    | split

theorem setTod_kept {z s : State} (hk : Kept z s) (src : Nat) (valid : Bool) : Kept z (setTod src valid s) := by
  unfold setTod
  repeat' first
    | with_reducible assumption
    | with_reducible apply ringWatch_kept
    | with_reducible apply becameValid_kept
    | with_reducible apply timeStateRec_kept
    | with_reducible apply modTim_kept
    | split

theorem todDisagree_kept {z s : State} (hk : Kept z s) (c : Nat) (d : Int) : Kept z (todDisagree c d s) := by
  unfold todDisagree
  try dsimp only
  repeat' first
    | with_reducible assumption
    | with_reducible apply fault_kept
    | (intro u hu)
    | split
    | fail_if_no_progress with_reducible refine Kept.same ?_ id id id id id id id id

theorem todOthers_kept {z s : State} (hk : Kept z s) (taken prev : Nat) (us : List TodCmp) : Kept z (todOthers taken prev us s) := by
  unfold todOthers
  try dsimp only
  repeat' first
    | with_reducible assumption
    | with_reducible apply todDisagree_kept
    | with_reducible refine Kept.foldl _ _ ?_ (fun u a hu => ?_)
    | (intro u hu)
    | split
    | fail_if_no_progress with_reducible refine Kept.same ?_ id id id id id id id id

theorem todCompare_kept {z s : State} (hk : Kept z s)  : Kept z (todCompare s) := by
  unfold todCompare
  try dsimp only
  repeat' first
    | with_reducible assumption
    | with_reducible apply stepDue_kept
    | with_reducible apply todOthers_kept
    | with_reducible apply setTod_kept
    | with_reducible apply modTim_kept
    | with_reducible apply applyStep_kept
    | (intro u hu)
    | split
    | fail_if_no_progress with_reducible refine Kept.same ?_ id id id id id id id id

theorem timeSetWrite_kept {z s : State} (hk : Kept z s) (val : Word) : Kept z (timeSetWrite val s).1 := by
  unfold timeSetWrite
  try dsimp only
  repeat' first
    | with_reducible assumption
    | with_reducible apply setTod_kept
    | with_reducible apply modTim_kept
    | with_reducible apply notice_kept
    | (intro u hu)
    | split

theorem alignNight_kept {z s : State} (hk : Kept z s)  : Kept z (alignNight s) := by
  unfold alignNight
  try dsimp only
  repeat' first
    | with_reducible assumption
    | with_reducible apply rearm_kept
    | (intro u hu)
    | dsimp only
    | split
    | fail_if_no_progress with_reducible refine Kept.same ?_ id id id id id id id id

theorem ppsOut_kept {z s : State} (hk : Kept z s)  : Kept z (ppsOut s) := by
  unfold ppsOut
  try dsimp only
  repeat' first
    | with_reducible assumption
    | (intro u hu)
    | split
    | dsimp only
    | fail_if_no_progress with_reducible refine Kept.same ?_ id id id id id id id id

theorem ppsOutFall_kept {z s : State} (hk : Kept z s)  : Kept z (ppsOutFall s) := by
  unfold ppsOutFall
  try dsimp only
  repeat' first
    | with_reducible assumption
    | (intro u hu)
    | split
    | dsimp only
    | fail_if_no_progress with_reducible refine Kept.same ?_ id id id id id id id id

theorem secondBoundary_kept {z s : State} (hk : Kept z s)  : Kept z (secondBoundary s) := by
  unfold secondBoundary
  try dsimp only
  repeat' first
    | with_reducible assumption
    | with_reducible apply ppsOut_kept
    | with_reducible apply modTim_kept
    | with_reducible apply hostApply_kept
    | with_reducible apply alignNight_kept
    | with_reducible apply todCompare_kept
    | with_reducible apply stepDue_kept
    | (intro u hu)
    | split
    | fail_if_no_progress with_reducible refine Kept.same ?_ id id id id id id id id

/-! ### Ptp.lean -/

theorem modPtp_kept {s0 s : State} (hk : Kept s0 s) (f : Ptp → Ptp)
    (hf : ∀ r, r.masters.length ≤ 4 → (f r).masters.length ≤ 4) : Kept s0 (modPtp f s) :=
  hk.mk' id id id id id id id id id (hf _) id

theorem ptpViol_kept {z s : State} (hk : Kept z s) (row : Nat) (ws : List Nat) : Kept z (ptpViol row ws s) := by
  unfold ptpViol
  repeat' first
    | with_reducible assumption
    | with_reducible apply fault_kept
    | with_reducible apply bump_kept

theorem ptpMsg_kept {z s : State} (hk : Kept z s) (type : Nat) (h : PtpHdr) (twoStep : Bool) (corr : Int) (f : State → State) (hh_f : ∀ u, Kept z u → Kept z (f u)) : Kept z (ptpMsg type h twoStep corr f s) := by
  unfold ptpMsg
  repeat' first
    | with_reducible assumption
    | with_reducible apply hh_f
    | with_reducible apply ptpViol_kept
    | split

theorem ptpSelect_kept {z s : State} (hk : Kept z s)  : Kept z (ptpSelect s) := by
  unfold ptpSelect
  try dsimp only
  repeat' first
    | with_reducible assumption
    | with_reducible apply loseLock_kept
    | with_reducible apply drawFree_kept
    | with_reducible apply modTim_kept
    | ((with_reducible refine modPtp_kept ?_ _ (fun _ hx => ?_)); rotate_left; exact hx)
    | split

theorem announceIn_kept {z s : State} (hk : Kept z s) (h : PtpHdr) (a : PtpAnnounce) : Kept z (announceIn h a s) := by
  unfold announceIn
  extract_lets live old m rest
  refine ptpSelect_kept ?_
  refine hk.mk' id id id id id id id id id (fun g => ?_) id
  have hr : rest.length ≤ s.ptp.masters.length := Nat.le_trans (List.length_filter_le _ _) (List.length_filter_le _ _)
  clear_value rest m
  dsimp only
  split
  · rw [List.length_cons]; omega
  · omega

theorem announceTimeout_kept {z s : State} (hk : Kept z s) : Kept z (announceTimeout s) := by
  unfold announceTimeout
  split
  · exact hk
  · split
    · refine ptpSelect_kept (modPtp_kept hk _ (fun p hp => ?_))
      exact Nat.le_trans (List.length_filter_le _ _) hp
    · exact hk

theorem ptpSample_kept {z s : State} (hk : Kept z s) (o : Int) (ws : List Nat) : Kept z (ptpSample o ws s) := by
  unfold ptpSample
  try dsimp only
  repeat' first
    | with_reducible assumption
    | ((with_reducible refine modPtp_kept ?_ _ (fun _ hx => ?_)); rotate_left; exact hx)
    | with_reducible apply ptpViol_kept
    | with_reducible apply loseLock_kept
    | with_reducible apply modTim_kept
    | with_reducible apply drawFree_kept
    | with_reducible apply stepDue_kept
    | with_reducible apply acquire_kept
    | with_reducible apply setSt_kept
    | (intro u hu)
    | split
    | fail_if_no_progress with_reducible refine Kept.same ?_ id id id id id id id id

theorem ptpOffset_kept {z s : State} (hk : Kept z s) (rx : Int) (origin : Nat) (corr : Int) (ws : List Nat) : Kept z (ptpOffset rx origin corr ws s) := by
  unfold ptpOffset
  try dsimp only
  repeat' first
    | with_reducible assumption
    | with_reducible apply ptpSample_kept
    | ((with_reducible refine modPtp_kept ?_ _ (fun _ hx => ?_)); rotate_left; exact hx)
    | split

theorem syncIn_kept {z s : State} (hk : Kept z s) (h : PtpHdr) (twoStep : Bool) (origin : Nat) (corr : Int) : Kept z (syncIn h twoStep origin corr s) := by
  unfold syncIn
  try dsimp only
  repeat' first
    | with_reducible assumption
    | ((with_reducible refine modPtp_kept ?_ _ (fun _ hx => ?_)); rotate_left; exact hx)
    | with_reducible apply ptpViol_kept
    | with_reducible apply ptpOffset_kept
    | (intro u hu)
    | split
    | fail_if_no_progress with_reducible refine Kept.same ?_ id id id id id id id id

theorem followUpIn_kept {z s : State} (hk : Kept z s) (h : PtpHdr) (origin : Nat) (corr : Int) : Kept z (followUpIn h origin corr s) := by
  unfold followUpIn
  try dsimp only
  repeat' first
    | with_reducible assumption
    | with_reducible apply ptpViol_kept
    | with_reducible apply ptpOffset_kept
    | ((with_reducible refine modPtp_kept ?_ _ (fun _ hx => ?_)); rotate_left; exact hx)
    | (intro u hu)
    | split
    | fail_if_no_progress with_reducible refine Kept.same ?_ id id id id id id id id

theorem followUpTimeout_kept {z s : State} (hk : Kept z s)  : Kept z (followUpTimeout s) := by
  unfold followUpTimeout
  repeat' first
    | with_reducible assumption
    | with_reducible apply ptpViol_kept
    | ((with_reducible refine modPtp_kept ?_ _ (fun _ hx => ?_)); rotate_left; exact hx)
    | with_reducible refine Kept.foldl _ _ ?_ (fun u a hu => ?_)

theorem syncTimeout_kept {z s : State} (hk : Kept z s)  : Kept z (syncTimeout s) := by
  unfold syncTimeout
  repeat' first
    | with_reducible assumption
    | with_reducible apply loseLock_kept
    | ((with_reducible refine modPtp_kept ?_ _ (fun _ hx => ?_)); rotate_left; exact hx)
    | split

theorem delayReqOut_kept {z s : State} (hk : Kept z s)  : Kept z (delayReqOut s) := by
  unfold delayReqOut
  try dsimp only
  repeat' first
    | with_reducible assumption
    | ((with_reducible refine modPtp_kept ?_ _ (fun _ hx => ?_)); rotate_left; exact hx)
    | (intro u hu)
    | split
    | fail_if_no_progress with_reducible refine Kept.same ?_ id id id id id id id id

theorem delayRespIn_kept {z s : State} (hk : Kept z s) (h : PtpHdr) (forUs : Bool) (rx : Nat) (corr : Int) : Kept z (delayRespIn h forUs rx corr s) := by
  unfold delayRespIn
  try dsimp only
  repeat' first
    | with_reducible assumption
    | with_reducible apply ptpViol_kept
    | ((with_reducible refine modPtp_kept ?_ _ (fun _ hx => ?_)); rotate_left; exact hx)
    | split

theorem delayRespTimeout_kept {z s : State} (hk : Kept z s)  : Kept z (delayRespTimeout s) := by
  unfold delayRespTimeout
  try dsimp only
  repeat' first
    | with_reducible assumption
    | with_reducible apply ptpViol_kept
    | with_reducible apply loseLock_kept
    | ((with_reducible refine modPtp_kept ?_ _ (fun _ hx => ?_)); rotate_left; exact hx)
    | split
    | with_reducible refine Kept.foldl _ _ ?_ (fun u a hu => ?_)

/-! ### Clock.lean -/

theorem modClk_kept {z s : State} (hk : Kept z s) (f : Clk → Clk) : Kept z (modClk f s) := by
  unfold modClk
  repeat' first
    | with_reducible assumption
    | fail_if_no_progress with_reducible refine Kept.same ?_ id id id id id id id id

theorem setSynth_kept {z s : State} (hk : Kept z s) (w : Option (Fin 8)) (x : SynthSt) : Kept z (setSynth w x s) := by
  unfold setSynth
  repeat' first
    | with_reducible assumption
    | with_reducible apply modClk_kept

theorem synthStart_kept {z s : State} (hk : Kept z s) (w : Option (Fin 8)) : Kept z (synthStart w s) := by
  unfold synthStart
  repeat' first
    | with_reducible assumption
    | with_reducible apply setSynth_kept
    | with_reducible apply modClk_kept
    | split

theorem clockStart_kept {z s : State} (hk : Kept z s)  : Kept z (clockStart s) := by
  unfold clockStart
  repeat' first
    | with_reducible assumption
    | with_reducible apply synthStart_kept
    | with_reducible apply modClk_kept

theorem clockStop_kept {z s : State} (hk : Kept z s)  : Kept z (clockStop s) := by
  unfold clockStop
  repeat' first
    | with_reducible assumption
    | with_reducible apply modClk_kept
    | with_reducible apply arbClockStop_kept
    | split

theorem bandDone_kept {z s : State} (hk : Kept z s) (w : Option (Fin 8)) : Kept z (bandDone w s) := by
  unfold bandDone
  repeat' first
    | with_reducible assumption
    | with_reducible apply setSynth_kept
    | split
    | fail_if_no_progress with_reducible refine Kept.same ?_ id id id id id id id id

theorem noteLock_kept {z s : State} (hk : Kept z s)  : Kept z (noteLock s) := by
  unfold noteLock
  repeat' first
    | with_reducible assumption
    | with_reducible apply modClk_kept
    | split

theorem coreLock_kept {z s : State} (hk : Kept z s)  : Kept z (coreLock s) := by
  unfold coreLock
  repeat' first
    | with_reducible assumption
    | with_reducible apply noteLock_kept
    | with_reducible apply arbClockStart_kept
    | with_reducible apply synthStart_kept
    | with_reducible refine Kept.foldl _ _ ?_ (fun u a hu => ?_)
    | fail_if_no_progress with_reducible refine Kept.same ?_ id id id id id id id id

theorem synthLock_kept {z s : State} (hk : Kept z s) (w : Option (Fin 8)) : Kept z (synthLock w s) := by
  unfold synthLock
  repeat' first
    | with_reducible assumption
    | with_reducible apply setSynth_kept
    | with_reducible apply jobDue_kept
    | with_reducible apply coreLock_kept
    | with_reducible apply noteLock_kept
    | split

theorem coreFail_kept {z s : State} (hk : Kept z s)  : Kept z (coreFail s) := by
  unfold coreFail
  try dsimp only
  repeat' first
    | with_reducible assumption
    | with_reducible apply faultU_kept
    | with_reducible apply modClk_kept
    | with_reducible apply endJobs_kept
    | with_reducible apply pwrRequest_kept
    | (intro u hu)
    | split
    | fail_if_no_progress with_reducible refine Kept.same ?_ id id id id id id id id

theorem octRemove_kept {z s : State} (hk : Kept z s) (k : Nat) : Kept z (octRemove k s) := by
  unfold octRemove
  repeat' first
    | with_reducible assumption
    | with_reducible apply abandonWindow_kept
    | with_reducible apply unitAdvance_kept
    | with_reducible apply endJobs_kept
    | ((with_reducible refine modOct_kept ?_ _ _ (fun _ hx => ?_)); rotate_left; exact hx)
    | fail_if_no_progress with_reducible refine Kept.same ?_ id id id id id id id id

theorem abandonDawn_kept {z s : State} (hk : Kept z s)  : Kept z (abandonDawn s) := by
  unfold abandonDawn
  repeat' first
    | with_reducible assumption
    | with_reducible apply endJobs_kept
    | with_reducible apply clockStop_kept
    | fail_if_no_progress with_reducible refine Kept.same ?_ id id id id id id id id

theorem octFail_kept {z s : State} (hk : Kept z s) (k : Fin 8) : Kept z (octFail k s) := by
  unfold octFail
  repeat' first
    | with_reducible assumption
    | with_reducible apply faultU_kept
    | with_reducible apply modClk_kept
    | with_reducible apply abandonDawn_kept
    | with_reducible apply octRemove_kept
    | split

theorem attemptFail_kept {z s : State} (hk : Kept z s) (w : Option (Fin 8)) : Kept z (attemptFail w s) := by
  unfold attemptFail
  try dsimp only
  repeat' first
    | with_reducible assumption
    | with_reducible apply modClk_kept
    | with_reducible apply setSynth_kept
    | with_reducible apply coreFail_kept
    | with_reducible apply octFail_kept
    | (intro u hu)
    | split
    | fail_if_no_progress with_reducible refine Kept.same ?_ id id id id id id id id

theorem lockLost_kept {z s : State} (hk : Kept z s) (w : Option (Fin 8)) : Kept z (lockLost w s) := by
  unfold lockLost
  try dsimp only
  repeat' first
    | with_reducible assumption
    | with_reducible apply faultU_kept
    | with_reducible apply assureLapse_kept
    | with_reducible apply abandonWindows_kept
    | with_reducible apply safePins_kept
    | with_reducible apply endJobs_kept
    | with_reducible apply modClk_kept
    | with_reducible apply synthStart_kept
    | with_reducible apply clockStop_kept
    | (intro u hu)
    | split
    | fail_if_no_progress with_reducible refine Kept.same ?_ id id id id id id id id

theorem ovenBegin_kept {z s : State} (hk : Kept z s)  : Kept z (ovenBegin s) := by
  unfold ovenBegin
  repeat' first
    | with_reducible assumption
    | with_reducible apply setCond_kept
    | with_reducible apply modClk_kept

theorem ovenWarmed_kept {z s : State} (hk : Kept z s)  : Kept z (ovenWarmed s) := by
  unfold ovenWarmed
  repeat' first
    | with_reducible assumption
    | with_reducible apply setCond_kept
    | with_reducible apply modClk_kept
    | split

theorem ovenLate_kept {z s : State} (hk : Kept z s)  : Kept z (ovenLate s) := by
  unfold ovenLate
  repeat' first
    | with_reducible assumption
    | with_reducible apply faultU_kept
    | with_reducible apply modClk_kept
    | split

end Sys2Proof.Machine
end

