-- ==== Sys2Proof/Laws/KeptUnit.lean ====
section
/-!
SUPPORT. KeptUnit.lean: what is kept (Kept.lean) by the enclosure, power, the register bus and boot.
-/

set_option Elab.async false
set_option linter.unreachableTactic false
set_option linter.unusedTactic false

namespace Sys2Proof.Machine

open Sys2Proof

/-! ### Encl.lean -/

theorem modEncl_kept {z s : State} (hk : Kept z s) (f : Encl → Encl) : Kept z (modEncl f s) := by
  unfold modEncl
  repeat' first
    | with_reducible assumption
    | fail_if_no_progress with_reducible refine Kept.same ?_ id id id id id id id id

theorem thermJudge_kept {z s : State} (hk : Kept z s) (src : Nat) (ev : Int → Bool) (hold : Int → Bool) (old : Int) (new : Int) : Kept z (thermJudge src ev hold old new s) := by
  unfold thermJudge
  repeat' first
    | with_reducible assumption
    | with_reducible apply faultU_kept
    | with_reducible apply setCond_kept
    | split

theorem fanEvent_kept {z s : State} (hk : Kept z s) (fan : Nat) (speed : Nat) (was : Bool) (now : Bool) : Kept z (fanEvent fan speed was now s) := by
  unfold fanEvent
  repeat' first
    | with_reducible assumption
    | with_reducible apply faultU_kept
    | split

theorem presJudge_kept {z s : State} (hk : Kept z s) (k : Nat) (old : Bool) (new : Bool) : Kept z (presJudge k old new s) := by
  unfold presJudge
  repeat' first
    | with_reducible assumption
    | with_reducible apply setCond_kept
    | with_reducible apply fault_kept
    | split

theorem enclJudge_kept {z s : State} (hk : Kept z s) (o : Encl) (n : Encl) : Kept z (enclJudge o n s) := by
  unfold enclJudge
  repeat' first
    | with_reducible assumption
    | with_reducible apply thermJudge_kept
    | with_reducible apply fanEvent_kept
    | with_reducible apply setCond_kept
    | with_reducible apply presJudge_kept
    | with_reducible refine Kept.foldl _ _ ?_ (fun u a hu => ?_)

theorem refJudge_kept {z s : State} (hk : Kept z s) (ok : Bool) : Kept z (refJudge ok s) := by
  unfold refJudge
  repeat' first
    | with_reducible assumption
    | with_reducible apply reviewDiscipline_kept
    | with_reducible apply modTim_kept

theorem enclUpdate_kept {z s : State} (hk : Kept z s) (x : EnclSample) : Kept z (enclUpdate x s) := by
  unfold enclUpdate
  try dsimp only
  repeat' first
    | with_reducible assumption
    | with_reducible apply modEncl_kept
    | ((with_reducible refine modRing_kept ?_ _ (fun _ hx => ?_)); rotate_left; exact hx)
    | with_reducible apply tempRequests_kept
    | with_reducible apply enclJudge_kept
    | with_reducible apply refJudge_kept
    | (intro u hu)
    | split
    | fail_if_no_progress with_reducible refine Kept.same ?_ id id id id id id id id

theorem setCellLow_kept {z s : State} (hk : Kept z s) (low : Bool) : Kept z (setCellLow low s) := by
  unfold setCellLow
  repeat' first
    | with_reducible assumption
    | with_reducible apply setCond_kept
    | with_reducible apply faultU_kept
    | split
    | fail_if_no_progress with_reducible refine Kept.same ?_ id id id id id id id id

theorem cellPresence_kept {z s : State} (hk : Kept z s) (present : Bool) (mv : Nat) : Kept z (cellPresence present mv s) := by
  unfold cellPresence
  repeat' first
    | with_reducible assumption
    | with_reducible apply setCond_kept
    | with_reducible apply faultU_kept
    | with_reducible apply setCellLow_kept
    | split
    | fail_if_no_progress with_reducible refine Kept.same ?_ id id id id id id id id

theorem nwReset_kept {z s : State} (hk : Kept z s)  : Kept z (nwReset s) := by
  unfold nwReset
  repeat' first
    | with_reducible assumption
    | fail_if_no_progress with_reducible refine Kept.same ?_ id id id id id id id id

theorem vbusRise_kept {z s : State} (hk : Kept z s)  : Kept z (vbusRise s) := by
  unfold vbusRise
  repeat' first
    | with_reducible assumption
    | with_reducible apply usbConnect_kept
    | with_reducible apply modEncl_kept
    | with_reducible apply pwrRequest_kept
    | split

/-! ### Power.lean -/

theorem modPwr_kept {z s : State} (hk : Kept z s) (f : Pwr → Pwr) : Kept z (modPwr f s) := by
  unfold modPwr
  repeat' first
    | with_reducible assumption
    | fail_if_no_progress with_reducible refine Kept.same ?_ id id id id id id id id

theorem pinsOff_kept {z s : State} (hk : Kept z s)  : Kept z (pinsOff s) := by
  unfold pinsOff
  repeat' first
    | with_reducible assumption
    | fail_if_no_progress with_reducible refine Kept.same ?_ id id id id id id id id

theorem octsOk_reset : OctsOk (Vector.replicate 8 {}) := by
  intro k
  unfold vget
  split
  · rw [Vector.getElem_replicate]; rfl
  · rfl

theorem capsOk_reset : CapsOk (Vector.replicate 8 {}) := by
  intro k
  unfold vget
  split
  · rw [Vector.getElem_replicate]; exact Nat.zero_le _
  · exact Nat.zero_le _

theorem sessNone : ∀ (i : Nat) (x : Sess), vget (Vector.replicate 4 (none : Option Sess)) i none = some x → x.notes.length ≤ 256 := by
  intro i x h
  unfold vget at h
  split at h
  · rw [Vector.getElem_replicate] at h; cases h
  · cases h

theorem taspOk_reset (d : Nat) : TaspOk { draws := d } := ⟨Nat.zero_le _, Nat.zero_le _, sessNone⟩

theorem powerOff_kept {z s : State} (hk : Kept z s) (st : PwrSt) : Kept z (powerOff st s) := by
  unfold powerOff
  extract_lets dram ring p nw
  refine hk.mk' id (fun g => ?_) (fun g => ?_) ?_ (fun _ => Nat.zero_le _) (fun _ => taspOk_reset _)
    (fun _ => Nat.zero_le _) (fun _ => ?_) (fun _ => Nat.zero_le _) (fun _ => Nat.zero_le _) (fun _ => capsOk_reset)
  · show SegOk (if dram then { s.seg with undo := [], load := none, probe := none } else {})
    split
    · exact g
    · exact ⟨rfl, rfl, rfl, rfl⟩
  · show OctsOk (if dram then vmap s.octs fun _ o => { wave := o.wave, phaseTrim := o.phaseTrim } else Vector.replicate 8 {})
    split
    · exact g.vmap (fun _ _ ho => ho)
    · exact octsOk_reset
  · show LogOk s.nw.log → LogOk (if dram then s.nw else { s.nw with wakeLatch := false }).log
    split <;> exact id
  · show (if dram then ({ agree := s.ring.agree, agreeSeq := s.ring.agreeSeq, wakeSeq := s.ring.wakeSeq, toneDue := s.ring.toneDue } : Ring) else {}).trigs.length ≤ 8
    split <;> exact Nat.zero_le _

theorem enterNight_kept {z s : State} (hk : Kept z s) (latched : Option Nat) : Kept z (enterNight latched s) := by
  unfold enterNight
  try dsimp only
  repeat' first
    | with_reducible assumption
    | with_reducible apply powerOff_kept
    | with_reducible apply armAlarm_kept
    | with_reducible apply modPwr_kept
    | with_reducible apply drawFree_kept
    | with_reducible apply modAgree_kept
    | split
    | fail_if_no_progress with_reducible refine Kept.same ?_ id id id id id id id id

theorem enterAbsent_kept {z s : State} (hk : Kept z s)  : Kept z (enterAbsent s) := by
  unfold enterAbsent
  repeat' first
    | with_reducible assumption
    | with_reducible apply powerOff_kept
    | with_reducible apply modPwr_kept
    | split

theorem enterEvening_kept {z s : State} (hk : Kept z s) (latched : Option Nat) : Kept z (enterEvening latched s) := by
  unfold enterEvening
  try dsimp only
  repeat' first
    | with_reducible assumption
    | with_reducible apply clockStop_kept
    | with_reducible apply pinsOff_kept
    | with_reducible apply armAlarm_kept
    | with_reducible apply modPwr_kept
    | with_reducible apply pwrRequest_kept
    | (intro u hu)
    | split
    | fail_if_no_progress with_reducible refine Kept.same ?_ id id id id id id id id

theorem keepSettings_kept {z s : State} (hk : Kept z s)  : Kept z (keepSettings s) := by
  unfold keepSettings
  try dsimp only
  repeat' first
    | with_reducible assumption
    | (intro u hu)
    | split
    | fail_if_no_progress with_reducible refine Kept.same ?_ id id id id id id id id

theorem thermalTrip_kept {z s : State} (hk : Kept z s) (dieC : Int) : Kept z (thermalTrip dieC s) := by
  unfold thermalTrip
  try dsimp only
  repeat' first
    | with_reducible assumption
    | with_reducible apply ckptCut_kept
    | with_reducible apply assureLapse_kept
    | with_reducible apply modEncl_kept
    | with_reducible apply keepSettings_kept
    | with_reducible apply powerOff_kept
    | with_reducible apply modPwr_kept
    | with_reducible apply enterAbsent_kept
    | (intro u hu)
    | split
    | fail_if_no_progress with_reducible refine Kept.same ?_ id id id id id id id id

theorem lineApplied_kept {z s : State} (hk : Kept z s) (n : Nat) : Kept z (lineApplied n s) := by
  unfold lineApplied
  repeat' first
    | with_reducible assumption
    | with_reducible apply nwReset_kept
    | with_reducible apply modPwr_kept
    | split
    | fail_if_no_progress with_reducible refine Kept.same ?_ id id id id id id id id

theorem commitStop_kept {z s : State} (hk : Kept z s)  : Kept z (commitStop s) := by
  unfold commitStop
  repeat' first
    | with_reducible assumption
    | with_reducible apply commitAbandon_kept
    | split

theorem stageDiscard_kept {z s0 : State} (hk : Kept z s0)  : Kept z (stageDiscard s0) := by
  unfold stageDiscard
  try dsimp only
  repeat' first
    | with_reducible assumption
    | split
    | fail_if_no_progress with_reducible refine Kept.same ?_ id id id id id id id id

theorem calDusk_kept {z s : State} (hk : Kept z s) : Kept z (calDusk s) := by
  unfold calDusk
  extract_lets c s1 s2 m s3
  have h1 : Kept z s1 := hk.mk' id id (fun g => g.vmap (fun _ _ ho => by split <;> exact ho)) id id id id id id id id
  have h2 : Kept z s2 := abandonWindows_kept h1 _
  have h3 : Kept z s3 := by
    clear_value s2
    exact h2.mk' id id (fun g => g.vmap (fun _ _ ho => ho)) id id id id id id id id
  split
  · exact h3
  · exact notice_kept h3 _ _ _

theorem duskNotice_kept {z s : State} (hk : Kept z s)  : Kept z (duskNotice s) := by
  unfold duskNotice
  repeat' first
    | with_reducible assumption
    | with_reducible apply notice_kept

theorem lineStops_kept {z s : State} (hk : Kept z s)  : Kept z (lineStops s) := by
  unfold lineStops
  repeat' first
    | with_reducible assumption
    | with_reducible apply orderStop_kept
    | with_reducible apply endJobs_kept
    | with_reducible refine Kept.foldl _ _ ?_ (fun u a hu => ?_)

theorem duskStops_kept {z s : State} (hk : Kept z s)  : Kept z (duskStops s) := by
  unfold duskStops
  repeat' first
    | with_reducible assumption
    | with_reducible apply orderStop_kept
    | split
    | with_reducible refine Kept.foldl _ _ ?_ (fun u a hu => ?_)

theorem closeSessions_kept {z s : State} (hk : Kept z s) (target : PwrSt) : Kept z (closeSessions target s) := by
  unfold closeSessions
  split
  · exact hk.mk' id id id id id (fun g => ⟨g.1, g.2.1, sessNone⟩) id id id id id
  · exact hk

theorem duskBegin_kept {z s : State} (hk : Kept z s) (target : PwrSt) (cause : Nat) : Kept z (duskBegin target cause s) := by
  unfold duskBegin
  try dsimp only
  repeat' first
    | with_reducible assumption
    | with_reducible apply keepSettings_kept
    | with_reducible apply assureLapse_kept
    | with_reducible apply modPwr_kept
    | with_reducible apply calDusk_kept
    | with_reducible apply duskNotice_kept
    | with_reducible apply lineStops_kept
    | with_reducible apply endJobs_kept
    | with_reducible apply duskStops_kept
    | with_reducible apply closeSessions_kept
    | with_reducible apply stageDiscard_kept
    | with_reducible apply resign_kept
    | (intro u hu)
    | split
    | fail_if_no_progress with_reducible refine Kept.same ?_ id id id id id id id id

theorem lineLost_kept {z s : State} (hk : Kept z s)  : Kept z (lineLost s) := by
  unfold lineLost
  try dsimp only
  repeat' first
    | with_reducible assumption
    | with_reducible apply commitStop_kept
    | with_reducible apply storeLine_kept
    | with_reducible apply modPwr_kept
    | with_reducible apply enterAbsent_kept
    | with_reducible apply lineStops_kept
    | with_reducible apply duskNotice_kept
    | with_reducible apply duskBegin_kept
    | (intro u hu)
    | split
    | fail_if_no_progress with_reducible refine Kept.same ?_ id id id id id id id id

theorem pwrReqWrite_kept {z s : State} (hk : Kept z s) (val : Word) : Kept z (pwrReqWrite val s).1 := by
  unfold pwrReqWrite
  repeat' first
    | with_reducible assumption
    | with_reducible apply pwrRequest_kept
    | split

theorem duskEntry_kept {z s : State} (hk : Kept z s)  : Kept z (duskEntry s) := by
  unfold duskEntry
  try dsimp only
  repeat' first
    | with_reducible assumption
    | with_reducible apply duskBegin_kept
    | (intro u hu)
    | split
    | fail_if_no_progress with_reducible refine Kept.same ?_ id id id id id id id id

theorem duskWaited_kept {z s : State} (hk : Kept z s)  : Kept z (duskWaited s) := by
  unfold duskWaited
  repeat' first
    | with_reducible assumption
    | with_reducible apply duskStops_kept
    | split

theorem nightRefuse_kept {z s : State} (hk : Kept z s)  : Kept z (nightRefuse s) := by
  unfold nightRefuse
  repeat' first
    | with_reducible assumption
    | with_reducible apply endJobs_kept

theorem duskJobs_kept {z s : State} (hk : Kept z s)  : Kept z (duskJobs s) := by
  unfold duskJobs
  repeat' first
    | with_reducible assumption
    | with_reducible apply returnXpt_kept
    | with_reducible apply safePins_kept
    | with_reducible apply nightRefuse_kept
    | with_reducible apply modPwr_kept
    | split

theorem duskSeal_kept {z s : State} (hk : Kept z s)  : Kept z (duskSeal s) := by
  unfold duskSeal
  try dsimp only
  repeat' first
    | with_reducible assumption
    | with_reducible apply sealDue_kept
    | with_reducible apply modPwr_kept
    | with_reducible apply duskSealed_kept
    | (intro u hu)
    | split

theorem duskSealed_kept {z s : State} (hk : Kept z s)  : Kept z (duskSealed s) := by
  unfold duskSealed
  try dsimp only
  repeat' first
    | with_reducible assumption
    | with_reducible apply modPwr_kept
    | with_reducible apply nightRefuse_kept
    | with_reducible apply startCkpt_kept
    | (intro u hu)
    | split

theorem duskDown_kept {z s : State} (hk : Kept z s)  : Kept z (duskDown s) := by
  unfold duskDown
  try dsimp only
  repeat' first
    | with_reducible assumption
    | with_reducible apply enterEvening_kept
    | with_reducible apply enterNight_kept
    | with_reducible apply clockStop_kept
    | with_reducible apply enterAbsent_kept
    | (intro u hu)
    | dsimp only
    | split
    | fail_if_no_progress with_reducible refine Kept.same ?_ id id id id id id id id

theorem dawnStep9_kept {z s : State} (hk : Kept z s)  : Kept z (dawnStep9 s) := by
  unfold dawnStep9
  try dsimp only
  repeat' first
    | with_reducible assumption
    | with_reducible apply modPwr_kept
    | with_reducible apply clockStart_kept
    | with_reducible apply clockStop_kept
    | (intro u hu)
    | split
    | dsimp only
    | fail_if_no_progress with_reducible refine Kept.same ?_ id id id id id id id id

theorem shortDawn_kept {z s : State} (hk : Kept z s)  : Kept z (shortDawn s) := by
  unfold shortDawn
  try dsimp only
  repeat' first
    | with_reducible assumption
    | with_reducible apply notice_kept
    | with_reducible apply modPwr_kept
    | with_reducible apply dawnStep9_kept
    | with_reducible apply modClk_kept
    | with_reducible apply keepSettings_kept
    | (intro u hu)
    | split
    | fail_if_no_progress with_reducible refine Kept.same ?_ id id id id id id id id

theorem enterDay_kept {z s : State} (hk : Kept z s)  : Kept z (enterDay s) := by
  unfold enterDay
  try dsimp only
  repeat' first
    | with_reducible assumption
    | with_reducible apply dayStrobe_kept
    | with_reducible apply mapPins_kept
    | with_reducible apply modPwr_kept
    | with_reducible apply safePins_kept
    | with_reducible apply jobDue_kept
    | with_reducible apply rollStart_kept
    | (intro u hu)
    | split
    | with_reducible refine Kept.foldl _ _ ?_ (fun u a hu => ?_)

theorem inputsNow_kept {z s : State} (hk : Kept z s) (ins : List (Fin 64 × Int)) : Kept z (inputsNow ins s) := by
  unfold inputsNow
  try dsimp only
  repeat' first
    | with_reducible assumption
    | with_reducible apply inputStep_kept
    | with_reducible refine Kept.foldl _ _ ?_ (fun u a hu => ?_)
    | (intro u hu)
    | split
    | fail_if_no_progress with_reducible refine Kept.same ?_ id id id id id id id id

theorem dawnEnter_kept {z s0 : State} (hk : Kept z s0) (ins : List (Fin 64 × Int)) : Kept z (dawnEnter ins s0) := by
  unfold dawnEnter
  try dsimp only
  repeat' first
    | with_reducible assumption
    | with_reducible apply dawnStep9_kept
    | with_reducible apply inputsNow_kept
    | with_reducible apply enterDay_kept
    | with_reducible apply enterEvening_kept
    | with_reducible apply modPwr_kept
    | with_reducible apply nightRefuse_kept
    | with_reducible apply enterNight_kept
    | with_reducible apply clockStop_kept
    | with_reducible apply setCond_kept
    | (intro u hu)
    | dsimp only
    | split
    | fail_if_no_progress with_reducible refine Kept.same ?_ id id id id id id id id

theorem bankFloor_kept {z s : State} (hk : Kept z s)  : Kept z (bankFloor s) := by
  unfold bankFloor
  try dsimp only
  repeat' first
    | with_reducible assumption
    | with_reducible apply orderStop_kept
    | with_reducible apply endJob_kept
    | with_reducible apply abandonWindows_kept
    | (intro u hu)
    | split
    | with_reducible refine Kept.foldl _ _ ?_ (fun u a hu => ?_)

theorem chargeJudge_kept {z s : State} (hk : Kept z s)  : Kept z (chargeJudge s) := by
  unfold chargeJudge
  try dsimp only
  repeat' first
    | with_reducible assumption
    | with_reducible apply modPwr_kept
    | with_reducible apply faultU_kept
    | with_reducible apply setCond_kept
    | (intro u hu)
    | split

theorem winSample_kept {z s : State} (hk : Kept z s) (busMw : Nat) (inputMw : Nat) : Kept z (winSample busMw inputMw s) := by
  unfold winSample
  try dsimp only
  repeat' first
    | with_reducible assumption
    | with_reducible apply modPwr_kept

theorem commitUpdate_kept {z s : State} (hk : Kept z s)  : Kept z (commitUpdate s) := by
  unfold commitUpdate
  try dsimp only
  repeat' first
    | with_reducible assumption
    | with_reducible apply modPwr_kept
    | (intro u hu)
    | split
    | fail_if_no_progress with_reducible refine Kept.same ?_ id id id id id id id id

theorem bankUpdate_kept {z s : State} (hk : Kept z s) (uv busMw inputMw : Nat) : Kept z (bankUpdate uv busMw inputMw s) := by
  unfold bankUpdate
  try dsimp only
  repeat' first
    | with_reducible assumption
    | with_reducible apply winSample_kept
    | with_reducible apply modPwr_kept
    | with_reducible apply bankFloor_kept
    | with_reducible apply commitUpdate_kept
    | with_reducible apply jobDue_kept
    | with_reducible apply dawnStep9_kept
    | with_reducible apply chargeJudge_kept
    | (intro u hu)
    | split
    | fail_if_no_progress with_reducible refine Kept.same ?_ id id id id id id id id

theorem windowEnd_kept {z s : State} (hk : Kept z s)  : Kept z (windowEnd s) := by
  unfold windowEnd
  try dsimp only
  repeat' first
    | with_reducible assumption
    | with_reducible apply modPwr_kept
    | with_reducible apply faultU_kept
    | with_reducible apply bump_kept
    | (intro u hu)
    | dsimp only
    | split
    | fail_if_no_progress with_reducible refine Kept.same ?_ id id id id id id id id

/-! ### FaultCmd.lean -/

theorem afterRelease_kept {z s : State} (hk : Kept z s)  : Kept z (afterRelease s) := by
  unfold afterRelease
  repeat' first
    | with_reducible assumption
    | with_reducible apply jobDue_kept
    | with_reducible apply rollStart_kept
    | with_reducible refine Kept.foldl _ _ ?_ (fun u a hu => ?_)

theorem quietExit_kept {z s : State} (hk : Kept z s) (src oct : Nat) : Kept z (quietExit src oct s) := by
  unfold quietExit
  try dsimp only
  repeat' first
    | with_reducible assumption
    | with_reducible apply modScope_kept
    | with_reducible apply afterRelease_kept
    | with_reducible apply leaveSevere_kept
    | with_reducible apply bump_kept
    | (intro u hu)
    | split
    | fail_if_no_progress with_reducible refine Kept.same ?_ id id id id id id id id

theorem clearScope_kept {z : State} {x : State × BusRes} (hk : Kept z x.1) (src oct : Nat) : Kept z (clearScope src oct x).1 := by
  unfold clearScope
  split
  · exact hk
  · split
    · exact fst_kept (clearRefused_kept hk _ _)
    · exact fst_kept (afterRelease_kept (leaveSevere_kept hk _ _ _ _))

theorem foldl_clearScope_kept {z : State} (src : Nat) (l : List Nat) (x : State × BusRes) (hk : Kept z x.1) :
    Kept z (l.foldl (fun x o => clearScope src o x) x).1 := by
  induction l generalizing x with
  | nil => exact hk
  | cons o l ih => exact ih _ (clearScope_kept hk src o)

theorem faultClear_kept {z s : State} (hk : Kept z s) (val : Word) : Kept z (faultClear val s).1 := by
  unfold faultClear
  dsimp only
  split
  · exact hk
  · exact foldl_clearScope_kept _ _ _ hk

theorem faultCfg_kept {z s : State} (hk : Kept z s) (val : Word) : Kept z (faultCfg val s).1 := by
  unfold faultCfg
  try dsimp only
  repeat' first
    | with_reducible assumption
    | with_reducible apply noteRange_kept
    | with_reducible apply react_kept
    | with_reducible apply afterRelease_kept
    | split
    | with_reducible refine Kept.foldl _ _ ?_ (fun u a hu => ?_)
    | fail_if_no_progress with_reducible refine Kept.same ?_ id id id id id id id id

theorem fwdCfg_kept {z s : State} (hk : Kept z s) (val : Word) : Kept z (fwdCfg val s).1 := by
  unfold fwdCfg
  try dsimp only
  repeat' first
    | with_reducible assumption
    | with_reducible apply noteRange_kept
    | split
    | fail_if_no_progress with_reducible refine Kept.same ?_ id id id id id id id id

theorem suppressEnd_kept {z s : State} (hk : Kept z s) (src : Nat) (oct : Nat) : Kept z (suppressEnd src oct s) := by
  unfold suppressEnd
  try dsimp only
  repeat' first
    | with_reducible assumption
    | with_reducible apply modScope_kept
    | with_reducible apply scopeLog_kept
    | split

/-! ### Detach.lean -/

theorem modUsb_kept {z s : State} (hk : Kept z s) (f : Usb → Usb) : Kept z (modUsb f s) := by
  unfold modUsb
  repeat' first
    | with_reducible assumption
    | fail_if_no_progress with_reducible refine Kept.same ?_ id id id id id id id id

theorem usbCut_kept {z s : State} (hk : Kept z s) (why : Nat) (cut : Option UsbCut) : Kept z (usbCut why cut s) := by
  unfold usbCut
  repeat' first
    | with_reducible assumption
    | with_reducible apply notice_kept
    | with_reducible apply bump_kept
    | split

theorem usbEndBulk_kept {z s : State} (hk : Kept z s)  : Kept z (usbEndBulk s) := by
  unfold usbEndBulk
  repeat' first
    | with_reducible assumption
    | with_reducible apply exportEnd_kept
    | with_reducible apply modUsb_kept

theorem usbEndUpload_kept {z s : State} (hk : Kept z s)  : Kept z (usbEndUpload s) := by
  unfold usbEndUpload
  repeat' first
    | with_reducible assumption
    | with_reducible apply stageDiscard_kept
    | split

theorem usbDetach_kept {z s : State} (hk : Kept z s) (why : Nat) (dev : Nat) (cut : Option UsbCut) : Kept z (usbDetach why dev cut s) := by
  unfold usbDetach
  repeat' first
    | with_reducible assumption
    | with_reducible apply modUsb_kept
    | with_reducible apply usbEndUpload_kept
    | with_reducible apply usbEndBulk_kept
    | with_reducible apply usbCut_kept

/-! ### Bus.lean -/

theorem latch_kept {z s : State} (hk : Kept z s) (a : Nat) : Kept z (latch a s) := by
  unfold latch
  repeat' first
    | with_reducible assumption
    | split
    | fail_if_no_progress with_reducible refine Kept.same ?_ id id id id id id id id

theorem readClear_kept {z s : State} (hk : Kept z s) (a : Nat) : Kept z (readClear a s) := by
  unfold readClear
  try dsimp only
  repeat' first
    | with_reducible assumption
    | (intro u hu)
    | split
    | fail_if_no_progress with_reducible refine Kept.same ?_ id id id id id id id id

theorem busRead_kept {z s0 : State} (hk : Kept z s0) (a : Nat) : Kept z (busRead a s0).1 := by
  unfold busRead
  try dsimp only
  repeat' first
    | with_reducible assumption
    | with_reducible apply arbReady_kept
    | with_reducible apply assureLapse_kept
    | with_reducible apply readClear_kept
    | with_reducible apply latch_kept
    | (intro u hu)
    | split
    | fail_if_no_progress with_reducible refine Kept.same ?_ id id id id id id id id

theorem rwl_kept {z s : State} (hk : Kept z s) (f : State → State) (hh_f : ∀ u, Kept z u → Kept z (f u)) : Kept z (rwl s f).1 := by
  unfold rwl
  repeat' first
    | with_reducible assumption
    | with_reducible apply hh_f
    | split

theorem setReg_kept {z s : State} (hk : Kept z s) (off : Nat) (w : Word) (f : Regs → Regs) : Kept z (setReg off w f s) := by
  unfold setReg
  repeat' first
    | with_reducible assumption
    | with_reducible apply noteRange_kept
    | fail_if_no_progress with_reducible refine Kept.same ?_ id id id id id id id id

theorem portCfgWrite_kept {z s : State} (hk : Kept z s) (v : Word) : Kept z (portCfgWrite v s) := by
  unfold portCfgWrite
  try dsimp only
  repeat' first
    | with_reducible assumption
    | with_reducible apply usbDetach_kept
    | with_reducible apply usbConnect_kept
    | (intro u hu)
    | split
    | fail_if_no_progress with_reducible refine Kept.same ?_ id id id id id id id id

theorem writeId_kept {z s : State} (hk : Kept z s) (a : Nat) (v : Word) : Kept z (writeId a v s).1 := by
  unfold writeId
  repeat' first
    | with_reducible assumption
    | with_reducible apply rwl_kept
    | with_reducible apply portCfgWrite_kept
    | with_reducible apply setReg_kept
    | with_reducible apply bootRoutineWrite_kept
    | (intro u hu)
    | split
    | fail_if_no_progress with_reducible refine Kept.same ?_ id id id id id id id id

theorem writePwr_kept {z s : State} (hk : Kept z s) (a : Nat) (v : Word) : Kept z (writePwr a v s).1 := by
  unfold writePwr
  repeat' first
    | with_reducible assumption
    | with_reducible apply pwrReqWrite_kept
    | with_reducible apply rwl_kept
    | with_reducible apply setReg_kept
    | (intro u hu)
    | split
    | fail_if_no_progress with_reducible refine Kept.same ?_ id id id id id id id id

theorem ptpCfgWrite_kept {z s : State} (hk : Kept z s) (v : Word) : Kept z (ptpCfgWrite v s) := by
  unfold ptpCfgWrite
  extract_lets w keep s1
  have h1 : Kept z s1 := setReg_kept hk _ _ _
  clear_value s1
  apply reviewDiscipline_kept
  split
  · exact h1
  · exact h1.mk' id id id id id id id id id (fun _ => Nat.zero_le _) id

theorem writeClk_kept {z s : State} (hk : Kept z s) (a : Nat) (v : Word) : Kept z (writeClk a v s).1 := by
  unfold writeClk
  repeat' first
    | with_reducible assumption
    | with_reducible apply rwl_kept
    | with_reducible apply setReg_kept
    | with_reducible apply reviewDiscipline_kept
    | with_reducible apply ptpCfgWrite_kept
    | with_reducible apply timeSetWrite_kept
    | (intro u hu)
    | split
    | fail_if_no_progress with_reducible refine Kept.same ?_ id id id id id id id id

theorem writeSeq_kept {z s : State} (hk : Kept z s) (a : Nat) (v : Word) : Kept z (writeSeq a v s).1 := by
  unfold writeSeq
  repeat' first
    | with_reducible assumption
    | with_reducible apply setReg_kept
    | with_reducible apply cancelMask_kept
    | with_reducible apply sringResetWrite_kept
    | with_reducible apply rwl_kept
    | with_reducible apply segLoadWrite_kept
    | with_reducible apply segCtrlWrite_kept
    | with_reducible apply probeWrite_kept
    | (intro u hu)
    | split
    | fail_if_no_progress with_reducible refine Kept.same ?_ id id id id id id id id

theorem writeEvid_kept {z s : State} (hk : Kept z s) (a : Nat) (v : Word) : Kept z (writeEvid a v s).1 := by
  unfold writeEvid
  repeat' first
    | with_reducible assumption
    | with_reducible apply evidReleaseWrite_kept
    | split
    | fail_if_no_progress with_reducible refine Kept.same ?_ id id id id id id id id

theorem writeArb_kept {z s0 : State} (hk : Kept z s0) (a : Nat) (v : Word) : Kept z (writeArb a v s0).1 := by
  unfold writeArb
  have h0 := arbReady_kept hk
  clear hk
  generalize arbReady s0 = u0 at h0
  try dsimp only
  repeat' first
    | with_reducible assumption
    | with_reducible apply arbReady_kept
    | with_reducible apply rwl_kept
    | with_reducible apply setReg_kept
    | (intro u hu)
    | split
    | fail_if_no_progress with_reducible refine Kept.same ?_ id id id id id id id id

theorem writeSeal_kept {z s : State} (hk : Kept z s) (a : Nat) (v : Word) : Kept z (writeSeal a v s).1 := by
  unfold writeSeal
  repeat' first
    | with_reducible assumption
    | with_reducible apply rwl_kept
    | with_reducible apply setReg_kept
    | (intro u hu)
    | split

theorem fltQuietWrite_kept {z s : State} (hk : Kept z s) (v : Word) : Kept z (fltQuietWrite v s) := by
  unfold fltQuietWrite
  repeat' first
    | with_reducible assumption
    | with_reducible apply noteRange_kept
    | fail_if_no_progress with_reducible refine Kept.same ?_ id id id id id id id id

theorem writeFlt_kept {z s : State} (hk : Kept z s) (a : Nat) (v : Word) : Kept z (writeFlt a v s).1 := by
  unfold writeFlt
  repeat' first
    | with_reducible assumption
    | with_reducible apply setReg_kept
    | with_reducible apply faultCfg_kept
    | with_reducible apply fltQuietWrite_kept
    | with_reducible apply faultClear_kept
    | with_reducible apply fwdCfg_kept
    | split

theorem ringCfgWrite_kept {z s : State} (hk : Kept z s) (v : Word) : Kept z (ringCfgWrite v s) := by
  unfold ringCfgWrite
  repeat' first
    | with_reducible assumption
    | with_reducible apply ringWatch_kept
    | with_reducible apply masterSet_kept
    | split
    | fail_if_no_progress with_reducible refine Kept.same ?_ id id id id id id id id

theorem writeRing_kept {z s : State} (hk : Kept z s) (a : Nat) (v : Word) : Kept z (writeRing a v s).1 := by
  unfold writeRing
  repeat' first
    | with_reducible assumption
    | with_reducible apply rwl_kept
    | with_reducible apply ringCfgWrite_kept
    | with_reducible apply setReg_kept
    | with_reducible apply ringCmdWrite_kept
    | (intro u hu)
    | split
    | fail_if_no_progress with_reducible refine Kept.same ?_ id id id id id id id id

theorem spiCfgWrite_kept {z s : State} (hk : Kept z s) (v : Word) : Kept z (spiCfgWrite v s) := by
  unfold spiCfgWrite
  refine hk.mk' id id id id (fun g => ?_) id id id id id id
  show (if bit v 4 then s.spi.queue else []).length ≤ 64
  split
  · exact g
  · exact Nat.zero_le _

theorem writePorts_kept {z s : State} (hk : Kept z s) (a : Nat) (v : Word) : Kept z (writePorts a v s).1 := by
  unfold writePorts
  try dsimp only
  repeat' first
    | with_reducible assumption
    | with_reducible apply rwl_kept
    | with_reducible apply spiCfgWrite_kept
    | with_reducible apply setReg_kept
    | (intro u hu)
    | split
    | dsimp only
    | fail_if_no_progress with_reducible refine Kept.same ?_ id id id id id id id id

theorem writeCal_kept {z s : State} (hk : Kept z s) (a : Nat) (v : Word) : Kept z (writeCal a v s).1 := by
  unfold writeCal
  try dsimp only
  repeat' first
    | with_reducible assumption
    | with_reducible apply calReqWrite_kept
    | with_reducible apply setReg_kept
    | (intro u hu)
    | split

theorem rollReview_kept {z s : State} (hk : Kept z s) (k : Nat) : Kept z (rollReview k s) := by
  unfold rollReview
  try dsimp only
  repeat' first
    | with_reducible assumption
    | with_reducible apply rollStart_kept
    | ((with_reducible refine modOct_kept ?_ _ _ (fun _ hx => ?_)); rotate_left; exact hx)
    | (intro u hu)
    | split

theorem writeOct_kept {z s : State} (hk : Kept z s) (k : Nat) (off : Nat) (v : Word) : Kept z (writeOct k off v s).1 := by
  unfold writeOct
  try dsimp only
  repeat' first
    | with_reducible assumption
    | with_reducible apply loadCtrlWrite_kept
    | with_reducible apply noteRange_kept
    | with_reducible apply waveRegWrite_kept
    | with_reducible apply rollReview_kept
    | ((with_reducible refine modOct_kept ?_ _ _ (fun _ hx => ?_)); rotate_left; exact hx)
    | (intro u hu)
    | split

theorem writePin_kept {z s : State} (hk : Kept z s) (n : Nat) (off : Nat) (v : Word) : Kept z (writePin n off v s).1 := by
  unfold writePin
  try dsimp only
  repeat' first
    | with_reducible assumption
    | with_reducible apply noteRange_kept
    | with_reducible apply pinRegWrite_kept
    | with_reducible apply pinStatusWrite_kept
    | (intro u hu)
    | split

theorem regWrite_kept {z s : State} (hk : Kept z s) (a : Nat) (v : Word) : Kept z (regWrite a v s).1 := by
  unfold regWrite
  try dsimp only
  repeat' first
    | with_reducible assumption
    | with_reducible apply waveTabWrite_kept
    | with_reducible apply segWrite_kept
    | with_reducible apply tsetWrite_kept
    | with_reducible apply writePin_kept
    | with_reducible apply writeOct_kept
    | with_reducible apply writeId_kept
    | with_reducible apply writePwr_kept
    | with_reducible apply writeClk_kept
    | with_reducible apply writeSeq_kept
    | with_reducible apply writeEvid_kept
    | with_reducible apply writeArb_kept
    | with_reducible apply writeSeal_kept
    | with_reducible apply writeFlt_kept
    | with_reducible apply writeRing_kept
    | with_reducible apply writePorts_kept
    | with_reducible apply writeCal_kept
    | (intro u hu)
    | split

theorem busWrite_kept {z s : State} (hk : Kept z s) (a : Nat) (v : Word) : Kept z (busWrite a v s).1 := by
  unfold busWrite
  try dsimp only
  repeat' first
    | with_reducible assumption
    | with_reducible apply regWrite_kept
    | with_reducible apply assureLapse_kept
    | (intro u hu)
    | split

theorem readWords_kept {z s : State} (hk : Kept z s) (n a : Nat) : Kept z (readWords n a s).1 := by
  induction n generalizing s a with
  | zero => exact hk
  | succ n ih =>
    unfold readWords
    exact fst_kept (ih (busRead_kept hk a) (a + 4))

theorem writeWords_kept {z s : State} (hk : Kept z s) (vs : List Word) (a n : Nat) : Kept z (writeWords vs a n s).1 := by
  induction vs generalizing s a n with
  | nil => exact hk
  | cons v vs ih =>
    have h1 := regWrite_kept (assureLapse_kept hk) a v
    unfold writeWords
    extract_lets x
    split
    · exact ih h1 _ _
    · exact fst_kept h1

theorem portRead_kept {z s : State} (hk : Kept z s) (port : Port) (a : Nat) : Kept z (portRead port a s) := by
  unfold portRead
  try dsimp only
  repeat' first
    | with_reducible assumption
    | with_reducible apply answer_kept
    | with_reducible apply busRead_kept
    | (intro u hu)
    | split

/-! ### Image.lean -/

theorem applyWords_kept {z s : State} (hk : Kept z s) (r : ImgRec) : Kept z (applyWords r s) := by
  unfold applyWords
  try dsimp only
  repeat' first
    | with_reducible assumption
    | with_reducible apply regWrite_kept
    | with_reducible refine Kept.foldl _ _ ?_ (fun u a hu => ?_)
    | (intro u hu)
    | split
    | fail_if_no_progress with_reducible refine Kept.same ?_ id id id id id id id id

/-! ### Boot.lean -/

theorem logOk_nil : LogOk [] := ⟨Nat.zero_le _, fun _ h => nomatch h⟩

theorem tokenStep_kept {z s : State} (hk : Kept z s) (k : DawnKind) : Kept z (tokenStep k s) := by
  unfold tokenStep
  split
  · exact hk.mk' id id id id id id id id id id id
  · exact hk.mk' id id id (fun _ => logOk_nil) id id id id id id id
  · exact hk

theorem dawnBase_kept {z s : State} (hk : Kept z s) (k : DawnKind) (x : DawnInput) : Kept z (dawnBase k x s) := by
  unfold dawnBase
  extract_lets again
  refine hk.mk' id (fun g => ⟨g.1, rfl, rfl, rfl⟩) (fun _ => octsOk_reset) id (fun _ => ?_) (fun _ => taspOk_reset _)
    (fun _ => Nat.zero_le _) (fun g => ?_) id (fun g => ?_) (fun _ => capsOk_reset)
  · show (if again then ({} : Spi) else { disc := s.spi.disc }).queue.length ≤ 64
    split <;> exact Nat.zero_le _
  · split
    · exact Nat.zero_le _
    · exact g
  · split
    · exact g
    · exact Nat.zero_le _

theorem dawnOnset_kept {z s : State} (hk : Kept z s) (src : Nat) (detail : Nat) (holds : Bool) : Kept z (dawnOnset src detail holds s) := by
  unfold dawnOnset
  repeat' first
    | with_reducible assumption
    | with_reducible apply setCond_kept
    | with_reducible apply faultU_kept
    | split

theorem dawnRanges_kept {z s : State} (hk : Kept z s)  : Kept z (dawnRanges s) := by
  unfold dawnRanges
  repeat' first
    | with_reducible assumption
    | with_reducible apply noteRange_kept

theorem dawnOnsets_kept {z s : State} (hk : Kept z s) (k : DawnKind) : Kept z (dawnOnsets k s) := by
  unfold dawnOnsets
  try dsimp only
  repeat' first
    | with_reducible assumption
    | with_reducible apply dawnOnset_kept
    | with_reducible apply faultU_kept
    | with_reducible apply setCond_kept
    | with_reducible apply dawnRanges_kept
    | with_reducible apply fullSet_kept
    | (intro u hu)
    | split
    | fail_if_no_progress with_reducible refine Kept.same ?_ id id id id id id id id

theorem timeStart_kept {z s : State} (hk : Kept z s) (k : DawnKind) : Kept z (timeStart k s) := by
  unfold timeStart
  repeat' first
    | with_reducible assumption
    | with_reducible apply ovenBegin_kept
    | split
    | fail_if_no_progress with_reducible refine Kept.same ?_ id id id id id id id id

theorem gapRec_kept {z s : State} (hk : Kept z s) (cause : Nat) (first : Nat) (n : Nat) : Kept z (gapRec cause first n s) := by
  unfold gapRec
  repeat' first
    | with_reducible assumption
    | with_reducible apply pushUnit_kept

theorem chainRestore_kept {z s : State} (hk : Kept z s) (k : DawnKind) (mramOk : Bool) : Kept z (chainRestore k mramOk s) := by
  unfold chainRestore
  repeat' first
    | with_reducible assumption
    | split
    | fail_if_no_progress with_reducible refine Kept.same ?_ id id id id id id id id

theorem firstRecs_kept {z s : State} (hk : Kept z s) (k : DawnKind) (old : State) : Kept z (firstRecs k old s) := by
  unfold firstRecs
  repeat' first
    | with_reducible assumption
    | with_reducible apply timeStateRec_kept
    | with_reducible apply gapRec_kept
    | split

theorem chainSettle_kept {z s : State} (hk : Kept z s) (k : DawnKind) : Kept z (chainSettle k s) := by
  unfold chainSettle
  repeat' first
    | with_reducible assumption
    | with_reducible apply chainCopy_kept
    | split
    | fail_if_no_progress with_reducible refine Kept.same ?_ id id id id id id id id

theorem identStep_kept {z s : State} (hk : Kept z s) (ok : Bool) : Kept z (identStep ok s) := by
  unfold identStep
  try dsimp only
  repeat' first
    | with_reducible assumption
    | with_reducible apply ckptLoad_kept
    | with_reducible apply dawnOnset_kept
    | with_reducible apply mramViol_kept
    | (intro u hu)
    | split
    | fail_if_no_progress with_reducible refine Kept.same ?_ id id id id id id id id

theorem trimLoad_kept {z s : State} (hk : Kept z s) (data : Option (List Byte)) : Kept z (trimLoad data s) := by
  unfold trimLoad
  try dsimp only
  repeat' first
    | with_reducible assumption
    | (intro u hu)
    | (refine Kept.mk' ?_ id id (fun g => OctsOk.vmap g (fun k o ho => by repeat' (first | with_reducible exact ho | split))) id id id id id id id id)
    | split
    | fail_if_no_progress with_reducible refine Kept.same ?_ id id id id id id id id

theorem calStep_kept {z s : State} (hk : Kept z s)  : Kept z (calStep s) := by
  unfold calStep
  repeat' first
    | with_reducible assumption
    | with_reducible apply trimLoad_kept
    | fail_if_no_progress with_reducible refine Kept.same ?_ id id id id id id id id

theorem bankStat_kept {z s : State} (hk : Kept z s) (bk : Bank) (st : Nat) : Kept z (bankStat bk st s) := by
  unfold bankStat
  repeat' first
    | with_reducible assumption
    | with_reducible apply notice_kept
    | split
    | fail_if_no_progress with_reducible refine Kept.same ?_ id id id id id id id id

theorem headStep_kept {z s : State} (hk : Kept z s)  : Kept z (headStep s) := by
  unfold headStep
  repeat' first
    | with_reducible assumption
    | with_reducible apply bankStat_kept
    | fail_if_no_progress with_reducible refine Kept.same ?_ id id id id id id id id

theorem ethSend_kept {z s : State} (hk : Kept z s) (f : EthFrame) : Kept z (ethSend f s) := by
  unfold ethSend
  repeat' first
    | with_reducible assumption
    | with_reducible apply bump_kept
    | split
    | fail_if_no_progress with_reducible refine Kept.same ?_ id id id id id id id id

theorem dhcpSend_kept {z s : State} (hk : Kept z s) (type : Nat) (a : BitVec 32) : Kept z (dhcpSend type a s) := by
  unfold dhcpSend
  repeat' first
    | with_reducible assumption
    | with_reducible apply ethSend_kept

theorem ndSend_kept {z s : State} (hk : Kept z s) (type : Nat) (dst : BitVec 128) (target : BitVec 128) : Kept z (ndSend type dst target s) := by
  unfold ndSend
  repeat' first
    | with_reducible assumption
    | with_reducible apply ethSend_kept

theorem dhcpBegin_kept {z s : State} (hk : Kept z s)  : Kept z (dhcpBegin s) := by
  unfold dhcpBegin
  repeat' first
    | with_reducible assumption
    | with_reducible apply dhcpSend_kept
    | fail_if_no_progress with_reducible refine Kept.same ?_ id id id id id id id id

theorem netStart_kept {z s0 : State} (hk : Kept z s0) : Kept z (netStart s0) := by
  unfold netStart
  extract_lets s n key on' e1 t1 s1 s2 e3 s3 e4 s4 idle
  have h0 : Kept z s := dawnOnset_kept hk _ _ _
  clear_value s
  have h1 : Kept z s1 := h0.same id id id id id id id id
  have h2 : Kept z s2 := by
    clear_value s1
    unfold s2
    split
    · exact h1
    · exact notice_kept h1 _ _ _
  have h3 : Kept z s3 := by
    clear_value s2
    unfold s3
    split
    · exact dhcpBegin_kept h2
    · split
      · exact h2.same id id id id id id id id
      · exact h2
  have h4 : Kept z s4 := by
    clear_value s3
    unfold s4
    split
    · refine ndSend_kept (ndSend_kept ?_ _ _ _) _ _ _
      exact h3.same id id id id id id id id
    · exact h3
  clear_value s4 idle
  refine usbConnect_kept ?_
  split
  · exact notice_kept h4 _ _ _
  · exact h4

theorem smallWrite_kept {z s : State} (hk : Kept z s) (addr : Nat) (b : List Byte) : Kept z (smallWrite addr b s) :=
  hk.mk' (fun g => wrBytes_wf _ _ _ g) id id id id id id id id id id

theorem applyRec_kept {z s : State} (hk : Kept z s) (r : ImgRec) : Kept z (applyRec r s) := by
  unfold applyRec
  split
  · exact applyWords_kept hk _
  · exact applyWords_kept hk _
  · exact hk.mk' id (fun g => ⟨wrBytes_wf _ _ _ g.1, g.2⟩) id id id id id id id id id
  · exact hk.same id id id id id id id id
  · exact hk.same id id id id id id id id
  · exact hk.same id id id id id id id id
  · split
    · exact hk
    · exact smallWrite_kept hk _ _
  · exact hk

theorem netCopy_kept {z s : State} (hk : Kept z s) : Kept z (netCopy s) := by
  unfold netCopy
  extract_lets b
  split
  · exact hk
  · exact smallWrite_kept hk _ _

theorem octPower_kept {z s : State} (hk : Kept z s)  : Kept z (octPower s) := by
  unfold octPower
  try dsimp only
  repeat' first
    | with_reducible assumption
    | with_reducible apply notice_kept
    | split
    | fail_if_no_progress with_reducible refine Kept.same ?_ id id id id id id id id

theorem imageFault_kept {z s : State} (hk : Kept z s)  : Kept z (imageFault s) := by
  unfold imageFault
  try dsimp only
  repeat' first
    | with_reducible assumption
    | with_reducible apply setCond_kept
    | with_reducible apply faultU_kept
    | split

theorem ringBegins_kept {z s : State} (hk : Kept z s)  : Kept z (ringBegins s) := by
  unfold ringBegins
  try dsimp only
  repeat' first
    | with_reducible assumption
    | with_reducible apply toneNow_kept
    | (intro u hu)
    | split
    | fail_if_no_progress with_reducible refine Kept.same ?_ id id id id id id id id

theorem applyImage_kept {z s : State} (hk : Kept z s) (bk : Bank) (rs : List ImgRec) (keyId : Nat) : Kept z (applyImage bk rs keyId s) := by
  unfold applyImage
  try dsimp only
  repeat' first
    | with_reducible assumption
    | with_reducible apply bankStat_kept
    | with_reducible apply applyRec_kept
    | with_reducible apply setStat_kept
    | with_reducible apply octPower_kept
    | with_reducible apply netCopy_kept
    | with_reducible apply rtRecompute_kept
    | with_reducible apply ringBegins_kept
    | with_reducible apply imageFault_kept
    | with_reducible apply netStart_kept
    | (intro u hu)
    | split
    | with_reducible refine Kept.foldl _ _ ?_ (fun u a hu => ?_)
    | dsimp only
    | fail_if_no_progress with_reducible refine Kept.same ?_ id id id id id id id id

theorem maintPath_kept {z s : State} (hk : Kept z s)  : Kept z (maintPath s) := by
  unfold maintPath
  try dsimp only
  repeat' first
    | with_reducible assumption
    | with_reducible apply imageFault_kept
    | with_reducible apply netStart_kept
    | (intro u hu)
    | split
    | dsimp only
    | fail_if_no_progress with_reducible refine Kept.same ?_ id id id id id id id id

theorem nextCand_kept {z s : State} (hk : Kept z s)  : Kept z (nextCand s) := by
  unfold nextCand
  try dsimp only
  repeat' first
    | with_reducible assumption
    | with_reducible apply maintPath_kept
    | (intro u hu)
    | split
    | dsimp only
    | fail_if_no_progress with_reducible refine Kept.same ?_ id id id id id id id id

theorem bankFail_kept {z s : State} (hk : Kept z s) (bk : Bank) (st : Nat) : Kept z (bankFail bk st s) := by
  unfold bankFail
  try dsimp only
  repeat' first
    | with_reducible assumption
    | with_reducible apply nextCand_kept
    | with_reducible apply bankStat_kept

theorem closeEnd_kept {z s : State} (hk : Kept z s) (i : Nat) : Kept z (closeEnd i s) := by
  unfold closeEnd
  try dsimp only
  repeat' first
    | with_reducible assumption
    | with_reducible apply modSlot_kept
    | with_reducible apply pushUnit_kept
    | (intro u hu)
    | split
    | fail_if_no_progress with_reducible refine Kept.same ?_ id id id id id id id id

theorem dawnClose_kept {z s : State} (hk : Kept z s) (k : DawnKind) : Kept z (dawnClose k s) := by
  unfold dawnClose
  try dsimp only
  repeat' first
    | with_reducible assumption
    | with_reducible apply endJobs_kept
    | with_reducible apply exportEnd_kept
    | with_reducible apply closeEnd_kept
    | with_reducible refine Kept.foldl _ _ ?_ (fun u a hu => ?_)
    | (intro u hu)
    | split
    | fail_if_no_progress with_reducible refine Kept.same ?_ id id id id id id id id

theorem dawnNotices_kept {z s : State} (hk : Kept z s) (k : DawnKind) (x : DawnInput) (old : State) : Kept z (dawnNotices k x old s) := by
  unfold dawnNotices
  try dsimp only
  repeat' first
    | with_reducible assumption
    | with_reducible apply notice_kept
    | (intro u hu)
    | split

theorem dawnCall_kept {z s : State} (hk : Kept z s) (old : State) : Kept z (dawnCall old s) := by
  unfold dawnCall
  try dsimp only
  repeat' first
    | with_reducible assumption
    | with_reducible apply wakeCall_kept
    | (intro u hu)
    | split
    | dsimp only
    | fail_if_no_progress with_reducible refine Kept.same ?_ id id id id id id id id

theorem fullDawn_kept {z s0 : State} (hk : Kept z s0) (x : DawnInput) : Kept z (fullDawn x s0) := by
  unfold fullDawn
  try dsimp only
  repeat' first
    | with_reducible assumption
    | with_reducible apply dawnClose_kept
    | with_reducible apply dawnNotices_kept
    | with_reducible apply tokenStep_kept
    | with_reducible apply chainRestore_kept
    | with_reducible apply dawnBase_kept
    | with_reducible apply timeStart_kept
    | with_reducible apply dawnOnsets_kept
    | with_reducible apply chainSettle_kept
    | with_reducible apply identStep_kept
    | with_reducible apply calStep_kept
    | with_reducible apply dawnCall_kept
    | with_reducible apply firstRecs_kept
    | with_reducible apply nextCand_kept
    | with_reducible apply headStep_kept
    | with_reducible apply maintPath_kept
    | with_reducible apply notice_kept
    | (intro u hu)
    | split

theorem bankRead_kept {z s : State} (hk : Kept z s) (bk : Bank) (fails : List (Nat × Nat)) : Kept z (bankRead bk fails s) := by
  unfold bankRead
  try dsimp only
  repeat' first
    | with_reducible assumption
    | with_reducible apply bump_kept
    | with_reducible apply applyImage_kept
    | with_reducible apply faultU_kept
    | with_reducible apply bankFail_kept
    | (intro u hu)
    | split
    | dsimp only
    | fail_if_no_progress with_reducible refine Kept.same ?_ id id id id id id id id

theorem imgTimeout_kept {z s : State} (hk : Kept z s) (bk : Bank) (rereads : Nat) : Kept z (imgTimeout bk rereads s) := by
  unfold imgTimeout
  try dsimp only
  repeat' first
    | with_reducible assumption
    | with_reducible apply bump_kept
    | with_reducible apply bankFail_kept
    | with_reducible apply faultU_kept
    | (intro u hu)
    | split

theorem commitRequest_kept {z s0 : State} (hk : Kept z s0) : Kept z (commitRequest s0).1 := by
  unfold commitRequest
  have h := mramSettle_kept hk
  generalize mramSettle s0 = s at h
  extract_lets c tgt
  split
  · exact h.mk' (fun g => wrBytes_wf _ _ _ g) id id id id id id id id id id
  · split
    · exact h.same id id id id id id id id
    · exact h.same id id id id id id id id

end Sys2Proof.Machine
end

