-- ==== Sys2Proof/Laws/KeptPorts.lean ====
section
/-!
SUPPORT. KeptPorts.lean: what is kept (Kept.lean) by the host ports and the firmware watchdog.
-/

set_option Elab.async false
set_option linter.unreachableTactic false
set_option linter.unusedTactic false

namespace Sys2Proof.Machine

open Sys2Proof

/-! ### Serve.lean -/

theorem freeWords_kept {z s : State} (hk : Kept z s) (n : Nat) : Kept z (freeWords n s).1 := by
  induction n generalizing s with
  | zero => exact hk
  | succ n ih =>
    unfold freeWords
    exact fst_kept (ih (drawFree_kept hk))

theorem svcRegRead_kept {z s : State} (hk : Kept z s) (a : Nat) (n : Nat) : Kept z (svcRegRead a n s).1 := by
  unfold svcRegRead
  repeat' first
    | with_reducible assumption
    | with_reducible apply readWords_kept
    | split

theorem svcRegWrite_kept {z s : State} (hk : Kept z s) (a : Nat) (vs : List Word) : Kept z (svcRegWrite a vs s).1 := by
  unfold svcRegWrite
  repeat' first
    | with_reducible assumption
    | with_reducible apply writeWords_kept
    | split

theorem gapNote_kept {z s : State} (hk : Kept z s) (r : Nat) : Kept z (gapNote r s) := by
  unfold gapNote
  try dsimp only
  repeat' first
    | with_reducible assumption
    | with_reducible apply bump_kept
    | with_reducible apply ethSend_kept
    | split
    | fail_if_no_progress with_reducible refine Kept.same ?_ id id id id id id id id

theorem gapBegin_kept {z s : State} (hk : Kept z s) (r : Nat) (origin : Option Nat) : Kept z (gapBegin r origin s) := by
  unfold gapBegin
  try dsimp only
  repeat' first
    | with_reducible assumption
    | with_reducible apply gapNote_kept
    | split
    | fail_if_no_progress with_reducible refine Kept.same ?_ id id id id id id id id

theorem streamPiece_kept {z s : State} (hk : Kept z s) (r n : Nat) (bytes : List Byte) (origin : Option Nat) : Kept z (streamPiece r n bytes origin s).1 := by
  unfold streamPiece
  try dsimp only
  repeat' first
    | with_reducible assumption
    | with_reducible apply bump_kept
    | with_reducible apply gapBegin_kept
    | (intro u hu)
    | split
    | fail_if_no_progress with_reducible refine Kept.same ?_ id id id id id id id id

theorem svcExport_kept {z s : State} (hk : Kept z s) (first : Nat) (cnt : Nat) : Kept z (svcExport first cnt s).1 := by
  unfold svcExport
  try dsimp only
  repeat' first
    | with_reducible assumption
    | with_reducible apply exportCount_kept
    | split

/-! ### Spi.lean -/

theorem modSpi_kept {s0 s : State} (hk : Kept s0 s) (f : Spi → Spi)
    (hf : ∀ r, r.queue.length ≤ 64 → (f r).queue.length ≤ 64) : Kept s0 (modSpi f s) :=
  hk.mk' id id id id (hf _) id id id id id id

theorem hpresChange_kept {z s : State} (hk : Kept z s) (high : Bool) : Kept z (hpresChange high s) := by
  unfold hpresChange
  try dsimp only
  repeat' first
    | with_reducible assumption
    | with_reducible apply spiHandover_kept
    | (intro u hu)
    | split
    | fail_if_no_progress with_reducible refine Kept.same ?_ id id id id id id id id

theorem spiViol_kept {z s : State} (hk : Kept z s) (code : Nat) (value : Nat) : Kept z (spiViol code value s) := by
  unfold spiViol
  repeat' first
    | with_reducible assumption
    | with_reducible apply fault_kept
    | ((with_reducible refine modSpi_kept ?_ _ (fun _ hx => ?_)); rotate_left; exact hx)

theorem spiBegin_kept {z s : State} (hk : Kept z s) (f : SpiFrame) (content : List Word) : Kept z (spiBegin f content s) := by
  unfold spiBegin
  repeat' first
    | with_reducible assumption
    | with_reducible apply spiViol_kept
    | with_reducible apply bump_kept
    | ((with_reducible refine modSpi_kept ?_ _ (fun _ hx => ?_)); rotate_left; exact hx)
    | split

theorem spiDiscard_kept {z s : State} (hk : Kept z s)  : Kept z (spiDiscard s) := by
  unfold spiDiscard
  repeat' first
    | with_reducible assumption
    | with_reducible apply bump_kept
    | ((with_reducible refine modSpi_kept ?_ _ (fun _ hx => ?_)); rotate_left; exact hx)

theorem spiPlace_kept {z s : State} (hk : Kept z s) (op : Nat) (result : Nat) (tag : Nat) (body : List Word) : Kept z (spiPlace op result tag body s) := by
  unfold spiPlace
  repeat' first
    | with_reducible assumption
    | ((with_reducible refine modSpi_kept ?_ _ (fun _ hx => ?_)); rotate_left; exact hx)

theorem spiRefBody_kept {z s : State} (hk : Kept z s) (op : Nat) (code : Nat) (body : List Word) : Kept z (spiRefBody op code body s).1 := by
  unfold spiRefBody
  repeat' first
    | with_reducible assumption
    | with_reducible apply freeWords_kept
    | split

theorem spiRefuse_kept {z s : State} (hk : Kept z s) (c : SpiCmd) (result : Nat) : Kept z (spiRefuse c result s) := by
  unfold spiRefuse
  repeat' first
    | with_reducible assumption
    | with_reducible apply spiPlace_kept
    | with_reducible apply freeWords_kept
    | with_reducible apply spiRefBody_kept
    | split

theorem spiUnknown_kept {z s : State} (hk : Kept z s)  : Kept z (spiUnknown s) := by
  unfold spiUnknown
  repeat' first
    | with_reducible assumption
    | with_reducible apply spiRefuse_kept
    | split

theorem spiStore_kept {z s : State} (hk : Kept z s) (ws : List Word) : Kept z (spiStore ws s) := by
  unfold spiStore
  repeat' first
    | with_reducible assumption
    | with_reducible apply spiViol_kept
    | with_reducible apply bump_kept
    | with_reducible apply spiUnknown_kept
    | ((with_reducible refine modSpi_kept ?_ _ (fun _ hx => ?_)); rotate_left; exact hx)
    | split

theorem spiCommand_kept {z s : State} (hk : Kept z s) (f : SpiFrame) : Kept z (spiCommand f s) := by
  unfold spiCommand
  repeat' first
    | with_reducible assumption
    | with_reducible apply spiViol_kept
    | with_reducible apply spiDiscard_kept
    | with_reducible apply spiStore_kept
    | split

theorem spiExpNext_kept {z s : State} (hk : Kept z s)  : Kept z (spiExpNext s) := by
  unfold spiExpNext
  repeat' first
    | with_reducible assumption
    | with_reducible apply exportEnd_kept
    | with_reducible apply spiPlace_kept
    | ((with_reducible refine modSpi_kept ?_ _ (fun _ hx => ?_)); rotate_left; exact hx)
    | split

theorem spiAbort_kept {z s : State} (hk : Kept z s)  : Kept z (spiAbort s) := by
  unfold spiAbort
  repeat' first
    | with_reducible assumption
    | with_reducible apply exportEnd_kept
    | ((with_reducible refine modSpi_kept ?_ _ (fun _ hx => ?_)); rotate_left; exact hx)

theorem spiServe_kept {z s : State} (hk : Kept z s) (op : Nat) (f : List Word → State → State × Nat × List Word) (hh_f : ∀ v0 u, Kept z u → Kept z (f v0 u).1) : Kept z (spiServe op f s) := by
  unfold spiServe
  try dsimp only
  repeat' first
    | with_reducible assumption
    | with_reducible apply hh_f
    | with_reducible apply spiRefuse_kept
    | with_reducible apply spiPlace_kept
    | split

theorem spiPiece_kept {z s : State} (hk : Kept z s) (b : List Word) : Kept z (spiPiece b s).1 := by
  unfold spiPiece
  repeat' first
    | with_reducible assumption
    | with_reducible apply streamPiece_kept

theorem spiSubmit_kept {z s : State} (hk : Kept z s) (b : List Word) : Kept z (spiSubmit b s).1 := by
  unfold spiSubmit
  try dsimp only
  repeat' first
    | with_reducible assumption
    | with_reducible apply submit_kept
    | split

theorem spiExpOpen_kept {z s : State} (hk : Kept z s) (tag : Nat) (first : Nat) (n : Nat) : Kept z (spiExpOpen tag first n s) := by
  unfold spiExpOpen
  repeat' first
    | with_reducible assumption
    | with_reducible apply exportBegin_kept
    | ((with_reducible refine modSpi_kept ?_ _ (fun _ hx => ?_)); rotate_left; exact hx)
    | split

theorem spiExport_kept {z s : State} (hk : Kept z s) (tag : Nat) (b : List Word) : Kept z (spiExport tag b s).1 := by
  have h1 := svcExport_kept hk (dAt b 0) (wAt b 2)
  unfold spiExport
  refine fst_kept ?_
  split
  · exact h1
  · exact spiExpOpen_kept h1 _ _ _

/-! ### Usb.lean -/

theorem usbReset_kept {z s : State} (hk : Kept z s) (high : Bool) (cut : Option UsbCut) : Kept z (usbReset high cut s) := by
  unfold usbReset
  repeat' first
    | with_reducible assumption
    | with_reducible apply bump_kept
    | with_reducible apply modUsb_kept
    | with_reducible apply usbDetach_kept
    | split

theorem vbusLoss_kept {z s : State} (hk : Kept z s) (cut : Option UsbCut) : Kept z (vbusLoss cut s) := by
  unfold vbusLoss
  repeat' first
    | with_reducible assumption
    | with_reducible apply usbDetach_kept
    | split
    | fail_if_no_progress with_reducible refine Kept.same ?_ id id id id id id id id

theorem usbViol_kept {z s : State} (hk : Kept z s) (req : Nat) (ws : List Nat) : Kept z (usbViol req ws s) := by
  unfold usbViol
  repeat' first
    | with_reducible assumption
    | with_reducible apply fault_kept

theorem usbStall_kept {z s : State} (hk : Kept z s)  : Kept z (usbStall s) := by
  unfold usbStall
  repeat' first
    | with_reducible assumption
    | with_reducible apply bump_kept
    | with_reducible apply modUsb_kept

theorem usbStd_kept {z s : State} (hk : Kept z s) (u : UsbSetup) (f : State → Option (State × List Byte))
    (hf : ∀ v, Kept z v → ∀ r, f v = some r → Kept z r.1) : Kept z (usbStd u f s) := by
  unfold usbStd
  extract_lets s1
  have h1 : Kept z s1 := usbCut_kept hk _ _
  clear_value s1
  split
  · split
    · exact usbStall_kept h1
    · rename_i r hr
      exact modUsb_kept (hf _ h1 _ hr) _
  · exact hk

theorem stdGetStatus_kept {z s : State} (hk : Kept z s) (u : UsbSetup) : ∀ r, stdGetStatus u s = some r → Kept z r.1 := by
  intro r hr
  unfold stdGetStatus at hr
  try dsimp only at hr
  repeat' (split at hr)
  all_goals first
    | skip
  all_goals cases hr
  repeat' first
    | with_reducible assumption

theorem setHalt_kept {z s : State} (hk : Kept z s) (ep : Nat) (v : Bool) : Kept z (setHalt ep v s) := by
  unfold setHalt
  repeat' first
    | with_reducible assumption
    | with_reducible apply modUsb_kept

theorem stdClearFeature_kept {z s : State} (hk : Kept z s) (u : UsbSetup) : ∀ r, stdClearFeature u s = some r → Kept z r.1 := by
  intro r hr
  unfold stdClearFeature at hr
  try dsimp only at hr
  repeat' (split at hr)
  all_goals first
    | skip
  all_goals cases hr
  repeat' first
    | with_reducible assumption
    | with_reducible apply setHalt_kept

theorem stdSetFeature_kept {z s : State} (hk : Kept z s) (u : UsbSetup) : ∀ r, stdSetFeature u s = some r → Kept z r.1 := by
  intro r hr
  unfold stdSetFeature at hr
  try dsimp only at hr
  repeat' (split at hr)
  all_goals first
    | skip
  all_goals cases hr
  repeat' first
    | with_reducible assumption
    | with_reducible apply setHalt_kept
    | with_reducible apply modUsb_kept

theorem stdSetAddress_kept {z s : State} (hk : Kept z s) (u : UsbSetup) : ∀ r, stdSetAddress u s = some r → Kept z r.1 := by
  intro r hr
  unfold stdSetAddress at hr
  try dsimp only at hr
  repeat' (split at hr)
  all_goals first
    | skip
  all_goals cases hr
  repeat' first
    | with_reducible assumption
    | with_reducible apply modUsb_kept

theorem stdGetDescriptor_kept {z s : State} (hk : Kept z s) (u : UsbSetup) : ∀ r, stdGetDescriptor u s = some r → Kept z r.1 := by
  intro r hr
  unfold stdGetDescriptor at hr
  repeat' (split at hr)
  all_goals first
    | (cases hr; done)
    | (obtain ⟨d, _, rfl⟩ := Option.map_eq_some_iff.mp hr; exact hk)

theorem stdGetConfiguration_kept {z s : State} (hk : Kept z s) (u : UsbSetup) : ∀ r, stdGetConfiguration u s = some r → Kept z r.1 := by
  intro r hr
  unfold stdGetConfiguration at hr
  try dsimp only at hr
  repeat' (split at hr)
  all_goals first
    | skip
  all_goals cases hr
  repeat' first
    | with_reducible assumption

theorem stdSetConfiguration_kept {z s : State} (hk : Kept z s) (u : UsbSetup) : ∀ r, stdSetConfiguration u s = some r → Kept z r.1 := by
  intro r hr
  unfold stdSetConfiguration at hr
  try dsimp only at hr
  repeat' (split at hr)
  all_goals first
    | skip
  all_goals cases hr
  repeat' first
    | with_reducible assumption
    | with_reducible apply modUsb_kept

theorem stdGetInterface_kept {z s : State} (hk : Kept z s) (u : UsbSetup) : ∀ r, stdGetInterface u s = some r → Kept z r.1 := by
  intro r hr
  unfold stdGetInterface at hr
  try dsimp only at hr
  repeat' (split at hr)
  all_goals first
    | skip
  all_goals cases hr
  repeat' first
    | with_reducible assumption

theorem stdSetInterface_kept {z s : State} (hk : Kept z s) (u : UsbSetup) : ∀ r, stdSetInterface u s = some r → Kept z r.1 := by
  intro r hr
  unfold stdSetInterface at hr
  try dsimp only at hr
  repeat' (split at hr)
  all_goals first
    | skip
  all_goals cases hr
  repeat' first
    | with_reducible assumption
    | with_reducible apply modUsb_kept

theorem usbResult_kept {z s : State} (hk : Kept z s) (req : Nat) (code : Nat) (cd : Nat) (value : Nat) : Kept z (usbResult req code cd value s) := by
  unfold usbResult
  repeat' first
    | with_reducible assumption
    | with_reducible apply modUsb_kept

theorem usbVendor_kept {z s : State} (hk : Kept z s) (req : Nat) (u : UsbSetup) (head : Bool) (lenOk : Bool) (f : State → State × UsbAns) (hh_f : ∀  u, Kept z u → Kept z (f  u).1) : Kept z (usbVendor req u head lenOk f s) := by
  unfold usbVendor
  try dsimp only
  repeat' first
    | with_reducible assumption
    | with_reducible apply hh_f
    | with_reducible apply usbCut_kept
    | with_reducible apply usbResult_kept
    | with_reducible apply usbStall_kept
    | with_reducible apply modUsb_kept
    | with_reducible apply usbViol_kept
    | split

theorem usbOut_kept {z s : State} (hk : Kept z s) (u : UsbSetup) (data : List Byte) (f : State → State × UsbAns) (hh_f : ∀  u, Kept z u → Kept z (f  u).1) : Kept z (usbOut u data f s).1 := by
  unfold usbOut
  repeat' first
    | with_reducible assumption
    | with_reducible apply hh_f
    | split

theorem readList_kept {z s : State} (hk : Kept z s) (l : List Nat) : Kept z (readList l s).1 := by
  induction l generalizing s with
  | nil => exact hk
  | cons a l ih =>
    unfold readList
    exact fst_kept (ih (busRead_kept hk a))

theorem usbInfo_kept {z s : State} (hk : Kept z s)  : Kept z (usbInfo s).1 := by
  unfold usbInfo
  repeat' first
    | with_reducible assumption
    | with_reducible apply readList_kept

theorem usbReadRegs_kept {z s : State} (hk : Kept z s) (u : UsbSetup) : Kept z (usbReadRegs u s).1 := by
  unfold usbReadRegs
  repeat' first
    | with_reducible assumption
    | with_reducible apply svcRegRead_kept

theorem usbWriteRegs_kept {z s : State} (hk : Kept z s) (u : UsbSetup) (data : List Byte) : Kept z (usbWriteRegs u data s).1 := by
  unfold usbWriteRegs
  repeat' first
    | with_reducible assumption
    | with_reducible apply svcRegWrite_kept

theorem bulkOpen_kept {z s : State} (hk : Kept z s) (kind : Nat) (bytes : List Byte) : Kept z (bulkOpen kind bytes s) := by
  unfold bulkOpen
  repeat' first
    | with_reducible assumption
    | with_reducible apply modUsb_kept

theorem usbExport_kept {z s : State} (hk : Kept z s) (data : List Byte) : Kept z (usbExport data s).1 := by
  unfold usbExport
  repeat' first
    | with_reducible assumption
    | with_reducible apply svcExport_kept
    | with_reducible apply exportBegin_kept
    | with_reducible apply bulkOpen_kept
    | split

theorem usbLog_kept {z s : State} (hk : Kept z s) (data : List Byte) : Kept z (usbLog data s).1 := by
  unfold usbLog
  try dsimp only
  repeat' first
    | with_reducible assumption
    | with_reducible apply bulkOpen_kept
    | split

theorem usbDebug_kept {z s : State} (hk : Kept z s) (data : List Byte) : Kept z (usbDebug data s).1 := by
  unfold usbDebug
  try dsimp only
  repeat' first
    | with_reducible assumption
    | with_reducible apply dbgRaise_kept
    | with_reducible apply arbReady_kept
    | with_reducible apply bulkOpen_kept
    | (intro u hu)
    | split
    | fail_if_no_progress with_reducible refine Kept.same ?_ id id id id id id id id

theorem bulkAbort_kept {z s : State} (hk : Kept z s)  : Kept z (bulkAbort s) := by
  unfold bulkAbort
  repeat' first
    | with_reducible assumption
    | with_reducible apply modUsb_kept

theorem uploadOpen_kept {z s : State} (hk : Kept z s) (len : Nat) : Kept z (uploadOpen len s) := by
  unfold uploadOpen
  repeat' first
    | with_reducible assumption
    | with_reducible apply stageDiscard_kept
    | fail_if_no_progress with_reducible refine Kept.same ?_ id id id id id id id id

theorem stageAppend_kept {z s : State} (hk : Kept z s) (bs : List Byte) : Kept z (stageAppend bs s) := by
  unfold stageAppend
  repeat' first
    | with_reducible assumption
    | fail_if_no_progress with_reducible refine Kept.same ?_ id id id id id id id id

theorem usbUpload_kept {z s : State} (hk : Kept z s) (data : List Byte) : Kept z (usbUpload data s).1 := by
  unfold usbUpload
  try dsimp only
  repeat' first
    | with_reducible assumption
    | with_reducible apply modUsb_kept
    | with_reducible apply uploadOpen_kept
    | split

theorem usbCommit_kept {z s : State} (hk : Kept z s)  : Kept z (usbCommit s).1 := by
  unfold usbCommit
  try dsimp only
  repeat' first
    | with_reducible assumption
    | with_reducible apply commitRequest_kept
    | with_reducible apply modUsb_kept
    | split
    | fail_if_no_progress with_reducible refine Kept.same ?_ id id id id id id id id

theorem bulkOutHalt_kept {z s : State} (hk : Kept z s) (len : Nat) : Kept z (bulkOutHalt len s) := by
  unfold bulkOutHalt
  repeat' first
    | with_reducible assumption
    | with_reducible apply usbViol_kept
    | with_reducible apply bump_kept
    | with_reducible apply modUsb_kept

theorem bulkOut_kept {z s : State} (hk : Kept z s) (data : List Byte) : Kept z (bulkOut data s) := by
  unfold bulkOut
  try dsimp only
  repeat' first
    | with_reducible assumption
    | with_reducible apply stageAppend_kept
    | with_reducible apply modUsb_kept
    | with_reducible apply bulkOutHalt_kept
    | split

theorem bulkIn_kept {z s : State} (hk : Kept z s)  : Kept z (bulkIn s) := by
  unfold bulkIn
  try dsimp only
  repeat' first
    | with_reducible assumption
    | with_reducible apply modUsb_kept
    | with_reducible apply usbEndBulk_kept
    | split

theorem streamTimeout_kept {z s : State} (hk : Kept z s)  : Kept z (streamTimeout s) := by
  unfold streamTimeout
  repeat' first
    | with_reducible assumption
    | with_reducible apply usbViol_kept
    | with_reducible apply bump_kept
    | with_reducible apply usbEndBulk_kept
    | split

theorem uploadTimeout_kept {z s : State} (hk : Kept z s)  : Kept z (uploadTimeout s) := by
  unfold uploadTimeout
  try dsimp only
  repeat' first
    | with_reducible assumption
    | with_reducible apply usbViol_kept
    | with_reducible apply bump_kept
    | with_reducible apply usbEndUpload_kept
    | (intro u hu)
    | split

/-! ### Eth.lean -/

theorem modEth_kept {s0 s : State} (hk : Kept s0 s) (f : Eth → Eth)
    (hf : ∀ r, r.arp.length ≤ 16 → (f r).arp.length ≤ 16) : Kept s0 (modEth f s) :=
  hk.mk' id id id id id id (hf _) id id id id

theorem ethCmd_kept {z s : State} (hk : Kept z s) (f : State → State) (hh_f : ∀ u, Kept z u → Kept z (f u)) : Kept z (ethCmd f s) := by
  unfold ethCmd
  repeat' first
    | with_reducible assumption
    | with_reducible apply hh_f
    | ((with_reducible refine modEth_kept ?_ _ (fun _ hx => ?_)); rotate_left; exact hx)

theorem rxErr_kept {z s : State} (hk : Kept z s)  : Kept z (rxErr s) := by
  unfold rxErr
  repeat' first
    | with_reducible assumption
    | with_reducible apply bump_kept

theorem linkUp_kept {z s : State} (hk : Kept z s)  : Kept z (linkUp s) := by
  unfold linkUp
  repeat' first
    | with_reducible assumption
    | with_reducible apply setCond_kept
    | ((with_reducible refine modEth_kept ?_ _ (fun _ hx => ?_)); rotate_left; exact hx)
    | split

theorem linkDown_kept {z s : State} (hk : Kept z s)  : Kept z (linkDown s) := by
  unfold linkDown
  repeat' first
    | with_reducible assumption
    | with_reducible apply setCond_kept
    | with_reducible apply faultU_kept
    | ((with_reducible refine modEth_kept ?_ _ (fun _ hx => ?_)); rotate_left; exact hx)
    | split

theorem dhcpRestart_kept {z s : State} (hk : Kept z s)  : Kept z (dhcpRestart s) := by
  unfold dhcpRestart
  repeat' first
    | with_reducible assumption
    | with_reducible apply dhcpBegin_kept
    | with_reducible apply notice_kept
    | split

theorem dhcpIn_kept {z s : State} (hk : Kept z s) (m : DhcpMsg) : Kept z (dhcpIn m s) := by
  unfold dhcpIn
  repeat' first
    | with_reducible assumption
    | with_reducible apply dhcpSend_kept
    | with_reducible apply dhcpRestart_kept
    | ((with_reducible refine modEth_kept ?_ _ (fun _ hx => ?_)); rotate_left; exact hx)
    | split

theorem dhcpRetry_kept {z s : State} (hk : Kept z s) (type : Nat) (a : BitVec 32) : Kept z (dhcpRetry type a s) := by
  unfold dhcpRetry
  repeat' first
    | with_reducible assumption
    | with_reducible apply dhcpSend_kept
    | ((with_reducible refine modEth_kept ?_ _ (fun _ hx => ?_)); rotate_left; exact hx)

theorem dhcpRenew_kept {z s : State} (hk : Kept z s) (st : Nat) (limit : Instant) : Kept z (dhcpRenew st limit s) := by
  unfold dhcpRenew
  repeat' first
    | with_reducible assumption
    | with_reducible apply dhcpSend_kept
    | ((with_reducible refine modEth_kept ?_ _ (fun _ hx => ?_)); rotate_left; exact hx)

theorem dhcpTick_kept {z s : State} (hk : Kept z s)  : Kept z (dhcpTick s) := by
  unfold dhcpTick
  try dsimp only
  repeat' first
    | with_reducible assumption
    | with_reducible apply dhcpRetry_kept
    | with_reducible apply dhcpBegin_kept
    | with_reducible apply dhcpRenew_kept
    | with_reducible apply dhcpRestart_kept
    | split

theorem arpIn_kept {z s : State} (hk : Kept z s) (senderIp targetIp : BitVec 32) (mac : BitVec 48) :
    Kept z (arpIn senderIp targetIp mac s) := by
  unfold arpIn
  split
  · apply ethSend_kept
    split
    · exact hk
    · refine modEth_kept hk _ (fun e he => ?_)
      show (arpPut senderIp mac s.now e.arp).length ≤ 16
      unfold arpPut
      have h1 := List.length_filter_le (fun x => x.1 != senderIp) e.arp
      simp only [List.length_append, List.length_drop, List.length_cons, List.length_nil]
      omega
  · exact hk

theorem routerAdv_kept {z s : State} (hk : Kept z s) (prefix64 : BitVec 64) (aFlag : Bool) : Kept z (routerAdv prefix64 aFlag s) := by
  unfold routerAdv
  try dsimp only
  repeat' first
    | with_reducible assumption
    | with_reducible apply ndSend_kept
    | ((with_reducible refine modEth_kept ?_ _ (fun _ hx => ?_)); rotate_left; exact hx)
    | split

theorem dadDone_kept {z s : State} (hk : Kept z s) (a : BitVec 128) (duplicate : Bool) : Kept z (dadDone a duplicate s) := by
  unfold dadDone
  repeat' first
    | with_reducible assumption
    | with_reducible apply notice_kept
    | ((with_reducible refine modEth_kept ?_ _ (fun _ hx => ?_)); rotate_left; exact hx)
    | split

theorem neighbour_kept {z s : State} (hk : Kept z s) (solicit : Bool) (target : BitVec 128) (src : BitVec 128) : Kept z (neighbour solicit target src s) := by
  unfold neighbour
  repeat' first
    | with_reducible assumption
    | with_reducible apply ndSend_kept
    | split

theorem echoIn_kept {z s : State} (hk : Kept z s) (v6 : Bool) (src : BitVec 128) (dst : BitVec 128) (payload : List Byte) : Kept z (echoIn v6 src dst payload s) := by
  unfold echoIn
  repeat' first
    | with_reducible assumption
    | with_reducible apply ethSend_kept
    | with_reducible apply rxErr_kept
    | split

theorem dropped_kept {z s : State} (hk : Kept z s) (f : DroppedFrame) : Kept z (dropped f s) := by
  unfold dropped
  repeat' first
    | with_reducible assumption
    | with_reducible apply rxErr_kept
    | split

theorem groupQuery_kept {z s : State} (hk : Kept z s) (v6 : Bool) (group : BitVec 128) : Kept z (groupQuery v6 group s) := by
  unfold groupQuery
  repeat' first
    | with_reducible assumption
    | with_reducible apply ethSend_kept
    | split

/-! ### Tasp.lean -/

theorem modTasp_kept {s0 s : State} (hk : Kept s0 s) (f : Tasp → Tasp)
    (hf : ∀ r, TaspOk r → TaspOk (f r)) : Kept s0 (modTasp f s) :=
  hk.mk' id id id id id (hf _) id id id id id

theorem modSess_kept {z s : State} (hk : Kept z s) (i : Nat) (f : Sess → Sess)
    (hf : ∀ x, x.notes.length ≤ 256 → (f x).notes.length ≤ 256) : Kept z (modSess i f s) := by
  refine modTasp_kept hk _ (fun p hp => ⟨hp.1, hp.2.1, TaspOk.setSess hp i _ (fun x hx => ?_)⟩)
  obtain ⟨y, hy, rfl⟩ := Option.map_eq_some_iff.mp hx
  exact hf y (hp.2.2 i y hy)

theorem taspSend_kept {z s : State} (hk : Kept z s) (dst : NetAddr) (d : List Byte) : Kept z (taspSend dst d s) := by
  unfold taspSend
  repeat' first
    | with_reducible assumption
    | with_reducible apply ethSend_kept

theorem taspViol_kept {z s : State} (hk : Kept z s) (code value : Nat) (src : NetAddr) : Kept z (taspViol code value src s) := by
  unfold taspViol
  apply fault_kept
  exact modTasp_kept hk _ (fun _ h => ⟨h.1, h.2.1, h.2.2⟩)

theorem taspAuthFail_kept {z s : State} (hk : Kept z s) (code : Nat) (src : NetAddr) : Kept z (taspAuthFail code src s) := by
  unfold taspAuthFail
  repeat' first
    | with_reducible assumption
    | with_reducible apply fault_kept
    | with_reducible apply bump_kept

theorem taspAnswer_kept {z s : State} (hk : Kept z s) (op : Nat) (q : TaspReq) (result : Nat) (body : List Byte) : Kept z (taspAnswer op q result body s) := by
  unfold taspAnswer
  repeat' first
    | with_reducible assumption
    | with_reducible apply taspSend_kept
    | ((with_reducible refine modSess_kept ?_ _ _ (fun _ hx => ?_)); rotate_left; exact hx)
    | split

theorem freeBytes_kept {z s : State} (hk : Kept z s) (n : Nat) : Kept z (freeBytes n s).1 := by
  unfold freeBytes
  repeat' first
    | with_reducible assumption
    | with_reducible apply freeWords_kept

theorem taspRefBody_kept {z s : State} (hk : Kept z s) (op : Nat) : Kept z (taspRefBody op s).1 := by
  unfold taspRefBody
  repeat' first
    | with_reducible assumption
    | with_reducible apply freeBytes_kept
    | split

theorem taspRefuse_kept {z s : State} (hk : Kept z s) (op : Nat) (q : TaspReq) (result : Nat) : Kept z (taspRefuse op q result s) := by
  unfold taspRefuse
  repeat' first
    | with_reducible assumption
    | with_reducible apply taspRefBody_kept
    | with_reducible apply taspAnswer_kept

def TaspDoKept (d : TaspDo) : Prop := ∀ (z s : State) (q : TaspReq), Kept z s → Kept z (d q s).1

theorem doRegRead_kept : TaspDoKept doRegRead := fun _ _ _ hk => fst_kept (svcRegRead_kept hk _ _)

theorem doRegWrite_kept : TaspDoKept doRegWrite := fun _ _ _ hk => fst_kept (svcRegWrite_kept hk _ _)

theorem doVstoreWrite_kept : TaspDoKept doVstoreWrite := fun _ _ _ hk => fst_kept (vstoreWrite_kept hk _ _)

theorem doStreamPiece_kept : TaspDoKept doStreamPiece := fun _ _ _ hk => fst_kept (streamPiece_kept hk _ _ _ _)

theorem doJobSubmit_kept : TaspDoKept doJobSubmit := by
  intro z s q hk
  unfold doJobSubmit
  extract_lets r tag v
  have h1 : Kept z r.1 := submit_kept hk _ _ _
  clear_value r
  split
  · exact fst_kept h1
  · exact fst_kept (freeBytes_kept h1 _)

theorem doJobCancel_kept : TaspDoKept doJobCancel := fun _ _ _ hk => fst_kept (cancelMask_kept hk _)

theorem doRingTrig_kept : TaspDoKept doRingTrig := by
  intro z s q hk
  unfold doRingTrig
  extract_lets trig run
  split
  · exact fst_kept (freeBytes_kept hk _)
  · exact fst_kept (ringCmd_kept hk _ (fun u hu => trigOriginate_kept hu _ _ _ _))

theorem doExport_kept {z s : State} (hk : Kept z s) (q : TaspReq) : Kept z (doExport q s) := by
  unfold doExport
  repeat' first
    | with_reducible assumption
    | with_reducible apply svcExport_kept
    | with_reducible apply taspAnswer_kept
    | with_reducible refine Kept.foldl _ _ ?_ (fun u a hu => ?_)

theorem doRelease_kept : TaspDoKept doRelease := fun _ _ _ hk => fst_kept (release_kept hk _)

theorem doOpen_kept : TaspDoKept doOpen := by
  intro z s q hk
  unfold doOpen
  extract_lets tail nonce same num
  clear_value tail nonce same
  split
  · exact fst_kept (modSess_kept hk _ _ (fun _ h => h))
  · split
    · exact fst_kept (taspRefBody_kept hk _)
    · exact fst_kept (modTasp_kept hk _ (fun p hp => ⟨hp.1, hp.2.1, TaspOk.setSess hp _ _ (fun x hx => by cases hx; exact Nat.zero_le _)⟩))

theorem closeSess_kept {z s : State} (hk : Kept z s) (num : Nat) : Kept z (closeSess num s) := by
  unfold closeSess
  split
  · exact hk
  · exact modTasp_kept hk _ (fun p hp => ⟨hp.1, hp.2.1, TaspOk.setSess hp _ _ (fun x hx => by cases hx)⟩)

theorem doNoteSub_kept : TaspDoKept doNoteSub := by
  intro z s q hk
  unfold doNoteSub
  extract_lets en
  split
  · exact fst_kept hk
  · exact fst_kept (modSess_kept hk _ _ (fun _ h => h))

theorem doNoteResend_kept : TaspDoKept doNoteResend := by
  intro z s q hk
  unfold doNoteResend
  split
  · exact fst_kept hk
  · extract_lets start
    split
    · exact fst_kept (freeBytes_kept hk _)
    · exact fst_kept (Kept.foldl _ _ hk (fun u a hu => taspSend_kept hu _ _))

theorem doUploadBegin_kept : TaspDoKept doUploadBegin := fun _ _ _ hk =>
  fst_kept (modTasp_kept (uploadOpen_kept hk _) _ (fun _ h => ⟨h.1, h.2.1, h.2.2⟩))

theorem doUploadData_kept : TaspDoKept doUploadData := by
  intro z s q hk
  unfold doUploadData
  extract_lets off n done
  split
  · exact fst_kept hk
  · split
    · exact fst_kept (modTasp_kept (stageAppend_kept hk _) _ (fun _ h => ⟨h.1, h.2.1, h.2.2⟩))
    · split
      · exact fst_kept hk
      · exact fst_kept hk

theorem doUploadCommit_kept : TaspDoKept doUploadCommit := by
  intro z s q hk
  have h1 := commitRequest_kept hk
  unfold doUploadCommit
  extract_lets r
  split
  · refine fst_kept (modUsb_kept (modTasp_kept h1 _ ?_) _)
    exact fun p h => ⟨h.1, h.2.1, h.2.2⟩
  · exact fst_kept h1

theorem taspMeaning_kept (op : Nat) : TaspDoKept (taspMeaning op) := by
  unfold taspMeaning
  split
  all_goals first
    | exact doRegRead_kept
    | exact doRegWrite_kept
    | exact doOpen_kept
    | exact doNoteSub_kept
    | exact doNoteResend_kept
    | exact doVstoreWrite_kept
    | exact doStreamPiece_kept
    | exact doJobSubmit_kept
    | exact doJobCancel_kept
    | exact doRingTrig_kept
    | exact doRelease_kept
    | exact doUploadBegin_kept
    | exact doUploadData_kept
    | exact doUploadCommit_kept
    | (intro z s q hk; exact hk)

theorem taspServe_kept {z s : State} (hk : Kept z s) (op : Nat) (q0 : TaspReq) : Kept z (taspServe op q0 s) := by
  unfold taspServe
  generalize (if op = 0x60 then { q0 with session := 0 } else q0) = q
  have h1 : Kept z (taspMeaning op q s).1 := taspMeaning_kept op z s q hk
  dsimp only
  split
  · exact taspAnswer_kept (taspViol_kept hk _ _ _) _ _ _ _
  · split
    · exact taspRefuse_kept (taspViol_kept hk _ _ _) _ _ _
    · split
      · exact taspRefuse_kept hk _ _ _
      · split
        · exact doExport_kept hk _
        · split
          · exact closeSess_kept (taspAnswer_kept hk _ _ _ _) _
          · exact taspAnswer_kept h1 _ _ _ _

theorem modSess_reqs (i : Nat) (f : Sess → Sess) (s : State) : (modSess i f s).tasp.reqs = s.tasp.reqs := by
  unfold modSess modTasp
  rfl

theorem taspEnqueue_kept {z s : State} (hk : Kept z s) (op : Nat) (q : TaspReq) : Kept z (taspEnqueue op q s) := by
  unfold taspEnqueue
  split
  · exact taspViol_kept (bump_kept hk _ _ _ _) _ _ _
  · rename_i hlt
    extract_lets s1
    have h1 : Kept z s1 ∧ s1.tasp.reqs = s.tasp.reqs := by
      show Kept z (match sessPos s q.session with | some i => if op = 0x60 then s else modSess i (markSeen q.seq) s | none => s) ∧
        (match sessPos s q.session with | some i => if op = 0x60 then s else modSess i (markSeen q.seq) s | none => s).tasp.reqs = s.tasp.reqs
      split
      · split
        · exact ⟨hk, rfl⟩
        · exact ⟨modSess_kept hk _ _ (fun _ h => h), modSess_reqs _ _ _⟩
      · exact ⟨hk, rfl⟩
    clear_value s1
    obtain ⟨h1, h2⟩ := h1
    split
    · exact h1.mk' id id id id id (fun g => ⟨g.1, by
        show (s1.tasp.reqs ++ [(op, q)]).length ≤ 64
        rw [h2, List.length_append]
        simp only [List.length_cons, List.length_nil]
        omega, g.2.2⟩) id id id id id
    · exact taspServe_kept h1 _ _

theorem taspRepeat_kept {z s : State} (hk : Kept z s) (op : Nat) (q : TaspReq) (x : Sess) : Kept z (taspRepeat op q x s) := by
  unfold taspRepeat
  repeat' first
    | with_reducible assumption
    | with_reducible apply bump_kept
    | with_reducible apply taspEnqueue_kept
    | with_reducible apply taspSend_kept
    | split

theorem taspAccept_kept {z s : State} (hk : Kept z s) (op : Nat) (q : TaspReq) : Kept z (taspAccept op q s) := by
  rw [taspAccept]
  split
  · exact taspEnqueue_kept hk _ _
  · split
    · exact taspAnswer_kept (taspViol_kept hk _ _ _) _ _ _ _
    · extract_lets s1
      have h1 : Kept z s1 := modSess_kept hk _ _ (fun _ h => h)
      clear_value s1
      split
      · exact h1
      · split
        · exact taspViol_kept (bump_kept h1 _ _ _ _) _ _ _
        · exact taspEnqueue_kept h1 _ _
        · split
          · exact taspRepeat_kept h1 _ _ _
          · exact taspEnqueue_kept h1 _ _

theorem taspRow_kept {z s : State} (hk : Kept z s) (op : Nat) (q : TaspReq) : Kept z (taspRow op q s) := by
  unfold taspRow
  repeat' first
    | with_reducible assumption
    | with_reducible apply ethCmd_kept
    | with_reducible apply taspAccept_kept
    | (intro u hu)
    | split

theorem taspReject_kept {z s : State} (hk : Kept z s) (src : NetAddr) (d : List Byte) : Kept z (taspReject src d s) := by
  unfold taspReject
  try dsimp only
  repeat' first
    | with_reducible assumption
    | with_reducible apply bump_kept
    | with_reducible apply rxErr_kept
    | with_reducible apply taspAuthFail_kept
    | with_reducible apply taspSend_kept
    | with_reducible apply taspViol_kept
    | with_reducible apply taspAccept_kept
    | ((with_reducible refine modSess_kept ?_ _ _ (fun _ hx => ?_)); rotate_left; exact hx)
    | split

theorem gapRetry_kept {z s : State} (hk : Kept z s) (r : Nat) : Kept z (gapRetry r s) := by
  unfold gapRetry
  try dsimp only
  repeat' first
    | with_reducible assumption
    | with_reducible apply gapNote_kept
    | with_reducible apply notice_kept
    | with_reducible apply bump_kept
    | split
    | fail_if_no_progress with_reducible refine Kept.same ?_ id id id id id id id id

/-! ### Firmware.lean -/

theorem fwdFire_kept {z s : State} (hk : Kept z s) (cut : Option UsbCut) : Kept z (fwdFire cut s) := by
  unfold fwdFire
  repeat' first
    | with_reducible assumption
    | with_reducible apply bulkAbort_kept
    | with_reducible apply usbCut_kept
    | with_reducible apply faultU_kept
    | with_reducible apply bump_kept
    | split
    | fail_if_no_progress with_reducible refine Kept.same ?_ id id id id id id id id

theorem answerCut_kept {z s : State} (hk : Kept z s)  : Kept z (answerCut s) := by
  unfold answerCut
  repeat' first
    | with_reducible assumption
    | with_reducible apply spiRefuse_kept
    | split
    | fail_if_no_progress with_reducible refine Kept.same ?_ id id id id id id id id

theorem fwRestarted_kept {z s : State} (hk : Kept z s) : Kept z (fwRestarted s) := by
  unfold fwRestarted
  split
  · refine Kept.foldl _ _ ?_ (fun u a hu => taspServe_kept hu _ _)
    exact modTasp_kept (spiUnknown_kept (answerCut_kept (hk.mk' id id id id id id id id id id id))) _
      (fun _ hx => ⟨hx.1, Nat.zero_le _, hx.2.2⟩)
  · exact hk

end Sys2Proof.Machine
end

