-- ==== Sys2Proof/Machine/Panel.lean ====
section
/-!
DEFINITION. Panel.lean: what the unit shows and drives that no command asks for and no field of State holds, since the rest of the state
decides it: the status indicators (02 R48, R49), the lines of J4, J5 and J9 (R42, R46, R47; 15 R345, R355), and the contact maps of the
octet connectors (R35) and of J9 (R46).
-/

namespace Sys2Proof.Machine

/-! ### Indicators (Table 2-8) -/

/-- What an indicator shows: flash is 20 ms on every 8 s, blink is 250 ms on and 250 ms off. -/
inductive Led where
  | off | green | amber | greenFlash | greenBlink | amberBlink | amberFlash
  deriving DecidableEq, Repr

/-- PWR. DESIGN CHOICE (log 73): Table 2-8 gives a Dusk after line loss both off and green blink; the model shows green blink, and off only
once the unit is without power. -/
def ledPwr (s : State) : Led :=
  match s.pwr.st with
  | .absent => .off
  | .night => .greenFlash
  | .evening => .amber
  | .dawn => .greenBlink
  | .day => .green
  | .dusk => .greenBlink
  | .maint => .amberBlink

def ledTime (s : State) : Led :=
  if !fastOn s then .off
  else match s.tim.st with
    | .pps => .green
    | .ptp => .amber
    | .holdover => .amberBlink
    | .unlocked => .amberFlash

/-- Whether a queued job waits for a lock or a Twilight window of its octets. DESIGN CHOICE (log 73): the table does not say which jobs
count as held; the model counts every queued job whose clocks are not locked, one not yet due among them. -/
def heldForClock (s : State) : Bool :=
  (slotsIn s (· == .queued)).any fun i =>
    !coreLocked s || (bitsOf 8 (slotAt s i).desc.octMask).any fun k => !octLocked s k || (octAt s k).win.isSome

/-- RUN. DESIGN CHOICE (log 73): where amber and green blink both hold, amber is shown. -/
def ledRun (s : State) : Led :=
  if jobRuns s then .green
  else if heldForClock s then .amber
  else if !s.evid.exports.isEmpty then .greenBlink
  else .off

/-- RING. Without the fast domain the ring stands still and the indicator is off (log 40). DESIGN CHOICE (log 73): Table 2-8 names only a
ring open at one link; the model shows amber for every ring that is not closed. -/
def ledRing (s : State) : Led :=
  if !fastOn s || !ringValid s then .off
  else if s.ring.agree.st = 7 then .amberBlink
  else if ringClosed s then .green
  else .amber

/-- FAULT. A thermal trip is found by the next full Dawn, which ends the blinking. -/
def ledFault (s : State) : Led :=
  if s.nw.tripFound then .amberBlink
  else if (List.range 48).any (srcSevere s) then .amber
  else .off

/-- The five indicators PWR, TIME, RUN, RING and FAULT as LOCATE and DARK of G_LED_CTRL leave them (R48, R49). Nothing is lit without
line power. DESIGN CHOICE (log 73): in Night, where the fast domain that holds G_LED_CTRL is unpowered, its last value still rules. -/
def leds (s : State) : List Led :=
  if s.pwr.st = .absent then List.replicate 5 .off
  else if bit s.r.ledCtrl 0 then List.replicate 5 .amberBlink
  else if bit s.r.ledCtrl 1 then List.replicate 4 .off ++ [ledFault s]
  else [ledPwr s, ledTime s, ledRun s, ledRing s, ledFault s]

/-- The indicators LINK (green) and ACT (amber) of J1: they follow the link whatever G_LED_CTRL says (R49). -/
def j1Leds (s : State) : Led × Led := (if s.eth.link then .green else .off, if s.eth.link then .amber else .off)

/-! ### Lines -/

/-- J4: high while a pulse is under way and PPSO_EN is 1. No pulse begins while the time base is unlocked; one under way then completes
(R42 and the corner of chapter 02). -/
def j4High (s : State) : Bool := s.encl.ppsOutHigh && ppsoEn s

/-- J5: the 10 MHz output drives while REFO_EN is 1 and the time base is locked or in holdover (R42). -/
def j5On (s : State) : Bool := s.tim.running && s.tim.st != .unlocked && bit s.r.portCfg 2

/-- A line of J9: driven high or low, or at high impedance. -/
inductive Line where
  | high | low | z
  deriving DecidableEq, Repr

/-- HRDY outside a frame (R47, 15 R345): at high impedance while HPRES is low, low while the port does not run. -/
def hrdyLine (s : State) : Line := if !s.encl.hpres then .z else if s.spi.running then .high else .low

/-- HIRQ, active low and open drain (R46, 15 R355). -/
def hirqLine (s : State) : Line := if spiIrq s then .low else .z

/-- HMISO with the bit the unit shifts out: at high impedance while HSEL is high (R46) or HPRES is low (R47). -/
def hmisoLine (hselLow out : Bool) (s : State) : Line :=
  if !s.encl.hpres || !hselLow then .z else if out then .high else .low

/-- The lines of J9 (Table 2-6). -/
inductive J9Line where
  | ground | hsel | hclk | hmosi | hmiso | hrdy | hirq | hpres
  deriving DecidableEq, Repr

/-- The line at a position of J9 (Table 2-6). -/
def j9Line : Nat → Option J9Line
  | 1 => some .hsel
  | 2 => some .ground
  | 3 => some .hclk
  | 4 => some .ground
  | 5 => some .hmosi
  | 6 => some .ground
  | 7 => some .hmiso
  | 8 => some .hrdy
  | 9 => some .hirq
  | 10 => some .hpres
  | _ => none

/-- Whether a line of J9 is an output of the unit, and what an input or the open drain reads while nothing drives it: HSEL and HIRQ are
pulled up, HCLK, HMOSI and HPRES down. -/
def J9Line.out : J9Line → Bool
  | .hmiso | .hrdy | .hirq => true
  | _ => false
def J9Line.bias : J9Line → Option Bool
  | .hsel | .hirq => some true
  | .hclk | .hmosi | .hpres => some false
  | _ => none

/-! ### Contacts of J10 to J17 (Tables 2-1 and 2-2) -/

inductive Row where
  | a | b
  deriving DecidableEq, Repr

/-- A contact of an octet connector: its connector number, row and position. -/
structure Contact where
  j : Nat
  row : Row
  pos : Nat
  deriving DecidableEq, Repr

/-- The signal contact of a pin: even indices in row A, odd ones in row B, at position 2 + 2 × ⌊i/2⌋. -/
def contactOf (pin : Nat) : Contact :=
  ⟨10 + pin / 8, if pin % 2 = 0 then .a else .b, 2 + 2 * (pin % 8 / 2)⟩

/-- What a contact carries: a pin, the cable sense PRES of an octet, or ground. -/
inductive Carries where
  | ground
  | signal (pin : Nat)
  | pres (oct : Nat)
  deriving DecidableEq, Repr

def carries (c : Contact) : Carries :=
  if c.pos = 10 then (if c.row = .a then .pres (c.j - 10) else .ground)
  else if c.pos % 2 = 0 then .signal (8 * (c.j - 10) + (c.pos - 2) + (if c.row = .a then 0 else 1))
  else .ground

end Sys2Proof.Machine
end

