-- ==== Sys2Proof/Tests/Slice0.lean ====
section
/-!
SUPPORT. Slice0.lean: tests. A test `test_…` is one command on a small state with the result the spec gives (its rule in the comment);
`wf_…` is the smoke test of WellFormed; `wit_…` shows states and operands that meet the hypotheses of an obligation, clause by
clause, at the ends of their ranges where they have any.
-/

set_option Elab.async false

namespace Sys2Proof.Tests

open Sys2Proof.Machine

/-! ### States -/

/-- A unit in Day: powered, clocks locked, time base running, port services up with a link, the operator key set, J2 and J8 in use. -/
def day : State :=
  { pwr := { st := .day, target := .day, linePresent := true, octActive := 0xFF, bankUv := 10000000, classEvents := 5 }
    clk := { core := .locked 0, oct := Vector.replicate 8 (.locked 0), oscWarm := true }
    tim := { running := true, valid := true }
    encl := { hpres := true, vbus := true }
    boot := { imageApplied := true }
    spi := { running := true }
    usb := { dev := 4 }
    eth := { running := true, link := true, ipv4 := 0x0A000001, mask := 8 }
    tasp := { on := true, key := List.replicate 32 1, keyId := 7 } }

/-- The same in another power state. -/
def inSt (st : PwrSt) : State := { day with pwr := { day.pwr with st := st, target := st } }

/-- Night, and line absent. -/
def night : State := { pwr := { st := .night, target := .night, linePresent := true }, encl := { hpres := true } }

/-- Day at an instant. -/
def dayAt (t : Nat) : State := { day with now := t }

/-- A job of a kind on the octets of a mask, in a slot state. -/
def jobIn (st : JobSt) (kind mask : Nat) : Slot :=
  { st := st, jobNo := 1, source := 1
    desc := { octMask := mask, cls := 0, kind := kind, slotReq := 255, tUs := 0, tolUs := 0, start := 0, trig := 0, policy := 0, tag := 0, list := [0] } }

/-- Day with one job in slot 0. -/
def dayJob (x : Slot) : State := { day with seqr := { slots := vmod (Vector.replicate 16 {}) 0 fun _ => x } }

/-- A state with octet 0, or pin 0, changed. -/
def oct0 (f : OctCh → OctCh) (s : State) : State := modOct 0 f s
def pin0 (f : PinCh → PinCh) (s : State) : State := modPin 0 f s

/-- A state with the scope of a source changed. -/
def scope0 (src : Nat) (f : FltScope → FltScope) (s : State) : State := modScope src 0 f s

/-- The answer of a command, where it is a next state. -/
def after (i : Instr) (s : State) : State := match exec i s with | .next w => w | _ => {}

/-! ### WellFormed: an ill-formed term for each check, which the check refuses -/

theorem wf_register_write : (Instr.registerWrite 0 .core (2 ^ 32) 0).wf = false ∧ (Instr.registerWrite 0 .core (2 ^ 32 - 4) 0).wf = true := by
  decide
theorem wf_rc_read : (Instr.rcRegisterRead 0 .core ⟨(2 ^ 32), []⟩).wf = false := by decide
theorem wf_latched_read : (Instr.latchedGroupLowRead 0 .core (2 ^ 32)).wf = false := by decide
theorem wf_class_events : (Instr.linePowerApplied 0 6).wf = false ∧ (Instr.linePowerApplied 0 5).wf = true := by decide
theorem wf_no_beats : (Instr.arbRequestRaised 0 0 0).wf = false ∧ (Instr.dbgRequest 0 0).wf = false ∧ (Instr.dbgRequest 0 1).wf = true := by
  decide
theorem wf_routine_entry : (Instr.routineOccurrence 0 255).wf = false ∧ (Instr.routineJobSubmit 0 255).wf = false ∧
    (Instr.routineJobSubmit 0 254).wf = true := by decide
theorem wf_array_words : (Instr.timingSetWrite 0 .core 16384 0).wf = false ∧ (Instr.segmentEntryWrite 0 .core 32768 0).wf = false ∧
    (Instr.waveTableWrite 0 .core 4096 0).wf = false ∧ (Instr.waveTableWrite 0 .core 4095 0).wf = true := by decide

/-! ### Witnesses: the register bus and time -/

theorem wit_StepRunsFrontCommand : State.reset.pending = [] := by decide

theorem wit_TimePassing : State.reset.tim.running = false ∧ (day.tim.running = true ∧ day.tim.slew = 0) ∧
    cycleOf (advance 319 day).now = cycleOf day.now ∧ cycleOf (advance 320 day).now ≠ cycleOf day.now := by decide

theorem wit_RegisterAccess : ∀ p ∈ [Port.core, .tasp, .spi, .usb], portUp (advance 0 day) p = true := by decide

theorem wit_RwlRegisterWrite : day.pwr.st = .day ∧ portUp (advance 0 (inSt .evening)) .usb = true ∧ (inSt .evening).pwr.st ≠ .day := by
  decide

theorem wit_WriteWithoutEffect : (3 % 4 ≠ 0 ∧ 0xB00 % 4 = 0 ∧ inSpace 0xB00 = false ∧ inSpace 0xFFC = false ∧ inSpace 0x304000 = false) ∧
    (unused 0x014 = true ∧ unused 0xAFC = true ∧ unused 0x27FC = true ∧ unused 0x538 = true ∧ 0x538 / 256 = 5) ∧
    (∀ p ∈ [Port.core, .tasp, .spi, .usb], portUp (advance 0 night) p = false) ∧ portUp (inSt .maint) .spi = false := by decide

theorem wit_RcReadClears : ∃ b ∈ (bump rgJob 0 8 1 day).evPend, b.reg = rgJob := by decide

theorem wit_LatchedReads : latched day 0x010 = none ∧ latched { day with latch := { serial := some 5 } } 0x010 = some 5 := by decide

/-! ### Witnesses: pins, loads, waves, timing sets, segments -/

/-- A Twilight window on octet 0. -/
def win0 : Win := ⟨0, 1, 0, [], 0, 0⟩

theorem wit_LoadStrobes :
    (octOn day 0 = true ∧ pinsOn day = true ∧ (octAt day 0).lastSrc = 0 ∧ (octAt day 0).win = none ∧ (0x80000019 : Word).getLsbD 31 = true ∧
      25 ≤ fld 0x80000019 0 24 ∧ sameCycle (octAt (dayAt 320) 0).freshAt 320 = false) ∧
    (sameCycle (octAt (oct0 (fun o => { o with lastSrc := 1 }) (dayAt 320)) 0).lastStrobe 320 = false) ∧
    (octAt (oct0 (fun o => { o with win := some win0 }) day) 0).win.isSome = true ∧ (0x7FFFFFFF : Word).getLsbD 31 = false ∧
    ((0x02000019 : Word).getLsbD 25 = true ∧ 0 + max 25 (fld 0x02000019 0 24) * 20480 ≤ 512000 ∧
      511999 < 0 + max 25 (fld 0x02000000 0 24) * 20480) := by decide

theorem canon_day : Canon day := by unfold Canon; decide

theorem wit_WaveTickAndTable :
    let s := oct0 (fun o => { o with ldRun := true }) (dayAt 20480)
    (s.pwr.st = .day ∧ octOn s 0 = true ∧ (octAt s 0).ldRun = true ∧ (octAt s 0).waveAt + 20480 ≤ s.now) ∧
    (20479 < (octAt day 0).waveAt + 20480 ∧ (inSt .evening).pwr.st ≠ .day) ∧
    (octAt day (0 / 512)).ldRun = false ∧ (octAt day (4095 / 512)).ldRun = false ∧ (octAt s (511 / 512)).ldRun = true := by decide

theorem wit_SafeStateAndRelease :
    let s := pin0 (fun p => { p with safe := true }) (dayAt 320)
    ((pinAt (pin0 (fun p => { p with drv := true }) day) 0).drv = true ∧ pinsOn day = true) ∧
    ((pinAt day 63).drv = false ∧ ∀ k < 8, (octAt day k).defReg = false ∧ (octAt day k).defTmr = false) ∧
    (portUp s .core = true ∧ (0x8000 : Word).getLsbD 15 = true ∧ s.pwr.st = .day ∧ (pinAt s 0).safe = true ∧
      sameCycle (pinAt s 0).safeAt s.now = false ∧ (octAt s (0 / 8)).win = none ∧ (stoppedMask s).testBit (0 / 8) = false) ∧
    ((0x7FFF : Word).getLsbD 15 = false ∧ portUp (inSt .evening) .core = true ∧ (inSt .evening).pwr.st ≠ .day) ∧
    ((1 : Word).getLsbD 0 = true ∧ (0xFFFFFFFE : Word).getLsbD 0 = false) := by decide

theorem wit_TimingSetWrites : portUp (advance 0 day) .core = true ∧ (setsInUse day).testBit (16383 / 512) = false ∧
    (setsInUse (dayJob (jobIn .running 0 1))).testBit (511 / 512) = true := by decide

theorem wit_TimingProbe : day.seg.probe = none ∧
    ({ day with seg := { probe := some ⟨31, 0, 320, 0⟩ } } : State).seg.probe = some ⟨31, 0, 320, 0⟩ := by decide

theorem wit_EdgeOrderRules : (TEntry.mk 0 80 160 0 0 64 2 0).fmt = 2 ∧ entryCheck (TEntry.mk 0 80 160 0 0 64 2 0) 320 = none ∧
    (TEntry.mk 0 0 0 0 0 64 6 0).fmt = 6 ∧ entryCheck (TEntry.mk 0 0 0 0 0 64 6 0) 320 = none := by decide

/-- Day with a load of entries 4 094 and 4 095 under way. -/
def loading (t : Nat) : State := { dayAt t with seg := { load := some ⟨4094, 2, false, 0, []⟩ } }

theorem wit_SegmentTable :
    (32767 % 8 = 7 ∧ 32766 % 8 ≠ 7 ∧ entryInUse day (32766 / 8) = false) ∧
    (0 % 8 ≠ 7 ∧ entryInUse (dayJob (jobIn .armed 0 1)) (0 / 8) = true) ∧ day.seg.load = none ∧
    ((loading 10240).seg.load = some ⟨4094, 2, false, 0, []⟩ ∧ 0 + 2 * 5120 ≤ (loading 10240).now ∧ (loading 10239).now < 0 + 2 * 5120) := by
  decide

theorem wit_WriteDuringLoad : Canon (loading 4800) ∧ (∃ w, exec (.segmentEntryWrite 4800 .core (8 * 4095) 1) (loading 4800) = .next w) ∧
    (8 * 4095 < 32768 ∧ 8 * 4095 % 8 ≠ 7 ∧ portUp (advance 4800 (loading 4800)) .core = true ∧
    entryInUse (loading 4800) 4095 = false ∧ 4094 ≤ 4095 ∧ 4095 < 4094 + 2 ∧ ([] : List (Nat × Nat)).any (fun x => x.1 == 4095) = false ∧
    0 + 2 * 5120 ≤ max 4800 10240 ∧
    cycleOf 4800 < cycleOf (0 + (4095 - 4094) * 5120) ∧ cycleOf (0 + (4095 - 4094) * 5120) ≤ cycleOf 5120) :=
  ⟨by unfold Canon; decide, ⟨_, rfl⟩, by decide⟩

/-! ### Witnesses: enclosure and power -/

theorem wit_EnclosureCommands : (fastOn day = true ∧ (115 : Int) ≤ 115) ∧ (fastOn night = false ∧ (114 : Int) < 115) ∧
    (((94 : Int) < 95) ∧ (95 : Int) ≤ 95) ∧
    (let s : State := { day with encl := { ppsOutHigh := true }, now := 10 * cUs }
     fansOn day = true ∧ s.encl.ppsOutHigh = true ∧ s.encl.ppsOutRise + ppsoWidth { s with r := { s.r with portCfg := 0x20 } } ≤ s.now) ∧
    (day.encl.ppsOutHigh = false ∧ 0 < 0 + ppsoWidth day) := by decide

/-- Line absent as shipped, and with the continuity token of count 1 and no ship mode. -/
def absent (tok : Word) : State := { nw := { shipMode := false, token := tok }, pwr := { lineDawn := true } }

theorem wit_LinePower :
    (State.reset.pwr.st = .absent ∧ State.reset.pwr.linePresent = false ∧ State.reset.nw.shipMode = true ∧ (absent 0).nw.shipMode = false) ∧
    (day.pwr.st ≠ .absent ∧ day.pwr.st ≠ .dusk) ∧ (night.pwr.linePresent = true ∧ night.pwr.st = .night ∧ 1000 ≤ 1000) ∧
    (day.pwr.linePresent = true ∧ ∀ st ∈ [PwrSt.day, .evening, .dawn, .maint], (inSt st).pwr.st ∈ [.day, .evening, .dawn, .maint]) ∧ 499 < 500 ∧
    (let s : State := { day with pwr := { day.pwr with st := .dusk, target := .absent } }
     s.pwr.st = .dusk ∧ s.pwr.target = .absent ∧ s.pwr.lineBack = none ∧ s.sl.ckptWrite = none ∧
      ({ s with sl := { ckptWrite := some ⟨1, [], 1, 0, true, 0⟩ } } : State).sl.ckptWrite = some ⟨1, [], 1, 0, true, 0⟩) := by decide

theorem wit_CellAndAlarm : (2500 ≤ 2500 ∧ day.pwr.cellAbsent = false ∧ 2500 < 2501) ∧
    (let s : State := { nw := { codes := 7812500, alarm := some 1, alarmRdv := some 2 } }
     s.nw.alarm = some 1 ∧ 1 ≤ s.nw.codes / 7812500 ∧ s.nw.alarmRdv = some 2 ∧ s.nw.codes / 7812500 < 2) := by decide

/-- A job of kind 3 that waits for its wake in Evening. -/
def waiting0 : State := { dayJob (jobIn .queued 3 1) with pwr := (inSt .evening).pwr }

theorem wit_PowerRequests :
    (night.pwr.st = .night ∧ night.encl.hpres = true ∧ night.encl.vbus = false ∧ night.r.portCfg.getLsbD 5 = true ∧ night.pwr.pend = none) ∧
    (State.reset.usb.dev = 0 ∧ day.usb.dev ≠ 0) ∧
    (waiting0.pwr.st = .evening ∧ waiting0.clk.coreFailed = false ∧ dayBlock waiting0 = false ∧ waiting0.pwr.pend = none ∧
      (slotAt waiting0 0).st = .queued ∧ (slotAt waiting0 0).desc.kind ∈ [0, 3] ∧ (slotAt waiting0 0).start = none) ∧
    (slotAt waiting0 15).st ≠ .queued ∧
    (portUp day .core = true ∧ day.pwr.st ∈ [.day, .evening] ∧ day.pwr.pend = none ∧ day.clk.coreFailed = false ∧ dayBlock day = false) ∧
    ({ day with clk := { day.clk with coreFailed := true } } : State).clk.coreFailed = true := by decide

/-- A Dusk at a step towards a target. -/
def dusk (step : Nat) (target : PwrSt) (t : Nat) : State :=
  { dayAt t with pwr := { day.pwr with st := .dusk, target := target, duskStep := step, duskWaitMs := 10, duskPins := true, duskSealed := true } }

/-- Day with a request waiting. -/
def asked (target : PwrSt) : State := { day with pwr := { day.pwr with pend := some ⟨target, 0, 0, 0⟩ } }

theorem wit_DuskSteps :
    (∀ q ∈ [PwrSt.evening, .night], (asked q).pwr.st = .day ∧ (asked q).pwr.pend = some ⟨q, 0, 0, 0⟩) ∧
    (sameCycle 0 320 = false ∧ sameCycle 0 319 = true) ∧ day.pwr.pend = none ∧
    ((dusk 2 .night (10 * cMs)).pwr.duskStart + (dusk 2 .night 0).pwr.duskWaitMs * cMs ≤ 10 * cMs ∧
      10 * cMs - 1 < (dusk 2 .night 0).pwr.duskStart + (dusk 2 .night 0).pwr.duskWaitMs * cMs) ∧
    (slotsIn (dusk 2 .night 0) JobSt.active = [] ∧ pinsOn (dusk 2 .night 0) = true ∧
      slotsIn (dayJob (jobIn .running 0 1)) JobSt.active ≠ []) ∧
    (drained (dusk 4 .night 0) = true ∧ (dusk 4 .night 0).evid.suspended = false ∧ drained (dayJob (jobIn .ending 0 1)) = false) ∧
    (sealsDone (dusk 5 .evening 0) = true ∧ (dusk 5 .night 0).sl.ckptWrite = none ∧ slotsIn (dusk 5 .night 0) (· == .queued) = [] ∧
      (dusk 5 .night 0).pwr.duskSealed = true ∧ sealsDone { day with sl := { part0Wait := true } } = false) ∧
    ((dusk 7 .evening 0).pwr.target = .evening ∧ stepSeven (dusk 5 .evening 0) = false ∧ (dusk 7 .evening 0).pwr.duskLatched = none ∧
      ({ dusk 7 .evening 0 with pwr := { (dusk 7 .evening 0).pwr with duskLatched := some 6 } } : State).pwr.duskLatched = some 6) := by decide

theorem wit_NightEntry : (dusk 7 .night 0).pwr.st = .dusk ∧ (dusk 7 .night 0).pwr.duskStep = 7 ∧ (dusk 7 .night 0).pwr.target = .night ∧
    (dusk 7 .night 0).boot.store = none ∧ (dusk 7 .night 0).boot.commit = none ∧
    (dusk 7 .night 0).encl.vbus = true ∧ (dusk 7 .night 0).r.portCfg.getLsbD 5 = true ∧
    ({ dusk 7 .night 0 with encl := { hpres := true } } : State).encl.vbus = false := by decide

/-- The bank voltage in µV at which BANK_MJ is 20 000 (R68). -/
def floorUv : Nat := 7106336

theorem wit_BankAndWindow :
    (fastOn day = true ∧ bankMj { day with pwr := { day.pwr with bankUv := floorUv } } ≤ 20000 ∧
      bankMj { day with pwr := { day.pwr with bankUv := floorUv } } < bankMj day ∧
      (slotAt (dayJob (jobIn .running 0 1)) 0).st = .running) ∧
    (night.pwr.st = .night ∧ State.reset.pwr.st = .absent) ∧
    (let w : PwrWin := { samples := 100, load := 100001, jobs := [1] }
     100 ≤ w.samples ∧ 100 * (w.decl + 1000 * w.samples) + 3 * w.excess < 100 * w.load ∧
      (∀ st ∈ [JobSt.running, .ended], (slotAt (dayJob (jobIn st 0 1)) 0).st ∉ [.free, .queued] ∧ (slotAt (dayJob (jobIn st 0 1)) 0).jobNo ∈ w.jobs)) ∧
    (let w : PwrWin := { samples := 100, load := 100000 }
     ¬100 * (w.decl + 1000 * w.samples) + 3 * w.excess < 100 * w.load) ∧ ({ samples := 99 } : PwrWin).samples < 100 ∧
    (day.pwr.linePresent = true ∧ day.pwr.st ≠ .dusk ∧ (10000000 : Nat) ≤ day.pwr.bankUv ∧
      ({ day.pwr with classEvents := 1 } : Pwr).classEvents < 2 ∧ 8000 ≤ bankEnergy { night with pwr := { night.pwr with bankUv := 10000000 } } ∧
      (dusk 2 .absent 0).pwr.st = .dusk ∧ (dusk 2 .absent 0).pwr.target = .absent) := by decide

theorem wit_FloorStopsJobs : (slotAt (dayJob (jobIn .running 0 1)) 0).st = .running ∧ (slotAt (dayJob (jobIn .checking 0 1)) 0).st = .checking ∧
    (slotAt (dayJob (jobIn .armed 0 1)) 0).st = .armed := by decide

/-! ### Witnesses: Dawn, image, clocks, routine -/

/-- A Dawn that reads bank A since instant 0, with bank B to follow. -/
def reading (t : Nat) : State := { dayAt t with
  pwr := { day.pwr with st := .dawn }, boot := { reading := some (.a, 0), cands := [.b] } }

/-- A Dawn at step 9 towards a target. -/
def step9 (target : PwrSt) : State := { day with pwr := { day.pwr with st := .dawn, target := target, dawnReady := true } }

theorem wit_FullDawn :
    ((absent 0).pwr.st = .absent ∧ (absent 0).pwr.lineDawn = true ∧ (absent 0).nw.tripHeld = false ∧ tokenIntact 0 = false ∧
      tokenIntact (tokenOf 0xFFFF) = true ∧ fld (tokenOf 0xFFFF) 16 16 = 0xFFFF ∧ day.evid.suspended = false) ∧
    (let s : State := { night with pwr := { night.pwr with pend := some ⟨.day, 0, 0, 0⟩ } }
     s.pwr.st = .night ∧ s.pwr.pend = some ⟨.day, 0, 0, 0⟩ ∧ s.nw.tripHeld = false) ∧
    (let s : State := { day with pwr := { day.pwr with st := .dawn, abandoned := true } }
     s.pwr.st = .dawn ∧ s.pwr.abandoned = true ∧ s.nw.tripHeld = false) ∧
    (({ nw := { tripHeld := true } } : State).nw.tripHeld = true ∧ State.reset.pwr.st = .absent ∧ State.reset.pwr.lineDawn = false ∧
      night.pwr.pend = none ∧ day.pwr.st ∈ [PwrSt.day, .evening, .dusk, .maint]) := by decide

theorem wit_ColdStartWithoutCheckpoint : (absent 0).pwr.st = .absent ∧ (absent 0).pwr.lineDawn = true ∧ (absent 0).nw.tripHeld = false ∧
    tokenIntact (absent 0).nw.token = false ∧ newestCkpt (absent 0).mram = 0 := by decide

theorem wit_ImageBanks :
    ((reading 0).pwr.st = .dawn ∧ (reading 0).boot.reading = some (.a, 0) ∧ (reading 0).now ≤ 0 + cMs * (imgLimits (reading 0)).2 ∧
      0 + cMs * (imgLimits (reading 0)).2 ≤ (reading (500 * cMs)).now ∧ 500 * cMs - 1 < 0 + cMs * (imgLimits (reading 0)).2 ∧
      0 + cMs * (imgLimits (reading 0)).2 < 500 * cMs + 1) ∧
    (verifyImage (reading 0).mram (imgLimits (reading 0)).1 [] (rdBytes (reading 0).mram (bankAddr .a) 0)).1 ≠ 1 ∧
    (day.pwr.st ≠ .dawn ∧ (step9 .day).boot.reading.map (·.1) ≠ some .a) := by decide

theorem wit_DawnEnd :
    (∀ g ∈ [PwrSt.day, .evening, .night], (step9 g).pwr.st = .dawn ∧ (step9 g).pwr.dawnReady = true ∧ (step9 g).pwr.abandoned = false ∧
      (step9 g).pwr.pend = none ∧ (step9 g).pwr.target = g ∧ (step9 g).boot.imageApplied = true ∧ 2 ≤ (step9 g).pwr.classEvents) ∧
    ((step9 .day).clk.coreFailed = false ∧ dayBlock (step9 .day) = false ∧ 20000 ≤ bankMj (step9 .day) ∧ coreLocked (step9 .day) = true ∧
      (∀ k < 8, octOn (step9 .day) k = true → octLocked (step9 .day) k = true) ∧ octOn (step9 .day) (63 / 8) = true) ∧
    (({ step9 .night with encl := { hpres := true } } : State).encl.vbus = false ∧ slotsIn (step9 .night) (· == .queued) = [] ∧
      drained (step9 .night) = true ∧ ({ step9 .day with boot := {} } : State).boot.imageApplied = false) ∧
    (day.pwr.st ≠ .dawn ∧ (reading 0).pwr.dawnReady = false) ∧
    (let s : State := { asked .day with pwr := { (asked .day).pwr with st := .evening } }
     s.pwr.st = .evening ∧ s.pwr.pend = some ⟨.day, 0, 0, 0⟩ ∧ s.clk.coreFailed = false ∧ dayBlock s = false ∧
      ({ s with clk := { s.clk with coreFailed := true } } : State).clk.coreFailed = true) ∧ (inSt .evening).pwr.pend = none := by decide

theorem wit_MramWrites :
    let c : State := { day with sl := { ckptWrite := some ⟨1, List.replicate 72 0, 1, 0, false, 1⟩ } }
    let j : State := { day with boot := { store := some ⟨.b, [1], 0, 0, true⟩, commit := some ⟨.a, [1], 0, 0, true⟩ } }
    let k : State := { dayAt cChunk with boot := { store := some ⟨.b, [], 0, 2, false⟩, commit := some ⟨.a, [1], 0, 0, true⟩ } }
    let l : State := { dayAt cChunk with sl := { ckptWrite := some ⟨1, [], 1, 0, false, 2⟩ }, boot := { store := some ⟨.b, [1], 0, 0, true⟩, portAt := cChunk } }
    let d : State := { dayAt cMs with pwr := { day.pwr with st := .dawn }, boot := { small := some ⟨enrolAddr, [0], 0⟩ } }
    c.sl.ckptWrite = some ⟨1, List.replicate 72 0, 1, 0, false, 1⟩ ∧ day.sl.ckptWrite = none ∧
    (j.boot.store = some ⟨.b, [1], 0, 0, true⟩ ∧ j.boot.storeHeld = false ∧ j.boot.commit = some ⟨.a, [1], 0, 0, true⟩ ∧ j.sl.ckptWrite = none ∧
      ckptHolds (mramSettle j) = false ∧ recordHolds (mramSettle j) = false ∧ (∃ i, (mramSettle j).boot.store = some i ∧ i.left ≤ 2)) ∧
    (ckptHolds (mramSettle l) = true ∧ recordHolds (mramSettle l) = true ∧
      ({ k with boot := { store := some ⟨.b, [1], 0, 3, true⟩, portAt := cChunk } } : State).boot.store.map (·.left) = some 3) ∧
    (d.boot.small = some ⟨enrolAddr, [0], 0⟩ ∧ d.pwr.st = .dawn ∧ cMs + 0 ≤ d.now ∧ cMs - 1 < cMs + 0) ∧
    (day.boot.store = none ∧ day.boot.commit = none ∧ day.boot.small = none) := by
  refine ⟨by decide, by decide, ⟨by decide, by decide, by decide, by decide, by decide, by decide, ⟨_, rfl, by decide⟩⟩, by decide, by decide, by decide⟩

/-- Day with octet synthesiser 0 and the core in a state, at an instant. -/
def synths (core oct : SynthSt) (t : Nat) : State :=
  { dayAt t with clk := { core := core, oct := (Vector.replicate 8 SynthSt.off).set 0 oct } }

theorem wit_Clocks :
    (synthAt (synths (.band 0 1) (.band 0 1) 0) none = .band 0 1 ∧ synthAt (synths (.band 0 1) (.band 0 1) 0) (some 0) = .band 0 1 ∧
      0 + 307200000 ≤ (synths .off .off 307200000).now ∧ 0 + 230400000 ≤ 230400000) ∧
    (synthAt (synths (.attempt 0 1) (.attempt 0 1) 0) (some 0) = .attempt 0 1 ∧ 0 + 6553600 ≤ 6553600 ∧ 6553600 ≤ 0 + 256000000 ∧
      0 + 655360 ≤ 128000000 ∧ 1 < lockTries day ∧ lockTries day ≤ 2) ∧
    (let s : State := { synths .off (.attempt 0 2) 128000000 with pwr := (step9 .day).pwr }
     synthAt s (some 0) = .attempt 0 2 ∧ lockTries s ≤ 2 ∧ s.pwr.st = .dawn ∧ s.pwr.shortDawn = false) ∧
    (day.pwr.st = .day ∧ (synthAt day (some 7)).isLocked = true ∧ (synthAt (synths .off .off 0) none).isLocked = false) ∧
    (fastOn day = true ∧ (synths .off .off 0).clk.oscWarm = false ∧ day.clk.oscWarm = true ∧ day.clk.ovenStart = none) ∧
    (let s : State := { dayAt (180 * cS) with clk := { ovenStart := some 0 } }
     s.clk.ovenStart = some 0 ∧ s.clk.oscWarm = false ∧ 0 + 180 * cS ≤ s.now ∧ 180 * cS - 1 < 0 + 180 * cS) := by decide

/-- Day with one routine entry of an action, due at Tamong time 0. -/
def routine (action arg : Nat) (en : Bool) : State :=
  { day with rt := { entries := [⟨0, 60, 0, action, arg, 0, 0⟩], next := [0], templates := [] }
             r := { bootRoutine := if en then 0x80000000 else 0 } }

theorem wit_RoutineTable :
    (rtNext (routine 1 0 false) 0 = some 0 ∧ rtDueAt (rtEntry (routine 3 1 true) 0) 0 ≤ (routine 3 1 true).tim.codes ∧
      fastOn (routine 1 0 true) = true ∧ routineEn (routine 1 0 false) = false ∧ routineEn (routine 1 0 true) = true ∧
      (routine 1 0 true).pwr.st ≠ .maint ∧ (rtEntry (routine 1 0 true) 0).action = 1 ∧ (rtEntry (routine 3 1 true) 0).action = 3 ∧
      (1 : Nat).testBit 0 = true ∧ octOn day 0 = true ∧ (octAt day 0).win = none ∧
      (∀ j < 0, rtNext (routine 1 0 true) j ≠ rtNext (routine 1 0 true) 0) ∧ ({ routine 3 1 true with pwr := (inSt .evening).pwr } : State).pwr.st ≠ .day) ∧
    (let s : State := { routine 1 0 false with rt := { entries := [⟨0, 60, 0, 1, 0, 0, 0⟩, ⟨0, 60, 0, 3, 1, 0, 0⟩], next := [0, 0], templates := [] } }
     rtNext s 1 = some 0 ∧ rtNext s 0 = some 0 ∧ 0 < s.rt.next.length ∧ rtDueAt (rtEntry s 0) 0 ≤ s.tim.codes) ∧
    (rtNext day 0 = none) ∧ (0 ≤ cS + (routine 1 0 true).tim.codes) ∧
    (let s : State := { day with rt := { after := [(0, 0, 0)] } }
     s.rt.after = [(0, 0, 0)] ∧ jobEnded s 0 = true ∧
      slotsIn s (fun st => st == .queued || st == .checking || st == .armed || st == .running) = []) ∧
    day.rt.after = [] ∧ slotsIn (dayJob (jobIn .queued 0 1)) (fun st => st == .queued) ≠ [] := by decide

/-! ### Witnesses: jobs, play, evidence, arbiter, seals -/

/-- A job that is due since instant 0. -/
def due0 (kind cls : Nat) : Slot := { jobIn .queued kind 1 with dueAt := some 0, desc := { (jobIn .queued kind 1).desc with cls := cls } }

theorem wit_JobDecisions :
    (seqClosed (inSt .dusk) = true ∧ seqClosed day = false) ∧
    (∀ kind ∈ [0, 3], let s := dayJob (due0 kind 0)
      (slotAt s 0).st = .queued ∧ (∀ j < 16, j ≠ 0 → (slotAt s j).st ≠ .queued) ∧ (slotAt s 0).desc.kind = kind ∧ (slotAt s 0).dueAt = some 0 ∧
      cycleOf 0 ≤ cycleOf s.now ∧ s.evid.full = false ∧ admission s (classMw 0) 0 = .yes ∧ ready s (slotAt s 0).desc = true) ∧
    ({ dayJob (due0 0 0) with evid := { full := true } } : State).evid.full = true ∧
    admission { dayJob (due0 0 12) with pwr := { day.pwr with classEvents := 0 } } (classMw 12) 0 = .refused ∧
    admission { dayJob (due0 0 0) with pwr := { day.pwr with bankUv := 7000000 } } (classMw 0) 0 = .no ∧
    ready { dayJob (due0 0 0) with clk := {} } (due0 0 0).desc = false := by decide

theorem wit_StartCheck :
    (let s := dayJob (jobIn .checking 0 1)
     (slotAt s 0).st = .checking ∧ jobEdgeCheck s (slotAt s 0).desc ≠ none ∧ (slotAt day 0).st ≠ .checking) ∧
    (let s := dayJob { jobIn .checking 0 1 with desc := { (jobIn .checking 0 1).desc with list := [] } }
     jobEdgeCheck s (slotAt s 0).desc = none ∧ ∀ e ∈ (slotAt s 0).desc.list, (segStat s e).1 = 1) ∧
    (let s := dayJob { jobIn .checking 0 0 with desc := { (jobIn .checking 0 0).desc with list := [5] } }
     jobEdgeCheck s (slotAt s 0).desc = none ∧ ∃ e ∈ (slotAt s 0).desc.list, (segStat s e).1 ≠ 1) := by decide

set_option maxRecDepth 20000 in
theorem wit_Judgement :
    let x := fun (tol : Nat) => { jobIn .queued 1 1 with start := some 0, dueAt := some 0, desc := { (jobIn .queued 1 1).desc with tolUs := tol } }
    let s := fun (tol : Nat) => { dayJob (x tol) with pwr := (inSt .dusk).pwr }
    let v := fun (tol : Nat) => after (.jobDue 0) (s tol)
    (∀ tol ∈ [0, 1], (slotAt (v tol) 0).st = .queued ∧ timed (slotAt (v tol) 0).desc = true ∧ (slotAt (v tol) 0).start = some 0 ∧
      (slotAt (v tol) 0).dueAt ≠ none ∧ judgeAt (v tol) 0 ≤ (v tol).now ∧ (slotAt (v tol) 0).judged = false ∧
      (slotAt (v tol) 0).desc.tolUs = tol) ∧
    (slotAt (after (.jobDue 0) { dayJob (jobIn .checking 1 1) with pwr := (inSt .dusk).pwr }) 0).st = .checking := by decide

theorem wit_JobLifetime :
    (let s := dayJob { jobIn .armed 1 1 with start := some 0 }
     (slotAt s 0).st = .armed ∧ (slotAt s 0).start = some 0 ∧ 0 ≤ s.tim.codes ∧ s.evid.suspended = false ∧
      (slotAt s 0).desc.octMask.testBit (7 / 8) = true ∧ (slotAt s 0).desc.octMask.testBit (8 / 8) = false) ∧
    (let s := scope0 16 (fun f => { f with severe := true }) { day with r := { fltCfg := Vector.replicate 48 0x10 } }
     1 &&& stoppedMask s ≠ 0) ∧
    (let s := dayJob { jobIn .queued 1 1 with start := some 1 }
     s.tim.codes < 1 ∧ timed (slotAt s 0).desc = true ∧ s.tim.valid = true ∧ kernOf s 1 + 0 * cUs ≤ 1 ∧ s.now < kernOf s 1 + 0 * cUs) ∧
    (let s : State := { dayJob (jobIn .queued 4 1) with tim := {} }
     (slotAt s 0).st = .queued ∧ (slotAt s 0).dueAt = none ∧ (slotAt s 0).desc.kind = 4 ∧ s.tim.valid = false ∧
      s.now < (slotAt s 0).placedAt + holdMax s ∧ (slotAt s 0).placedAt + holdMax s ≤ 600 * cS) ∧
    (let s := dayJob { jobIn .queued 0 1 with headSince := some 0 }
     (slotAt s 0).headSince = some 0 ∧ 0 + admitMax s ≤ 60 * cS ∧ 60 * cS - 1 < 0 + admitMax s ∧ (slotAt day 0).headSince = none) ∧
    (portUp day .spi = true ∧ (fld 1 0 16).testBit 0 = true ∧ (fld 0xFFFF0000 0 16).testBit 15 = false ∧
      (let s := dayJob (jobIn .running 0 1)
       sameCycle (kernOf { s with now := 320, tim := { s.tim with codes := 320 } } (slotAt s 0).play.org) 320 = false)) ∧
    (let s := dayJob { jobIn .ending 0 1 with endSt := 3 }
     (slotAt s 0).st = .ending ∧ (slotAt s 0).endSt = 3 ∧ (slotAt (dayJob (jobIn .ending 0 1)) 0).endSt ≠ 3) := by decide

/-- A running job with one vector of all states `c` buffered. -/
def playing (c : Nat) : Slot := { jobIn .running 0 1 with play := { buf := [BitVec.ofNat 192 (c * ((8 ^ 64 - 1) / 7))] } }

theorem wit_VectorCycle :
    (∀ c ∈ [0, 1, 2, 3, 4], let s := dayJob (playing c)
      (slotAt s 0).st = .running ∧ (slotAt s 0).play.org = s.tim.codes ∧ (slotAt s 0).stops = [] ∧
      nameAt (slotAt s 0) (slotAt s 0).play.name = some 0 ∧ (slotAt s 0).play.play = 0 ∧
      (slotAt s 0).play.buf.head? = some (BitVec.ofNat 192 (c * ((8 ^ 64 - 1) / 7))) ∧ segLoadOct s 0 = 0 ∧
      stateOf (BitVec.ofNat 192 (c * ((8 ^ 64 - 1) / 7))) 63 = c ∧ (pinAt s 0).safe = false ∧ (tsetEntry s (segTset s 0) 0).fmt < 6) ∧
    (6 ≤ (tsetEntry { day with seg := { tset := [(6, 6)] } } 0 0).fmt ∧ (pinAt (pin0 (fun p => { p with safe := true }) day) 0).safe = true) ∧
    (let c : OctCyc := ⟨⟨1, 0, 0, 0, 0⟩, 1, []⟩
     let r : PinRes := ⟨0, 6, 0, false, false, false, false, none, false⟩
     let s := modCap 0 (fun _ => { cyc := some c }) day
     (capAt s 0).cyc = some c ∧ c.left ≤ 1 ∧ (∀ y ∈ resPut r c.rs, y.fail = false) ∧ c.a.pol.testBit 0 = false ∧
      s.now < knownAt c.a (resPut r c.rs) + 50 * cNs) ∧
    (day.evid.suspended = false ∧ (capAt day 7).loss = none ∧ capFill day 7 < 4094) ∧
    (let s := dayJob (jobIn .running 0 1)
     (slotAt s 0).play.buf = [] ∧ (slotAt s 0).play.eats = none ∧ segStream s 0 = false ∧
      nameAt (slotAt (dayJob { jobIn .running 0 1 with play := { name := 1 } }) 0) 1 = none) ∧
    (let s := dayJob { jobIn .running 0 1 with stops := [⟨true, 3, 0, 0, false⟩], play := { org := 320 } }
     let s := { s with tim := { s.tim with codes := 320 }, now := 320 }
     (slotAt s 0).play.org ≤ s.tim.codes ∧ (slotAt s 0).stops = [⟨true, 3, 0, 0, false⟩] ∧
      cycleOf 0 < cycleOf (kernOf s (slotAt s 0).play.org) ∧ (slotAt s 0).play.n % 64 = 0 ∧ (slotAt s 0).play.buf = [] ∧
      nameAt (slotAt s 0) (slotAt s 0).play.name = some 0 ∧ (playing 0).play.buf ≠ []) ∧
    (let s := dayJob { jobIn .running 0 1 with play := { org := 1 } }
     s.tim.codes < (slotAt s 0).play.org) := by decide

/-- A record of a type, as queued since instant 0. -/
def rec0 (type oct : Nat) : QRec := ⟨mkRec type 0 oct 0 1 0 0, 0, false, 0, none, none⟩

/-- Day in the next cycle with a unit record to chain, and evidence memory of a fill. -/
def chaining (type count : Nat) : State :=
  { dayAt 320 with evid := { unitQ := [rec0 type 0], nextOrd := 1, count := count } }

/-- Day in the next cycle with a pin record of octet 0 to chain. -/
def pinRec (count : Nat) : State := modCap 0 (fun _ => { fifo := [{ rec0 2 0 with oct := some 0 }] }) { dayAt 320 with evid := { count := count } }

set_option maxRecDepth 20000 in
theorem wit_EvidenceChain :
    (leastCand (candidates (formEnds day)) = none ∧ fastOn night = false) ∧
    (∀ n ∈ [0, evCap - 1], ((leastCand (candidates (formEnds (chaining 0x10 n)))).map fun c => recType c.q.body) = some 0x10 ∧
      1 ≤ evFree (chaining 0x10 n) ∧ (chaining 0x10 n).sl.forming = none) ∧
    (((leastCand (candidates (formEnds (chaining 0x30 (evCap - 9))))).map fun c => (recType c.q.body, c.oct)) = some (0x30, none) ∧
      9 ≤ evFree (chaining 0x30 (evCap - 9)) ∧ evFree (chaining 0x30 (evCap - 8)) < 9 ∧ evFree (chaining 0x10 evCap) < 1) ∧
    (((leastCand (candidates (formEnds (pinRec evCap)))).map fun c => c.oct.isSome) = some true ∧ evFree (pinRec evCap) = 0) ∧
    (let s := modCap 0 (fun _ => { loss := some ⟨1, 0, 0, 1, 0, false⟩, fifo := List.replicate 3 (rec0 1 0) }) day
     (capAt s 0).loss = some ⟨1, 0, 0, 1, 0, false⟩ ∧ capFill s 0 < 4094 ∧ s.evid.suspended = false ∧ (capAt day 7).loss = none) ∧
    (let s : State := { day with evid := { sealedEnd := 9, count := 9, oldest := 1, held := List.replicate 8 (rec0 1 0).body } }
     portUp s .usb = true ∧ min (s.r.evidRelHi.toNat * 2 ^ 32 + 1) s.evid.sealedEnd ≤ s.evid.oldest ∧
      s.evid.oldest < min (s.r.evidRelHi.toNat * 2 ^ 32 + 10) s.evid.sealedEnd ∧ exportCovered s 9 = false ∧
      exportCovered { s with evid := { s.evid with exports := [⟨.usb, 8, 8, 9⟩] } } 9 = true) := by decide

/-- Day with the arbiter in a state, at a cycle. -/
def arbIn (a : Arb) (c : Nat) : State := { dayAt (320 * c) with arb := a }

/-- Requests of CE0 and TF raised in cycle 0, with the counters of the reset weights. -/
def twoReqs : Arb := { reqs := [⟨1, 16, 0, true, 0⟩, ⟨9, 4, 0, false, 0⟩], cnt := (Vector.replicate 14 256).set 9 300 }

theorem wit_ArbiterCommands :
    (let v := arbReady (arbIn {} 5)
     coreLocked v = true ∧ (∀ r ∈ v.arb.reqs, r.req ≠ 13) ∧ v.arb.ownerAt ≤ arbCycle v ∧ v.arb.owner = .idle ∧ coreLocked (arbReady night) = false) ∧
    (let u := arbIn { twoReqs with owner := .norm 1, ownerAt := 1, ownerBeats := 16 } 16
     let v := arbReady u
     v.arb.owner = .norm 1 ∧ ownerEnd v ≤ arbCycle v ∧ v.arb.done = false ∧ ∃ r ∈ v.arb.reqs, r.req = 1) ∧
    (let v := arbReady (arbIn { owner := .dbg, ownerAt := 1, ownerBeats := 2, dbgReq := some ⟨0, 2, 2, some 1⟩ } 2)
     v.arb.owner = .dbg ∧ ownerEnd v ≤ arbCycle v ∧ v.arb.done = false) ∧
    (let u := arbIn { twoReqs with owner := .norm 1, ownerAt := 1, ownerBeats := 16, done := true } 17
     u.arb.done = true ∧ ownerEnd u < arbCycle u ∧ u.arb.refDue = none ∧ dbgSeen u (ownerEnd u) = none ∧ arbCands u (ownerEnd u) ≠ [] ∧
      arbCands { u with arb := { u.arb with reqs := [] } } (ownerEnd u) = []) ∧
    (let u := arbIn { twoReqs with owner := .norm 1, ownerAt := 1, ownerBeats := 16, done := true, refDue := some 3, dbgReq := some ⟨3, 1, 1, none⟩ } 17
     u.arb.refDue ≠ none ∧ dbgSeen u (ownerEnd u) ≠ none) ∧
    (let v := arbReady (arbIn { twoReqs with owner := .norm 1, ownerAt := 1, ownerBeats := 16 } 15)
     v.arb.owner = .norm 1 ∧ arbCycle v < ownerEnd v ∧ v.arb.ownerAt ≤ arbCycle v ∧ bit v.r.arbCfg 28 = false ∧ bit v.r.arbCfg 31 = true ∧
      arbCycle v + 1 < v.arb.ownerAt + gwdUs v * 800 ∧ bit (0x10000000 : Word) 28 = true ∧
      (arbCands v (arbCycle v)).filter (fun r => r.req != 1 && decide (vget v.arb.cnt 1 0 < vget v.arb.cnt r.req 0)) ≠ []) ∧
    (let v := arbReady (arbIn { owner := .norm 1, ownerAt := 0, ownerBeats := 200000, winAt := 159744 } 159999)
     v.arb.owner = .norm 1 ∧ v.arb.done = false ∧ arbCycle v ≠ ownerEnd v ∧ v.arb.ownerAt + gwdUs v * 800 ≤ arbCycle v + 1) ∧
    (let z := arbSettle (arbIn {} 4096)
     coreLocked z = true ∧ z.arb.winAt + 4096 ≤ arbCycle z ∧ arbCycle (arbSettle (arbIn {} 4095)) < 0 + 4096) := by decide

theorem wit_RefreshAndDebug :
    (let v := arbReady (arbIn {} 2048)
     coreLocked v = true ∧ (arbCycle v - v.arb.winAt) % 2048 = 0 ∧ v.arb.refDue = none ∧ v.arb.owner = .idle ∧ v.arb.dbgReq = none) ∧
    (let v := arbReady (arbIn { owner := .norm 1, ownerAt := 2040, ownerBeats := 100, refDue := some 2048 } 2112)
     v.arb.refDue = some 2048 ∧ v.arb.owner ≠ .idle ∧ v.arb.owner ≠ .ref ∧ 2048 + 64 ≤ arbCycle v ∧ arbCycle v < ownerEnd v ∧
      v.arb.ownerAt ≤ arbCycle v ∧ arbCycle (arbIn {} 2111) < 2048 + 64 ∧ (arbCycle (arbIn {} 2049) - 0) % 2048 ≠ 0) ∧
    (let v := arbReady (arbIn { owner := .ref, ownerAt := 2048, ownerBeats := 286 } 2333)
     v.arb.owner = .ref ∧ ownerEnd v ≤ arbCycle v ∧ arbCycle (arbIn {} 2332) < ownerEnd v) ∧
    (let u := arbIn { owner := .norm 1, ownerAt := 1, ownerBeats := 16, dbgReq := some ⟨3, 4, 4, none⟩ } 5
     u.arb.owner = .norm 1 ∧ u.arb.dbgReq = some ⟨3, 4, 4, none⟩ ∧ u.arb.done = false ∧ heldOff u 14 = false ∧ u.arb.refDue = none ∧
      max (3 + 1) u.arb.ownerAt < arbCycle u ∧ max (3 + 1) u.arb.ownerAt < ownerEnd u) ∧
    (arbReady (arbIn { dbgReq := some ⟨5, 1, 1, none⟩ } 5)).arb.dbgReq ≠ none := by decide

/-- Day with the sealing engine in a state, at an instant. -/
def sealIn (x : Seal) (t : Nat) : State := { dayAt t with sl := x }

theorem wit_SealCommands :
    (let s := sealIn { recs := 1 } (1000 * cMs)
     fastOn s = true ∧ s.sl.intStart + intMs s * cMs ≤ s.now ∧ (∀ d ∈ s.sl.due, d.1 ≠ 1) ∧ s.sl.recs ≠ 0 ∧ s.evid.suspended = false ∧
      day.sl.recs = 0 ∧ 1000 * cMs - 1 < day.sl.intStart + intMs day * cMs) ∧
    (let s := sealIn { due := [(1, 0), (2, 1)], pool := 1, lastPart0 := some 0 } (5 * cUs)
     (∃ d ∈ s.sl.due, d.2 ≤ s.now) ∧ s.sl.forming = none ∧ s.sl.part0Wait = false ∧ s.sl.lastPart0 = some 0 ∧ 0 + 5 * cUs ≤ s.now ∧
      s.sl.pool ≠ 0) ∧
    (day.sl.pool = 0 ∧ day.sl.waited = false ∧ ∀ d ∈ day.sl.due, day.now < d.2) ∧
    ((sealIn { forming := some ⟨0, (rec0 0x30 0).body, []⟩ } 0).sl.forming = some ⟨0, (rec0 0x30 0).body, []⟩ ∧ day.sl.keyOk = false) ∧
    (coreLocked day = true ∧ 0 + 120 * cUs ≤ (dayAt (120 * cUs)).now ∧ 120 * cUs - 1 < day.sl.poolAt + 120 * cUs) := by decide

/-! ### Witnesses: time, PTP, calibration -/

/-- Day with time sources and other registers set and a time base, at an instant. -/
def timed (src : Word) (m : Tim) (t : Nat) : State :=
  { day with now := t, r := { day.r with timeSrc := src, portCfg := 2 }, tim := m, encl := { day.encl with ref10 := true, ppsOutHigh := false } }

/-- The time base running and valid in a state, with REF10 locked since 0. -/
def base (st : TimeSt) : Tim := { running := true, valid := true, st := st, ref10Since := some 0, lockSince := some 0 }

theorem wit_TimeBase :
    (let s := timed 0x101 { base .holdover with ppsPrev := some 255 } (10 * cMs)
     let x : Slot := { jobIn .armed 1 1 with desc := { (jobIn .armed 1 1).desc with kind := 3 }, checkAt := 0 }
     let y := { s with seqr := { s.seqr with slots := vmod s.seqr.slots 0 fun _ => x } }
     s.tim.running = true ∧ srcMode s = 1 ∧ s.encl.ref10 = true ∧ (255 : Int).natAbs < cNs ∧
      (nearest ((s.tim.codes : Int) - ppsComp s)).2.natAbs < cNs ∧
      (nearest ((s.tim.codes : Int) - ppsComp s)).2.natAbs ≤ stepCodes s ∧ (slotAt y 0).desc.kind = 3 ∧ (slotAt y 0).st = .armed ∧
      (slotAt y 0).start = none ∧ 0 + 10 * cUs ≤ y.now) ∧
    (let s := timed 0x101 { base .pps with codes := 10 * cNs + 1, ppsOutliers := 1 } 0
     s.tim.st = .pps ∧ 10 * cNs < (nearest ((s.tim.codes : Int) - ppsComp s)).2.natAbs ∧ s.tim.ppsOutliers < 2) ∧
    State.reset.tim.running = false ∧ day.tim.ppsLast = none ∧
    (let s := timed 0x101 { base .pps with ppsLast := some 0, ref10Bad := some 0 } (cS + 10 * cUs)
     0 + cS + 10 * cUs ≤ s.now ∧ s.tim.st = .pps ∧ 600 * cS > lockFor s ∧ 0 + 10 * cMs ≤ s.now ∧ cS + 10 * cUs - 1 < 0 + cS + 10 * cUs) ∧
    (let s := timed 0 { base .holdover with holdSince := 0, stepSec := 1 } (60 * cS)
     s.tim.holdSince + 60 * cS ≤ s.now ∧ s.evid.suspended = false ∧ s.tim.stepSec ≠ 0 ∧ jobRuns s = false ∧
      jobRuns (dayJob (jobIn .running 1 1)) = true ∧ day.tim.stepSec = 0) ∧
    (let s := timed 8 (base .pps) 0
     portUp s .core = true ∧ todHostEn s = true ∧ ptpUsable s = false ∧ ringUsable s = false ∧ todHostEn (timed 4 (base .pps) 0) = false) ∧
    (let s := timed 8 { base .pps with codes := 7 * cS + 319 } 0
     s.tim.codes % cS < 320 ∧ s.tim.lastSecond ≠ some (s.tim.codes / cS) ∧ s.encl.j4Skip = false ∧ ppsoEn s = true ∧
      320 ≤ (7 * cS + 320) % cS ∧ day.tim.st = .unlocked) := by decide

/-- Day with the PTP port active and its data set. -/
def ptpDay (p : Ptp) (t : Nat) : State := { dayAt t with r := { day.r with ptpCfg := 0x00300800 }, ptp := p }

/-- A sound header of the domain from clock 5. -/
def hdr5 (seq : Nat) (i : Int) : PtpHdr := ⟨0x12, 44, 44, 0, 0, 5, seq, i⟩

/-- A foreign master heard at 0. -/
def master5 : Master := ⟨5, default, 0, none, 0⟩

theorem wit_PtpCommands :
    ptpActive night = false ∧
    (let h := hdr5 1 (-7)
     ptpActive (ptpDay {} 0) = true ∧ h.version % 16 = 2 ∧ h.msgLen ≤ h.rxLen ∧ h.version / 16 ≤ 1 ∧ h.domain = ptpDomain (ptpDay {} 0) ∧
      h.sdo = 0 ∧ ¬ (({ h with version := 1 } : PtpHdr).version % 16 = 2) ∧ (32 : Nat) / 16 > 1) ∧
    (let u := ptpDay { best := some 5, masters := [master5], pendSync := [⟨1, 0, 0, 0, []⟩], pendReq := [⟨1, 0, 0⟩], raw := some 4, syncCount := 127 } 0
     (u.ptp.masters.filter fun m => m.id != 5).length < 4 ∧ u.ptp.best = some (hdr5 1 1).source ∧ u.ptp.syncCount < 128 ∧
      (u.ptp.pendSync.find? fun y => y.seq == 1) = some ⟨1, 0, 0, 0, []⟩ ∧ (∀ y ∈ u.ptp.pendSync, y.seq ≠ 2) ∧
      (u.ptp.pendReq.find? fun y => y.seq == 1) = some ⟨1, 0, 0⟩ ∧ (∀ y ∈ u.ptp.pendReq, y.seq ≠ 2) ∧ u.ptp.delay = none ∧
      ptpUsable u = true ∧ u.tim.running = true ∧ u.ptp.lastReq = none ∧ ptpUsable day = false ∧
      (u.ptp.masters.find? fun m => some m.id == u.ptp.best) = some master5 ∧ u.now < master5.lastAt + annTimeout u * logDur master5.interval) ∧
    (let u := ptpDay { best := some 5, masters := [master5], lastSync := some 0, lastReq := some 0 } (4 * cS)
     master5.lastAt + annTimeout u * logDur master5.interval ≤ u.now ∧ 0 + 4 * logDur u.ptp.syncInterval ≤ u.now ∧
      4 * cS - 1 < 0 + 4 * logDur u.ptp.syncInterval ∧ (ptpDay { lastReq := some 0 } 1).now < 0 + max (cS / 16) (logDur 0)) := by decide

/-- A measurement that passes every check, at the ends of the ranges of Table 13-4; `atResid` with another timing residual, `atSkew` with
another skew, `atDac` with another offset of every DAC. -/
def goodMeas : ChMeas :=
  { dac := Vector.replicate 20 (15000, -5000), levels := Vector.ofFn fun i : Fin 60 => (0, clipLevel (rawLevel (i.val / 3 % 4) 0))
    cmpOff := Vector.replicate 2 20000, cmpResid := Vector.replicate 2 (-5000), termMilli := 45000, termTrimMilli := 51000
    drvDelay := Vector.replicate 6 2500, cmpDelay := Vector.replicate 2 (-2500), bins := [25, 175], inl := 100, resid := 300
    eyePs := 1000, skew := 1000, skewResid := -150 }
def atResid (n : Nat) : ChMeas := { goodMeas with resid := n }
def atSkew (n : Int) : ChMeas := { goodMeas with skew := n }
def atDac (n : Int) : ChMeas := { goodMeas with dac := Vector.replicate 20 (n, 0) }

/-- A window of octet 0 at a step, begun at 0. -/
def winStep (n : Nat) : Win := ⟨0, n, 0, List.replicate 9 goodMeas, 0, 25⟩

theorem wit_CalibrationWindows :
    (portUp day .usb = true ∧ inDay day = true ∧ octOn day 7 = true ∧ (octAt day 7).win = none ∧ (fld 0x80000080 0 8).testBit 7 = true ∧
      bit (0x80000080 : Word) 31 = true ∧ (fld 0x00000100 8 8).testBit 0 = true ∧ inDay (inSt .evening) = false) ∧
    (let s := oct0 (fun o => { o with calPend := some 0 }) day
     windowFree s 0 = true ∧ admission s 6000 38000 = .yes ∧ (octAt s 1).calPend = none ∧ (∀ i < 16, (slotAt s i).st ≠ .queued) ∧
      fltReact s 18 ≠ 1 ∧ fltReact { s with r := { fltCfg := Vector.replicate 48 0x10 } } 18 = 1) ∧
    (let s := oct0 (fun o => { o with win := some (winStep 1) }) (dayAt (200 * cUs))
     (octAt s 0).win = some (winStep 1) ∧ (winStep 1).stepAt + stepDur 1 ≤ s.now ∧ 200 * cUs - 1 < 0 + stepDur 1) ∧
    (let s := oct0 (fun o => { o with win := some (winStep 8) }) (dayAt (50 * cUs))
     let x := winStep 8
     (octAt s 0).win = some x ∧ x.stepAt + 50 * cUs ≤ s.now ∧
      (∀ i < 9, (groupOut (levelChecks (x.meas.getD i default))).1 = 1 ∧ (groupOut (timingChecks (x.meas.getD i default))).1 = 1) ∧
      (∀ i < 8, (groupOut (skewChecks (x.meas.getD i default))).1 = 1) ∧
      (groupOut (levelChecks (atDac 15001))).1 = 2) ∧
    (let s : State := { dayAt (6 * cMs) with cal := { unitStep := some 0 } }
     s.cal.unitStep = some 0 ∧ 0 + 6 * cMs ≤ s.now ∧ octOn s 0 = true ∧ day.cal.unitStep = none) ∧
    (let s := oct0 (fun o => { o with calPend := some 0 }) { dayAt cS with r := { day.r with calCfg := 1 } }
     (octAt s 0).calPend = some 0 ∧ waitS s ≠ 0 ∧ 0 + waitS s * cS ≤ s.now ∧ waitS { day with r := { day.r with calCfg := 0 } } = 0) := by decide +kernel

/-- Day with octet 0's rolling cycle in a phase since 0, at an instant. -/
def rolling (p : Nat) (t : Nat) : State := oct0 (fun o => { o with roll := ⟨p, 7, 0, none⟩ }) (dayAt t)

theorem wit_RollingCalibration :
    ((octAt (rolling 1 (2000 * cUs)) 0).roll.phase = 1 ∧ 2000 * cUs + 0 ≤ (rolling 1 (2000 * cUs)).now ∧
      rollOn (rolling 1 (2000 * cUs)) 0 = true ∧ rollSkips (rolling 1 (2000 * cUs)) 7 = false ∧ (groupOut (timingChecks goodMeas)).1 = 1 ∧
      (groupOut (timingChecks (atResid 301))).1 ≠ 1) ∧
    ((octAt (rolling 2 (250 * cUs)) 0).roll.phase = 2 ∧ 250 * cUs + 0 ≤ (rolling 2 (250 * cUs)).now ∧ rollOn (rolling 2 (250 * cUs)) 0 = true ∧
      rollSkips (rolling 2 (250 * cUs)) 7 = false ∧ (groupOut (skewChecks goodMeas)).1 = 1 ∧ (groupOut (skewChecks (atSkew 1001))).1 ≠ 1) ∧
    (let s := oct0 (fun o => { o with served := some 7 }) (rolling 4 (2000 * cUs))
     (octAt s 0).roll.phase = 4 ∧ 2000 * cUs + 0 ≤ s.now ∧ (octAt s 0).served ≠ none) ∧
    (let s := pin0 (fun p => { p with safe := true }) (oct0 (fun o => { o with roll := ⟨1, 0, 0, none⟩ }) (dayAt 1))
     (octAt s 0).roll.phase = 1 ∧ s.now < 2000 * cUs + 0 ∧ (octAt s 0).served = none ∧ rollOn s 0 = true ∧ rollSkips s 0 = true ∧
      rollPin s 0 1 = some 1) ∧
    (let s := rolling 3 0
     (octAt s 0).roll.phase = 3 ∧ (octAt s 0).roll.next < 8 ∧ rollOn s 0 = true ∧ (octAt s 0).served = none ∧ rollSkips s 7 = false ∧
      swapOk s 7 = true ∧ swapOk (pin0 (fun p => { p with drv := true }) s) 0 = false) ∧
    (let s := inSt .evening
     rollOn s 0 = false ∧ (octAt s 0).roll.phase = 0 ∧ (octAt s 0).roll.meas = none) ∧
    (let s := oct0 (fun o => { o with served := some 7 }) (rolling 5 0)
     (octAt s 0).served = some 7 ∧ swapOk s 7 = true ∧ (octAt s 0).roll.phase = 5 ∧ (octAt s 0).xptInhibit = false) ∧
    (let s := rolling 6 (1000 * cMs)
     (octAt s 0).roll.phase = 6 ∧ 0 + cMs * fld (octAt s 0).rollCfg 0 16 ≤ s.now ∧ rollOn s 0 = true ∧
      rollPin s 0 (octAt s 0).roll.next = some 7 ∧ 1000 * cMs - 1 < 0 + cMs * fld (octAt s 0).rollCfg 0 16) := by decide +kernel

/-! ### Witnesses: the ring -/

/-- Day as unit 1 of a ring of two units at an instant, master, RUN and sleep allowed. -/
def ringDay (x : Ring) (t : Nat) : State := { dayAt t with r := { day.r with ringCfg := 0x0002010E }, ring := x, tim := { running := true, valid := true, todSrc := 1 } }

/-- A header of unit 2, and one of unit 1. -/
def from2 : RingHdr := ⟨0x20, 1, 14, 0, false, 0⟩
def from1 : RingHdr := ⟨0x20, 0, 1, 0, false, 0⟩

/-- The conditions of a frame of another unit that is taken, at the ends of their ranges. -/
def takes (u : State) (h : RingHdr) : Bool :=
  ringOn u && h.rsvd == 0 && h.src + 1 != unitNo u && decide (h.src < ringSize u) && decide (h.hops < 15)

theorem wit_RingLinks :
    fastOn night = false ∧ fastOn (ringDay {} 0) = true ∧ ringOn (ringDay {} 0) = true ∧ ringTxOn (ringDay {} 0) = true ∧ ringOn day = false ∧
    (portAt (ringDay { pa := ⟨true, true, 2, none⟩, pb := ⟨true, true, 3, none⟩ } 0) .a).bad < 3 ∧
    (let u := ringDay { pb := ⟨true, true, 3, none⟩ } 0
     (portAt u .b).aligned = true ∧ 3 ≤ (portAt u .b).bad ∧ (portAt u .a).aligned = false) ∧
    (let u := ringDay { surveyAt := some 0, reqAt := some 0 } cMs
     u.now ≤ cMs + 0 ∧ cMs + 0 ≤ u.now ∧ from1.rsvd = 0 ∧ from1.src + 1 = unitNo u ∧ takes u from2 = true ∧ u.ring.reqAt = some 0 ∧
      (0 : Int) ≤ 0 ∧ ((100 * cUs : Nat) : Int) < 100 * cUs + 1) ∧
    ((ringDay {} 0).ring.surveyAt = none ∧ (ringDay {} 0).ring.reqAt = none) ∧
    (let u := ringDay { selfLoop := true } cS
     u.ring.selfLoop = true ∧ cS + u.ring.loopAt ≤ u.now ∧ cS - 1 < cS + 0) := by decide

/-- Three good frames in a row, as a port receives them; a port aligns on them, and not on two. -/
def threeFrames : Nat := let f := frameLine from2 (zeros 20); f + 2 ^ 256 * f + 2 ^ 512 * f

theorem wit_RingLinks_lines :
    (searchLine 768 threeFrames).isSome = true ∧ searchLine 767 (threeFrames / 2) = none ∧
    (frameHolds (BitVec.ofNat 256 0).toNat = false ∧
      (let x := BitVec.ofNat 256 (frameLine { from2 with rsvd := 64 } (zeros 20))
       frameHolds x.toNat = true ∧ (lineHdr x.toNat).rsvd ≠ 0) ∧
      (let x := BitVec.ofNat 256 (frameLine { from2 with type := 0x34 } (zeros 20))
       frameHolds x.toNat = true ∧ (lineHdr x.toNat).type ∉ frameTypes)) ∧
    (from2.type < 256 ∧ from2.src < 16 ∧ from2.hops < 16 ∧ from2.seq < 256 ∧ (zeros 20).length = 20) := by decide +kernel

theorem wit_RingTime :
    (let u := ringDay { master := some 0 } 0
     ringOn u = true ∧ fastOn u = true ∧ ringTxOn u = true ∧ isMaster u = true ∧ mustResign u = false) ∧
    (let u := ringDay { pa := ⟨true, true, 0, none⟩, pb := ⟨true, true, 0, none⟩, surveyOk := true, seen := 3 } 0
     mayClaim u = true ∧ isMaster u = false ∧ noTimeFor u (8 * cMs) = true ∧ u.ring.master = none) ∧
    (let u := ringDay { claiming := some 0, lastTime := some 0 } cMs
     takes u from2 = true ∧ unitNo u ≤ from2.src ∧ 0 + cMs ≤ u.now ∧ cMs - 1 < 0 + cMs ∧ noTimeFor u (8 * cMs) = false ∧
      takes { u with r := { u.r with ringCfg := 0x0002020E } } from1 = true ∧ from1.src < 2) ∧
    (let u := ringDay { master := some 1, lastTime := some 0 } (3 * cMs - 1)
     takes u from2 = true ∧ u.ring.master = some from2.src ∧ timeUsed u .b from2.hops = true ∧ noTimeFor u (3 * cMs) = false ∧
      noTimeFor { u with now := 3 * cMs } (3 * cMs) = true) ∧
    (let u := ringDay { master := some 2, lastTime := some 0 } 0
     u.ring.master ≠ some from2.src ∧ isMaster u = false ∧ noTimeFor u (3 * cMs) = false) ∧
    (let u := { ringDay { sync := true } 0 with r := { (ringDay {} 0).r with ringArg := 1 } }
     portUp u .usb = true ∧ ringValid u = true ∧ u.ring.sync = true ∧ u.r.ringArg.toNat ≠ 0 ∧ fld 0x60000000 29 3 = 3 ∧
      fld 0x80000000 29 3 = 4 ∧ timeOfCode (timeCode (60 * cS)) ≤ masterNow u + 60 * cS ∧
      masterNow u + 60 * cS < timeOfCode (timeCode (60 * cS + 256)) ∧ runEn u = true) ∧
    (ringDay {} 0).ring.sync = false := by decide

/-- The same with an agreement in a state, its instants at 1 s and 2 s. -/
def agreeing (st : Nat) (prop : Bool) (t : Nat) : State :=
  { ringDay { sync := true, agree := { id := 1, st := st, proposer := prop, target := 1, sleepS := 1, tn := cS, tw := 2 * cS, guardUs := 10, accept := 3 } } t
    with tim := { running := true, valid := true, todSrc := 1, codes := t }, encl := { hpres := true } }

/-- A unit in a ring sends IDLE in a slot no other frame has: a beacon of its agreement while that is confirmed. -/
theorem wit_SleepAgreements_line :
    let u := agreeing 4 false 0
    ringTxOn u = true ∧ (∀ f ∈ u.ring.tx, f.outA ≠ true ∨ f.at_ ≠ 0) ∧ ringTxOn (agreeing 4 false 0 |> fun s => { s with pwr := night.pwr }) = false := by
  decide

/-- A proposal to sleep for `n` s. -/
def proposal (n : Nat) : AgreeMsg := ⟨1, 1, 0, 3, 0, n, 1, 0⟩

theorem wit_SleepAgreements :
    (night.pwr.st = .night ∧ night.clk.coreFailed = false ∧ dayBlock night = false ∧ day.pwr.st ≠ .night) ∧
    (let u := { agreeing 0 false 0 with r := { (ringDay {} 0).r with ringArg := 86400 } }
     fastOn u = true ∧ ringTxOn u = true ∧ portUp u .core = true ∧ fld 0x20000000 29 3 = 1 ∧ fld 0x40010000 29 3 = 2 ∧ ringValid u = true ∧
      u.ring.sync = true ∧ u.r.ringArg.toNat = 86400 ∧ agreeHeld u = false ∧
      vetoCode u false 86400 (fld 0x40010000 16 8) ((masterNow u + ringLeadMs u * cMs) / 256 * 256) = 0 ∧
      vetoCode u false 86400 (fld 0x40000000 16 8) ((masterNow u + ringLeadMs u * cMs) / 256 * 256) = 8) ∧
    (let u := agreeing 0 false 0
     takes u from2 = true ∧ proposalBad 86400 2 = false ∧ proposalBad 86401 2 = true ∧
      vetoCode u (displaces u 1) 86400 1 (msgTn u (proposal 86400)) = 0 ∧ agreeHeld (agreeing 1 false 0) = true) ∧
    (let u := agreeing 1 true 0
     ringOn u = true ∧ from1.rsvd = 0 ∧ from1.src + 1 = unitNo u ∧ u.ring.agree.proposer = true ∧ u.ring.agree.st = 1 ∧
      u.ring.agree.id = (proposal 1).agreeId ∧ (proposal 1).accept.toNat = 2 ^ ringSize u - 1 ∧ (proposal 1).vetoed = 0 ∧
      vetoCode u true u.ring.agree.sleepS u.ring.agree.target u.ring.agree.tn = 0 ∧
      ({ proposal 1 with accept := 1 } : AgreeMsg).accept.toNat ≠ 2 ^ ringSize u - 1) ∧
    ((agreeing 2 false 0).ring.agree.st = 2 ∧ takes (agreeing 2 false 0) from2 = true ∧ (agreeing 3 true 0).ring.agree.wakeBefore = false) ∧
    ((∀ x ∈ (agreeing 4 false 0).ring.wakeSeen, x.1 ≠ 1 ∨ x.2.1 ≠ 1) ∧ (agreeing 4 false 0).ring.wakeTimes = [] ∧
      (1, 1, RingPort.b == .b) ∈ (ringDay { wakeSeen := [(1, 1, true)] } 0).ring.wakeSeen) ∧
    (let u := agreeing 3 true (25 * cMs)
     u.ring.agree.sentAt + ringLeadMs u * cMs / 4 ≤ u.now ∧ (agreeing 0 false 0).ring.agree.st ∉ [1, 3]) ∧
    (let u := agreeing 3 false (cS - 10 * cMs)
     (u.ring.agree.tn : Int) - ringOfs u ≤ (u.tim.codes + 10 * cMs : Nat)) ∧
    (let u := agreeing 4 false cS
     u.ring.agree.st = 4 ∧ u.ring.agree.slept = false ∧ u.ring.agree.tn ≤ u.tim.codes ∧ u.pwr.st = .day ∧ (agreeing 4 false (cS - 1)).tim.codes < cS) ∧
    (let u := agreeing 4 false (2 * cS)
     u.ring.agree.tw ≤ u.tim.codes ∧ (agreeing 4 false (2 * cS - 1)).tim.codes < u.ring.agree.tw) ∧
    (let u := agreeing 6 false (2 * cS + 10 * cUs)
     u.ring.agree.st = 6 ∧ u.ring.agree.tw + u.ring.agree.guardUs * cUs ≤ u.tim.codes ∧ (agreeing 6 false (2 * cS)).tim.codes < 2 * cS + 10 * cUs) ∧
    (let u := agreeing 7 false (listenS day * cS)
     u.ring.agree.st = 7 ∧ u.ring.agree.listenAt + listenS u * cS ≤ u.now ∧ (agreeing 7 false 0).now < 0 + listenS day * cS) := by decide

/-! ### Witnesses: SPI and USB -/

/-- An image of two records, IDENT and SIG, built and signed outside the model (SEQ 2, KEY_ID 1, private key 1, nonce 5). -/
def goodImage : List Byte := beBytes 240
  (0x49535a4f0100400002000000f000000002000000434200000100000000000000000000000000000000000000000000000000000000000000000000009c43ea1d01000000300000005445535400000000000000000000000000000000000000000000000000000000010000000000000000000000000000002032d682f00000006800000001000000000000001ad59044622f6f6ba14a61a59a49a2411247c4a4fa8a671df0cf22d9856e52d751590b7a515140d2d784c85608668fdfef8c82fd1f5be52421554a0dc3d033ed15a2ebf2f0b35672e4f63b98ba233d39cd2a74ba052e0f406a0748fb0ea61af4d702dbfc)

/-- MRAM with the public key of private key 1 enrolled. -/
def keyMram : List Host.Cell := wrBytes [] enrolAddr (beBytes 64 (p256g.x * 2 ^ 256 + p256g.y))

/-- Day with that image staged whole. -/
def staged : State := { day with mram := keyMram, boot := { imageApplied := true, bank := 1, seqA := 1, stage := goodImage, stageLen := 240 } }

theorem commit_of_good_image : commitCode staged = 0 := by decide +kernel

/-- A bank whose content passes every check: bank A with that image in it. -/
theorem wit_ImageBanks_good :
    let m := wrBytes keyMram (bankAddr .a) goodImage
    (verifyImage m (imgLimits { reading 0 with mram := m }).1 [] (rdBytes m (bankAddr .a) (leAt (rdBytes m (bankAddr .a) 64) 0x0C 4))).1 = 1 := by
  decide +kernel

/-- A frame of whole words kept. -/
def frame (ws : List Word) : SpiFrame := ⟨ws, 0, none, false⟩

set_option maxRecDepth 20000 in
theorem wit_SpiFrames :
    (day.spi.running = true ∧ day.encl.hpres = true) ∧
    (let f := frame (0xA51000FF :: 0x03000007 :: List.replicate 254 0)
     spiKind f = 1 ∧ f.words.length ≤ 256 ∧ fld 0xA51000FF 0 9 = f.words.length - 1 ∧ spiOps.contains (fld 0x03000007 24 8) = true ∧
      day.spi.ans = none ∧ day.spi.exp = none ∧ day.spi.rx = none) ∧
    (spiKind (frame [0xA5200000, 0, 0]) = 2 ∧ spiKind (frame [0xA5300000]) = 3 ∧ spiKind (frame [0xA5400000]) = 4 ∧ spiKind (frame [0xA5500000]) = 0 ∧
      spiKind (frame [0xA5000000]) = 0 ∧ spiKind (frame []) = 5 ∧ (⟨[0xA5200000], 31, none, false⟩ : SpiFrame).partialBits % 32 ≠ 0) ∧
    (let u := { day with spi := { running := true, ans := some [1, 2], exp := some ⟨31, 32, 40, 0⟩, note := some [1, 2], rx := some ⟨[0], 1⟩ } }
     u.spi.ans = some [1, 2] ∧ [(1 : Word), 2].length + 1 ≤ (frame [0xA5200000, 0, 0]).words.length ∧
      (frame [0xA5200000, 0]).words.length < [(1 : Word), 2].length + 1 ∧ u.spi.exp = some ⟨31, 32, 40, 0⟩ ∧ (31 : Nat) ≠ 32 ∧ u.spi.note = some [1, 2] ∧
      u.spi.rx ≠ none) ∧
    night.spi.running = false ∧ ({ day with encl := {} } : State).encl.hpres = false := by decide

/-- Day with a command stored at the SPI port: OP, TAG 7 and a body. -/
def spiCmd (op : Nat) (b : List Word) : SpiCmd := ⟨word (0xA5100000 + (b.length + 1)) :: word (op * 2 ^ 24 + 7) :: b, b.length + 1⟩
def spiHas (op : Nat) (b : List Word) : State := { day with spi := { running := true, rx := some (spiCmd op b) } }
def spiGood (op : Nat) (b : List Word) : Bool :=
  let c := spiCmd op b
  spiServes (spiHas op b) && c.op == op && c.body == b && decide (0 < c.received) && spiJudge (spiHas op b) c == 0

set_option maxRecDepth 20000 in
theorem wit_SpiCommands :
    (day.spi.rx = none ∧ spiServes night = false ∧ spiJudge (spiHas 0x01 [2, 0]) (spiCmd 0x01 [2, 0]) ≠ 0 ∧
      spiJudge (spiHas 0x7F []) (spiCmd 0x7F []) ≠ 0 ∧ spiJudge { spiHas 0x03 [] with pwr := (inSt .maint).pwr } (spiCmd 0x03 []) ≠ 0) ∧
    (spiGood 0x01 [2, 1] = true ∧ spiGood 0x01 [0xFFFFFFFC, 1] = true ∧ spiGood 0x01 [0, 1] = true ∧ inSpace 0xFFFFFFFC = false ∧ inSpace 0 = true) ∧
    (spiGood 0x02 [2, 5] = true ∧ spiGood 0x02 [0x030, 1] = true ∧ spiGood 0x03 (List.replicate 254 9) = true) ∧
    (spiGood 0x10 ([0, 0x80000000] ++ List.replicate 6 1) = true ∧ spiGood 0x10 ([0, 0x7FFFFFE8] ++ List.replicate 6 1) = true ∧
      vstoreSize < 0x80000000 + 24 ∧ 0x7FFFFFE8 + 24 ≤ vstoreSize ∧ vstoreBusy day 0x7FFFFFE8 (0x7FFFFFE8 + 24) = false ∧ spiGood 0x11 [0, 0x7FFFFFE8, 1] = true) ∧
    spiGood 0x18 (List.replicate 194 0) = true ∧ sringOn day 0 = false ∧
    (let u := { spiHas 0x18 (List.replicate 194 0) with r := { day.r with sringCfg := vmod day.r.sringCfg 0 fun _ => 0x00010000 } }
     sringOn u 0 = true ∧ wAt (List.replicate 194 (0 : Word)) 1 = (vget u.seqr.srings 0 {}).wr ∧ (vget u.seqr.srings 0 {}).pieces = [] ∧
      sringFill (vget u.seqr.srings 0 {}) < 128 * sringSize u 0) ∧
    (spiGood 0x20 (0x00440000 :: List.replicate 16 0) = true ∧ seqClosed (inSt .dusk) = true) ∧
    spiGood 0x21 [0xFFFF] = true ∧ (0xFFFF : Nat).testBit 15 = true ∧ (slotAt (dayJob (jobIn .queued 1 1)) 0).st = .queued ∧ spiGood 0x22 [15] = true ∧
    (spiGood 0x30 [0, 1, 0xFFFFFFFF] = true ∧ spiGood 0x31 [0, 1] = true ∧ spiGood 0x38 [0, 1008] = true ∧ spiGood 0x40 [0, 1] = true ∧
      dAt [(0 : Word), 1, 5] 0 = 1) ∧
    (let u : State := { day with evid := { oldest := 2, sealedEnd := 40, count := 50 } }
     1 < u.evid.oldest ∧ u.evid.sealedEnd < 41 ∧ exportJudge u 2 0xFFFFFFFF = .records 38 ∧ exportJudge u 2 31 = .records 31 ∧
      exportCovered u 40 = false) ∧
    (let u : State := { dayAt (2 * cS) with spi := { running := true, exp := some ⟨31, 32, 40, 0⟩, ans := some [] } }
     u.spi.exp ≠ none ∧ u.spi.ans ≠ none ∧ u.spi.ansAt + 2 * cS ≤ u.now ∧ 2 * cS - 1 < 0 + 2 * cS) := by decide

/-- Day with segment 0 loaded, its period and the compare windows of octet 0, and a submission of it on octet 0, in network order. -/
def subDay : State := { day with seg := { stat := [(0, 1, 0)], mem := [(2, 3200)], tset := (List.range 8).map fun n => (8 * n + 5, 64) } }
def goodDesc : List Byte := beBytes 2 68 ++ beBytes 2 1 ++ [1, 0, 0, 255] ++ zeros 60

theorem wit_submission_accepted : ∀ source ∈ [0, 1], (submit source ⟨true, goodDesc⟩ none subDay).2.code = 0 := by decide +kernel

/-- A setup packet without a cut transfer. -/
def setup (ty va ix le : Nat) : UsbSetup := ⟨ty, va, ix, le, none⟩

/-- Day with the device in a state. -/
def usbIn (d : Nat) (high : Bool) : State := { day with usb := { dev := d, high := high } }

theorem wit_UsbBusAndStandard :
    (usbIn 1 true).usb.dev ≠ 0 ∧ (usbIn 0 true).usb.dev = 0 ∧ ({ (usbIn 4 true) with usb := { dev := 4, upOn := true } } : State).usb.upOn = true ∧
    (setup 0x80 0 0 2).cut = none ∧ (⟨0x80, 0, 0, 2, some default⟩ : UsbSetup).cut ≠ none ∧ usbControl (usbIn 1 true) = false ∧
    usbControl (usbIn 2 true) = true ∧ 3 ≤ (usbIn 3 true).usb.dev ∧ (usbIn 4 true).usb.dev = 4 ∧ usbControl (usbIn 4 true) = true ∧
    (usbIn 4 true).usb.high = true ∧ (usbIn 4 false).usb.high = false ∧ (setup 0 2 (256 * 5) 0).wIndex = 256 * 5 ∧
    (descOf (usbIn 4 true) 1 0).isSome = true ∧ descOf (usbIn 4 true) 0x7F 0 = none ∧ (setup 0x81 0x0100 0 18).bmRequestType ≠ 0x80 := by decide

theorem wit_UsbVendor :
    (∀ x ∈ ([setup 0xC0 0 0 1, setup 0xC0 0 0 65535, setup 0xC0 0xFFFC 0xFFFF 256, setup 0xC0 0xFFFF 0 4096, setup 0x40 0x030 0 4, setup 0x40 0 0 12,
      setup 0x40 0 0 8, setup 0x40 0 0 0] : List UsbSetup), x.cut = none) ∧
    (let x := setup 0x40 0x030 0 4
     usbControl day = true ∧ x.bmRequestType = 0x40 ∧ 4 ≤ x.wLength ∧ x.wLength % 4 = 0 ∧ rangeJudge (usbAddr x) (x.wLength / 4) = .done ∧
      rangeJudge (usbAddr (setup 0x40 2 0 4)) 1 = .align ∧ rangeJudge (usbAddr (setup 0x40 0xFFFC 0xFFFF 8)) 2 = .address ∧ (4 ≤ 256 ∧ ¬ (260 ≤ 256))) ∧
    (let u : State := { day with evid := { oldest := 2, sealedEnd := 40, count := 50 } }
     leAt (leBytes 8 1 ++ leBytes 4 1) 0 8 < u.evid.oldest ∧ u.evid.sealedEnd < leAt (leBytes 8 41 ++ leBytes 4 1) 0 8 ∧
      exportJudge u 2 (leAt (leBytes 8 2 ++ leBytes 4 3) 8 4) = .records 3 ∧ (leBytes 8 2 ++ leBytes 4 3).length = 12 ∧ exportCovered u 40 = false) ∧
    (leAt (leBytes 4 0 ++ leBytes 4 2048) 4 4 = 2048 ∧ 2048 < leAt (leBytes 4 0 ++ leBytes 4 2049) 4 4 ∧ (65536 % 4 = 0 ∧ 2 ^ 32 < 0xFFFFFFFC + 65536 ∧
      0xFFFF0000 + 65536 ≤ 2 ^ 32)) ∧
    ({ day with usb := { dev := 4, bulk := some ⟨1, [], 0⟩ } } : State).usb.bulk ≠ none ∧ day.usb.bulk = none ∧ bit day.r.usbCfg 0 = false ∧
    bit ({ day with r := { day.r with usbCfg := 1 } } : State).r.usbCfg 0 = true ∧
    (leAt (leBytes 4 64) 0 4 = 64 ∧ leAt (leBytes 4 1048576) 0 4 % 4 = 0 ∧ day.pwr.st ≠ .dusk ∧ (inSt .dusk).pwr.st = .dusk ∧ commitCode day ≠ 0) ∧
    (let u : State := { dayAt (2 * cS) with usb := { dev := 4, upOn := true, upLen := 64, upGot := 60, bulk := some ⟨1, List.replicate 64 0, 0⟩ } }
     usbBulkOn u = true ∧ u.usb.haltOut = false ∧ [(1 : Byte), 2, 3, 4].length ≤ u.usb.upLen - u.usb.upGot ∧
      u.usb.upLen - u.usb.upGot < [(1 : Byte), 2, 3, 4, 5].length ∧ u.usb.haltIn = false ∧ bulkSize u.usb.high = 64 ∧
      u.usb.upGot < u.usb.upLen ∧ u.usb.upAt + 2 * cS ≤ u.now ∧ 2 * cS - 1 < 0 + 2 * cS) ∧
    day.usb.upOn = false ∧ usbBulkOn night = false := by decide

/-! ### Witnesses: Ethernet, TASP, faults and firmware -/

/-- Day with the Ethernet services in a DHCP state, IPv6 on. -/
def ethDay (dh : Nat) (t : Nat) : State :=
  { dayAt t with
    boot := { imageApplied := true, net := [2] }
    eth := { running := true, link := true, ipv4 := 0x0A000001, mask := 8, dhcpSt := dh, dhcpRetry := 64, ipv6 := [(0x20010DB8, true), (0x20010DB9, false)],
             arp := [(0x0A000002, 1, 0)] } }

theorem wit_EthernetServices :
    fastOn day = true ∧ fastOn night = false ∧ day.eth.link = true ∧ night.eth.link = false ∧ ethOn night = false ∧ ethOn day = true ∧
    (∀ d ∈ [1, 2, 3, 4, 5], ethOn (ethDay d 0) = true ∧ (ethDay d 0).eth.running = true ∧ (ethDay d 0).eth.dhcpAt ≤ (ethDay d 0).now ∧
      (ethDay d 0).eth.dhcpT2 ≤ (ethDay d 0).now ∧ (ethDay d 0).eth.dhcpEnd ≤ (ethDay d 0).now) ∧
    (ethDay 2 0).eth.dhcpRetry = 64 ∧ (1 : Nat) ∉ [2, 4, 5] ∧ night.eth.running = false ∧
    ((ethDay 0 0).eth.ipv4 ≠ 0 ∧ (ethDay 0 0).eth.arp.length ≤ 16 ∧ night.eth.ipv4 = 0 ∧ ¬ ((0x0A000002 : BitVec 32) = (ethDay 0 0).eth.ipv4)) ∧
    (v6On (ethDay 0 0) = true ∧ ((ethDay 0 0).eth.ipv6.filter fun x => !linkLocal x.1).length = 2 ∧ v6On day = false ∧
      ((0x20010DB9 : BitVec 128), false) ∈ (ethDay 0 0).eth.ipv6 ∧ linkLocal 0x20010DB9 = false ∧ linkLocal (BitVec.ofNat 128 (0xFE80 * 2 ^ 112)) = true ∧
      ((0x20010DB8 : BitVec 128), true) ∈ (ethDay 0 0).eth.ipv6) ∧
    (ownAddr day false 0x0A000001 = true ∧ (List.replicate 1472 (0 : Byte)).length ≤ 1472 ∧ 1472 < (List.replicate 1473 (0 : Byte)).length ∧
      routed day ⟨false, 0x0AFFFFFF, 0⟩ = true ∧ routed day ⟨false, 0x0B000000, 0⟩ = false ∧ ownAddr day true 0x0A000001 = false) ∧
    ((1518 : Nat) < 1519 ∧ (1522 : Nat) < 1523) ∧
    ptpGroup day false = some 0xE0000181 ∧ ptpGroup day true = none := by decide +kernel

/-- A prefix of which the unit forms a global address, whatever its MAC address is. -/
theorem wit_prefix_forms (x : BitVec 64) : linkLocal (BitVec.ofNat 128 (0 * 2 ^ 64 + x.toNat)) = false := by
  have h : x.toNat < 2 ^ 64 := x.isLt
  have e : x.toNat % 2 ^ 128 / 2 ^ 118 = 0 := by omega
  unfold linkLocal
  rw [BitVec.toNat_ofNat, Nat.zero_mul, Nat.zero_add, e]
  decide

/-- A client, and a session of it with number 9 and HIGH 100. -/
def client : NetAddr := ⟨false, 0x0A000002, 5⟩
def sess9 : Sess := ⟨9, client, 1, client, 100, [100], [⟨100, 0x22, 0, []⟩], true, 3, [(1, []), (2, [])], 0⟩

/-- Day with that session at position 0. -/
def sessDay (t : Nat) : State := { dayAt t with tasp := { day.tasp with sess := vmod day.tasp.sess 0 fun _ => some sess9 } }

/-- The session at a position. -/
def sessOf (u : State) (i : Nat) : Option Sess := vget u.tasp.sess i none

/-- A datagram of the client, sealed with key and OPKEY_ID. -/
def datagram (flags : Byte) (keyId : Nat) (key : List Byte) (n : Nat) : List Byte :=
  let d := [(0x54 : Byte), 0x41, 1, flags, 0x03, 0] ++ beBytes 2 n ++ beBytes 4 keyId ++ beBytes 4 9 ++ beBytes 4 101 ++ zeros 4 ++ zeros n
  d ++ (hmacSha256 key d).take 16

theorem wit_TaspSessions :
    (ethOn night = false ∧ ethOn day = true ∧ day.tasp.on = true ∧ (ethDay 0 0).tasp.on = true ∧ ({ day with tasp := {} } : State).tasp.on = false) ∧
    (let d := datagram 1 7 day.tasp.key 0
     let d2 := datagram 0 8 day.tasp.key 1412
     40 ≤ d.length ∧ tAt d 0 3 = 0x544101 ∧ 40 + tAt d 6 2 = d.length ∧ tAt d 6 2 ≤ 1412 ∧ tAt d 8 4 = day.tasp.keyId ∧ tAt d 3 1 ≠ 0 ∧
      d.drop (d.length - 16) = (hmacSha256 day.tasp.key (d.take (d.length - 16))).take 16 ∧ d2.length = 1452 ∧ 40 + tAt d2 6 2 = d2.length ∧
      tAt d2 8 4 ≠ day.tasp.keyId ∧ ([] : List Byte).length < 40) := by decide +kernel

theorem wit_TaspSessions_served :
    (let u := sessDay 0
     routed u client = true ∧ sessPos u 9 = some 0 ∧ sessPos u 8 = none ∧ sessOf u 0 = some sess9 ∧ seqAt sess9 101 = .above ∧ seqAt sess9 37 = .window ∧
      seqAt sess9 36 = .below ∧ ¬ (37 ∈ sess9.seen) ∧ sess9.seen.contains 100 = true ∧ sess9.cache.find? (fun c => c.seq == 100) = some ⟨100, 0x22, 0, []⟩ ∧
      u.tasp.reqs.length < 64 ∧ u.fw.restarting = none ∧ taspBodyOk 0x22 [16, 0, 0, 0] = false ∧ taspBodyOk 0x22 [15, 0, 0, 0] = true ∧
      taspOffered (inSt .dusk) 0x70 = false ∧ taspOffered u 0x62 = true ∧ taspBodyOk 0x60 (beBytes 8 1) = true) := by decide +kernel

theorem wit_TaspSessions_rest :
    (let u := { sessDay 0 with fw := { restarting := some 0 }, tasp := { (sessDay 0).tasp with reqs := List.replicate 64 (3, ⟨client, 9, 5, []⟩) } }
     64 ≤ u.tasp.reqs.length ∧ u.fw.restarting ≠ none) ∧
    (let u := { day with tasp := { day.tasp with sess := Vector.replicate 4 (some { sess9 with cnonce := 2 }) } }
     (∀ j < 4, (sessOf u j).all (fun y => !(y.origin == client && y.cnonce == tAt (beBytes 8 1) 0 8)) = true) ∧
      (∀ j < 4, (sessOf u j).any (fun y => decide (u.now < y.lastAt + 10 * cS)) = true) ∧ sessOf day 0 = none ∧ sess9.cnonce = tAt (beBytes 8 1) 0 8) ∧
    (taspBodyOk 0x63 (beBytes 4 1 ++ [32, 0, 0, 0]) = true ∧ sess9.notes = (1, []) :: [(2, [])] ∧ tAt (beBytes 4 1 ++ [32, 0, 0, 0]) 0 4 = 1 ∧
      serial 1 (tAt (beBytes 4 0 ++ [32, 0, 0, 0]) 0 4) < 2 ^ 31) ∧
    (let u := sessDay (60 * cS)
     sess9.lastAt + (if fld u.r.ethCfg 8 8 < 10 then 60 else fld u.r.ethCfg 8 8) * cS ≤ u.now) ∧
    (let u := { sessDay (10 * cS) with boot := { stage := [1], stageLen := 64 }, tasp := { (sessDay 0).tasp with upSess := some 9, queue := [⟨client, [1], none⟩] } }
     u.tasp.upSess ≠ none ∧ u.boot.stage.length < u.boot.stageLen ∧ u.tasp.upAt + 10 * cS ≤ u.now ∧ u.eth.running = true ∧ u.tasp.queue ≠ [] ∧
      routed u client = true ∧ routed u ⟨false, 0x0B000000, 0⟩ = false) ∧
    (let g : Gap := ⟨5, 2, 9, 0⟩
     let u := { sessDay 0 with seqr := { srings := vmod (Vector.replicate 4 {}) 0 fun q => { q with gap := some g } } }
     (vget u.seqr.srings 0 {}).gap = some g ∧ g.next ≤ u.now ∧ g.sent < retxMax u ∧ sessNum u g.session = some sess9 ∧ haveSource u sess9.src = true ∧
      retxMax u ≤ ({ g with sent := 3 } : Gap).sent ∧ (vget u.seqr.srings 1 {}).gap = none) := by decide +kernel

/-- Whether a request of OP with a body is served in a state with the session. -/
def serves (u : State) (op seq : Nat) (b : List Byte) : Bool :=
  ethOn u && u.tasp.on && u.fw.restarting.isNone && decide (u.tasp.reqs.length < 64) && sessPos u 9 == some 0 && sessOf u 0 == some sess9 &&
  routed u client && (seqAt sess9 seq == .above || (seqAt sess9 seq == .window && !sess9.seen.contains seq)) && taspBodyOk op b && taspOffered u op

theorem wit_TaspRequests :
    let u := sessDay 0
    (serves u 0x01 101 (beBytes 4 0 ++ [0, 1, 0, 0]) = true ∧ rangeJudge 0 1 = .done ∧ serves u 0x01 37 (beBytes 4 0xFFFFFFFC ++ [0, 64, 0, 0]) = true ∧
      rangeJudge 0xFFFFFFFC 64 = .address) ∧
    (serves u 0x02 101 (beBytes 4 0x30 ++ [0, 1, 0, 0] ++ beBytes 4 1) = true ∧ rangeJudge 0x30 1 = .done ∧ rangeJudge 2 1 = .align) ∧
    serves u 0x03 101 (zeros 1412) = true ∧
    (serves u 0x10 101 (beBytes 8 0x7FFFFFE8 ++ zeros 24) = true ∧ 0x7FFFFFE8 + 24 ≤ vstoreSize ∧ vstoreBusy u 0x7FFFFFE8 (0x7FFFFFE8 + 24) = false ∧
      (let b := { u with seqr := { u.seqr with slots := vmod u.seqr.slots 0 fun _ => jobIn .running 0 1 }, seg := { mem := [(0, 1), (1, 4)] } }
       vstoreBusy b 0 48 = true)) ∧
    (serves u 0x11 101 (beBytes 8 0x7FFFFFE8 ++ beBytes 4 1) = true ∧ vstoreSize < 0x7FFFFFE8 + 24 * 2) ∧
    (serves u 0x18 101 (zeros 776) = true ∧ sringOn u 0 = false ∧
      sringOn { u with r := { u.r with sringCfg := vmod u.r.sringCfg 0 fun _ => 0x00010000 } } 0 = true) ∧
    (serves u 0x20 101 goodDesc = true ∧ serves { u with pwr := (inSt .dusk).pwr } 0x20 101 goodDesc = true ∧
      seqClosed { u with pwr := (inSt .dusk).pwr } = true) ∧
    serves u 0x21 101 [0xFF, 0xFF, 0, 0] = true ∧ serves u 0x22 101 [15, 0, 0, 0] = true ∧
    (serves u 0x24 101 (beBytes 4 1 ++ [0, 0, 0, 0]) = true ∧ ringValid u = false ∧
      (let v := { u with r := { u.r with ringCfg := 0x0002010E }, ring := { sync := true } }
       serves v 0x24 101 (beBytes 4 1 ++ [0, 0, 0, 0]) = true ∧ ringValid v = true ∧ v.ring.sync = true ∧ fastOn v = true)) ∧
    (serves u 0x30 101 (beBytes 8 2 ++ beBytes 4 0xFFFFFFFF ++ [64, 0, 0, 0]) = true ∧
      (let v : State := { u with evid := { oldest := 2, sealedEnd := 88, count := 90 } }
       exportJudge v 2 0xFFFFFFFF = .records 86 ∧ 43 * 1 < 86 ∧ 86 ≤ 43 * (1 + 1) ∧ 1 < v.evid.oldest ∧ v.evid.sealedEnd < 89 ∧ exportCovered v 88 = false)) ∧
    serves u 0x31 101 (beBytes 8 88) = true ∧ serves u 0x38 101 (beBytes 4 0 ++ beBytes 4 (1404 * 65536)) = true ∧
    serves u 0x40 101 (beBytes 4 0 ++ beBytes 4 (87 * 65536)) = true ∧
    (serves u 0x70 101 (beBytes 4 64) = true ∧ serves u 0x70 101 (beBytes 4 1048576) = true) ∧
    (let v := { u with boot := { u.boot with stage := zeros 8, stageLen := 16 }, tasp := { u.tasp with upSess := some 9 } }
     serves v 0x71 101 (beBytes 4 8 ++ zeros 8) = true ∧ 8 + 8 ≤ v.boot.stageLen ∧ 4 + 4 ≤ v.boot.stage.length ∧ v.boot.stage.length < 12 + 4 ∧
      v.boot.stageLen < 9 + 8) ∧
    (serves u 0x72 101 [] = true ∧ serves u 0x73 101 [] = true ∧ commitCode u ≠ 0 ∧ serves { staged with tasp := u.tasp } 0x72 101 [] = true) := by
  decide +kernel

theorem wit_FaultsAndFirmware :
    (let s := scope0 16 (fun f => { f with severe := true }) { day with r := { fltCfg := Vector.replicate 48 0x10 } }
     fastOn s = true ∧ (scopeAt s 16 0).severe = true ∧ fltSoft s 16 = false ∧ persists s 16 0 = false ∧ srcOct 16 = true ∧ srcOct 47 = false ∧
      fltReact s 16 = 1 ∧ selSrc s = 0) ∧
    (portUp day .core = true ∧ 48 ≤ fld 0x30 0 6 ∧ srcOct (fld 0x10 0 6) = true ∧ bit (0x10 : Word) 15 = false ∧ bit (0x8010 : Word) 15 = true ∧
      (scopeAt day 16 0).severe = false) ∧
    (let s := scope0 16 (fun f => { f with severe := true, cond := true }) day
     persists (assureLapse s) 16 0 = true ∧ (scopeAt (assureLapse s) 16 0).severe = true) ∧
    (let s := scope0 21 (fun f => { f with severe := true }) { day with r := { day.r with fltSel := 21 } }
     selSrc (assureLapse s) = 21 ∧ srcOct 21 = true ∧ s.pwr.st = .day ∧ (scopeAt s 21 0).severe = true ∧ fld 0x10 4 2 = 1) ∧
    (inSt .evening).pwr.st ≠ .day ∧ portUp (inSt .evening) .usb = true ∧ fastOn night = false ∧
    (let s := { dayAt (1000 * cMs) with r := { day.r with fwdCfg := 0x800003E8 }, spi := { running := true, rx := some (spiCmd 3 []) } }
     bit s.r.fwdCfg 31 = true ∧ s.fw.restarting = none ∧ fld s.r.fwdCfg 0 16 = 1000 ∧ s.fw.lastService + 1000 * cMs ≤ s.now ∧ s.spi.rx ≠ none ∧
      bit ({ s with r := { s.r with fwdCfg := 0 } } : State).r.fwdCfg 31 = false) ∧
    (let s := { sessDay 0 with fw := { restarting := some 0 }, tasp := { (sessDay 0).tasp with reqs := [(0x03, ⟨client, 9, 101, zeros 1412⟩)] } }
     s.fw.restarting ≠ none ∧ s.fw.inService = none ∧ s.spi.rx = none ∧ ethOn s = true ∧ (zeros 1412).length ≤ 1412 ∧ sessPos s 9 = some 0 ∧
      vget s.tasp.sess 0 none = some sess9 ∧ routed s client = true) ∧
    (let s := scope0 47 (fun f => { f with logAt := some 0, unlogged := 1 }) (dayAt cS)
     (scopeAt s 47 0).logAt = some 0 ∧ 0 + cS ≤ s.now ∧ (scopeAt s 47 0).unlogged ≠ 0 ∧ (scopeAt day 47 0).logAt = none ∧ cS - 1 < 0 + cS) := by
  decide +kernel

/-! ### Witnesses: the invariants -/

theorem wit_StepKeepsMemory : ({ day with pending := [.rcRegisterRead 0 .core ⟨8, []⟩] } : State).pending = .rcRegisterRead 0 .core ⟨8, []⟩ :: [] ∧ day.pending = [] := by
  decide

theorem vget_replicate {α : Type} (n i : Nat) (a : α) : vget (Vector.replicate n a) i a = a := by
  unfold vget; split <;> simp

theorem wit_CapacitiesKept : Capacity day := by
  unfold Capacity
  refine ⟨by decide, by decide, by decide, by decide, fun i x h => ?_, by decide, by decide, by decide, by decide, fun k => ?_, fun e h => ?_⟩
  · exact absurd ((vget_replicate 4 i none).symm.trans h) (by simp)
  · exact (congrArg (fun c : Cap => c.fifo.length) (vget_replicate 8 k ({} : Cap))).trans_le (by decide)
  · exact absurd h (by rw [show day.nw.log = [] from rfl]; simp)

/-- A step on an empty queue is the idle step. -/
theorem wit_CapacitiesKept_step : step day = .next day := by rfl

/-! ### The worked cases of the specification, and values that its tables state: one command or one reading each -/

/-- 00 worked case: G_ID_ISSUE. -/
theorem test_issue : regVal day 0x008 = 0x00004243 ∧ (after (.rcRegisterRead 0 .core ⟨0x008, []⟩) day).bus = some ⟨.core, 0x008, false, 0x00004243, .done⟩ := by
  decide +kernel

/-- 00 worked case: reading SERIAL_LO latches SERIAL_HI. -/
theorem test_serial_latch :
    let s : State := { day with boot := { imageApplied := true, serial := 0x0000001700031C2E } }
    let w := after (.latchedGroupLowRead 0 .core 0x00C) s
    w.bus = some ⟨.core, 0x00C, false, 0x00031C2E, .done⟩ ∧
      (after (.rcRegisterRead 0 .core ⟨0x010, []⟩) w).bus = some ⟨.core, 0x010, false, 0x00000017, .done⟩ := by decide +kernel

/-- 03 worked case: unit 4 with four class events. -/
theorem test_power_class :
    let s : State := { day with pwr := { day.pwr with classEvents := 4, octActive := 0x0F } }
    regVal s 0x108 = 0x2D41FE04 ∧ fld (regVal s 0x114) 0 16 = 250 := by decide +kernel

/-- 03 worked case: admission of classes 10 and 12. -/
theorem test_admission :
    bankMj day = 59600 ∧ admission day (classMw 10) 1500000 = .yes ∧ admission day (classMw 12) 2000000 = .refused ∧
    (let s (uv : Nat) : State := { day with pwr := { day.pwr with bankUv := uv } }
     admission (s 8477912) (classMw 12) 900000 = .no ∧ admission (s 9306000) (classMw 12) 900000 = .yes) := by decide +kernel

/-- 04 worked case: the time read on unit 2, and its error bound under PTP on unit 4. -/
theorem test_time_read :
    let c := 0x68124C05 * cS + 250000037 * 256 + 105
    let s : State := { day with tim := { running := true, valid := true, codes := c } }
    regVal s 0x208 = 0xCA95A400 ∧ regVal s 0x20C = 0x4C053B9A ∧ regVal s 0x210 = 0x00006812 := by decide +kernel

/-- 05 Table 5-17: G_BOOT_STAGE while bank B is written from 64 staged bytes, STATE 4, TARGET 1, LEN_W 16. -/
theorem test_boot_stage :
    regVal { day with boot := { stageState := 4, stageTarget := 1, stage := List.replicate 64 0, stageLen := 64 } } 0x068 = 0x81000010 := by
  decide +kernel

/-- 05 R131: the image of `goodImage`, with one byte of IDENT changed, fails its record check. -/
theorem test_image_check : (verifyImage keyMram 0 [] (goodImage.set 80 1)).1 = 4 := by decide +kernel

/-- 06 worked case: OCT_XPT of OCT1 with P10 on its spare lane and three swaps. -/
theorem test_octxpt_read :
    let s := after (.rcRegisterRead 400 .core ⟨0x008, []⟩) { day with octs := vmod day.octs 1 (fun o => { o with served := some 2 }), evPend := [⟨rgXpt 1, 16, 8, .add, 3⟩] }
    regVal s 0x1054 = 0x00030102 ∧ fld (regVal (after (.rcRegisterRead 800 .core ⟨0x1054, []⟩) s) 0x1054) 16 8 = 0 := by decide +kernel

/-- The timing set of the 07 worked case on OCT2: P21 with RZ, D3 at 20 ns or 2 600 codes; P22 with NRZ; the other pins with HOLD. -/
def set3 (d3 : Nat) : List (Nat × Word) :=
  let e (n : Nat) (ws : List (Nat × Word)) := ws.map fun x => (512 * 3 + 8 * n + x.1, x.2)
  let hold (n : Nat) := e n [(4, 0x100), (5, 0x6300), (6, 6)]
  hold 16 ++ hold 17 ++ hold 18 ++ hold 19 ++ hold 20 ++ e 21 [(1, 0xA00), (2, word d3), (4, 0x100), (5, 0x6300), (6, 2)] ++
    e 22 [(4, 0x100), (5, 0x6300)] ++ hold 23

/-- Day with that set, entries 40 and 41 of the 08 worked case, and the register for a probe's period. -/
def unit1 (d3 : Nat) (len41 : Word) : State :=
  { day with
    r := { day.r with tsetProbePer := 0x6400 }
    seg := { tset := set3 d3
             mem := [(320 + 1, 4), (320 + 2, 0x6400), (320 + 3, 0x00030000), (320 + 5, 3),
                     (328, 0x100), (328 + 1, len41), (328 + 2, 0x6400), (328 + 3, 0x00030063), (328 + 5, 3)] } }

/-- 07 worked case: the probe of set 3 on OCT2 fails on DRIVE_SEP at D3 of P21, and passes with D3 at 20 ns. -/
theorem test_probe :
    (setCheck (unit1 2600 4) 3 25600 (pinsOf 4)) = some ⟨4, 2, 21, 3⟩ ∧ (setCheck (unit1 5120 4) 3 25600 (pinsOf 4)) = none ∧
    (setCheck (unit1 5120 4) 3 320 (pinsOf 4)) = some ⟨2, 5, 16, 3⟩ ∧ (setCheck (unit1 5120 4) 3 25600 (pinsOf 0xFF)) = some ⟨6, 5, 0, 3⟩ := by
  decide +kernel

/-- 07 worked case: G_TSET_CHECK after the refused submission to slot 5. -/
theorem test_tset_check :
    let s : State := { unit1 2600 4 with seg := { (unit1 2600 4).seg with stat := [(40, 1, 0), (41, 1, 0)] } }
    let d := beBytes 2 72 ++ beBytes 2 2 ++ [4, 0, 0, 5] ++ zeros 56 ++ beBytes 4 40 ++ beBytes 4 41
    let w := (submit 0 ⟨true, d⟩ none s)
    w.2.code = 9 ∧ regVal w.1 0x3C4 = 0x84251503 := by decide +kernel

/-- 08 worked case: entry 41 with a LENGTH beyond vector store is refused with SEG_RANGE. -/
theorem test_seg_range : loadCheck (unit1 5120 0x003FFFFF) 40 = 0 ∧ loadCheck (unit1 5120 0x003FFFFF) 41 = 3 ∧ loadCheck (unit1 5120 4) 41 = 0 := by
  decide +kernel

/-- 09 worked case: G_JOB_STAT of slot 6 after the underrun. -/
theorem test_job_stat :
    let x : Slot := { jobIn .ended 0 4 with endCode := 5, readySeen := true, source := 0 }
    regVal { day with r := { day.r with jobSel := 6 }, seqr := { slots := vmod (Vector.replicate 16 {}) 6 fun _ => x } } 0x30C = 0xC5400004 := by
  decide +kernel

/-- 10 worked case: the stored bytes of the EDGE record on P22. -/
theorem test_edge_record :
    let c := 0x68124C06 * cS + 247 * 256 + 0x69
    recBytes (mkRec 4 0 2 (hNotify + hCoarse) 0x1A2F (c / 16 * 16) (2 + 22 * 2 ^ 64)) =
      [0x04, 0, 0x22, 2, 0x2F, 0x1A, 0, 0, 0, 0x80, 0xDD, 3, 0, 0, 6, 0x4C, 0x12, 0x68, 0, 0, 2, 0, 0, 0, 0, 0, 0, 0, 0x16, 0, 0, 0] := by
  decide +kernel

/-- 12 worked case: the stored bytes of part 0 of a seal. -/
theorem test_seal_part0 :
    let c := 0x68125A00 * cS + 500000000 * 256
    recBytes (mkRec 0x30 0 0 0 0 c (0x0C845877 + 0x0100B24A * 2 ^ 64)) =
      [0x30, 0, 0, 0, 0, 0, 0, 0, 0, 0, 0, 0x94, 0x35, 0x77, 0, 0x5A, 0x12, 0x68, 0, 0, 0x77, 0x58, 0x84, 0x0C, 0, 0, 0, 0, 0x4A, 0xB2, 0, 1] := by
  decide +kernel

/-- 14 worked case: G_RING_STATE and G_RING_AGREE of unit 2. -/
theorem test_ring_state :
    let s : State := { day with
      r := { day.r with ringCfg := 0x0004020A }
      ring := { pa := ⟨true, true, 0, none⟩, pb := ⟨true, true, 0, none⟩, surveyOk := true, seen := 15, sync := true, master := some 0
                agree := { id := 7, st := 8, guardShort := true } } }
    regVal s 0x830 = 0x00078400 ∧ fld (regVal s 0x80C) 16 8 = 4 := by decide +kernel

/-- 15 worked case: the answer to the register read of G_TIME_STATE over SPI, and the notification of an EDGE record. -/
theorem test_spi_answer :
    let s : State := { dayAt (82 * 60 * cS) with
      tim := { running := true, valid := true, st := .pps, todSrc := 2, lockSince := some 0 }
      spi := { running := true, rx := some ⟨[0xA5100003, 0x01000042, 0x00000214, 1], 3⟩ } }
    (after (.spiRegRead (82 * 60 * cS)) s).spi.ans = some [0x5A100002, 0x01000042, 0x00520051] ∧
    spiStatus { day with spi := { running := true, ans := some [0x5A100002, 0x01000042, 0x00520051] } } = 0x3C830003 ∧ spiStatus day = 0x3C030000 ∧
    spiNoteWords 7 0x0B782A25 ⟨0x02220004, 0x1A2F, 0x03DD8000, 0x4C060000, 0x6812, 2, 0, 0x16⟩ =
      [0x5A20000B, 0x50000007, 0, 0x0B782A25, 0x04002202, 0x2F1A0000, 0x0080DD03, 0x0000064C, 0x12680000, 0x02000000, 0, 0x16000000] := by
  decide +kernel

/-- 15 R347: a status word as a frame's first word sent, at the frame of the worked case. -/
theorem test_spi_command_stored :
    let w := after (.spiCommandFrame 0 (frame [0xA5100003, 0x01000042, 0x00000214, 1])) day
    w.spi.sent = [0x3C030000, 0, 0, 0] ∧ w.spi.rx = some ⟨[0xA5100003, 0x01000042, 0x00000214, 1], 3⟩ := by decide +kernel

/-- 15 Table 15-7: the device descriptor, read while addressed. -/
theorem test_usb_device_descriptor :
    (after (.usbGetDescriptor 0 (setup 0x80 0x0100 0 18)) day).usb.dataIn =
      [18, 1, 0x00, 0x02, 0, 0, 0, 64, 0x5A, 0x3E, 0x40, 0x00, 0x00, 0x01, 1, 2, 3, 1] := by decide +kernel

/-- 16 worked case: the answer to REG_READ of G_ID_ISSUE, up to its tag. -/
theorem test_tasp_answer :
    let p : Tasp := { on := true, key := List.replicate 32 1, keyId := 3 }
    (taspDatagram p 1 1 0 0x5B1E07C2 0x11 [0, 0, 0x42, 0x43]).take 28 =
      [0x54, 0x41, 1, 1, 1, 0, 0, 4, 0, 0, 0, 3, 0x5B, 0x1E, 7, 0xC2, 0, 0, 0, 0x11, 0, 0, 0, 0, 0, 0, 0x42, 0x43] := by decide +kernel

/-- 17 worked case: the SEVERE entry as read over a port. -/
theorem test_log_entry :
    entryBytes (logHead 0x10 2 (srcValue (some 2) (some 5) 0x103) (0x68127000 * cS + 620001050 * 256) true) =
      [0x00, 0x70, 0x12, 0x68, 0x1A, 0x77, 0xF4, 0xA4, 0, 0, 2, 0x10, 3, 1, 0, 0xAB] := by decide +kernel

/-- 18 worked case: the evidence block of unit 4 read as one range. -/
theorem test_evidence_range :
    let s : State := { day with evid := { count := 210000000, oldest := 171000000, sealedEnd := 209999991 } }
    (readWords 12 0x400 s).2 = [0x00004D00, 0x00ACE840, 0x0C845880, 0, 0x0A3140C0, 0, 0x0C845877, 0, 0, 0, 0, 0] := by decide +kernel

/-- 18 worked case: a range past the end of the calibration block is refused whole, and of two writes in one cycle the later stands. -/
theorem test_ranges_and_order :
    rangeJudge 0xAF8 4 = .address ∧ rangeJudge 0xA18 4 = .done ∧
    (after (.registerWrite 0 .spi 0x70C 0x20) (after (.registerWrite 0 .tasp 0x70C 0x210) day)).r.fltSel = 0x20 := by decide +kernel

/-- FIPS 180-4: SHA-256 of "abc"; CRC-32C of "123456789". -/
theorem test_hashes :
    sha256 (ascii "abc") = beBytes 32 0xBA7816BF8F01CFEA414140DE5DAE2223B00361A396177A9CB410FF61F20015AD ∧ crc32c (ascii "123456789") = 0xE3069283 := by
  decide +kernel

/-- RFC 6979 A.2.5: the signature of "sample" with SHA-256, and the key it verifies under. -/
theorem test_ecdsa :
    let d := 0xC9AFA9D845BA75166B5C215767B1D6934E50C3DB36E89B127B8A622B120F6721
    let k := 0xA6E3C57DD01ABE90086538398355DD4C3B17AA873382B0F24D6129493D8AAD60
    ecdsaSign d k (beNat (sha256 (ascii "sample"))) = (0xEFD48B2AACB6A8FD1140DD9CD45E81D69D2C877B56AAF991C34D0EA84EAF3716,
      0xF7CB1C942D657C41D436C7A1B6E29F65F3E900DBB9AFF4064DC4AB2F843ACDA8) := by decide +kernel

/-- 13 worked case: G_CAL_RESULT and G_CAL_QUAL of P19, and OCT_CAL_STAT of OCT2. -/
theorem test_cal_registers :
    let s : State := { day with
      cal := { ch := vmod (Vector.replicate 72 {}) 19 fun _ => { lvlOut := 3, lvlChk := 4, timOut := 1, skewOut := 1, timSrc := 2, eye := 1084, resid := 187 } }
      octs := vmod day.octs 2 fun o => { o with lvlFail := 8, lastOut := 2, lvlTemp := some 62 }
      r := { day.r with calSel := 19 } }
    regVal s 0xA10 = 0x34101080 ∧ regVal s 0xA14 = 0x043C00BB ∧ regVal s 0x10A0 = 0x0800A03E := by decide +kernel

/-- 04 worked case: unit 2 fourteen minutes after its wake. -/
theorem test_clock_registers :
    let s : State := { timed 0x101 { base .pps with todSrc := 3 } (14 * 60 * cS) with clk := { day.clk with lastLock := 148, bandCalRan := true } }
    regVal s 0x200 = 0xFF000B94 ∧ regVal s 0x214 = 0x000E0071 ∧ regVal s 0x218 = 0xFFFF0014 := by decide +kernel

/-- 02 and 05 worked cases: G_ENCL_THERM, and G_BOOT_STATUS after the wake with bank B. -/
theorem test_enclosure_and_boot :
    regVal { day with encl := { day.encl with inletC := 27, dieC := 71, bankC := 33 } } 0x34 = 0x0021471B ∧
    regVal { day with boot := { imageApplied := true, bank := 2, statB := 1, statA := 0, keyUsed := 2 } } 0x50 = 0x00100022 := by decide +kernel

end Sys2Proof.Tests
end

section
/-!
SUPPORT. What the operations a register access or the passing of time runs through leave alone: the present instant, the register block
and the power state. One lemma `f_steady` for each operation `f`, from the shared ones up.
-/

set_option Elab.async false

namespace Sys2Proof.Machine

open Sys2Proof

/-- From `z` to `w` the present instant, the register block and the power state stand still. -/
structure Steady (z w : State) : Prop where
  now : w.now = z.now
  r : w.r = z.r
  st : w.pwr.st = z.pwr.st

theorem Steady.refl (s : State) : Steady s s := ⟨rfl, rfl, rfl⟩

theorem Steady.trans {a b c : State} (h : Steady a b) (g : Steady b c) : Steady a c :=
  ⟨g.now.trans h.now, g.r.trans h.r, g.st.trans h.st⟩

/-- An update that writes none of the three. -/
theorem Steady.upd {z s w : State} (h : Steady z s) (hn : w.now = s.now := by rfl) (hr : w.r = s.r := by rfl)
    (hp : w.pwr.st = s.pwr.st := by rfl) : Steady z w :=
  h.trans ⟨hn, hr, hp⟩

theorem Steady.ite {z a b : State} {c : Prop} [Decidable c] (ha : Steady z a) (hb : Steady z b) :
    Steady z (if c then a else b) := by
  split
  · exact ha
  · exact hb

theorem Steady.foldl {α : Type} {z s : State} (f : State → α → State) (l : List α) (h : Steady z s)
    (hf : ∀ u a, Steady z u → Steady z (f u a)) : Steady z (l.foldl f s) := by
  induction l generalizing s with
  | nil => exact h
  | cons a l ih => exact ih (hf _ _ h)

/-! ### The trouble log, the unit queue and power requests -/

section Steady

variable {z s : State} (h : Steady z s)
include h

theorem logWrite_steady (es : List LogEntry) : Steady z (logWrite es s) := by
  unfold logWrite
  dsimp only
  split
  · exact h.upd
  · exact h.upd

theorem logPut_steady (src code value : Nat) (ws : List Nat) : Steady z (logPut src code value ws s) := logWrite_steady h _

theorem notice_steady (code value : Nat) (ws : List Nat) : Steady z (notice code value ws s) := logPut_steady h _ _ _ _

theorem pushUnit_steady (r : Rec) (k : Instant) : Steady z (pushUnit r k s) := .ite h h.upd

theorem holdRequest_steady (p : PwrPend) : Steady z (holdRequest p s) := .ite h h.upd

theorem duskUndo_steady : Steady z (duskUndo s) := by
  unfold duskUndo
  split
  · exact .ite h.upd h
  · exact h

theorem duskAct_steady (p : PwrPend) : Steady z (duskAct p s) :=
  .ite h.upd (.ite h (.ite h.upd (holdRequest_steady h p)))

theorem duskRequest_steady (p : PwrPend) : Steady z (duskRequest p s) :=
  .ite h (duskAct_steady (duskUndo_steady h).upd p)

theorem pwrRequest_steady (target : PwrSt) (source cause : Nat) : Steady z (pwrRequest target source cause s) := by
  have hday : Steady z (if nightOrEvening s target = .day then { s with rt := { s.rt with after := [] } } else s) := .ite h.upd h
  refine .ite (notice_steady h _ _ _) (.ite (notice_steady h _ _ _) ?_)
  dsimp only
  split
  · exact hday
  · exact duskRequest_steady hday _
  · exact .ite hday (holdRequest_steady hday _)
  · exact .ite hday (holdRequest_steady hday _)
  · exact holdRequest_steady hday _

/-! ### Faults and their reactions -/

theorem modScope_steady (src oct : Nat) (f : FltScope → FltScope) : Steady z (modScope src oct f s) := h.upd

theorem bump_steady (reg lo width amt : Nat) : Steady z (bump reg lo width amt s) := h.upd

theorem returnXpt_steady (mask : Nat) : Steady z (returnXpt mask s) :=
  .foldl _ _ h.upd fun _ _ hu => hu.upd

theorem orderStop_steady (gran : Bool) (code cause : Nat) (line : Bool) (i : Nat) : Steady z (orderStop gran code cause line i s) :=
  .ite h.upd h

theorem faultStop_steady (mask src : Nat) : Steady z (faultStop mask src s) :=
  .foldl _ _ h fun _ _ hu => orderStop_steady hu _ _ _ _ _

theorem calRequest_steady (mask : Nat) : Steady z (calRequest mask s) := .ite h.upd (notice_steady h.upd _ _ _)

omit h in
theorem unitRequest_steady (l : List Nat) : ∀ {s : State}, Steady z s → Steady z (unitRequest l s) := by
  induction l with
  | nil => exact fun h => h.upd
  | cons j l ih =>
    intro s h
    exact .ite (.ite (ih (calRequest_steady h _)) (calRequest_steady h _).upd) (ih h)

theorem unitAdvance_steady (k : Nat) : Steady z (unitAdvance k s) := .ite (unitRequest_steady _ h) h

theorem strobeAfter_steady (k : Nat) : Steady z (strobeAfter k s) := .ite h.upd h

theorem calRec_steady (sub mask pin : Nat) (valid : Bool) (quality : Nat) : Steady z (calRec sub mask pin valid quality s) :=
  pushUnit_steady h _ _

theorem abandonWindow_steady (k : Nat) : Steady z (abandonWindow k s) := by
  unfold abandonWindow
  split
  · exact h
  · refine unitAdvance_steady (strobeAfter_steady (calRec_steady (bump_steady ?_ _ _ _ _) _ _ _ _ _) _) _
    exact h.upd

theorem mapPins_steady (mask : Nat) (f : Nat → PinCh → PinCh) : Steady z (mapPins mask f s) := by
  unfold mapPins
  exact h.upd

theorem stopOctets_steady (mask src : Nat) : Steady z (stopOctets mask src s) := by
  have hpins : Steady z (if pinsOn s then safePins mask s else s) := .ite (mapPins_steady h _ _) h
  exact faultStop_steady (.foldl _ _ (returnXpt_steady hpins _) fun _ _ hu => abandonWindow_steady hu _) _ _

theorem react_steady (src oct : Nat) (fresh : Bool) : Steady z (react src oct fresh s) := by
  unfold react
  split
  · exact .ite (stopOctets_steady h _ _) h
  · exact faultStop_steady h _ _
  · exact .ite (pwrRequest_steady h _ _ _) h
  · exact h

theorem unlog_steady (e : LogEntry) : Steady z (unlog e s) := .ite h.upd h

theorem uncount_steady (src oct : Nat) : Steady z (uncount src oct s) := h.upd

theorem clearRefused_steady (src oct : Nat) : Steady z (clearRefused src oct s) := logPut_steady (bump_steady h _ _ _ _) _ _ _ _

theorem exitBack_steady (src oct : Nat) : Steady z (exitBack src oct s) := by
  unfold exitBack
  split
  · exact h
  · have hback (f e) : Steady z (unlog e (modScope src oct f s)) := unlog_steady (modScope_steady h src oct f) e
    exact .ite (react_steady (.ite (uncount_steady (hback _ _) _ _) (clearRefused_steady (hback _ _) _ _)) _ _ _) h

theorem logEvent_steady (a : FltAt) (detail : Nat) (ws : List Nat) : Steady z (logEvent a detail ws s) :=
  .ite (modScope_steady (logPut_steady h _ _ _ _) _ _ _) (bump_steady (modScope_steady h _ _ _) _ _ _ _)

theorem goSevere_steady (a : FltAt) : Steady z (goSevere a s) :=
  react_steady (bump_steady (logPut_steady (modScope_steady h _ _ _) _ _ _ _) _ _ _ _) _ _ _

theorem fault_steady (a : FltAt) (detail : Nat) (ws : List Nat) : Steady z (fault a detail ws s) := by
  have hlog (f n) : Steady z (logEvent a detail ws (bump n 16 16 1 (modScope a.src a.oct f (exitBack a.src a.oct s)))) :=
    logEvent_steady (bump_steady (modScope_steady (exitBack_steady h a.src a.oct) _ _ _) _ _ _ _) a detail ws
  exact .ite (.ite (react_steady (hlog _ _) _ _ _) (.ite (goSevere_steady (hlog _ _) _) (hlog _ _))) h

theorem setCond_steady (src oct : Nat) (c : Bool) : Steady z (setCond src oct c s) := modScope_steady h _ _ _

/-- Watching the fields of a written register changes the register block in nothing but the list of substituted values. -/
theorem noteRange_steady (off sel : Nat) (subs : List (Nat × Nat)) :
    ∃ l, Steady { z with r := { z.r with subst := l } } (noteRange off sel subs s) := by
  have hz (l : List (Nat × Nat × Nat)) : Steady { z with r := { z.r with subst := l } } { s with r := { s.r with subst := l } } :=
    ⟨h.now, by rw [h.r], h.st⟩
  exact ⟨_, setCond_steady (.foldl _ _ (hz _) fun _ _ hu => fault_steady hu _ _ _) _ _ _⟩

/-! ### Captures and what falls due in a cycle being played -/

theorem lossCloseAt_steady (k : Nat) : Steady z (lossCloseAt k s) := by
  unfold lossCloseAt
  dsimp only
  split
  · exact h
  · exact .ite (fault_steady h.upd _ _ _) h

theorem capIn_steady (k : Nat) (q : QRec) (lo hi : Nat) : Steady z (capIn k q lo hi s) :=
  .ite h (.ite (lossCloseAt_steady h k).upd (lossCloseAt_steady h k).upd)

theorem formAt_steady (k : Nat) (q : QRec) (lo hi : Nat) : Steady z (formAt k q lo hi s) := .ite (capIn_steady h _ _ _ _) h.upd

theorem modPin_steady (n : Nat) (f : PinCh → PinCh) : Steady z (modPin n f s) := h.upd

theorem modOct_steady (k : Nat) (f : OctCh → OctCh) : Steady z (modOct k f s) := h.upd

theorem modCap_steady (k : Nat) (f : Cap → Cap) : Steady z (modCap k f s) := h.upd

theorem closeRun_steady (k : Nat) (at_ : Instant) : Steady z (closeRun k at_ s) := by
  unfold closeRun
  split
  · exact h
  · exact formAt_steady (modCap_steady h _ _) _ _ _ _

theorem closeGrp_steady (k : Nat) (at_ : Instant) : Steady z (closeGrp k at_ s) := by
  unfold closeGrp
  split
  · exact h
  · exact .ite (formAt_steady (modCap_steady h _ _) _ _ _ _) (modCap_steady h _ _)

theorem passCycle_steady (k : Nat) (a : CycAt) (rs : List PinRes) : Steady z (passCycle k a rs s) :=
  .ite (.ite (formAt_steady (modCap_steady h _ _) _ _ _ _) (modCap_steady h _ _)) (formAt_steady h _ _ _ _)

theorem failCycle_steady (k : Nat) (a : CycAt) (rs : List PinRes) : Steady z (failCycle k a rs s) := by
  have hput {u : State} (hu : Steady z u) :
      Steady z ((failRecs k a rs).foldl (fun s f => formAt k f.1 a.cyc a.cyc s) u) :=
    .foldl _ _ hu fun _ _ hv => formAt_steady hv _ _ _ _
  have hrun := closeRun_steady h k (endsAt a rs)
  unfold failCycle
  dsimp only
  split
  · split
    · exact .ite (modCap_steady hrun _ _) (hput (modCap_steady (closeGrp_steady hrun _ _) _ _))
    · exact hput (modCap_steady hrun _ _)
  · exact hput hrun

theorem octResult_steady (k : Nat) (r : PinRes) : Steady z (octResult k r s) := by
  unfold octResult
  split
  · exact h
  · exact .ite (modCap_steady h _ _)
      (.ite (failCycle_steady (modCap_steady h _ _) _ _ _) (passCycle_steady (modCap_steady h _ _) _ _ _))

theorem pinC1_steady (n : Nat) : Steady z (pinC1 n s) := by
  unfold pinC1
  dsimp only
  split
  · exact h
  · exact .ite (octResult_steady (modPin_steady h _ _) _ _) (modPin_steady h _ _)

theorem pinC2_steady (n : Nat) : Steady z (pinC2 n s) := by
  unfold pinC2
  dsimp only
  split
  · exact h
  · exact .ite (octResult_steady (modPin_steady h _ _) _ _) (formAt_steady (modPin_steady h _ _) _ _ _ _)

theorem clipEvents_steady (k : Nat) (before : List (BitVec 5)) : Steady z (clipEvents k before s) :=
  .foldl _ _ h fun _ _ hu => .ite hu (fault_steady hu _ _ _)

theorem loadOct_steady (k : Nat) (dayEntry : Bool) : Steady z (loadOct k dayEntry s) :=
  clipEvents_steady (modOct_steady (mapPins_steady h _ _) _ _) _ _

theorem strobe_steady (k src : Nat) : Steady z (strobe k src s) :=
  .ite (.ite (modOct_steady h _ _) (loadOct_steady (modOct_steady h _ _) _ _)) h

theorem fireDeferred_steady (k : Nat) : Steady z (fireDeferred k s) := .ite (strobe_steady (modOct_steady h _ _) _ _) h

theorem inputStep_steady (n : Nat) (u : Int) : Steady z (inputStep n u s) := modPin_steady h _ _

theorem runAct_steady (a : Act) : Steady z (runAct a s) := by
  unfold runAct
  split
  · exact inputStep_steady h _ _
  · exact modPin_steady h _ _
  · exact pinC1_steady h _
  · exact pinC2_steady h _
  · exact capIn_steady h _ _ _ _
  · exact fireDeferred_steady h _

/-! ### The arbiter brought up to its cycle -/

theorem modArb_steady (f : Arb → Arb) : Steady z (modArb f s) := h.upd

theorem bumpMax_steady (reg lo width v : Nat) : Steady z (bumpMax reg lo width v s) := h.upd

theorem arbGrant_steady (d : Nat) (r : ArbReq) : Steady z (arbGrant d r s) := by
  unfold arbGrant
  exact modArb_steady (.ite (bumpMax_steady (.ite (bump_steady h _ _ _ _) h) _ _ _ _) h) _

theorem arbDecide_steady (d : Nat) : Steady z (arbDecide d s) := by
  unfold arbDecide
  split
  · exact modArb_steady h _
  · split
    · exact modArb_steady h _
    · split
      · exact arbGrant_steady h _ _
      · exact modArb_steady h _

theorem settleIdle_steady : Steady z (settleIdle s) := by
  unfold settleIdle
  split
  · split
    · exact .ite (arbDecide_steady h _) h
    · exact h
  · exact h

theorem settleDbg_steady : Steady z (settleDbg s) := by
  unfold settleDbg
  dsimp only
  split
  · exact .ite h (.ite (modArb_steady h _) (modArb_steady h _))
  · exact h

theorem arbSettle_steady : Steady z (arbSettle s) :=
  .ite (settleDbg_steady (settleIdle_steady (.ite (arbDecide_steady h _) h))) h

theorem assureLapse_steady : Steady z (assureLapse s) :=
  .ite (.foldl _ _ h fun _ _ hu => .ite hu hu.upd) h

theorem swFlush_steady : Steady z (swFlush s) := .foldl _ _ h.upd fun _ _ hu => .ite hu.upd hu

theorem arbWindow_steady : Steady z (arbWindow s) := by
  have hl := assureLapse_steady h
  exact .ite (modArb_steady (.ite (swFlush_steady hl) hl) _) h

theorem arbReady_steady : Steady z (arbReady s) := arbWindow_steady (arbSettle_steady h)

/-! ### The time base, the ring and the USB port after a write of their settings -/

theorem closeOcts_steady (at_ : Instant) (mask : Nat) : Steady z (closeOcts at_ mask s) :=
  .foldl _ _ h fun _ _ hu => .foldl _ _ (modCap_steady hu _ _) fun _ _ hv => formAt_steady hv _ _ _ _

theorem setSt_steady (st : TimeSt) : Steady z (setSt st s) := by
  have hrec {u : State} (hu : Steady z u) : Steady z (setCond 12 0 (!st.isLock) (timeStateRec 0 0 u)) :=
    setCond_steady (pushUnit_steady (closeOcts_steady hu _ _) _ _) _ _ _
  unfold setSt
  refine .ite h (.ite (fault_steady (hrec ?_) _ _ _) (hrec ?_))
  · exact h.upd
  · exact h.upd

theorem loseLock_steady : Steady z (loseLock s) := .ite (setSt_steady h _) h

theorem modTim_steady (f : Tim → Tim) : Steady z (modTim f s) := h.upd

theorem reviewDiscipline_steady : Steady z (reviewDiscipline s) := by
  have h1 (f : Tim → Tim) := modTim_steady h f
  unfold reviewDiscipline
  refine .ite (h1 _) (.ite (setSt_steady (h1 _) _) ?_)
  split
  · exact .ite (loseLock_steady (h1 _)) (h1 _)
  · exact .ite (loseLock_steady (h1 _)) (.ite (setSt_steady (h1 _) _) (h1 _))
  · exact h1 _

theorem modRing_steady (f : Ring → Ring) : Steady z (modRing f s) := h.upd

theorem syncLost_steady : Steady z (syncLost s) := by
  unfold syncLost
  refine .ite (.ite (fault_steady (modRing_steady ?late _) _ _ _) (modRing_steady ?late _)) h
  refine .foldl _ _ h fun u i hu => ?_
  dsimp only
  split
  · exact .ite (notice_steady hu.upd _ _ _) hu
  · exact hu

theorem masterSet_steady (m : Option Nat) : Steady z (masterSet m s) := modRing_steady (syncLost_steady h) _

theorem originate_steady (type : Nat) (outA outB : Bool) (body : List Byte) : Steady z (originate type outA outB body s) :=
  .ite (modRing_steady (modRing_steady h _) _) (modRing_steady h _)

theorem resign_steady : Steady z (resign s) := .ite (masterSet_steady (originate_steady h _ _ _ _) _) h

theorem ringWatch_steady (old : State) : Steady z (ringWatch old s) := by
  have hres : Steady z (if isMaster s && mustResign s then resign s else s) := .ite (resign_steady h) h
  exact setCond_steady (setCond_steady (.ite (fault_steady hres _ _ _) hres) _ _ _) _ _ _

theorem resume_steady : Steady z (resume s) := by
  have hlast {u : State} (hu : Steady z u) : Steady z (endsNext { u with evid := { u.evid with endWait := [] } }) := hu.upd
  exact .ite (hlast (.foldl _ _ (pushUnit_steady (pushUnit_steady (setCond_steady h.upd _ _ _) _ _) _ _)
    fun _ _ hu => pushUnit_steady hu _ _)) h

theorem applyRelease_steady (upto : Nat) : Steady z (applyRelease upto s) := by
  refine .ite h (resume_steady ?_)
  have hl := assureLapse_steady h
  exact .ite (setCond_steady hl.upd _ _ _) hl.upd

theorem exportEnd_steady (port : Port) : Steady z (exportEnd port s) :=
  .foldl _ _ h.upd fun _ _ hu => applyRelease_steady hu _

theorem stageDiscard_steady : Steady z (stageDiscard s) := .ite h.upd h.upd

theorem usbCut_steady (why : Nat) (cut : Option UsbCut) : Steady z (usbCut why cut s) := by
  unfold usbCut
  split
  · exact h
  · exact notice_steady (bump_steady h _ _ _ _) _ _ _

theorem modUsb_steady (f : Usb → Usb) : Steady z (modUsb f s) := h.upd

theorem usbDetach_steady (why dev : Nat) (cut : Option UsbCut) : Steady z (usbDetach why dev cut s) := by
  have hbulk := exportEnd_steady (modUsb_steady (usbCut_steady h why cut) fun u => { u with bulk := none }) .usb
  exact modUsb_steady (.ite (stageDiscard_steady hbulk) hbulk) _

theorem usbConnect_steady : Steady z (usbConnect s) := .ite h.upd h

end Steady

end Sys2Proof.Machine
end

section
/-!
SUPPORT. The passing of time (00 R428, R8, 04 R92): what `pass` and `advance` do, and the statement about it.
-/

set_option Elab.async false

namespace Sys2Proof.Machine

open Sys2Proof

/-! ### The time base -/

theorem timAdvance_stopped {tm : Tim} (d : Nat) (h : tm.running = false) : timAdvance tm d = tm := by
  simp [timAdvance, h]

theorem timAdvance_running {tm : Tim} (d : Nat) (h : tm.running = true) (hs : tm.slew = 0) :
    timAdvance tm d = { tm with codes := tm.codes + d } := by
  simp [timAdvance, h, hs]

theorem slewBy_running (tm : Tim) (d : Nat) : (slewBy tm d).running = tm.running := rfl

/-- The elapsed codes left over do not make up another code of slew. -/
theorem slewBy_slewAcc_lt (tm : Tim) (d : Nat) : (slewBy tm d).slewAcc < 2000000 := by
  have hlt : (tm.slewAcc + d) % 2000000 < 2000000 := Nat.mod_lt _ (by decide)
  dsimp only [slewBy]
  generalize (if 0 ≤ tm.slew then _ else _ : Int) = step
  split
  · decide
  · exact hlt

/-- While something is left to slew the time base is acquiring. -/
theorem slewBy_acquiring {tm : Tim} {d : Nat} (h : (slewBy tm d).slew ≠ 0) : (slewBy tm d).acquiring = true := by
  revert h
  dsimp only [slewBy]
  generalize (if 0 ≤ tm.slew then _ else _ : Int) = step
  intro h
  simp [show tm.slew ≠ step from fun e => h (Int.sub_eq_zero.mpr e)]

/-- No elapsed code slews nothing. -/
theorem slewBy_zero {tm : Tim} (hs : tm.slew ≠ 0) (ha : tm.slewAcc < 2000000) (hq : tm.acquiring = true) : slewBy tm 0 = tm := by
  have hroom : (tm.slewAcc + 0) / 2000000 = 0 := Nat.div_eq_of_lt ha
  have hmod : (tm.slewAcc + 0) % 2000000 = tm.slewAcc := Nat.mod_eq_of_lt ha
  have hset : { tm with acquiring := true } = tm := by rw [← hq]
  unfold slewBy
  rw [hroom, hmod]
  simpa [hs] using hset

theorem timAdvance_timAdvance_zero (tm : Tim) (d : Nat) : timAdvance (timAdvance tm d) 0 = timAdvance tm d := by
  cases hr : tm.running with
  | false => rw [timAdvance_stopped d hr, timAdvance_stopped 0 hr]
  | true =>
    by_cases hs : tm.slew = 0
    · rw [timAdvance_running d hr hs]
      exact timAdvance_running 0 hr hs
    · have hd : timAdvance tm d = slewBy tm d := by simp [timAdvance, hr, hs]
      rw [hd]
      by_cases hu : (slewBy tm d).slew = 0
      · exact timAdvance_running 0 ((slewBy_running tm d).trans hr) hu
      · simp [timAdvance, slewBy_running, hr, hu, slewBy_zero hu (slewBy_slewAcc_lt tm d) (slewBy_acquiring hu)]

/-! ### Time alone -/

theorem pass_hap (t : Instant) (s : State) : (pass t s).hap = if sameCycle t (max s.now t) then t else max s.now t := by
  rw [pass_eq]

/-- Within the present cycle time changes no event register. -/
theorem pass_same_cycle {t : Instant} {s : State} (h : cycleOf (max s.now t) = cycleOf s.now) : pass t s = { s with
    now := max s.now t, hap := if sameCycle t (max s.now t) then t else max s.now t
    tim := timAdvance s.tim (max s.now t - s.now), nw := { s.nw with codes := s.nw.codes + (max s.now t - s.now) } } := by
  simp only [pass, h, if_true]

/-- A unit already at the instant of a command stays as it is. -/
theorem pass_pass (t : Instant) (s : State) : pass t (pass t s) = pass t s := by
  have hnow : max (pass t s).now t = (pass t s).now := by
    rw [pass_now]
    exact Nat.max_eq_left (Nat.le_max_right _ _)
  have htim : timAdvance (pass t s).tim 0 = (pass t s).tim := by rw [pass_tim, timAdvance_timAdvance_zero]
  have hhap : (if sameCycle t (pass t s).now then t else (pass t s).now) = (pass t s).hap := by rw [pass_hap, pass_now]
  rw [pass_same_cycle (by rw [hnow]), hnow, Nat.sub_self, htim, hhap]
  rfl

/-! ### What falls due -/

theorem runActs_not_due {t : Instant} {s : State} (f : Nat) (h : ∀ a l, s.seqr.acts = a :: l → t ≤ a.at_) : runActs f t s = s := by
  cases f with
  | zero => rfl
  | succ f =>
    unfold runActs
    split
    · rfl
    next a l hal => exact if_neg (Nat.not_lt.mpr (h a l hal))

theorem runActs_idle {s : State} (f : Nat) (t : Instant) (h : s.seqr.acts = []) : runActs f t s = s :=
  runActs_not_due f fun a l hal => by simp [h] at hal

/-- Happenings due before `t` do not carry the unit past it, nor back. -/
theorem runActs_now (f : Nat) (t : Instant) (s : State) (h : s.now ≤ t) : s.now ≤ (runActs f t s).now ∧ (runActs f t s).now ≤ t := by
  induction f generalizing s with
  | zero => exact ⟨Nat.le_refl _, h⟩
  | succ f ih =>
    unfold runActs
    split
    · exact ⟨Nat.le_refl _, h⟩
    next a l hal =>
      split
      next hdue =>
        have hnow := (runAct_steady (Steady.refl (pass a.at_ { s with seqr := { s.seqr with acts := l } })) a).now
        rw [pass_now] at hnow
        have hle : s.now ≤ (runAct a (pass a.at_ { s with seqr := { s.seqr with acts := l } })).now :=
          hnow ▸ Nat.le_max_left _ _
        obtain ⟨hlo, hhi⟩ := ih _ (hnow ▸ Nat.max_le.mpr ⟨h, Nat.le_of_lt hdue⟩)
        exact ⟨Nat.le_trans hle hlo, hhi⟩
      · exact ⟨Nat.le_refl _, h⟩

theorem advance_now (t : Instant) (s : State) : (advance t s).now = max s.now t := by
  obtain ⟨hlo, hhi⟩ := runActs_now (16 * s.seqr.acts.length) (max s.now t) s (Nat.le_max_left _ _)
  rw [advance, pass_now]
  exact Nat.le_antisymm (Nat.max_le.mpr ⟨hhi, Nat.le_max_right _ _⟩)
    (Nat.max_le.mpr ⟨Nat.le_trans hlo (Nat.le_max_left _ _), Nat.le_max_right _ _⟩)

/-- With nothing due before a command's instant, it comes by time alone. -/
theorem advance_not_due {t : Instant} {s : State} (h : ∀ a l, s.seqr.acts = a :: l → max s.now t ≤ a.at_) : advance t s = pass t s := by
  rw [advance, runActs_not_due _ h]

/-- The only happening queued falls due before a command's instant and queues no other: it takes place at its own instant. -/
theorem advance_one_due {t : Instant} {s : State} {a : Act} (hq : s.seqr.acts = [a]) (hdue : a.at_ < max s.now t)
    (hnone : (runAct a (pass a.at_ { s with seqr := { s.seqr with acts := [] } })).seqr.acts = []) :
    advance t s = pass t (runAct a (pass a.at_ { s with seqr := { s.seqr with acts := [] } })) := by
  have hfuel : 16 * s.seqr.acts.length = 15 + 1 := by rw [hq]; rfl
  rw [advance, hfuel, runActs, hq]
  dsimp only
  rw [if_pos hdue, runActs_idle _ _ hnone]

theorem runAct_input {a : Act} {n : Nat} {x : Int} (h : a.kind = .input n x) (s : State) : runAct a s = inputStep n x s := by
  rw [runAct, h]

theorem runAct_edge {a : Act} {n : Nat} {e : DrvEdge} (h : a.kind = .edge n e) (s : State) :
    runAct a s = modPin n (fun p => p.edge e) s := by
  rw [runAct, h]

/-- Settles O4: `pass_eq` lists what time alone changes, `advance_now` carries the unit to the command's instant whatever falls due, and
`advance_one_due` lets one happening take place at its own instant. -/
theorem timePassing : Obligations.TimePassing := by
  intro t s
  refine ⟨advance_now t s, advance_not_due, ⟨?_, pass_now s t, ?_, ?_, ?_, ?_, ?_, ?_, pass_pass t s⟩, ?_⟩
  · simp only [pass_now, pass_hap, pass_tim, pass_nw]
    exact pass_eq s t
  · intro h
    rw [pass_hap, Nat.max_eq_right h]
    exact ite_self t
  · rw [pass_nw, pass_now]
  · intro h
    rw [pass_tim, timAdvance_stopped _ h]
  · intro h hs
    rw [pass_tim, timAdvance_running _ h hs, pass_now]
  · intro h
    rw [pass_now] at h
    rw [pass_ev, pass_evPend, if_pos h, if_pos h]
    exact ⟨rfl, rfl⟩
  · intro h
    rw [pass_now] at h
    rw [pass_evPend, if_neg h]
  · intro a hq hdue
    refine ⟨advance_one_due hq hdue, fun n x hk => ?_, fun n e hk => ?_⟩
    · rw [← runAct_input hk]
      refine advance_one_due hq hdue ?_
      rw [runAct_input hk, inputStep, modPin_seqr, pass_seqr]
    · rw [← runAct_edge hk]
      refine advance_one_due hq hdue ?_
      rw [runAct_edge hk, modPin_seqr, pass_seqr]

end Sys2Proof.Machine
end

section
/-!
SUPPORT. Reads of the register bus (18 R421, R423; 00 R7, R8, R10): what a read answers, clears and latches, and the statements about it.
-/

set_option Elab.async false

namespace Sys2Proof.Machine

open Sys2Proof

/-! ### What is noted of the guarantees before an access -/

/-- A condition of the guarantees needs no note: it holds, or its lapse is noted already. -/
def lapseSettled (s : State) (i : Nat) : Bool := assureBit s i || lapseNoted s i

/-- The note of one condition. -/
def noteLapse (s : State) (i : Nat) : State := if lapseSettled s i then s else bumpSet rgAssureHist i s

theorem assureLapse_eq_foldl (s : State) : assureLapse s = if inDay s then assureBits.foldl noteLapse s else s := rfl

theorem noteLapse_of_settled {s : State} {i : Nat} (h : lapseSettled s i = true) : noteLapse s i = s := if_pos h

theorem noteLapse_settles (s : State) (i : Nat) : lapseSettled (noteLapse s i) i = true := by
  unfold noteLapse
  split
  next h => exact h
  · simp [lapseSettled, lapseNoted]

theorem noteLapse_keeps_settled {s : State} {j : Nat} (i : Nat) (h : lapseSettled s j = true) :
    lapseSettled (noteLapse s i) j = true := by
  unfold noteLapse
  split
  · exact h
  · have hbit : assureBit (bumpSet rgAssureHist i s) j = assureBit s j := rfl
    simp only [lapseSettled, lapseNoted, hbit, bumpSet_evPend, List.any_cons, Bool.or_eq_true] at h ⊢
    exact h.imp_right .inr

theorem foldl_noteLapse_settled (l : List Nat) (s : State) (h : ∀ i ∈ l, lapseSettled s i = true) : l.foldl noteLapse s = s := by
  induction l with
  | nil => rfl
  | cons i l ih =>
    obtain ⟨hi, hl⟩ := List.forall_mem_cons.mp h
    rw [List.foldl_cons, noteLapse_of_settled hi, ih hl]

theorem foldl_noteLapse_keeps_settled (l : List Nat) {s : State} {j : Nat} (h : lapseSettled s j = true) :
    lapseSettled (l.foldl noteLapse s) j = true := by
  induction l generalizing s with
  | nil => exact h
  | cons i l ih => exact ih (noteLapse_keeps_settled i h)

theorem foldl_noteLapse_settles (l : List Nat) (s : State) : ∀ i ∈ l, lapseSettled (l.foldl noteLapse s) i = true := by
  induction l generalizing s with
  | nil => exact fun _ h => absurd h List.not_mem_nil
  | cons i l ih => exact List.forall_mem_cons.mpr ⟨foldl_noteLapse_keeps_settled l (noteLapse_settles s i), ih _⟩

/-- Looking at the guarantees twice in one cycle notes nothing more. -/
theorem assureLapse_assureLapse (s : State) : assureLapse (assureLapse s) = assureLapse s := by
  have hday : inDay (assureLapse s) = inDay s := by rw [assureLapse_eq]; rfl
  rw [assureLapse_eq_foldl (assureLapse s), hday, assureLapse_eq_foldl s]
  split
  · exact foldl_noteLapse_settled _ _ (foldl_noteLapse_settles _ _)
  · rfl

/-- The notes are events of G_ASSURE_HIST, in front of those that wait. -/
theorem assureLapse_evPend (s : State) : ∃ l : List EvBump, (assureLapse s).evPend = l ++ s.evPend ∧ ∀ b ∈ l, b.reg = rgAssureHist := by
  have hfold (is : List Nat) (u : State) :
      ∃ l : List EvBump, (is.foldl noteLapse u).evPend = l ++ u.evPend ∧ ∀ b ∈ l, b.reg = rgAssureHist := by
    induction is generalizing u with
    | nil => exact ⟨[], rfl, by simp⟩
    | cons i is ih =>
      obtain ⟨l, hl, hreg⟩ := ih (noteLapse u i)
      rw [List.foldl_cons, hl]
      by_cases hi : lapseSettled u i = true
      · exact ⟨l, by rw [noteLapse_of_settled hi], hreg⟩
      · refine ⟨l ++ [⟨rgAssureHist, i, 1, .set, 1⟩], ?_, ?_⟩
        · rw [noteLapse, if_neg hi, bumpSet_evPend, List.append_assoc, List.singleton_append]
        · exact List.forall_mem_append.mpr ⟨hreg, by simp⟩
  rw [assureLapse_eq_foldl]
  split
  · exact hfold _ _
  · exact ⟨[], rfl, by simp⟩

/-! ### Events that wait -/

/-- Events of other registers leave a register as it is. -/
theorem vget_foldl_applyBump {r : Nat} (l : List EvBump) (h : ∀ b ∈ l, b.reg ≠ r) (v : Vector Word 431) :
    vget (l.foldl applyBump v) r 0 = vget v r 0 := by
  induction l generalizing v with
  | nil => rfl
  | cons b l ih =>
    obtain ⟨hb, hl⟩ := List.forall_mem_cons.mp h
    rw [List.foldl_cons, ih hl, applyBump, vget_vmod_ne _ _ _ _ _ hb]

/-- What a register shows once the events of the cycle are settled, the guarantees looked at or not. -/
theorem evNow_assureLapse {r : Nat} (s : State) (hr : r ≠ rgAssureHist) : evNow (assureLapse s) r = evNow s r := by
  obtain ⟨l, hl, hreg⟩ := assureLapse_evPend s
  have hev : (assureLapse s).ev = s.ev := by rw [assureLapse_eq]
  simp only [evNow, settle, hev, hl, List.reverse_append, List.foldl_append]
  exact vget_foldl_applyBump _ (fun b hb => hreg b (List.mem_reverse.mp hb) ▸ hr.symm) _

/-- The first look in a later cycle shows the events of this one (R8). -/
theorem pass_ev_later {t : Instant} {s : State} {r : Nat} (ht : cycleOf s.now < cycleOf t) (hr : r ≠ rgAssureHist) :
    vget (pass t s).ev r 0 = evNow s r := by
  have hle : s.now ≤ t := Nat.le_of_not_le fun h => Nat.not_le.mpr ht (Nat.div_le_div_right h)
  rw [pass_ev, Nat.max_eq_right hle, if_neg (Nat.ne_of_gt ht)]
  exact evNow_assureLapse s hr

/-! ### The inputs a read tells of -/

theorem inputsNow_eq (ins : List (Fin 64 × Int)) (s : State) : inputsNow ins s = { s with pins := (inputsNow ins s).pins } := by
  induction ins generalizing s with
  | nil => rfl
  | cons x l ih => exact ih (inputStep x.1.val x.2 s)

theorem portUp_inputsNow (ins : List (Fin 64 × Int)) (s : State) (p : Port) : portUp (inputsNow ins s) p = portUp s p := by
  rw [inputsNow_eq]
  rfl

theorem latched_congr {s u : State} (a : Nat) (h : s.latch = u.latch) : latched s a = latched u a := by
  unfold latched
  rw [h]

/-! ### Reads through a running port -/

/-- The unit as a read finds it: the guarantees looked at, and the arbiter brought up to its cycle for a register of its block (11 R272). -/
def readBase (a : Nat) (s : State) : State := if a / 256 = 5 then arbReady (assureLapse s) else assureLapse s

theorem busRead_eq (a : Nat) (s : State) :
    busRead a s = (readClear a (latch a (readBase a s)), (latched (readBase a s) a).getD (regVal (readBase a s) a)) := by
  have hblock : (0x500 ≤ a ∧ a < 0x600) ↔ a / 256 = 5 := by omega
  simp only [busRead, readBase, hblock]

theorem portRead_up {p : Port} {a : Nat} {s : State} (hp : portUp s p = true) (ha : addrJudge a = .done) :
    portRead p a s = { (busRead a s).1 with bus := some (carried p a false (busRead a s).2) } := by
  simp only [portRead, hp, ha, if_true]
  rfl

/-- A read of a register that latches nothing and has no event fields. -/
theorem portRead_plain {p : Port} {a : Nat} {s : State} (hp : portUp s p = true) (ha : addrJudge a = .done)
    (hl : latch a (readBase a s) = readBase a s) (hc : readClear a (readBase a s) = readBase a s) :
    portRead p a s =
      { readBase a s with bus := some (carried p a false ((latched (readBase a s) a).getD (regVal (readBase a s) a))) } := by
  rw [portRead_up hp ha, busRead_eq, hl, hc]

theorem readClear_of_no_event {a : Nat} {s : State} (h : evReg s a = none) : readClear a s = s := by
  rw [readClear, h]

theorem readClear_of_w1c {a : Nat} {s : State} (h : w1cAt a = true) : readClear a s = s := by
  unfold readClear
  split
  · exact if_pos h
  · rfl

theorem exec_rcRegisterRead (t : Instant) (p : Port) (a : Nat) (ins : List (Fin 64 × Int)) (s : State) :
    exec (.rcRegisterRead t p ⟨a, ins⟩) s = .next (portRead p a (inputsNow ins (advance t s))) := rfl

theorem exec_latchedGroupLowRead (t : Instant) (p : Port) (a : Nat) (s : State) :
    exec (.latchedGroupLowRead t p a) s = .next (portRead p a (advance t s)) := rfl

/-! ### The latched groups (00 R10) -/

theorem latchedGroups_addr : ∀ x ∈ latchedGroups, ∀ a ∈ x.1 :: x.2, addrJudge a = .done ∧ a / 256 ≠ 5 := by decide

theorem latchedGroups_no_event (s : State) : ∀ x ∈ latchedGroups, ∀ a ∈ x.1 :: x.2, evReg s a = none := by
  intro x hx a ha
  fin_cases hx <;> fin_cases ha <;> rfl

theorem latched_low (s : State) : ∀ x ∈ latchedGroups, latched s x.1 = none := by
  intro x hx
  fin_cases hx <;> rfl

theorem latch_upper (s : State) : ∀ x ∈ latchedGroups, ∀ a ∈ x.2, latch a s = s := by
  intro x hx a ha
  fin_cases hx <;> fin_cases ha <;> rfl

theorem latch_low_eq (s : State) : ∀ x ∈ latchedGroups, latch x.1 s = { s with latch := (latch x.1 s).latch } := by
  intro x hx
  fin_cases hx <;> rfl

/-- A read of the lowest word of a group latches its upper words as they stand, and those of no other group. -/
theorem latched_latch (s : State) : ∀ x ∈ latchedGroups, ∀ y ∈ latchedGroups, ∀ a ∈ y.2,
    latched (latch x.1 s) a = if y.1 = x.1 then some (regVal s a) else latched s a := by
  intro x hx y hy a ha
  fin_cases hx <;> fin_cases hy <;> fin_cases ha <;> rfl

theorem readBase_of_not_arb {a : Nat} (s : State) (h : a / 256 ≠ 5) : readBase a s = assureLapse s := if_neg h

/-- A read of the lowest word of a group answers it and fills the group's latch. -/
theorem portRead_low {p : Port} {s : State} (hp : portUp s p = true) : ∀ x ∈ latchedGroups, portRead p x.1 s =
    { latch x.1 (assureLapse s) with bus := some (carried p x.1 false (regVal (assureLapse s) x.1)) } := by
  intro x hx
  obtain ⟨ha, harb⟩ := latchedGroups_addr x hx x.1 List.mem_cons_self
  rw [portRead_up hp ha, busRead_eq, readBase_of_not_arb s harb, latched_low _ x hx,
    readClear_of_no_event (latchedGroups_no_event _ x hx x.1 List.mem_cons_self)]
  rfl

/-- A read of an upper word of a group answers what its latch holds, and the live word while it is empty. -/
theorem portRead_upper {p : Port} {s : State} (hp : portUp s p = true) : ∀ x ∈ latchedGroups, ∀ a ∈ x.2, portRead p a s =
    { assureLapse s with bus := some (carried p a false ((latched s a).getD (regVal (assureLapse s) a))) } := by
  intro x hx a ha
  obtain ⟨hj, harb⟩ := latchedGroups_addr x hx a (List.mem_cons_of_mem _ ha)
  have hev := latchedGroups_no_event (assureLapse s) x hx a (List.mem_cons_of_mem _ ha)
  have hlat : latched (assureLapse s) a = latched s a := latched_congr a (by rw [assureLapse_eq])
  rw [portRead_plain hp hj (latch_upper _ x hx a ha), readBase_of_not_arb s harb, hlat]
  rw [readBase_of_not_arb s harb]
  exact readClear_of_no_event hev

/-- Settles O9: by `portRead_low` and `portRead_upper`, what is latched by `latched_latch`. -/
theorem latchedReads : Obligations.LatchedReads := by
  intro t p ins s hp
  refine ⟨fun x hx => ⟨_, exec_latchedGroupLowRead .., ?_⟩, fun x hx a ha => ?_⟩
  · rw [portRead_low hp x hx]
    refine ⟨?_, fun a ha => ?_, fun y hy hne a ha => ?_⟩
    · conv_lhs => rw [latch_low_eq _ x hx]
    · exact (latched_congr a rfl).trans ((latched_latch _ x hx x hx a ha).trans (if_pos rfl))
    · exact (latched_congr a rfl).trans ((latched_latch _ x hx y hy a ha).trans (if_neg hne))
  · have hlat : latched (inputsNow ins (advance t s)) a = latched (advance t s) a := latched_congr a (by rw [inputsNow_eq])
    have hread := portRead_upper ((portUp_inputsNow ins _ p).trans hp) x hx a ha
    rw [hlat] at hread
    refine ⟨fun v hv => ⟨_, exec_rcRegisterRead .., ?_⟩, fun hnone => ⟨_, exec_rcRegisterRead .., ?_⟩⟩
    · rw [hread, hv, Option.getD_some]
    · rw [hread, hnone, Option.getD_none]

/-! ### Registers whose event fields a read clears (00 R7, R8) -/

/-- `a` is the address of a register whose event fields, those of event register `r`, are RC. -/
structure RcAddr (a r : Nat) : Prop where
  judge : addrJudge a = .done
  ev : ∀ s, evReg s a = some r
  rc : w1cAt a = false
  latch : ∀ s, latch a s = s
  latched : ∀ s, latched s a = none
  lt : r < 431
  ne : r ≠ rgAssureHist

theorem rcRegs_rcAddr : ∀ x ∈ rcRegs, RcAddr x.1 x.2 := by
  intro x hx
  fin_cases hx <;> exact ⟨rfl, fun _ => rfl, rfl, fun _ => rfl, fun _ => rfl, by decide, by decide⟩

/-- The registers of octet `k` whose event fields are RC, with their event registers. -/
def octRcRegs (k : Nat) : List (Nat × Nat) :=
  [(0x1014 + 0x40 * k, rgXpt k), (0x1018 + 0x40 * k, rgCapHw k), (0x101C + 0x40 * k, rgCapLoss k)]

theorem octRcRegs_rcAddr {k : Nat} (hk : k < 8) : ∀ x ∈ octRcRegs k, RcAddr x.1 x.2 := by
  intro x hx
  interval_cases k <;> fin_cases hx <;> exact ⟨rfl, fun _ => rfl, rfl, fun _ => rfl, fun _ => rfl, by decide, by decide⟩

theorem readLeaves_zero {r : Nat} (s : State) (h : ¬ (31 ≤ r ∧ r < 39)) : readLeaves s r = 0 := if_neg h

theorem readLeaves_capHw {k : Nat} (s : State) (hk : k < 8) : readLeaves s (rgCapHw k) = word (2 ^ 16 * capFill s k) := by
  have hr : 31 ≤ rgCapHw k ∧ rgCapHw k < 39 := by unfold rgCapHw; omega
  have hi : rgCapHw k - 31 = k := by unfold rgCapHw; omega
  rw [readLeaves, if_pos hr, hi]

/-- What a read that clears leaves: its answer, `x` in the event word, every other event register as it was, and the events of the present
cycle for the first look in a later one. -/
def ClearsOnRead (p : Port) (a r : Nat) (x : Word) (s w : State) : Prop :=
  w = { readBase a s with ev := w.ev, bus := some (carried p a false (regVal (readBase a s) a)) } ∧ vget w.ev r 0 = x ∧
  (∀ q, q ≠ r → vget w.ev q 0 = vget (readBase a s).ev q 0) ∧
  (∀ t', cycleOf w.now < cycleOf t' → vget (pass t' w).ev r 0 = evNow w r)

theorem portRead_clears {p : Port} {a r : Nat} {s : State} (hp : portUp s p = true) (h : RcAddr a r) :
    ClearsOnRead p a r (readLeaves (readBase a s) r) s (portRead p a s) := by
  have hread : portRead p a s = { readBase a s with
      ev := vmod (readBase a s).ev r fun _ => readLeaves (readBase a s) r
      bus := some (carried p a false (regVal (readBase a s) a)) } := by
    rw [portRead_up hp h.judge, busRead_eq, h.latch, h.latched, readClear, h.ev]
    simp [h.rc]
  rw [hread]
  exact ⟨rfl, vget_vmod_same _ _ _ _ h.lt, fun q hq => vget_vmod_ne _ _ _ _ _ hq.symm, fun t' ht => pass_ev_later ht h.ne⟩

/-- Every RC field but HIGH_WATER is left 0. -/
theorem portRead_clears_zero {p : Port} {a r : Nat} {s : State} (hp : portUp s p = true) (h : RcAddr a r)
    (hr : ¬ (31 ≤ r ∧ r < 39)) : ClearsOnRead p a r 0 s (portRead p a s) :=
  readLeaves_zero (readBase a s) hr ▸ portRead_clears hp h

theorem readBase_of_octet {a : Nat} (s : State) (h : 0x1000 ≤ a) : readBase a s = assureLapse s :=
  readBase_of_not_arb s (by omega)

/-! ### The two registers with W1C event fields -/

theorem portRead_w1c {p : Port} {s : State} (hp : portUp s p = true) : ∀ a ∈ [0x024, 0x52C], portRead p a s =
    { readBase a s with bus := some (carried p a false (regVal (readBase a s) a)) } := by
  intro a ha
  fin_cases ha <;> exact portRead_plain hp rfl rfl (readClear_of_w1c rfl)

/-! ### Writes through a running port -/

theorem exec_registerWrite {t : Instant} {p : Port} {a : Nat} {v : Word} {s : State} (hp : portUp (advance t s) p = true)
    (ha : addrJudge a = .done) : exec (.registerWrite t p a v) s =
      .next (answer p a true v (regWrite a v (assureLapse (advance t s))).2 (regWrite a v (assureLapse (advance t s))).1) := by
  have hw : portWrite p a v (busWrite a v) (advance t s) = answer p a true v (busWrite a v (assureLapse (advance t s))).2
      (busWrite a v (assureLapse (advance t s))).1 := if_pos hp
  have hb : busWrite a v (assureLapse (advance t s)) = regWrite a v (assureLapse (advance t s)) := by
    rw [busWrite, ha, assureLapse_assureLapse]
  rw [← hb, ← hw]
  rfl

/-- Settles O8: by `portRead_clears` and, for the W1C registers, `portRead_w1c` and what `regWrite` does there. -/
theorem rcReadClears : Obligations.RcReadClears := by
  intro t p ins s hp
  have hup : portUp (inputsNow ins (advance t s)) p = true := (portUp_inputsNow ins _ p).trans hp
  refine ⟨fun x hx => ⟨_, exec_rcRegisterRead .., ?_⟩, fun k hk => ?_, fun a ha => ⟨_, exec_rcRegisterRead .., portRead_w1c hup a ha⟩,
    fun v => ⟨_, exec_registerWrite hp rfl, ?_⟩, fun v => ⟨_, exec_registerWrite hp rfl, ?_⟩⟩
  · have hzero : ∀ x ∈ rcRegs, ¬ (31 ≤ x.2 ∧ x.2 < 39) := by decide
    exact portRead_clears_zero hup (rcRegs_rcAddr x hx) (hzero x hx)
  · obtain ⟨hxpt, hcap, hloss, -⟩ : RcAddr _ (rgXpt k) ∧ RcAddr _ (rgCapHw k) ∧ RcAddr _ (rgCapLoss k) ∧ _ := by
      simpa only [octRcRegs, List.forall_mem_cons] using octRcRegs_rcAddr hk
    refine ⟨⟨_, exec_rcRegisterRead .., ?_⟩, ⟨_, exec_rcRegisterRead .., ?_⟩, ⟨_, exec_rcRegisterRead .., ?_⟩⟩
    · exact portRead_clears_zero hup hxpt (by unfold rgXpt; omega)
    · have h := portRead_clears hup hcap
      rw [readLeaves_capHw _ hk, readBase_of_octet _ (by omega)] at h
      exact h
    · exact portRead_clears_zero hup hloss (by unfold rgCapLoss; omega)
  · exact ⟨vget_vmod_same _ _ _ _ (by decide), rfl⟩
  · exact ⟨vget_vmod_same _ _ _ _ (by decide), rfl⟩

end Sys2Proof.Machine
end

section
/-!
SUPPORT. Writes of RWL registers (00 R9; 18 R421, R422): refused in Day, and otherwise read back in their writable bits.
-/

set_option Elab.async false

namespace Sys2Proof.Machine

open Sys2Proof

theorem inDay_iff (s : State) : inDay s = true ↔ s.pwr.st = .day := beq_iff_eq

theorem rwl_day {s : State} (f : State → State) (h : s.pwr.st = .day) : rwl s f = (s, .access) :=
  if_pos ((inDay_iff s).mpr h)

theorem rwl_not_day {s : State} (f : State → State) (h : s.pwr.st ≠ .day) : rwl s f = (f s, .done) :=
  if_neg fun hd => h ((inDay_iff s).mp hd)

/-! ### The register block after a write -/

theorem setReg_r (off : Nat) (w : Word) (f : Regs → Regs) (s : State) : ∃ l, (setReg off w f s).r = { f s.r with subst := l } := by
  obtain ⟨l, hl⟩ := noteRange_steady (Steady.refl { s with r := f s.r }) off 0 (subsIn off w)
  exact ⟨l, hl.r⟩

theorem portCfgWrite_r (v : Word) (s : State) : (portCfgWrite v s).r = { s.r with portCfg := v &&& 0x3F } := by
  have hset : Steady { s with r := { s.r with portCfg := v &&& 0x3F } } (portCfgWrite v s) := by
    unfold portCfgWrite
    refine .ite (.ite ?written (usbDetach_steady ?written _ _ _)) (usbConnect_steady ?written)
    exact ⟨rfl, rfl, by dsimp only; split <;> rfl⟩
  exact hset.r

theorem ptpCfgWrite_r (v : Word) (s : State) : ∃ l, (ptpCfgWrite v s).r = { s.r with ptpCfg := v &&& 0x7FF00F00, subst := l } := by
  obtain ⟨l, hl⟩ := setReg_r 0x224 (v &&& 0x7FF00F00) (fun r => { r with ptpCfg := v &&& 0x7FF00F00 }) s
  refine ⟨l, (reviewDiscipline_steady (Steady.refl _)).r.trans ?_⟩
  split
  · exact hl
  · exact hl

theorem ringCfgWrite_r (v : Word) (s : State) : (ringCfgWrite v s).r = { s.r with ringCfg := v &&& 0x001F1F0E } := by
  refine (ringWatch_steady (Steady.refl _) s).r.trans ?_
  dsimp only
  split
  · rfl
  · rw [(masterSet_steady (Steady.refl s) none).r]

/-! ### What an RWL register reads after its write -/

/-- The register `x.1` reads `v` in its writable bits `x.2`; of G_SRING_CFG only those bits are looked at (R422). -/
def ReadsBack (x : Nat × Word) (v : Word) (w : State) : Prop :=
  if x.1 / 16 ∈ [0x33, 0x34, 0x35, 0x36] then regVal w x.1 &&& 0x0FFF0FFF = v &&& x.2 else regVal w x.1 = v &&& x.2

/-- Beside the fields of G_SRING_CFG stands CFG_ERR, bit 30. -/
theorem sringCfg_fields (v : Word) (e : Bool) :
    word ((v &&& 0x0FFF0FFF).toNat + 2 ^ 30 * b2n e) &&& 0x0FFF0FFF = v &&& 0x0FFF0FFF := by
  have hsum : word ((v &&& 0x0FFF0FFF).toNat + 2 ^ 30 * b2n e) = (v &&& 0x0FFF0FFF) + word (2 ^ 30 * b2n e) := by
    simp [word, BitVec.ofNat_add]
  have hdisj : (v &&& 0x0FFF0FFF) &&& word (2 ^ 30 * b2n e) = 0 := by
    rw [BitVec.and_assoc]
    cases e <;> simp [word, b2n]
  have hout : word (2 ^ 30 * b2n e) &&& 0x0FFF0FFF = 0 := by cases e <;> decide
  rw [hsum, BitVec.add_eq_or_of_and_eq_zero _ _ hdisj, BitVec.and_or_distrib_right, hout, BitVec.and_assoc]
  simp

/-- A write tells what the register reads by the field of the register block that it leaves. -/
theorem readsBack_of_field {a : Nat} {m v : Word} {w : State} (field : Regs → Word) (ha : a / 16 ∉ [0x33, 0x34, 0x35, 0x36])
    (hreg : regVal w a = field w.r) (hw : field w.r = v &&& m) : ReadsBack (a, m) v w :=
  (if_neg ha).mpr (hreg.trans hw)

/-- Watching the ranges of a written field leaves the field as written. -/
theorem field_setReg {off : Nat} {w x : Word} {f : Regs → Regs} {s : State} (field : Regs → Word)
    (hf : ∀ l, field { f s.r with subst := l } = x) : field (setReg off w f s).r = x := by
  obtain ⟨l, hl⟩ := setReg_r off w f s
  rw [hl, hf]

theorem readsBack_setReg {a off : Nat} {m v w : Word} {f : Regs → Regs} {s : State} (field : Regs → Word)
    (ha : a / 16 ∉ [0x33, 0x34, 0x35, 0x36]) (hreg : regVal (setReg off w f s) a = field (setReg off w f s).r)
    (hf : ∀ l, field { f s.r with subst := l } = v &&& m) : ReadsBack (a, m) v (setReg off w f s) :=
  readsBack_of_field field ha hreg (field_setReg field hf)

/-- The write of G_SRING_CFG of ring `r`. -/
def sringSet (r : Nat) (v : Word) (s : State) : State :=
  { s with r := { s.r with sringCfg := vmod s.r.sringCfg r fun _ => v &&& 0x0FFF0FFF } }

theorem readsBack_sring {a : Nat} {v : Word} {w : State} (r : Nat) (ha : a / 16 ∈ [0x33, 0x34, 0x35, 0x36])
    (hreg : regVal w a = sringCfgReg w r) (hw : vget w.r.sringCfg r 0 = v &&& 0x0FFF0FFF) : ReadsBack (a, 0x0FFF0FFF) v w := by
  refine (if_pos ha).mpr ?_
  rw [hreg, sringCfgReg, hw, sringCfg_fields]

/-- The write of every RWL register is guarded by R9, G_ARB_CFG's after the arbiter is brought up to its cycle, and the register then reads
back. -/
theorem rwlRegs_write (v : Word) : ∀ x ∈ rwlRegs, ∃ f : State → State,
    (∀ s, regWrite x.1 v s = rwl (if x.1 = 0x500 then arbReady s else s) f) ∧ ∀ s, ReadsBack x v (f s) := by
  have hones : v &&& 0xFFFFFFFF = v := BitVec.and_allOnes
  simp only [rwlRegs, List.forall_mem_cons]
  refine ⟨?portCfg, ?bootLimits, ?pwrOctEn, ?pwrCfg, ?clkCfg, ?timeSrc, ?ppsComp, ?ptpCfg, ?ptpAsym, ?sring0, ?sring1, ?sring2, ?sring3,
    ?arbCfg, ?sealCfg, ?ckptCfg, ?ringCfg, ?ringSleep, ?ringAsym, ?spiCfg, ?usbCfg, ?ethCfg, fun _ h => absurd h List.not_mem_nil⟩
  case timeSrc =>
    refine ⟨fun u => reviewDiscipline (setReg 0x21C (v &&& 0xFFFFFF0F) (fun r => { r with timeSrc := v &&& 0xFFFFFF0F }) u),
      fun _ => rfl, fun s => readsBack_of_field Regs.timeSrc (by decide) rfl ?_⟩
    rw [(reviewDiscipline_steady (Steady.refl _)).r]
    exact field_setReg Regs.timeSrc fun _ => rfl
  case portCfg => exact ⟨_, fun _ => rfl, fun _ => readsBack_of_field Regs.portCfg (by decide) rfl (by rw [portCfgWrite_r])⟩
  case bootLimits => exact ⟨_, fun _ => rfl, fun _ => readsBack_setReg Regs.bootLimits (by decide) rfl fun _ => rfl⟩
  case pwrOctEn =>
    exact ⟨fun u => { u with r := { u.r with pwrOctEn := v &&& 0xFF } }, fun _ => rfl,
      fun _ => readsBack_of_field Regs.pwrOctEn (by decide) rfl rfl⟩
  case pwrCfg => exact ⟨_, fun _ => rfl, fun _ => readsBack_setReg Regs.pwrCfg (by decide) rfl fun _ => rfl⟩
  case clkCfg => exact ⟨_, fun _ => rfl, fun _ => readsBack_setReg Regs.clkCfg (by decide) rfl fun _ => rfl⟩
  case ppsComp =>
    exact ⟨fun u => { u with r := { u.r with ppsComp := v &&& 0xFFFFFF } }, fun _ => rfl,
      fun _ => readsBack_of_field Regs.ppsComp (by decide) rfl rfl⟩
  case ptpCfg =>
    refine ⟨_, fun _ => rfl, fun s => ?_⟩
    obtain ⟨l, hl⟩ := ptpCfgWrite_r v s
    exact readsBack_of_field Regs.ptpCfg (by decide) rfl (by rw [hl])
  case ptpAsym =>
    exact ⟨fun u => { u with r := { u.r with ptpAsym := v } }, fun _ => rfl,
      fun _ => readsBack_of_field Regs.ptpAsym (by decide) rfl hones.symm⟩
  case sring0 => exact ⟨sringSet 0 v, fun _ => rfl, fun _ => readsBack_sring 0 (by decide) rfl (vget_vmod_same _ _ _ _ (by decide))⟩
  case sring1 => exact ⟨sringSet 1 v, fun _ => rfl, fun _ => readsBack_sring 1 (by decide) rfl (vget_vmod_same _ _ _ _ (by decide))⟩
  case sring2 => exact ⟨sringSet 2 v, fun _ => rfl, fun _ => readsBack_sring 2 (by decide) rfl (vget_vmod_same _ _ _ _ (by decide))⟩
  case sring3 => exact ⟨sringSet 3 v, fun _ => rfl, fun _ => readsBack_sring 3 (by decide) rfl (vget_vmod_same _ _ _ _ (by decide))⟩
  case arbCfg => exact ⟨_, fun _ => rfl, fun _ => readsBack_setReg Regs.arbCfg (by decide) rfl fun _ => rfl⟩
  case sealCfg => exact ⟨_, fun _ => rfl, fun _ => readsBack_setReg Regs.sealCfg (by decide) rfl fun _ => rfl⟩
  case ckptCfg => exact ⟨_, fun _ => rfl, fun _ => readsBack_setReg Regs.ckptCfg (by decide) rfl fun _ => rfl⟩
  case ringCfg => exact ⟨_, fun _ => rfl, fun _ => readsBack_of_field Regs.ringCfg (by decide) rfl (by rw [ringCfgWrite_r])⟩
  case ringSleep => exact ⟨_, fun _ => rfl, fun _ => readsBack_setReg Regs.ringSleep (by decide) rfl fun _ => hones.symm⟩
  case ringAsym =>
    exact ⟨fun u => { u with r := { u.r with ringAsym := v &&& 0xFFFF } }, fun _ => rfl,
      fun _ => readsBack_of_field Regs.ringAsym (by decide) rfl rfl⟩
  case spiCfg => exact ⟨_, fun _ => rfl, fun _ => readsBack_of_field Regs.spiCfg (by decide) rfl rfl⟩
  case usbCfg =>
    exact ⟨fun u => { u with r := { u.r with usbCfg := v &&& 3 } }, fun _ => rfl,
      fun _ => readsBack_of_field Regs.usbCfg (by decide) rfl rfl⟩
  case ethCfg => exact ⟨_, fun _ => rfl, fun _ => readsBack_setReg Regs.ethCfg (by decide) rfl fun _ => rfl⟩

theorem rwlRegs_addr : ∀ x ∈ rwlRegs, addrJudge x.1 = .done := by decide

theorem regVal_answer_rwl (p : Port) (a : Nat) (wr : Bool) (v : Word) (res : BusRes) (s : State) :
    ∀ x ∈ rwlRegs, regVal (answer p a wr v res s) x.1 = regVal s x.1 := by
  intro x hx
  fin_cases hx <;> rfl

theorem regVal_arbCfg_arbReady (s : State) : regVal (arbReady s) 0x500 = regVal s 0x500 :=
  congrArg Regs.arbCfg (arbReady_steady (Steady.refl s)).r

/-- Settles O6: `rwlRegs_write` gives each write as one guarded by R9, refused by `rwl_day` and carried out by `rwl_not_day`. -/
theorem rwlRegisterWrite : Obligations.RwlRegisterWrite := by
  intro t p v s hp u x hx
  obtain ⟨f, hwrite, hreads⟩ := rwlRegs_write v x hx
  have hst : (if x.1 = 0x500 then arbReady u else u).pwr.st = u.pwr.st := by
    split
    · exact (arbReady_steady (Steady.refl u)).st
    · rfl
  have hexec := exec_registerWrite (v := v) hp (rwlRegs_addr x hx)
  refine ⟨fun hday => ⟨_, hexec, ?_⟩, fun hday => ⟨_, hexec, ?_⟩⟩
  · rw [hwrite, rwl_day f (hst.trans hday)]
    refine ⟨rfl, ?_, fun hne => ?_⟩
    · rw [regVal_answer_rwl _ _ _ _ _ _ x hx]
      split
      next h => rw [h, regVal_arbCfg_arbReady]
      · rfl
    · rw [if_neg hne]
      rfl
  · rw [hwrite, rwl_not_day f (fun h => hday (hst.symm.trans h))]
    refine ⟨rfl, ?_⟩
    rw [regVal_answer_rwl _ _ _ _ _ _ x hx]
    exact hreads _

end Sys2Proof.Machine
end

section
/-!
SUPPORT. What fault events, records and the decisions of the queue leave alone: the time base, the enclosure and the Nightwatch counter; and,
of those that decide no job, the slots of jobs that do not run and the events of G_TIME_EVENTS that wait. One lemma for each operation, from
the shared ones up.
-/

set_option Elab.async false

namespace Sys2Proof.Machine

open Sys2Proof

/-- From `z` to `w` the time base, the enclosure, and the Nightwatch counter with its alignment stand still. -/
structure ClockKept (z w : State) : Prop where
  tim : w.tim = z.tim
  encl : w.encl = z.encl
  codes : w.nw.codes = z.nw.codes
  aligned : w.nw.aligned = z.nw.aligned
  alignSec : w.nw.alignSec = z.nw.alignSec

/-- From `z` to `w` the instant of the present happening and the slots of jobs that do not run stand still, and no waiting event of
G_TIME_EVENTS is lost. -/
structure StartsKept (z w : State) : Prop where
  hap : w.hap = z.hap
  slots : ∀ i, (slotAt z i).st ≠ .running → slotAt w i = slotAt z i
  events : ∀ b ∈ z.evPend, b.reg = rgTime → b ∈ w.evPend

/-- What fault events and records leave alone. -/
structure FaultKept (z w : State) : Prop extends ClockKept z w, StartsKept z w

theorem ClockKept.refl (s : State) : ClockKept s s := ⟨rfl, rfl, rfl, rfl, rfl⟩

theorem ClockKept.trans {a b c : State} (h : ClockKept a b) (g : ClockKept b c) : ClockKept a c :=
  ⟨g.tim.trans h.tim, g.encl.trans h.encl, g.codes.trans h.codes, g.aligned.trans h.aligned, g.alignSec.trans h.alignSec⟩

theorem StartsKept.refl (s : State) : StartsKept s s := ⟨rfl, fun _ _ => rfl, fun _ hb _ => hb⟩

theorem StartsKept.trans {a b c : State} (h : StartsKept a b) (g : StartsKept b c) : StartsKept a c where
  hap := g.hap.trans h.hap
  slots i hi := (g.slots i (h.slots i hi ▸ hi)).trans (h.slots i hi)
  events b hb hr := g.events b (h.events b hb hr) hr

theorem StartsKept.ite {z a b : State} {c : Prop} [Decidable c] (ha : StartsKept z a) (hb : StartsKept z b) :
    StartsKept z (if c then a else b) := by
  split
  · exact ha
  · exact hb

theorem FaultKept.refl (s : State) : FaultKept s s := ⟨.refl s, .refl s⟩

theorem FaultKept.trans {a b c : State} (h : FaultKept a b) (g : FaultKept b c) : FaultKept a c :=
  ⟨h.toClockKept.trans g.toClockKept, h.toStartsKept.trans g.toStartsKept⟩

/-- An update that writes none of these. -/
theorem ClockKept.upd {z s w : State} (h : ClockKept z s) (htim : w.tim = s.tim := by rfl) (hencl : w.encl = s.encl := by rfl)
    (hcodes : w.nw.codes = s.nw.codes := by rfl) (hal : w.nw.aligned = s.nw.aligned := by rfl)
    (hsec : w.nw.alignSec = s.nw.alignSec := by rfl) : ClockKept z w :=
  h.trans ⟨htim, hencl, hcodes, hal, hsec⟩

theorem StartsKept.upd {z s w : State} (h : StartsKept z s) (hhap : w.hap = s.hap := by rfl)
    (hslots : w.seqr.slots = s.seqr.slots := by rfl)
    (hev : ∀ b ∈ s.evPend, b.reg = rgTime → b ∈ w.evPend := by exact fun _ hb _ => hb) : StartsKept z w :=
  h.trans ⟨hhap, fun i _ => congrArg (fun v : Vector Slot 16 => vget v i {}) hslots, hev⟩

theorem FaultKept.upd {z s w : State} (h : FaultKept z s) (hclock : ClockKept s w := by exact (ClockKept.refl _).upd)
    (hstarts : StartsKept s w := by exact (StartsKept.refl _).upd) : FaultKept z w :=
  h.trans ⟨hclock, hstarts⟩

theorem ClockKept.ite {z a b : State} {c : Prop} [Decidable c] (ha : ClockKept z a) (hb : ClockKept z b) :
    ClockKept z (if c then a else b) := by
  split
  · exact ha
  · exact hb

theorem FaultKept.ite {z a b : State} {c : Prop} [Decidable c] (ha : FaultKept z a) (hb : FaultKept z b) :
    FaultKept z (if c then a else b) := by
  split
  · exact ha
  · exact hb

theorem ClockKept.foldl {α : Type} {z s : State} (f : State → α → State) (l : List α) (h : ClockKept z s)
    (hf : ∀ u a, ClockKept z u → ClockKept z (f u a)) : ClockKept z (l.foldl f s) :=
  List.foldlRecOn l f h fun u hu a _ => hf u a hu

theorem FaultKept.foldl {α : Type} {z s : State} (f : State → α → State) (l : List α) (h : FaultKept z s)
    (hf : ∀ u a, FaultKept z u → FaultKept z (f u a)) : FaultKept z (l.foldl f s) :=
  List.foldlRecOn l f h fun u hu a _ => hf u a hu

/-- One more event waits. -/
theorem FaultKept.event {z s : State} (h : FaultKept z s) (b : EvBump) : FaultKept z { s with evPend := b :: s.evPend } :=
  h.upd (hstarts := (StartsKept.refl s).upd (hev := fun _ hb _ => List.mem_cons_of_mem _ hb))

/-! ### The trouble log, the unit queue and power requests -/

section Fault

variable {z s : State} (h : FaultKept z s)
include h

theorem bump_faultKept (reg lo width amt : Nat) : FaultKept z (bump reg lo width amt s) := h.event _

theorem bumpMax_faultKept (reg lo width v : Nat) : FaultKept z (bumpMax reg lo width v s) := h.event _

theorem logWrite_faultKept (es : List LogEntry) : FaultKept z (logWrite es s) := by
  have hlog {u : State} (hu : FaultKept z u) (l : List LogEntry) (n : Nat) :
      FaultKept z { u with nw := { u.nw with log := l, logNext := n } } := hu.upd
  unfold logWrite
  dsimp only
  split
  · exact hlog h _ _
  · exact hlog (bump_faultKept h _ _ _ _) _ _

theorem logPut_faultKept (src code value : Nat) (ws : List Nat) : FaultKept z (logPut src code value ws s) :=
  logWrite_faultKept h _

theorem notice_faultKept (code value : Nat) (ws : List Nat) : FaultKept z (notice code value ws s) := logPut_faultKept h _ _ _ _

theorem pushUnit_faultKept (r : Rec) (k : Instant) : FaultKept z (pushUnit r k s) := .ite h h.upd

theorem holdRequest_faultKept (p : PwrPend) : FaultKept z (holdRequest p s) := .ite h h.upd

theorem duskUndo_faultKept : FaultKept z (duskUndo s) := by
  unfold duskUndo
  split
  · exact .ite h.upd h
  · exact h

theorem duskAct_faultKept (p : PwrPend) : FaultKept z (duskAct p s) :=
  .ite h.upd (.ite h (.ite h.upd (holdRequest_faultKept h p)))

theorem duskRequest_faultKept (p : PwrPend) : FaultKept z (duskRequest p s) :=
  .ite h (duskAct_faultKept (duskUndo_faultKept h).upd p)

theorem pwrRequest_faultKept (target : PwrSt) (source cause : Nat) : FaultKept z (pwrRequest target source cause s) := by
  have hday : FaultKept z (if nightOrEvening s target = .day then { s with rt := { s.rt with after := [] } } else s) := .ite h.upd h
  refine .ite (notice_faultKept h _ _ _) (.ite (notice_faultKept h _ _ _) ?_)
  dsimp only
  split
  · exact hday
  · exact duskRequest_faultKept hday _
  · exact .ite hday (holdRequest_faultKept hday _)
  · exact .ite hday (holdRequest_faultKept hday _)
  · exact holdRequest_faultKept hday _

/-! ### Fault events and their reactions -/

theorem modScope_faultKept (src oct : Nat) (f : FltScope → FltScope) : FaultKept z (modScope src oct f s) := h.upd

theorem setCond_faultKept (src oct : Nat) (c : Bool) : FaultKept z (setCond src oct c s) := modScope_faultKept h _ _ _

theorem returnXpt_faultKept (mask : Nat) : FaultKept z (returnXpt mask s) :=
  .foldl _ _ h.upd fun _ _ hu => hu.event _

/-- A stop is ordered for running jobs alone. -/
theorem orderStop_faultKept (gran : Bool) (code cause : Nat) (line : Bool) (i : Nat) : FaultKept z (orderStop gran code cause line i s) := by
  unfold orderStop
  split
  next hrun =>
    refine h.upd (hstarts := ⟨rfl, fun j hj => ?_, fun _ hb _ => hb⟩)
    rw [slotAt_modSlot]
    exact if_neg fun ⟨hij, _⟩ => hj (hij ▸ hrun)
  · exact h

theorem faultStop_faultKept (mask src : Nat) : FaultKept z (faultStop mask src s) :=
  .foldl _ _ h fun _ _ hu => orderStop_faultKept hu _ _ _ _ _

theorem calRequest_faultKept (mask : Nat) : FaultKept z (calRequest mask s) := .ite h.upd (notice_faultKept h.upd _ _ _)

omit h in
theorem unitRequest_faultKept (l : List Nat) : ∀ {s : State}, FaultKept z s → FaultKept z (unitRequest l s) := by
  induction l with
  | nil => exact fun h => h.upd
  | cons j l ih =>
    intro s h
    exact .ite (.ite (ih (calRequest_faultKept h _)) (calRequest_faultKept h _).upd) (ih h)

theorem unitAdvance_faultKept (k : Nat) : FaultKept z (unitAdvance k s) := .ite (unitRequest_faultKept _ h) h

theorem strobeAfter_faultKept (k : Nat) : FaultKept z (strobeAfter k s) := .ite h.upd h

theorem calRec_faultKept (sub mask pin : Nat) (valid : Bool) (quality : Nat) : FaultKept z (calRec sub mask pin valid quality s) :=
  pushUnit_faultKept h _ _

theorem abandonWindow_faultKept (k : Nat) : FaultKept z (abandonWindow k s) := by
  unfold abandonWindow
  split
  · exact h
  · refine unitAdvance_faultKept (strobeAfter_faultKept (calRec_faultKept (bump_faultKept ?_ _ _ _ _) _ _ _ _ _) _) _
    exact h.upd

theorem mapPins_faultKept (mask : Nat) (f : Nat → PinCh → PinCh) : FaultKept z (mapPins mask f s) := by
  unfold mapPins
  exact h.upd

theorem stopOctets_faultKept (mask src : Nat) : FaultKept z (stopOctets mask src s) := by
  have hpins : FaultKept z (if pinsOn s then safePins mask s else s) := .ite (mapPins_faultKept h _ _) h
  exact faultStop_faultKept (.foldl _ _ (returnXpt_faultKept hpins _) fun _ _ hu => abandonWindow_faultKept hu _) _ _

theorem react_faultKept (src oct : Nat) (fresh : Bool) : FaultKept z (react src oct fresh s) := by
  unfold react
  split
  · exact .ite (stopOctets_faultKept h _ _) h
  · exact faultStop_faultKept h _ _
  · exact .ite (pwrRequest_faultKept h _ _ _) h
  · exact h

theorem unlog_faultKept (e : LogEntry) : FaultKept z (unlog e s) := .ite h.upd h

/-- The event taken back is one of G_FLT_COUNT. -/
theorem uncount_faultKept (src oct : Nat) : FaultKept z (uncount src oct s) := by
  refine modScope_faultKept (h.upd (hstarts := (StartsKept.refl s).upd (hev := fun b hb hr => ?_))) _ _ _
  have hreg : rgFltCount (scopeIx src oct) ≠ rgTime := by unfold rgFltCount rgTime; omega
  exact (List.mem_erase_of_ne fun he => hreg (by rw [← hr, he])).mpr hb

theorem clearRefused_faultKept (src oct : Nat) : FaultKept z (clearRefused src oct s) :=
  logPut_faultKept (bump_faultKept h _ _ _ _) _ _ _ _

theorem exitBack_faultKept (src oct : Nat) : FaultKept z (exitBack src oct s) := by
  unfold exitBack
  split
  · exact h
  · have hback (f e) : FaultKept z (unlog e (modScope src oct f s)) := unlog_faultKept (modScope_faultKept h src oct f) e
    exact .ite (react_faultKept (.ite (uncount_faultKept (hback _ _) _ _) (clearRefused_faultKept (hback _ _) _ _)) _ _ _) h

theorem logEvent_faultKept (a : FltAt) (detail : Nat) (ws : List Nat) : FaultKept z (logEvent a detail ws s) :=
  .ite (modScope_faultKept (logPut_faultKept h _ _ _ _) _ _ _) (bump_faultKept (modScope_faultKept h _ _ _) _ _ _ _)

theorem goSevere_faultKept (a : FltAt) : FaultKept z (goSevere a s) :=
  react_faultKept (bump_faultKept (logPut_faultKept (modScope_faultKept h _ _ _) _ _ _ _) _ _ _ _) _ _ _

theorem fault_faultKept (a : FltAt) (detail : Nat) (ws : List Nat) : FaultKept z (fault a detail ws s) := by
  have hlog (f n) : FaultKept z (logEvent a detail ws (bump n 16 16 1 (modScope a.src a.oct f (exitBack a.src a.oct s)))) :=
    logEvent_faultKept (bump_faultKept (modScope_faultKept (exitBack_faultKept h a.src a.oct) _ _ _) _ _ _ _) a detail ws
  exact .ite (.ite (react_faultKept (hlog _ _) _ _ _) (.ite (goSevere_faultKept (hlog _ _) _) (hlog _ _))) h

/-! ### Records -/

theorem modCap_faultKept (k : Nat) (f : Cap → Cap) : FaultKept z (modCap k f s) := h.upd

theorem lossCloseAt_faultKept (k : Nat) : FaultKept z (lossCloseAt k s) := by
  unfold lossCloseAt
  dsimp only
  split
  · exact h
  · exact .ite (fault_faultKept (bumpMax_faultKept (modCap_faultKept h _ _) _ _ _ _) _ _ _) h

theorem capIn_faultKept (k : Nat) (q : QRec) (lo hi : Nat) : FaultKept z (capIn k q lo hi s) := by
  have hput (f n v) : FaultKept z (bumpMax (rgCapHw k) 16 n v (modCap k f (lossCloseAt k s))) :=
    bumpMax_faultKept (modCap_faultKept (lossCloseAt_faultKept h k) _ _) _ _ _ _
  exact .ite h (.ite (hput _ _ _) (bump_faultKept (hput _ _ _) _ _ _ _))

theorem formAt_faultKept (k : Nat) (q : QRec) (lo hi : Nat) : FaultKept z (formAt k q lo hi s) :=
  .ite (capIn_faultKept h _ _ _ _) h.upd

theorem closeOcts_faultKept (at_ : Instant) (mask : Nat) : FaultKept z (closeOcts at_ mask s) :=
  .foldl _ _ h fun _ _ hu => .foldl _ _ (modCap_faultKept hu _ _) fun _ _ hv => formAt_faultKept hv _ _ _ _

theorem timeStateRec_faultKept (sub : Nat) (step : Int) : FaultKept z (timeStateRec sub step s) :=
  pushUnit_faultKept (closeOcts_faultKept h _ _) _ _

end Fault

/-! ### Decisions of the queue (09 R217) and the ends they bring -/

section Clock

variable {z s : State} (h : ClockKept z s)
include h

theorem fault_clockKept (a : FltAt) (detail : Nat) (ws : List Nat) : ClockKept z (fault a detail ws s) :=
  h.trans (fault_faultKept (.refl s) a detail ws).toClockKept

theorem notice_clockKept (code value : Nat) (ws : List Nat) : ClockKept z (notice code value ws s) :=
  h.trans (notice_faultKept (.refl s) code value ws).toClockKept

theorem setCond_clockKept (src oct : Nat) (c : Bool) : ClockKept z (setCond src oct c s) := h.upd

theorem timeStateRec_clockKept (sub : Nat) (step : Int) : ClockKept z (timeStateRec sub step s) :=
  h.trans (timeStateRec_faultKept (.refl s) sub step).toClockKept

theorem modSlot_clockKept (i : Nat) (f : Slot → Slot) : ClockKept z (modSlot i f s) := h.upd

theorem mapPins_clockKept (mask : Nat) (f : Nat → PinCh → PinCh) : ClockKept z (mapPins mask f s) := by
  unfold mapPins
  exact h.upd

theorem endPins_clockKept (code mask : Nat) (act ran : Bool) : ClockKept z (endPins code mask act ran s) :=
  .ite (.ite (mapPins_clockKept h _ _) (.ite (mapPins_clockKept h _ _) h)) h

theorem resetRings_clockKept (mask : Nat) : ClockKept z (resetRings mask s) := .foldl _ _ h fun _ _ hu => hu.upd

theorem endFault_clockKept (i code cause : Nat) : ClockKept z (endFault i code cause s) := by
  unfold endFault
  split
  · exact fault_clockKept h _ _ _
  · exact fault_clockKept h _ _ _
  · exact h

theorem closeOcts_clockKept (at_ : Instant) (mask : Nat) : ClockKept z (closeOcts at_ mask s) :=
  h.trans (closeOcts_faultKept (.refl s) at_ mask).toClockKept

theorem dropActs_clockKept (jobNo mask : Nat) : ClockKept z (dropActs jobNo mask s) := by
  unfold dropActs
  exact h.upd

theorem endJob_clockKept (code cause : Nat) (line : Bool) (i : Nat) : ClockKept z (endJob code cause line i s) := by
  unfold endJob
  dsimp only
  split
  · exact h
  · exact h
  · refine .ite (endPins_clockKept (.ite ?_ ?_) _ _ _ _) h
    · exact h.upd
    · exact h.upd
  · have hclosed : ClockKept z (if (slotAt s i).st == .running then
        closeOcts s.now (slotAt s i).desc.octMask (dropActs (slotAt s i).jobNo (slotAt s i).desc.octMask s) else s) :=
      .ite (closeOcts_clockKept (dropActs_clockKept h _ _) _ _) h
    have hpins (rings mask : Nat) (act ran : Bool) := endPins_clockKept
      (ClockKept.ite (c := code = 1) hclosed (resetRings_clockKept hclosed rings)) code mask act ran
    refine endFault_clockKept (.ite ?_ ?_) _ _ _
    · exact (hpins _ _ _ _).upd
    · exact (hpins _ _ _ _).upd

theorem markDue_clockKept (i : Nat) : ClockKept z (markDue i s) := by
  unfold markDue
  dsimp only
  split
  · split
    · exact h
    · exact .ite (modSlot_clockKept h _ _) (modSlot_clockKept h _ _)
  · exact h

theorem refuseBus_clockKept (addr : Nat) : ClockKept z (refuseBus addr s) := by
  unfold refuseBus
  split
  · exact .ite h.upd h
  · exact h

theorem takeBack_clockKept (x : SegUndo) : ClockKept z (takeBack x s) := by
  unfold takeBack
  split
  · exact refuseBus_clockKept h.upd _
  · exact refuseBus_clockKept h.upd _

theorem takeBackFor_clockKept (sets : Nat) (es : List Nat) : ClockKept z (takeBackFor sets es s) :=
  .ite (.foldl _ _ h.upd fun _ _ hu => takeBack_clockKept hu _) h

theorem beginCheck_clockKept (i : Nat) (st : Option Nat) (late : Bool) : ClockKept z (beginCheck i st late s) :=
  modSlot_clockKept (takeBackFor_clockKept h _ _).upd _ _

theorem atHead_clockKept (i : Nat) (a : Admit) : ClockKept z (atHead i a s) := modSlot_clockKept h.upd _ _

theorem decideOne_clockKept (i : Nat) : ClockKept z (decideOne i s).1 := by
  unfold decideOne
  dsimp only
  split
  · exact endJob_clockKept h _ _ _ _
  · split
    · exact endJob_clockKept h _ _ _ _
    · split
      · exact beginCheck_clockKept h _ _ _
      · exact atHead_clockKept h _ _
    · exact atHead_clockKept h _ _

omit h in
theorem decideDue_clockKept (l : List Nat) : ∀ {s : State}, ClockKept z s → ClockKept z (decideDue l s) := by
  induction l with
  | nil => exact fun h => h.upd
  | cons i l ih => exact fun h => .ite (ih (decideOne_clockKept h i)) (decideOne_clockKept h i)

theorem jobDue_clockKept : ClockKept z (jobDue s) := by
  have hmark : ClockKept z ((List.range 16).foldl (fun s i => markDue i s) s) := .foldl _ _ h fun _ _ hu => markDue_clockKept hu _
  unfold jobDue
  exact .ite hmark (decideDue_clockKept _ hmark)

/-! ### The routine table and the Nightwatch alarm (05 R141, 03 R63) -/

theorem armAlarm_clockKept : ClockKept z (armAlarm s) := by
  unfold armAlarm
  split
  · exact h.upd
  · exact h.upd

theorem rearm_clockKept : ClockKept z (rearm s) := .ite (armAlarm_clockKept h) h

theorem rtSkip_clockKept (i n : Nat) : ClockKept z (rtSkip i n s) := .ite h (fault_clockKept h.upd _ _ _)

theorem rtRecompute_clockKept (count : Bool) : ClockKept z (rtRecompute count s) := by
  refine .ite (armAlarm_clockKept (.foldl _ _ h fun u i hu => ?_)) h
  have hskip (n : Nat) : ClockKept z (if count ∧ (rtEntry u i).action ≠ 0 then rtSkip i n u else u) := .ite (rtSkip_clockKept hu _ _) hu
  exact (hskip _).upd

theorem becameValid_clockKept (was : Bool) : ClockKept z (becameValid was s) :=
  jobDue_clockKept (.ite (rtRecompute_clockKept h _) (rearm_clockKept h))

/-! ### The ring (14 R326) -/

theorem modRing_clockKept (f : Ring → Ring) : ClockKept z (modRing f s) := h.upd

theorem syncLost_clockKept : ClockKept z (syncLost s) := by
  unfold syncLost
  refine .ite (.ite (fault_clockKept (modRing_clockKept ?late _) _ _ _) (modRing_clockKept ?late _)) h
  refine .foldl _ _ h fun u i hu => ?_
  dsimp only
  split
  · exact .ite (notice_clockKept (modSlot_clockKept hu _ _) _ _ _) hu
  · exact hu

theorem originate_clockKept (type : Nat) (outA outB : Bool) (body : List Byte) : ClockKept z (originate type outA outB body s) :=
  .ite (modRing_clockKept (modRing_clockKept h _) _) (modRing_clockKept h _)

theorem resign_clockKept : ClockKept z (resign s) :=
  .ite (modRing_clockKept (syncLost_clockKept (originate_clockKept h _ _ _ _)) _) h

theorem ringWatch_clockKept (old : State) : ClockKept z (ringWatch old s) := by
  have hres : ClockKept z (if isMaster s && mustResign s then resign s else s) := .ite (resign_clockKept h) h
  exact setCond_clockKept (setCond_clockKept (.ite (fault_clockKept hres _ _ _) hres) _ _ _) _ _ _

end Clock

end Sys2Proof.Machine
end

section
/-!
SUPPORT. The time base at an edge of PPS (04 R98 to R102): its states, the step and the host set that wait, and what an edge brings.
-/

set_option Elab.async false

namespace Sys2Proof.Machine

open Sys2Proof

/-! ### The state of the time base (04 R98, R107) -/

/-- The unit as a change of state to `st` leaves it, before its record, the condition of TIME_LOCK and the event of a lost lock. -/
def stTaken (st : TimeSt) (s : State) : State :=
  { s with
    tim := { s.tim with
      st := st
      lockLen := if s.tim.st.isLock then lockFor s else s.tim.lockLen
      lockSince := if st.isLock then some s.now else none
      holdSince := if st = .holdover then s.now else s.tim.holdSince
      holdShort := decide (st = .holdover) && s.tim.st.isLock && decide (lockFor s < 600 * cS)
      ppsOutliers := 0 }
    encl := { s.encl with j4Skip := decide (st ≠ .unlocked) } }

theorem setSt_same {st : TimeSt} {s : State} (h : st = s.tim.st) : setSt st s = s := if_pos h

theorem setSt_change {st : TimeSt} {s : State} (h : st ≠ s.tim.st) : setSt st s =
    if s.tim.st.isLock && !st.isLock then faultU 12 st.code (setCond 12 0 (!st.isLock) (timeStateRec 0 0 (stTaken st s)))
    else setCond 12 0 (!st.isLock) (timeStateRec 0 0 (stTaken st s)) := if_neg h

theorem setSt_faultKept {st : TimeSt} {s : State} (h : st ≠ s.tim.st) : FaultKept (stTaken st s) (setSt st s) := by
  have hrec := setCond_faultKept (timeStateRec_faultKept (.refl (stTaken st s)) 0 0) 12 0 (!st.isLock)
  rw [setSt_change h]
  exact .ite (fault_faultKept hrec _ _ _) hrec

/-- A change of state leads to the state asked for. -/
@[simp] theorem setSt_st (st : TimeSt) (s : State) : (setSt st s).tim.st = st := by
  by_cases h : st = s.tim.st
  · rw [setSt_same h, h]
  · rw [(setSt_faultKept h).tim]
    rfl

/-- From `z` to `w` the time base may come into another state, and nothing else that an edge is measured with changes. -/
structure BaseKept (z w : State) : Prop extends StartsKept z w where
  running : w.tim.running = z.tim.running
  codes : w.tim.codes = z.tim.codes
  valid : w.tim.valid = z.tim.valid
  stepPhase : w.tim.stepPhase = z.tim.stepPhase
  stepSec : w.tim.stepSec = z.tim.stepSec
  ppsLast : w.tim.ppsLast = z.tim.ppsLast
  ppsGood : w.tim.ppsGood = z.tim.ppsGood
  ppsPrev : w.tim.ppsPrev = z.tim.ppsPrev
  hostSet : w.tim.hostSet = z.tim.hostSet
  ref10 : w.encl.ref10 = z.encl.ref10

theorem BaseKept.refl (s : State) : BaseKept s s := ⟨.refl s, rfl, rfl, rfl, rfl, rfl, rfl, rfl, rfl, rfl, rfl⟩

theorem BaseKept.trans {a b c : State} (h : BaseKept a b) (g : BaseKept b c) : BaseKept a c :=
  ⟨h.toStartsKept.trans g.toStartsKept, g.running.trans h.running, g.codes.trans h.codes, g.valid.trans h.valid,
    g.stepPhase.trans h.stepPhase, g.stepSec.trans h.stepSec, g.ppsLast.trans h.ppsLast, g.ppsGood.trans h.ppsGood,
    g.ppsPrev.trans h.ppsPrev, g.hostSet.trans h.hostSet, g.ref10.trans h.ref10⟩

theorem FaultKept.toBaseKept {z w : State} (h : FaultKept z w) : BaseKept z w where
  toStartsKept := h.toStartsKept
  running := by rw [h.tim]
  codes := by rw [h.tim]
  valid := by rw [h.tim]
  stepPhase := by rw [h.tim]
  stepSec := by rw [h.tim]
  ppsLast := by rw [h.tim]
  ppsGood := by rw [h.tim]
  ppsPrev := by rw [h.tim]
  hostSet := by rw [h.tim]
  ref10 := by rw [h.encl]

theorem setSt_baseKept (st : TimeSt) (s : State) : BaseKept s (setSt st s) := by
  by_cases h : st = s.tim.st
  · rw [setSt_same h]
    exact .refl s
  · have htaken : BaseKept s (stTaken st s) := ⟨(StartsKept.refl s).upd, rfl, rfl, rfl, rfl, rfl, rfl, rfl, rfl, rfl, rfl⟩
    exact htaken.trans (setSt_faultKept h).toBaseKept

theorem loseLock_baseKept (s : State) : BaseKept s (loseLock s) := by
  unfold loseLock
  split
  · exact setSt_baseKept _ s
  · exact .refl s

/-- The state a lost lock leads to (R19). -/
def lostSt (s : State) : TimeSt := if 600 * cS ≤ lockFor s then .holdover else .unlocked

theorem loseLock_st {s : State} (h : s.tim.st = .pps) : (loseLock s).tim.st = lostSt s := by
  rw [loseLock, if_pos (by rw [h]; rfl), setSt_st, lostSt]

theorem lostSt_not_lock (s : State) : (lostSt s).isLock = false := by
  unfold lostSt
  split <;> rfl

/-- The start of the frequency lock to REF10, as a review of the discipline notes it. -/
def refSince (s : State) : Option Instant :=
  if refDisc s && s.encl.ref10 then (match s.tim.ref10Since with | some k => some k | none => some s.now) else none

/-- The unit with the frequency lock noted. -/
def refNoted (s : State) : State := modTim (fun t => { t with ref10Since := refSince s }) s

theorem refNoted_baseKept (s : State) : BaseKept s (refNoted s) := ⟨(StartsKept.refl s).upd, rfl, rfl, rfl, rfl, rfl, rfl, rfl, rfl, rfl, rfl⟩

/-- A review changes no state in a mode that uses the source the base is locked to. -/
theorem reviewDiscipline_eq {s : State} (hfree : srcMode s ≠ 3) (hptp : s.tim.st ≠ .ptp) (hpps : s.tim.st = .pps → srcMode s ≠ 2) :
    reviewDiscipline s = refNoted s := by
  unfold reviewDiscipline
  extract_lets on' s1
  split
  · rfl
  · split
    next h => exact absurd h hfree
    · split
      next h => exact if_neg (hpps h)
      next h => exact absurd h hptp
      · rfl

/-- A review notes the frequency lock, and beyond that at most leaves a lock. -/
theorem reviewDiscipline_cases (s : State) :
    reviewDiscipline s = refNoted s ∨ ∃ st, st.isLock = false ∧ reviewDiscipline s = setSt st (refNoted s) := by
  have hlose : loseLock (refNoted s) = refNoted s ∨ ∃ st, st.isLock = false ∧ loseLock (refNoted s) = setSt st (refNoted s) := by
    by_cases h : (refNoted s).tim.st.isLock = true
    · exact .inr ⟨_, lostSt_not_lock _, if_pos h⟩
    · exact .inl (if_neg h)
  unfold reviewDiscipline
  extract_lets on' s1
  split
  · exact .inl rfl
  · split
    · exact .inr ⟨_, rfl, rfl⟩
    · split
      · split
        · exact hlose
        · exact .inl rfl
      · split
        · exact hlose
        · split
          · exact .inr ⟨_, rfl, rfl⟩
          · exact .inl rfl
      · exact .inl rfl

theorem reviewDiscipline_baseKept (s : State) : BaseKept s (reviewDiscipline s) := by
  obtain h | ⟨st, -, h⟩ := reviewDiscipline_cases s
  · exact h ▸ refNoted_baseKept s
  · exact h ▸ (refNoted_baseKept s).trans (setSt_baseKept st _)

/-- A review does not lock the base to REF10 and PPS. -/
theorem reviewDiscipline_st_ne_pps {s : State} (hst : s.tim.st ≠ .pps) : (reviewDiscipline s).tim.st ≠ .pps := by
  obtain h | ⟨st, hlock, h⟩ := reviewDiscipline_cases s
  · exact h ▸ hst
  · rw [h, setSt_st]
    rintro rfl
    cases hlock

/-! ### The step that waits (04 R101, R108) -/

/-- No step waits. -/
def NoStep (s : State) : Prop := s.tim.stepPhase = 0 ∧ s.tim.stepSec = 0

theorem stepDue_noStep {s : State} (old : Int × Int) (h : NoStep s) : stepDue old s = s := if_pos h

theorem BaseKept.noStep {z w : State} (h : BaseKept z w) (hz : NoStep z) : NoStep w := ⟨h.stepPhase.trans hz.1, h.stepSec.trans hz.2⟩

/-- The unit as a step leaves its time base, before its records and what follows from them. -/
def stepTaken (src : Nat) (s : State) : State :=
  let c := moved (waiting s) s.tim.codes
  modTim (fun t => { t with
    codes := c, valid := t.valid || t.secDue, todSrc := src, stepPhase := 0, stepSec := 0, secDue := false
    slew := if t.stepPhase = 0 then t.slew else 0, acquiring := decide (t.stepPhase = 0 ∧ t.slew ≠ 0), lastSecond := some (c / cS) }) s

theorem applyStep_clockKept (src : Nat) (s : State) : ClockKept (stepTaken src s) (applyStep src s) := by
  unfold applyStep
  dsimp only
  refine ringWatch_clockKept (becameValid_clockKept (.ite ?noted (timeStateRec_clockKept ?noted _ _)) _) _
  refine .ite ?kept (timeStateRec_clockKept (ClockKept.upd ?kept) _ _)
  exact (ClockKept.refl (stepTaken src s)).upd

/-- The step that waits is applied, and sets VALID where it sets the second number. -/
theorem applyStep_applies (src : Nat) (s : State) : (applyStep src s).tim.codes = moved (waiting s) s.tim.codes ∧
    (applyStep src s).tim.stepPhase = 0 ∧ (applyStep src s).tim.stepSec = 0 ∧
    (applyStep src s).tim.valid = (s.tim.valid || s.tim.secDue) := by
  rw [(applyStep_clockKept src s).tim]
  exact ⟨rfl, rfl, rfl, rfl⟩

@[simp] theorem applyStep_encl (src : Nat) (s : State) : (applyStep src s).encl = s.encl := (applyStep_clockKept src s).encl

@[simp] theorem applyStep_ppsLast (src : Nat) (s : State) : (applyStep src s).tim.ppsLast = s.tim.ppsLast :=
  (congrArg Tim.ppsLast (applyStep_clockKept src s).tim).trans rfl

/-- A step that waits is applied, or it is noted while a job runs. -/
theorem stepDue_cases (old : Int × Int) (s : State) :
    stepDue old s = s ∨ ClockKept (modTim (fun t => { t with acquiring := true }) s) (stepDue old s) ∨
      stepDue old s = applyStep s.tim.todSrc s := by
  unfold stepDue
  split
  · exact .inl rfl
  · split
    · exact .inr (.inl (.ite (.refl _) (notice_clockKept (.refl _) _ _ _)))
    · exact .inr (.inr rfl)

@[simp] theorem stepDue_encl (old : Int × Int) (s : State) : (stepDue old s).encl = s.encl := by
  obtain h | h | h := stepDue_cases old s
  · rw [h]
  · exact h.encl
  · rw [h, applyStep_encl]

@[simp] theorem stepDue_ppsLast (old : Int × Int) (s : State) : (stepDue old s).tim.ppsLast = s.tim.ppsLast := by
  obtain h | h | h := stepDue_cases old s
  · rw [h]
  · rw [h.tim]
    rfl
  · rw [h, applyStep_ppsLast]

/-! ### The host set (04 R97) -/

theorem hostApply_none {s : State} (n : Int) (h : s.tim.hostSet = none) : hostApply n s = s := by
  rw [hostApply, h]

/-- A host set that becomes SEC changes the time base by its own fields alone. -/
theorem hostApply_cases (n : Int) (s : State) : hostApply n s = s ∨ ∃ d v, ClockKept
    (modTim (fun t => { t with hostSet := none, stepSec := d, secDue := decide (d ≠ 0), valid := v }) s) (hostApply n s) := by
  unfold hostApply
  split
  · exact .inl rfl
  · exact .inr ⟨_, _, .ite (.refl _) (ringWatch_clockKept (becameValid_clockKept (timeStateRec_clockKept (.refl _) _ _) _) _)⟩

@[simp] theorem hostApply_encl (n : Int) (s : State) : (hostApply n s).encl = s.encl := by
  obtain h | ⟨d, v, h⟩ := hostApply_cases n s
  · rw [h]
  · exact h.encl

@[simp] theorem hostApply_ppsLast (n : Int) (s : State) : (hostApply n s).tim.ppsLast = s.tim.ppsLast := by
  obtain h | ⟨d, v, h⟩ := hostApply_cases n s
  · rw [h]
  · rw [h.tim]
    rfl

/-! ### An edge of PPS (04 R99 to R102) -/

/-- The phase error of an edge that comes now (R99). -/
def edgeErr (s : State) : Int := (nearest (ppsStamp s)).2

theorem stepCodes_congr {s w : State} (h : w.r = s.r) : stepCodes w = stepCodes s := by rw [stepCodes, stepCodes, h]

theorem acquire_noStep {e : Int} {s : State} (he : e.natAbs ≤ stepCodes s) (h : NoStep s) : NoStep (acquire e s) := by
  rw [acquire, if_neg (Nat.not_lt.mpr he)]
  exact ⟨rfl, h.2⟩

/-- Acquisition changes the time base alone, and there the correction it calls for. -/
theorem acquire_cases (e : Int) (s : State) : ∃ p w k q, acquire e s =
    modTim (fun t => { t with stepPhase := p, slew := w, slewAcc := k, acquiring := q }) s := by
  unfold acquire
  split
  · exact ⟨_, _, _, _, rfl⟩
  · exact ⟨_, _, _, _, rfl⟩

@[simp] theorem acquire_ppsLast (e : Int) (s : State) : (acquire e s).tim.ppsLast = s.tim.ppsLast := by
  obtain ⟨p, w, k, q, h⟩ := acquire_cases e s
  rw [h]
  rfl

theorem modTim_startsKept (f : Tim → Tim) (s : State) : StartsKept s (modTim f s) := (StartsKept.refl s).upd

/-- The unit as an edge that is no outlier finds it once the correction is known. -/
def edgeAcquired (e : Int) (s : State) : State := if refDisc s && s.encl.ref10 then acquire e s else s

/-- An edge that is no outlier, where no step waits and its error calls for none. -/
theorem ppsMeasured_eq {e : Int} {s : State} (old : Int × Int) (hn : NoStep s) (he : e.natAbs ≤ stepCodes s) :
    ppsMeasured e old s = modTim (fun t => { t with ppsPrev := some e, ppsOutliers := 0 })
      (if ppsLocks (edgeAcquired e s) e then setSt .pps (edgeAcquired e s) else edgeAcquired e s) := by
  have hacq : NoStep (edgeAcquired e s) := by
    unfold edgeAcquired
    split
    · exact acquire_noStep he hn
    · exact hn
  have hstep : ¬ ((edgeAcquired e s).tim.stepPhase ≠ 0 ∧ (!jobRuns (edgeAcquired e s)) = true) := fun h => h.1 hacq.1
  unfold ppsMeasured
  dsimp only
  rw [← edgeAcquired, stepDue_noStep old hacq, if_neg hstep]

/-- Such an edge gives no waiting job another start and takes no event back. -/
theorem ppsMeasured_startsKept {e : Int} {s : State} (old : Int × Int) (hn : NoStep s) (he : e.natAbs ≤ stepCodes s) :
    StartsKept s (ppsMeasured e old s) := by
  have hacq : StartsKept s (edgeAcquired e s) := by
    unfold edgeAcquired
    split
    · obtain ⟨p, w, k, q, h⟩ := acquire_cases e s
      exact h ▸ modTim_startsKept _ s
    · exact .refl s
  rw [ppsMeasured_eq old hn he]
  exact StartsKept.trans (.ite (hacq.trans (setSt_baseKept _ _).toStartsKept) hacq) (modTim_startsKept _ _)

@[simp] theorem ppsMeasured_ppsLast (e : Int) (old : Int × Int) (s : State) : (ppsMeasured e old s).tim.ppsLast = s.tim.ppsLast := by
  have hacq : (edgeAcquired e s).tim.ppsLast = s.tim.ppsLast := by
    unfold edgeAcquired
    split
    · exact acquire_ppsLast e s
    · rfl
  unfold ppsMeasured
  extract_lets s1 stepped s2 c s3
  have h3 : s3.tim.ppsLast = s2.tim.ppsLast := by
    unfold s3
    split
    · exact (setSt_baseKept _ _).ppsLast
    · rfl
  exact h3.trans ((stepDue_ppsLast old s1).trans hacq)

/-- The unit as an outlier leaves it, before its event of source 15. -/
def outlierNoted (e : Int) (s : State) : State :=
  modTim (fun t => { t with ppsOutliers := t.ppsOutliers + 1, ppsPrev := if t.st = .pps then t.ppsPrev else some e }) (bump rgTime 16 8 1 s)

theorem ppsOutlier_faultKept (e : Int) (s : State) : FaultKept (outlierNoted e s) (ppsOutlier e s) := fault_faultKept (.refl _) _ _ _

theorem ppsOutlier_startsKept (e : Int) (s : State) : StartsKept s (ppsOutlier e s) := by
  have hnoted : StartsKept s (outlierNoted e s) := (bump_faultKept (.refl s) rgTime 16 8 1).toStartsKept.trans (modTim_startsKept _ _)
  exact hnoted.trans (ppsOutlier_faultKept e s).toStartsKept

/-- An outlier is counted in PPS_OUTLIER. -/
theorem ppsOutlier_counts (e : Int) (s : State) : ⟨rgTime, 16, 8, .add, 1⟩ ∈ (ppsOutlier e s).evPend :=
  (ppsOutlier_faultKept e s).events _ List.mem_cons_self rfl

theorem ppsStarts_eq (ts : Int) (s : State) : ∃ q, ppsStarts ts s = { s with seqr := q } := ⟨_, rfl⟩

/-- An edge that is timestamped while neither a step nor a host set waits. -/
theorem ppsTimed_eq {s : State} (hn : NoStep s) (hh : s.tim.hostSet = none) : ppsTimed s =
    if (s.tim.st = .pps ∨ !s.encl.ref10) ∧ 10 * cNs < (edgeErr s).natAbs then
      if s.tim.st ≠ .pps ∨ s.tim.ppsOutliers < 2 then ppsOutlier (edgeErr s) (ppsStarts (ppsStamp s) s)
      else ppsMeasured (edgeErr s) (waits s) (loseLock (ppsStarts (ppsStamp s) s))
    else ppsMeasured (edgeErr s) (waits s) (ppsStarts (ppsStamp s) s) := by
  have hhost : (if ppsOk (ppsStarts (ppsStamp s) s) then hostApply (nearest (ppsStamp s)).1 (ppsStarts (ppsStamp s) s)
      else ppsStarts (ppsStamp s) s) = ppsStarts (ppsStamp s) s := by
    rw [hostApply_none (s := ppsStarts (ppsStamp s) s) _ hh, ite_self]
  have hout : NoStep (ppsOutlier (edgeErr s) (ppsStarts (ppsStamp s) s)) := by
    rw [NoStep, (ppsOutlier_faultKept _ _).tim]
    exact ⟨hn.1, hn.2⟩
  unfold ppsTimed
  dsimp only
  rw [hhost, ← edgeErr, stepDue_noStep _ hout]
  rfl

theorem ppsTimed_startsKept {s : State} (hn : NoStep s) (hh : s.tim.hostSet = none) (he : (edgeErr s).natAbs ≤ stepCodes s) :
    StartsKept (ppsStarts (ppsStamp s) s) (ppsTimed s) := by
  obtain ⟨q, hstarts⟩ := ppsStarts_eq (ppsStamp s) s
  have hwait : NoStep (ppsStarts (ppsStamp s) s) := by rwa [hstarts]
  rw [ppsTimed_eq hn hh]
  rw [← stepCodes_congr (w := ppsStarts (ppsStamp s) s) (by rw [hstarts])] at he
  generalize ppsStarts (ppsStamp s) s = x at he hwait
  have hlost : stepCodes (loseLock x) = stepCodes x := stepCodes_congr (loseLock_steady (Steady.refl x)).r
  have hbase := loseLock_baseKept x
  have hthird := hbase.toStartsKept.trans (ppsMeasured_startsKept (waits s) (hbase.noStep hwait) (hlost ▸ he))
  exact .ite (.ite (ppsOutlier_startsKept _ x) hthird) (ppsMeasured_startsKept _ hwait he)

@[simp] theorem ppsTimed_ppsLast (s : State) : (ppsTimed s).tim.ppsLast = s.tim.ppsLast := by
  unfold ppsTimed
  extract_lets ts old e s1 s2
  have h2 : s2.tim.ppsLast = s.tim.ppsLast := by
    unfold s2
    split
    · exact hostApply_ppsLast _ s1
    · rfl
  split
  · split
    · rw [stepDue_ppsLast, (ppsOutlier_faultKept e s2).tim]
      exact h2
    · rw [ppsMeasured_ppsLast, (loseLock_baseKept s2).ppsLast, h2]
  · rw [ppsMeasured_ppsLast, h2]

/-- A job that waits for PPS gets its start at the edge (Table 9-2). -/
theorem ppsStarts_slot {s : State} {i : Nat} (ts : Int) (hi : i < 16) (hk : (slotAt s i).desc.kind = 3)
    (hst : (slotAt s i).st = .checking ∨ (slotAt s i).st = .armed) (hnone : (slotAt s i).start = none)
    (hat : 10 * cUs + (slotAt s i).checkAt ≤ s.now) :
    slotAt (ppsStarts ts s) i = { slotAt s i with start := some (ts + (2 * cUs : Nat)).toNat } := by
  have hst' : ((slotAt s i).st == .checking || (slotAt s i).st == .armed) = true := by simpa using hst
  have hstarts : slotAt (ppsStarts ts s) i =
      if (slotAt s i).desc.kind == 3 && ((slotAt s i).st == .checking || (slotAt s i).st == .armed) && (slotAt s i).start.isNone &&
          decide (10 * cUs + (slotAt s i).checkAt ≤ s.now) then
        { slotAt s i with start := some (ts + (2 * cUs : Nat)).toNat }
      else slotAt s i := by
    rw [slotAt, ppsStarts, vget_vmap _ _ _ _ hi]
    rfl
  rw [hstarts, if_pos]
  rw [hk, hst', hnone, decide_eq_true hat]
  rfl

/-- The unit with an edge noted, before the discipline is reviewed. -/
def edgeNoted (g : Nat) (s : State) : State := modTim (fun t => { t with ppsLast := some s.now, ppsGood := g }) s

/-- The unit as an edge with `g` good ones in a row is judged in. -/
def edgeReady (g : Nat) (s : State) : State := reviewDiscipline (edgeNoted g s)

theorem ppsEdge_stopped {s : State} (h : s.tim.running = false) : ppsEdge s = s := by
  rw [ppsEdge, h]
  rfl

theorem ppsEdge_running {s : State} (h : s.tim.running = true) : ∃ g, ppsEdge s =
    if srcMode (edgeReady g s) = 2 then
      if ppsOk (edgeReady g s) then
        stepDue (waits (edgeReady g s)) (hostApply (nearest (ppsStamp (edgeReady g s))).1 (edgeReady g s))
      else edgeReady g s
    else ppsTimed (edgeReady g s) := by
  rw [ppsEdge, if_pos h]
  exact ⟨_, rfl⟩

theorem edgeReady_baseKept (g : Nat) (s : State) : BaseKept (edgeNoted g s) (edgeReady g s) := reviewDiscipline_baseKept _

theorem edgeReady_steady (g : Nat) (s : State) : Steady s (edgeReady g s) :=
  reviewDiscipline_steady (Steady.refl s).upd

theorem edgeReady_startsKept (g : Nat) (s : State) : StartsKept s (edgeReady g s) :=
  (modTim_startsKept _ s).trans (edgeReady_baseKept g s).toStartsKept

theorem edgeReady_ppsLast (g : Nat) (s : State) : (edgeReady g s).tim.ppsLast = some s.now := (edgeReady_baseKept g s).ppsLast

theorem srcMode_congr {s w : State} (h : w.r = s.r) : srcMode w = srcMode s := by rw [srcMode, srcMode, h]

theorem edgeReady_stamp (g : Nat) (s : State) : ppsStamp (edgeReady g s) = ppsStamp s := by
  have hcodes : (edgeReady g s).tim.codes = s.tim.codes := (edgeReady_baseKept g s).codes
  rw [ppsStamp, tamNow, tamOf, hcodes, (edgeReady_startsKept g s).hap, (edgeReady_steady g s).now, ppsComp, (edgeReady_steady g s).r]
  rfl

theorem edgeReady_err (g : Nat) (s : State) : edgeErr (edgeReady g s) = edgeErr s := by
  rw [edgeErr, edgeErr, edgeReady_stamp]

/-- Every edge is noted. -/
theorem ppsEdge_ppsLast {s : State} (h : s.tim.running = true) : (ppsEdge s).tim.ppsLast = some s.now := by
  obtain ⟨g, hedge⟩ := ppsEdge_running h
  rw [hedge]
  split
  · split
    · rw [stepDue_ppsLast, hostApply_ppsLast, edgeReady_ppsLast]
    · exact edgeReady_ppsLast g s
  · rw [ppsTimed_ppsLast, edgeReady_ppsLast]

/-- Neither a step nor a host set waits. -/
def Quiet (s : State) : Prop := s.tim.stepPhase = 0 ∧ s.tim.stepSec = 0 ∧ s.tim.hostSet = none

theorem Quiet.noStep {s : State} (h : Quiet s) : NoStep s := ⟨h.1, h.2.1⟩

theorem Quiet.hostSet {s : State} (h : Quiet s) : s.tim.hostSet = none := h.2.2

/-- An edge in SRC_MODE 1 finds the unit with the edge noted and the discipline reviewed, and is timestamped. -/
theorem ppsEdge_mode1 {s : State} (h : s.tim.running = true) (hm : srcMode s = 1) : ∃ g, ppsEdge s = ppsTimed (edgeReady g s) := by
  obtain ⟨g, hedge⟩ := ppsEdge_running h
  have hm' : srcMode (edgeReady g s) ≠ 2 := by
    rw [srcMode_congr (edgeReady_steady g s).r, hm]
    decide
  exact ⟨g, hedge.trans (if_neg hm')⟩

theorem edgeReady_noStep {s : State} (g : Nat) (hq : Quiet s) : NoStep (edgeReady g s) :=
  (edgeReady_baseKept g s).noStep hq.noStep

theorem edgeReady_hostSet {s : State} (g : Nat) (hq : Quiet s) : (edgeReady g s).tim.hostSet = none :=
  (edgeReady_baseKept g s).hostSet.trans hq.hostSet

/-- In SRC_MODE 1 a base that is not locked to PTP keeps its state as the discipline is reviewed. -/
theorem edgeReady_eq {s : State} (g : Nat) (hm : srcMode s = 1) (hptp : s.tim.st ≠ .ptp) : edgeReady g s = refNoted (edgeNoted g s) :=
  reviewDiscipline_eq (s := edgeNoted g s) (fun h => by cases hm.symm.trans h) hptp fun _ h => by cases hm.symm.trans h

/-- A job of kind 3 that waits gets its start at an edge of SRC_MODE 1 (R99, Table 9-2). -/
theorem ppsEdge_start {s : State} {i : Nat} (hi : i < 16) (hr : s.tim.running = true) (hm : srcMode s = 1) (hq : Quiet s)
    (he : (edgeErr s).natAbs ≤ stepCodes s) (hk : (slotAt s i).desc.kind = 3)
    (hst : (slotAt s i).st = .checking ∨ (slotAt s i).st = .armed) (hnone : (slotAt s i).start = none)
    (hat : 10 * cUs + (slotAt s i).checkAt ≤ s.now) :
    (slotAt (ppsEdge s) i).start = some (ppsStamp s + (2 * cUs : Nat)).toNat := by
  obtain ⟨g, hedge⟩ := ppsEdge_mode1 hr hm
  have hslot : slotAt (edgeReady g s) i = slotAt s i := by
    refine (edgeReady_startsKept g s).slots i fun hrun => ?_
    rcases hst with h | h <;> cases h.symm.trans hrun
  have herr : (edgeErr (edgeReady g s)).natAbs ≤ stepCodes (edgeReady g s) := by
    rw [edgeReady_err, stepCodes_congr (edgeReady_steady g s).r]
    exact he
  rw [← hslot] at hk hst hnone hat
  rw [← (edgeReady_steady g s).now] at hat
  have hstart := ppsStarts_slot (ppsStamp (edgeReady g s)) hi hk hst hnone hat
  have hkept := (ppsTimed_startsKept (edgeReady_noStep g hq) (edgeReady_hostSet g hq) herr).slots i
  rw [hedge, hkept, hstart, edgeReady_stamp]
  rw [hstart]
  intro hrun
  rcases hst with h | h <;> cases h.symm.trans hrun

theorem ppsLocks_acquire (e c : Int) (s : State) : ppsLocks (acquire e s) c = ppsLocks s c := by
  obtain ⟨p, w, k, q, h⟩ := acquire_cases e s
  rw [h]
  rfl

theorem ppsLocks_intro {s : State} {c p : Int} {k : Instant} (hst : s.tim.st ≠ .pps) (hd : refDisc s = true) (hv : s.tim.valid = true)
    (hc : c.natAbs < cNs) (hk : s.tim.ref10Since = some k) (hlong : 10 * cMs + k ≤ s.now) (hp : s.tim.ppsPrev = some p)
    (hpc : p.natAbs < cNs) : ppsLocks s c = true := by
  simp [ppsLocks, hst, hd, hv, hc, hk, hlong, hp, hpc]

theorem cNs_le_stepCodes (s : State) : cNs ≤ stepCodes s := Nat.le_mul_of_pos_right _ (Nat.le_max_left _ _)

theorem refDisc_mode1 {s : State} (hr : s.tim.running = true) (hm : srcMode s = 1) : refDisc s = true := by simp [refDisc, hr, hm]

theorem refSince_locked {s : State} {k : Instant} (hd : refDisc s = true) (href : s.encl.ref10 = true) (hk : s.tim.ref10Since = some k) :
    refSince s = some k := by
  simp [refSince, hd, href, hk]

/-- An edge whose error is below 1 ns is measured, and locks the base where the conditions of R100 hold. -/
theorem ppsMeasured_locks {e : Int} {s : State} (old : Int × Int) (hn : NoStep s) (hd : refDisc s = true) (href : s.encl.ref10 = true)
    (he : e.natAbs < cNs) (hl : ppsLocks s e = true) : (ppsMeasured e old s).tim.st = .pps := by
  have hacq : edgeAcquired e s = acquire e s := if_pos (by rw [hd, href]; rfl)
  rw [ppsMeasured_eq old hn ((Nat.le_of_lt he).trans (cNs_le_stepCodes s)), hacq, if_pos ((ppsLocks_acquire e e s).trans hl)]
  exact setSt_st _ _

/-- Two edges in a row below 1 ns, with REF10 locked for 10 ms and time valid, declare the lock (R100). -/
theorem ppsEdge_locks {s : State} {k : Instant} {p : Int} (hr : s.tim.running = true) (hm : srcMode s = 1) (hq : Quiet s)
    (href : s.encl.ref10 = true) (hv : s.tim.valid = true) (hst : s.tim.st = .unlocked ∨ s.tim.st = .holdover)
    (hk : s.tim.ref10Since = some k) (hlong : 10 * cMs + k ≤ s.now) (hp : s.tim.ppsPrev = some p) (hpc : p.natAbs < cNs)
    (he : (edgeErr s).natAbs < cNs) : (ppsEdge s).tim.st = .pps := by
  obtain ⟨g, hedge⟩ := ppsEdge_mode1 hr hm
  have hpps : s.tim.st ≠ .pps := by rcases hst with h | h <;> rw [h] <;> decide
  have hptp : s.tim.st ≠ .ptp := by rcases hst with h | h <;> rw [h] <;> decide
  have hready := edgeReady_eq g hm hptp
  have hnoted : refDisc (edgeNoted g s) = true := refDisc_mode1 hr hm
  have hsince : (edgeReady g s).tim.ref10Since = some k := by
    rw [hready]
    exact refSince_locked hnoted href hk
  have hst' : (edgeReady g s).tim.st ≠ .pps := by
    rw [hready]
    exact hpps
  have hbase := edgeReady_baseKept g s
  have hdisc : refDisc (edgeReady g s) = true :=
    refDisc_mode1 (hbase.running.trans hr) ((srcMode_congr (edgeReady_steady g s).r).trans hm)
  have hlong' : 10 * cMs + k ≤ (edgeReady g s).now := by rwa [(edgeReady_steady g s).now]
  have herr : (edgeErr (edgeReady g s)).natAbs < cNs := by rwa [edgeReady_err]
  have hsmall : ¬ 10 * cNs < (edgeErr (edgeReady g s)).natAbs := by
    have : cNs = 256 := rfl
    omega
  have hlocks := ppsLocks_intro hst' hdisc (hbase.valid.trans hv) herr hsince hlong' (hbase.ppsPrev.trans hp) hpc
  rw [hedge, ppsTimed_eq (edgeReady_noStep g hq) (edgeReady_hostSet g hq), if_neg fun h => hsmall h.2]
  obtain ⟨q, hstarts⟩ := ppsStarts_eq (ppsStamp (edgeReady g s)) (edgeReady g s)
  rw [hstarts]
  exact ppsMeasured_locks _ (edgeReady_noStep g hq) hdisc (hbase.ref10.trans href) herr hlocks

/-- In lock, the first and the second outlier in a row are counted and not used (R102). -/
theorem ppsEdge_outlier_locked {s : State} (hr : s.tim.running = true) (hm : srcMode s = 1) (hq : Quiet s) (hst : s.tim.st = .pps)
    (he : 10 * cNs < (edgeErr s).natAbs) (hn : s.tim.ppsOutliers < 2) :
    (ppsEdge s).tim.st = .pps ∧ (ppsEdge s).tim.ppsOutliers = s.tim.ppsOutliers + 1 ∧ (ppsEdge s).tim.codes = s.tim.codes := by
  obtain ⟨g, hedge⟩ := ppsEdge_mode1 hr hm
  have hready := edgeReady_eq g hm fun h => by cases hst.symm.trans h
  have hst' : (edgeReady g s).tim.st = .pps := by rwa [hready]
  have hn' : (edgeReady g s).tim.ppsOutliers < 2 := by rwa [hready]
  have herr : 10 * cNs < (edgeErr (edgeReady g s)).natAbs := by rwa [edgeReady_err]
  rw [hedge, ppsTimed_eq (edgeReady_noStep g hq) (edgeReady_hostSet g hq), if_pos ⟨.inl hst', herr⟩, if_pos (.inr hn'),
    (ppsOutlier_faultKept _ _).tim, hready]
  exact ⟨hst, rfl, rfl⟩

/-- Out of lock, an outlier is counted and not used while REF10 is not valid (R99). -/
theorem ppsEdge_outlier_no_ref10 {s : State} (hr : s.tim.running = true) (hm : srcMode s = 1) (hq : Quiet s) (hst : s.tim.st ≠ .pps)
    (href : s.encl.ref10 = false) (he : 10 * cNs < (edgeErr s).natAbs) :
    ⟨rgTime, 16, 8, .add, 1⟩ ∈ (ppsEdge s).evPend ∧ (ppsEdge s).tim.codes = s.tim.codes := by
  obtain ⟨g, hedge⟩ := ppsEdge_mode1 hr hm
  have hbase := edgeReady_baseKept g s
  have hst' : (edgeReady g s).tim.st ≠ .pps := reviewDiscipline_st_ne_pps hst
  have href' : (edgeReady g s).tim.st = .pps ∨ (!(edgeReady g s).encl.ref10) = true := by
    rw [hbase.ref10.trans href]
    exact .inr rfl
  have herr : 10 * cNs < (edgeErr (edgeReady g s)).natAbs := by rwa [edgeReady_err]
  rw [hedge, ppsTimed_eq (edgeReady_noStep g hq) (edgeReady_hostSet g hq), if_pos ⟨href', herr⟩, if_pos (.inl hst')]
  refine ⟨ppsOutlier_counts _ _, ?_⟩
  rw [(ppsOutlier_faultKept _ _).tim]
  exact hbase.codes

end Sys2Proof.Machine
end

section
/-!
SUPPORT. The time base beside its edges: lock lost and holdover (04 R102, R19), the host set (04 R97) and the second boundary (03 R83, 04 R96,
02 R42), and the statement about its commands.
-/

set_option Elab.async false

namespace Sys2Proof.Machine

open Sys2Proof

/-! ### Lock lost and holdover (04 R102, R19) -/

/-- The edge overdue, PPS_IN_OK reads 0, and a lock to REF10 and PPS is lost. -/
theorem ppsMissing_due {s : State} {k : Instant} (hk : s.tim.ppsLast = some k) (hdue : 10 * cUs + (cS + k) ≤ s.now) :
    (ppsMissing s).tim.ppsLast = none ∧ (ppsMissing s).tim.ppsGood = 0 ∧
      (s.tim.st = .pps → srcMode s ≠ 3 → (ppsMissing s).tim.st = lostSt s) := by
  have heq : ppsMissing s = reviewDiscipline (modTim (fun t => { t with ppsLast := none, ppsGood := 0, ppsPrev := none })
      (if s.tim.st = .pps then loseLock s else s)) := by
    rw [ppsMissing, hk]
    exact if_pos hdue
  rw [heq]
  refine ⟨(reviewDiscipline_baseKept _).ppsLast, (reviewDiscipline_baseKept _).ppsGood, fun hst hm => ?_⟩
  have hlost : (loseLock s).tim.st = lostSt s := loseLock_st hst
  have hlock : (loseLock s).tim.st.isLock = false := hlost ▸ lostSt_not_lock s
  rw [if_pos hst, reviewDiscipline_eq]
  · exact hlost
  · rwa [srcMode_congr (s := s)]
    exact (loseLock_steady (Steady.refl s)).r
  · intro h
    cases (congrArg TimeSt.isLock h).symm.trans hlock
  · intro h
    cases (congrArg TimeSt.isLock h).symm.trans hlock

theorem ppsMissing_not_due {s : State} (h : s.tim.ppsLast = none ∨ ∃ k, s.tim.ppsLast = some k ∧ s.now < 10 * cUs + (cS + k)) :
    ppsMissing s = s := by
  obtain h | ⟨k, hk, hlt⟩ := h
  · rw [ppsMissing, h]
  · rw [ppsMissing, hk]
    exact if_neg (Nat.not_le.mpr hlt)

theorem ref10Lost_due {s : State} {k : Instant} (hk : s.tim.ref10Bad = some k) (hdue : 10 * cMs + k ≤ s.now) (hst : s.tim.st = .pps) :
    (ref10Lost s).tim.st = lostSt s := by
  have heq : ref10Lost s = loseLock s := by
    rw [ref10Lost, hk]
    exact if_pos ⟨hdue, hst⟩
  rw [heq, loseLock_st hst]

theorem ref10Lost_not_due {s : State}
    (h : s.tim.ref10Bad = none ∨ s.tim.st ≠ .pps ∨ ∃ k, s.tim.ref10Bad = some k ∧ s.now < 10 * cMs + k) : ref10Lost s = s := by
  unfold ref10Lost
  split
  · rfl
  next k hk =>
    refine if_neg fun ⟨hdue, hst⟩ => ?_
    obtain h | h | ⟨j, hj, hlt⟩ := h
    · cases h.symm.trans hk
    · exact h hst
    · cases hj.symm.trans hk
      exact absurd hdue (Nat.not_le.mpr hlt)

/-- A record of an octet that is formed at an instant to come waits for it. -/
theorem formAt_later {k lo hi : Nat} {q : QRec} {s : State} (h : s.now < q.at_) :
    formAt k q lo hi s = schedule ⟨q.at_, q.body.jobNo.toNat, .form k q lo hi⟩ s := if_neg (Nat.not_le.mpr h)

theorem openRecs_at {k : Nat} {c : Cap} {at_ : Instant} {closed : Bool} : ∀ x ∈ openRecs k c at_ closed, x.1.at_ = at_ := by
  intro x hx
  obtain h | h := List.mem_append.mp hx
  · split at h
    · rw [List.mem_singleton.mp h]
      rfl
    · cases h
  · split at h
    · split at h
      · rw [List.mem_singleton.mp h]
        rfl
      · cases h
    · cases h

/-- Runs and groups that are closed with records to come change no record that stands. -/
theorem closeOct_later {k : Nat} {at_ : Instant} {closed : Bool} {s : State} (h : s.now < at_) :
    (closeOct at_ closed k s).evid = s.evid ∧ (closeOct at_ closed k s).now = s.now := by
  refine List.foldlRecOn (motive := fun u : State => u.evid = s.evid ∧ u.now = s.now) _ _ ⟨rfl, rfl⟩ ?_
  rintro u ⟨hev, hnow⟩ x hx
  rw [formAt_later (by rwa [openRecs_at x hx, hnow])]
  exact ⟨hev, hnow⟩

theorem closeOcts_later {at_ : Instant} {mask : Nat} {s : State} (h : s.now < at_) : (closeOcts at_ mask s).evid = s.evid := by
  have hboth : (closeOcts at_ mask s).evid = s.evid ∧ (closeOcts at_ mask s).now = s.now := by
    refine List.foldlRecOn (motive := fun u : State => u.evid = s.evid ∧ u.now = s.now) _ _ ⟨rfl, rfl⟩ ?_
    rintro u ⟨hev, hnow⟩ k -
    obtain ⟨hev', hnow'⟩ := closeOct_later (k := k) (closed := true) (hnow.symm ▸ h)
    exact ⟨hev'.trans hev, hnow'.trans hnow⟩
  exact hboth.1

/-- A TIME_STATE record joins the unit queue while the chain is not suspended (R16). -/
theorem timeStateRec_unitQ {s : State} (h : s.now < s.hap + 50 * cNs) (hsus : s.evid.suspended = false) :
    ∃ q, (timeStateRec 0 0 s).evid.unitQ = s.evid.unitQ ++ [q] ∧ recType q.body = 0x20 := by
  have hev := closeOcts_later (mask := 0xFF) h
  refine ⟨⟨mkRec 0x20 0 0 0 0 (tamNow s) (timeBits s.tim + 2 ^ 32 * twos 64 0), s.hap + 50 * cNs, false, s.evid.nextOrd, none, none⟩, ?_, rfl⟩
  unfold timeStateRec
  dsimp only
  rw [pushUnit, hev, if_neg (by rw [hsus]; decide)]

theorem lt_of_cycleOf_eq {k n : Nat} (h : cycleOf k = cycleOf n) : n < k + 50 * cNs := by
  unfold cycleOf at h
  unfold cNs
  omega

/-- The present happening lies in the cycle the unit is in: what is formed 50 ns after it is still to come. -/
theorem advance_hap (t : Instant) (s : State) : (advance t s).now < (advance t s).hap + 50 * cNs := by
  rw [advance, pass_hap, pass_now]
  generalize max (runActs (16 * s.seqr.acts.length) (max s.now t) s).now t = now
  split
  next h => exact lt_of_cycleOf_eq (beq_iff_eq.mp h)
  · exact lt_of_cycleOf_eq rfl

theorem setCond_evid (src oct : Nat) (c : Bool) (s : State) : (setCond src oct c s).evid = s.evid := rfl

theorem holdExpired_due {s : State} (hst : s.tim.st = .holdover) (hdue : 60 * cS + s.tim.holdSince ≤ s.now)
    (hhap : s.now < s.hap + 50 * cNs) : (holdExpired s).tim.st = .unlocked ∧
      (s.evid.suspended = false → ∃ q, (holdExpired s).evid.unitQ = s.evid.unitQ ++ [q] ∧ recType q.body = 0x20) := by
  have heq : holdExpired s = setSt .unlocked s := if_pos ⟨hst, hdue⟩
  have hchange : setSt .unlocked s = setCond 12 0 (!TimeSt.unlocked.isLock) (timeStateRec 0 0 (stTaken .unlocked s)) := by
    rw [setSt_change (by rw [hst]; decide), hst]
    exact if_neg (by decide)
  rw [heq]
  refine ⟨setSt_st _ _, fun hsus => ?_⟩
  rw [hchange, setCond_evid]
  exact timeStateRec_unitQ (s := stTaken .unlocked s) hhap hsus

theorem holdExpired_not_due {s : State} (h : s.tim.st ≠ .holdover ∨ s.now < 60 * cS + s.tim.holdSince) : holdExpired s = s := by
  refine if_neg fun ⟨hst, hdue⟩ => ?_
  obtain h | h := h
  · exact h hst
  · exact absurd hdue (Nat.not_le.mpr h)

/-! ### A write of G_TIME_SET_LO (04 R97) -/

/-- The change of source or VALID has its record and what follows from it, and touches the time base in nothing else. -/
theorem setTod_clockKept (src : Nat) (valid : Bool) (s : State) :
    ClockKept (modTim (fun t => { t with todSrc := src, valid := valid }) s) (setTod src valid s) := by
  unfold setTod
  split
  next h =>
    obtain ⟨rfl, rfl⟩ := h
    exact (ClockKept.refl s).upd
  · exact ringWatch_clockKept (becameValid_clockKept (timeStateRec_clockKept (.refl _) _ _) _) _

/-- The unit with a host set accepted, before the host is the source. -/
def hostTaken (v : Nat) (s : State) : State := modTim (fun t => { t with hostSet := some v, hostSeen := true }) s

theorem timeSetWrite_taken {s : State} (val : Word) (he : todHostEn s = true) (hp : ptpUsable s = false) (hr : ringUsable s = false) :
    timeSetWrite val s = (setTod 2 s.tim.valid (hostTaken (2 ^ 32 * fld s.r.timeSetHi 0 16 + val.toNat) s), .done) :=
  if_pos (by rw [he, hp, hr]; rfl)

theorem timeSetWrite_refused {s : State} (val : Word) (h : todHostEn s = false ∨ ptpUsable s = true ∨ ringUsable s = true) :
    ∃ n w, timeSetWrite val s = (notice 6 n w s, .access) := by
  refine ⟨_, _, if_neg ?_⟩
  rcases h with h | h | h <;> simp [h]

theorem portWrite_up {p : Port} {a : Nat} {v : Word} {f : State → State × BusRes} {s : State} (h : portUp s p = true) :
    portWrite p a v f s = answer p a true v (f (assureLapse s)).2 (f (assureLapse s)).1 := if_pos h

/-- What a write of G_TIME_SET_LO asks of the sources does not depend on the events that wait. -/
theorem hostUsable_assureLapse (s : State) : todHostEn (assureLapse s) = todHostEn s ∧ ptpUsable (assureLapse s) = ptpUsable s ∧
    ringUsable (assureLapse s) = ringUsable s := by
  rw [assureLapse_eq]
  exact ⟨rfl, rfl, rfl⟩

theorem assureLapse_tim (s : State) : (assureLapse s).tim = s.tim := by rw [assureLapse_eq]

/-- While the host is the usable source, its set waits and the host is the source in force (R97). -/
theorem timeSetLo_taken {s : State} {p : Port} (val : Word) (hp : portUp s p = true) (he : todHostEn s = true)
    (hptp : ptpUsable s = false) (hring : ringUsable s = false) :
    (portWrite p 0x22C val (timeSetWrite val) s).bus = some (carried p 0x22C true val) ∧
    (portWrite p 0x22C val (timeSetWrite val) s).tim =
      { s.tim with hostSet := some (2 ^ 32 * fld s.r.timeSetHi 0 16 + val.toNat), hostSeen := true, todSrc := 2 } := by
  obtain ⟨hhost, hp', hr'⟩ := hostUsable_assureLapse s
  have hr : (assureLapse s).r = s.r := (assureLapse_steady (Steady.refl s)).r
  rw [portWrite_up hp, timeSetWrite_taken val (hhost.trans he) (hp'.trans hptp) (hr'.trans hring), hr, assureLapse_tim]
  refine ⟨rfl, ?_⟩
  rw [answer_tim, (setTod_clockKept 2 s.tim.valid _).tim, hostTaken, modTim, modTim, assureLapse_tim]

theorem timeSetLo_refused {s : State} {p : Port} (val : Word) (hp : portUp s p = true)
    (h : todHostEn s = false ∨ ptpUsable s = true ∨ ringUsable s = true) :
    (portWrite p 0x22C val (timeSetWrite val) s).bus = some ⟨p, 0x22C, true, val, .access⟩ ∧
    (portWrite p 0x22C val (timeSetWrite val) s).tim = s.tim := by
  obtain ⟨hhost, hptp, hring⟩ := hostUsable_assureLapse s
  rw [← hhost, ← hptp, ← hring] at h
  obtain ⟨n, w, hw⟩ := timeSetWrite_refused val h
  rw [portWrite_up hp, hw]
  refine ⟨rfl, ?_⟩
  rw [answer_tim, (notice_clockKept (.refl _) 6 n w).tim, assureLapse_tim]

/-! ### The second boundary (03 R83, 04 R96, R97; 02 R42) -/

/-- J4 rises at a boundary while it is enabled and the base is not unlocked, but not at the first after a change of state. -/
theorem ppsOut_rises {s : State} (hst : s.tim.st ≠ .unlocked) (hskip : s.encl.j4Skip = false) (hen : ppsoEn s = true) :
    (ppsOut s).encl = { s.encl with ppsOutHigh := true, ppsOutRise := s.now } := by
  rw [ppsOut, if_neg hst, hskip, if_neg Bool.false_ne_true, if_pos hen]

theorem ppsOut_stays {s : State} (h : s.tim.st = .unlocked ∨ s.encl.j4Skip = true ∨ ppsoEn s = false) :
    (ppsOut s).encl.ppsOutHigh = s.encl.ppsOutHigh := by
  unfold ppsOut
  split
  · rfl
  next hst =>
    split
    · rfl
    next hskip =>
      split
      next hen => simp [hst, hskip, hen] at h
      · rfl

theorem ppsOut_eq (s : State) : ∃ e, ppsOut s = { s with encl := e } := by
  unfold ppsOut
  split
  · exact ⟨_, rfl⟩
  · split
    · exact ⟨_, rfl⟩
    · split
      · exact ⟨_, rfl⟩
      · exact ⟨_, rfl⟩

theorem todOthers_clockKept {z s : State} (h : ClockKept z s) (taken prev : Nat) (us : List TodCmp) :
    ClockKept z (todOthers taken prev us s) :=
  .foldl _ _ h fun _ _ hu => .ite (fault_clockKept hu _ _ _) hu

/-- A comparison that puts no source in force logs what differs and keeps SEC (R96). -/
theorem todCompare_keeps {s : State} (hn : NoStep s) (h : todTakes s = none) : ClockKept s (todCompare s) := by
  have hothers := todOthers_clockKept (.refl s) 0 s.tim.todSrc (todUsable s)
  have hn' : NoStep (todOthers 0 s.tim.todSrc (todUsable s) s) := by rwa [NoStep, hothers.tim]
  unfold todCompare
  dsimp only
  rw [h]
  exact (stepDue_noStep (waits s) hn').symm ▸ hothers

@[simp] theorem setTod_encl (src : Nat) (valid : Bool) (s : State) : (setTod src valid s).encl = s.encl := (setTod_clockKept src valid s).encl

theorem todCompare_encl (s : State) : (todCompare s).encl = s.encl := by
  have hothers (taken : Nat) := (todOthers_clockKept (.refl s) taken s.tim.todSrc (todUsable s)).encl
  unfold todCompare
  dsimp only
  split
  · rw [stepDue_encl, hothers]
  next x hx =>
    split
    · rw [stepDue_encl, setTod_encl]
      exact hothers x.src
    · split
      · rw [stepDue_encl, setTod_encl]
        exact hothers x.src
      · rw [applyStep_encl]
        exact hothers x.src

/-- While time is valid and not unlocked, the Nightwatch counter is aligned to the second the boundary begins (R83). -/
theorem alignNight_aligns {s : State} (hv : s.tim.valid = true) (hst : s.tim.st ≠ .unlocked) (hc : s.tim.codes % cS < cTick) :
    ClockKept { s with nw := { s.nw with
      codes := cS * (s.tim.codes / cS) - (cTick - s.nw.codes % cTick), alignSec := s.tim.codes / cS, aligned := true } } (alignNight s) := by
  rw [alignNight, if_pos ⟨hv, hst, hc⟩]
  exact rearm_clockKept (.refl _)

theorem alignNight_stays {s : State} (h : s.tim.valid = false ∨ s.tim.st = .unlocked) : alignNight s = s := by
  refine if_neg fun ⟨hv, hst, _⟩ => ?_
  obtain h | h := h
  · cases h.symm.trans hv
  · exact hst h

theorem alignNight_tim (s : State) : (alignNight s).tim = s.tim := by
  unfold alignNight
  dsimp only
  split
  · exact (rearm_clockKept (.refl _)).tim
  · rfl

theorem alignNight_encl (s : State) : (alignNight s).encl = s.encl := by
  unfold alignNight
  dsimp only
  split
  · exact (rearm_clockKept (.refl _)).encl
  · rfl

/-- The unit with the second it is in noted as acted on. -/
def secondNoted (s : State) : State := modTim (fun t => { t with lastSecond := some (s.tim.codes / cS) }) s

/-- The unit as a second boundary leaves it before the host set and the comparison: the second noted, and J4 judged. -/
def secondBegun (s : State) : State := ppsOut (secondNoted s)

theorem secondBegun_eq (s : State) : ∃ e, secondBegun s =
    { s with tim := { s.tim with lastSecond := some (s.tim.codes / cS) }, encl := e } := ppsOut_eq _

/-- A second boundary is due: the first cycle of a second not yet acted on. -/
def SecondDue (s : State) : Prop := s.tim.running = true ∧ s.tim.codes % cS < 320 ∧ s.tim.lastSecond ≠ some (s.tim.codes / cS)

theorem secondBoundary_due {s : State} (h : SecondDue s) : secondBoundary s = alignNight (todCompare (stepDue (waits s)
    (if ppsOk (secondBegun s) then secondBegun s else hostApply (s.tim.codes / cS : Nat) (secondBegun s)))) := if_pos h

theorem secondBoundary_not_due {s : State} (h : ¬ SecondDue s) : secondBoundary s = s := if_neg h

/-- Nothing but the judgement of J4 moves it at a second boundary. -/
theorem secondBoundary_encl {s : State} (h : SecondDue s) : (secondBoundary s).encl = (secondBegun s).encl := by
  rw [secondBoundary_due h, alignNight_encl, todCompare_encl, stepDue_encl]
  split
  · rfl
  · exact hostApply_encl _ _

theorem todTakes_secondBegun (s : State) : todTakes (secondBegun s) = todTakes s := by
  obtain ⟨e, he⟩ := secondBegun_eq s
  rw [he]
  rfl

/-- Where neither a step nor a host set waits and no other source takes over, the comparison leaves the clocks alone. -/
theorem secondBoundary_quiet {s : State} (h : SecondDue s) (hq : Quiet s) (ht : todTakes s = none) :
    ∃ w, secondBoundary s = alignNight w ∧ ClockKept (secondBegun s) w := by
  obtain ⟨e, he⟩ := secondBegun_eq s
  have hn : NoStep (secondBegun s) := by
    rw [he]
    exact hq.noStep
  have hhost : (secondBegun s).tim.hostSet = none := by
    rw [he]
    exact hq.hostSet
  rw [secondBoundary_due h, hostApply_none _ hhost, ite_self, stepDue_noStep _ hn]
  exact ⟨_, rfl, todCompare_keeps hn ((todTakes_secondBegun s).trans ht)⟩

/-- At such a boundary the second is acted on, and the Nightwatch counter is aligned while time is valid and not unlocked. -/
theorem secondBoundary_aligns {s : State} (h : SecondDue s) (hq : Quiet s) (ht : todTakes s = none) :
    (secondBoundary s).tim.lastSecond = some (s.tim.codes / cS) ∧
    (s.tim.valid = true → s.tim.st ≠ .unlocked → (secondBoundary s).nw.aligned = true ∧
      (secondBoundary s).nw.alignSec = s.tim.codes / cS ∧
      (secondBoundary s).nw.codes = cS * (s.tim.codes / cS) - (cTick - s.nw.codes % cTick)) ∧
    (s.tim.valid = false ∨ s.tim.st = .unlocked →
      (secondBoundary s).nw.codes = s.nw.codes ∧ (secondBoundary s).nw.aligned = s.nw.aligned) := by
  obtain ⟨w, hw, hkept⟩ := secondBoundary_quiet h hq ht
  obtain ⟨-, hfirst, -⟩ := h
  obtain ⟨e, he⟩ := secondBegun_eq s
  rw [he] at hkept
  have htim : w.tim = { s.tim with lastSecond := some (s.tim.codes / cS) } := hkept.tim
  have hcodes : w.tim.codes = s.tim.codes := by rw [htim]
  have hvalid : w.tim.valid = s.tim.valid := by rw [htim]
  have hst : w.tim.st = s.tim.st := by rw [htim]
  rw [hw]
  refine ⟨?_, fun hv hu => ?_, fun hno => ?_⟩
  · rw [alignNight_tim, htim]
  · have hlt : w.tim.codes % cS < cTick := by
      rw [hcodes]
      exact hfirst.trans (by decide)
    have hal := alignNight_aligns (hvalid.trans hv) (hst ▸ hu) hlt
    refine ⟨hal.aligned, hal.alignSec.trans ?_, hal.codes.trans ?_⟩
    · dsimp only
      rw [hcodes]
    · dsimp only
      rw [hcodes, hkept.codes]
  · rw [alignNight_stays (by rwa [hvalid, hst])]
    exact ⟨hkept.codes, hkept.aligned⟩

theorem secondBoundary_pulse {s : State} (h : SecondDue s) :
    (s.tim.st ≠ .unlocked → s.encl.j4Skip = false → ppsoEn s = true →
      (secondBoundary s).encl.ppsOutHigh = true ∧ (secondBoundary s).encl.ppsOutRise = s.now) ∧
    (s.tim.st = .unlocked ∨ s.encl.j4Skip = true ∨ ppsoEn s = false →
      (secondBoundary s).encl.ppsOutHigh = s.encl.ppsOutHigh) := by
  rw [secondBoundary_encl h]
  refine ⟨fun hst hskip hen => ?_, fun hno => ?_⟩
  · rw [secondBegun, ppsOut_rises (s := secondNoted s) hst hskip hen]
    exact ⟨rfl, rfl⟩
  · exact ppsOut_stays (s := secondNoted s) hno

theorem exec_ppsEdge (t : Instant) (s : State) : exec (.ppsEdge t) s = .next (ppsEdge (advance t s)) := rfl
theorem exec_ppsMissing (t : Instant) (s : State) : exec (.ppsMissing t) s = .next (ppsMissing (advance t s)) := rfl
theorem exec_ref10LossTimeout (t : Instant) (s : State) : exec (.ref10LossTimeout t) s = .next (ref10Lost (advance t s)) := rfl
theorem exec_holdoverExpiry (t : Instant) (s : State) : exec (.holdoverExpiry t) s = .next (holdExpired (advance t s)) := rfl
theorem exec_timeSetLoWrite (t : Instant) (p : Port) (v : Word) (s : State) :
    exec (.timeSetLoWrite t p v) s = .next (portWrite p 0x22C v (timeSetWrite v) (advance t s)) := rfl
theorem exec_tamongSecondBoundary (t : Instant) (s : State) :
    exec (.tamongSecondBoundary t) s = .next (secondBoundary (advance t s)) := rfl

theorem exec_stepApply_waiting {t : Instant} {s : State} (hw : ¬ NoStep (advance t s)) (hj : jobRuns (advance t s) = false) :
    exec (.stepApply t) s = .next (applyStep (advance t s).tim.todSrc (advance t s)) :=
  congrArg Host.Outcome.next (if_neg fun h => h.elim hw fun hr => by cases hj.symm.trans hr)

theorem exec_stepApply_not_due {t : Instant} {s : State} (h : NoStep (advance t s) ∨ jobRuns (advance t s) = true) :
    exec (.stepApply t) s = .next (advance t s) := congrArg Host.Outcome.next (if_pos h)

/-- Settles O43: the edge by `ppsEdge_start`, `ppsEdge_locks` and the two lemmas on outliers, the losses by `loseLock_st`, the step by
`applyStep_clockKept`, the host set by `timeSetLo_taken`, and the boundary by `secondBoundary_aligns` and `secondBoundary_pulse`. -/
theorem timeBase : Obligations.TimeBase := by
  intro t p val i s u x sec ts e quiet lost
  refine ⟨fun hr => ⟨_, exec_ppsEdge .., ppsEdge_ppsLast hr, ?start, ?locks, ?outlierLocked, ?outlierOut⟩,
    fun hr => ⟨_, exec_ppsEdge .., ppsEdge_stopped hr⟩,
    fun k hk => ⟨fun hdue => ⟨_, exec_ppsMissing .., ppsMissing_due hk hdue⟩,
      fun hlt => ⟨_, exec_ppsMissing .., ppsMissing_not_due (.inr ⟨k, hk, hlt⟩)⟩⟩,
    fun hk => ⟨_, exec_ppsMissing .., ppsMissing_not_due (.inl hk)⟩,
    fun k hk hdue hst => ⟨_, exec_ref10LossTimeout .., ref10Lost_due hk hdue hst⟩,
    fun h => ⟨_, exec_ref10LossTimeout .., ref10Lost_not_due h⟩,
    fun hst hdue => ⟨_, exec_holdoverExpiry .., holdExpired_due hst hdue (advance_hap t s)⟩,
    fun h => ⟨_, exec_holdoverExpiry .., holdExpired_not_due h⟩,
    fun hw hj => ⟨_, exec_stepApply_waiting (fun hn => hw.elim (absurd hn.1) (absurd hn.2)) hj, ?step⟩,
    fun h => ⟨_, exec_stepApply_not_due h, rfl⟩,
    fun hp => ⟨_, exec_timeSetLoWrite .., fun he hptp hring => ?taken, fun h => timeSetLo_refused val hp h⟩,
    fun hr hc hl => ⟨_, exec_tamongSecondBoundary .., fun hq ht => secondBoundary_aligns ⟨hr, hc, hl⟩ hq ht,
      secondBoundary_pulse ⟨hr, hc, hl⟩⟩,
    fun h => ⟨_, exec_tamongSecondBoundary .., secondBoundary_not_due ?notDue⟩⟩
  case start => exact fun hm hq he hk hst hnone hat => ppsEdge_start i.isLt hr hm hq he hk hst hnone hat
  case locks => exact fun k q hm hq href hv hst hk hlong hp hpc he => ppsEdge_locks hr hm hq href hv hst hk hlong hp hpc he
  case outlierLocked => exact fun hm hq hst he hn => ppsEdge_outlier_locked hr hm hq hst he hn
  case outlierOut => exact fun hm hq hst href he => ppsEdge_outlier_no_ref10 hr hm hq hst href he
  case step => exact applyStep_applies _ _
  case taken =>
    obtain ⟨hbus, htim⟩ := timeSetLo_taken val hp he hptp hring
    refine ⟨hbus, ?_⟩
    rw [htim]
    exact ⟨rfl, rfl, rfl, rfl⟩
  case notDue =>
    rintro ⟨hr, hc, hl⟩
    obtain h | h | h := h
    · cases h.symm.trans hr
    · exact Nat.not_le.mpr hc h
    · exact hl h

end Sys2Proof.Machine
end

section
/-!
SUPPORT. What fault events, records and requests leave of a state, stated once for every view of it: a view that looks at none of the parts
they write sees the same state after them. One lemma `f_unseen` for each operation, from the shared ones up.
-/

namespace Sys2Proof.Machine

open Sys2Proof

/-- The view `v` looks at none of the parts that fault events, records, power requests and requests for windows write. -/
structure Unseen {α : Type} (v : State → α) : Prop where
  evPend : ∀ s x, v { s with evPend := x } = v s
  log : ∀ s l n, v { s with nw := { s.nw with log := l, logNext := n } } = v s
  request : ∀ s t c l r p, v { s with pwr := { s.pwr with target := t, duskCause := c, duskLatched := l, duskReq := r, pend := p } } = v s
  rt : ∀ s x, v { s with rt := x } = v s
  pins : ∀ s x, v { s with pins := x } = v s
  octs : ∀ s x, v { s with octs := x } = v s
  acts : ∀ s x, v { s with seqr := { s.seqr with acts := x } } = v s
  slots : ∀ s x, v { s with seqr := { s.seqr with slots := x } } = v s
  caps : ∀ s x, v { s with caps := x } = v s
  evid : ∀ s x, v { s with evid := x } = v s
  cal : ∀ s x, v { s with cal := x } = v s
  flt : ∀ s x, v { s with flt := x } = v s

theorem view_ite {α : Type} {v : State → α} {a : α} {x y : State} {c : Prop} [Decidable c] (hx : v x = a) (hy : v y = a) :
    v (if c then x else y) = a := by
  split
  · exact hx
  · exact hy

theorem view_foldl {α β : Type} {v : State → α} {a : α} {s : State} (f : State → β → State) (l : List β) (h : v s = a)
    (hf : ∀ u b, v u = a → v (f u b) = a) : v (l.foldl f s) = a :=
  List.foldlRecOn l f h fun u hu b _ => hf u b hu

section Unseen

variable {α : Type} {v : State → α} (hv : Unseen v) {a : α} {s : State} (h : v s = a)
include hv h

/-! ### The trouble log, the unit queue and power requests -/

theorem bump_unseen (reg lo width amt : Nat) : v (bump reg lo width amt s) = a := (hv.evPend _ _).trans h

theorem bumpMax_unseen (reg lo width n : Nat) : v (bumpMax reg lo width n s) = a := (hv.evPend _ _).trans h

theorem logWrite_unseen (es : List LogEntry) : v (logWrite es s) = a := by
  unfold logWrite
  dsimp only
  split
  · exact (hv.log _ _ _).trans h
  · exact (hv.log _ _ _).trans (bump_unseen hv h _ _ _ _)

theorem logPut_unseen (src code value : Nat) (ws : List Nat) : v (logPut src code value ws s) = a := logWrite_unseen hv h _

theorem notice_unseen (code value : Nat) (ws : List Nat) : v (notice code value ws s) = a := logPut_unseen hv h _ _ _ _

theorem pushUnit_unseen (r : Rec) (k : Instant) : v (pushUnit r k s) = a := view_ite h ((hv.evid _ _).trans h)

theorem holdRequest_unseen (p : PwrPend) : v (holdRequest p s) = a := view_ite h ((hv.request _ _ _ _ _ _).trans h)

theorem duskUndo_unseen : v (duskUndo s) = a := by
  unfold duskUndo
  split
  · exact view_ite ((hv.request _ _ _ _ _ _).trans h) h
  · exact h

theorem duskAct_unseen (p : PwrPend) : v (duskAct p s) = a :=
  view_ite ((hv.request _ _ _ _ _ _).trans h) (view_ite h (view_ite ((hv.request _ _ _ _ _ _).trans h) (holdRequest_unseen hv h p)))

theorem duskRequest_unseen (p : PwrPend) : v (duskRequest p s) = a :=
  view_ite h (duskAct_unseen hv ((hv.request _ _ _ _ _ _).trans (duskUndo_unseen hv h)) p)

theorem pwrRequest_unseen (target : PwrSt) (source cause : Nat) : v (pwrRequest target source cause s) = a := by
  have hday : v (if nightOrEvening s target = .day then { s with rt := { s.rt with after := [] } } else s) = a :=
    view_ite ((hv.rt _ _).trans h) h
  refine view_ite (notice_unseen hv h _ _ _) (view_ite (notice_unseen hv h _ _ _) ?_)
  dsimp only
  split
  · exact hday
  · exact duskRequest_unseen hv hday _
  · exact view_ite hday (holdRequest_unseen hv hday _)
  · exact view_ite hday (holdRequest_unseen hv hday _)
  · exact holdRequest_unseen hv hday _

/-! ### Fault events and their reactions -/

theorem modScope_unseen (src oct : Nat) (f : FltScope → FltScope) : v (modScope src oct f s) = a := (hv.flt _ _).trans h

theorem setCond_unseen (src oct : Nat) (c : Bool) : v (setCond src oct c s) = a := modScope_unseen hv h _ _ _

theorem returnXpt_unseen (mask : Nat) : v (returnXpt mask s) = a :=
  view_foldl _ _ ((hv.octs _ _).trans h) fun _ _ hu => bump_unseen hv hu _ _ _ _

theorem orderStop_unseen (gran : Bool) (code cause : Nat) (line : Bool) (i : Nat) : v (orderStop gran code cause line i s) = a :=
  view_ite ((hv.slots _ _).trans h) h

theorem faultStop_unseen (mask src : Nat) : v (faultStop mask src s) = a :=
  view_foldl _ _ h fun _ _ hu => orderStop_unseen hv hu _ _ _ _ _

theorem calRequest_unseen (mask : Nat) : v (calRequest mask s) = a :=
  view_ite ((hv.octs _ _).trans h) (notice_unseen hv ((hv.octs _ _).trans h) _ _ _)

omit h in
theorem unitRequest_unseen (l : List Nat) : ∀ {s : State}, v s = a → v (unitRequest l s) = a := by
  induction l with
  | nil => exact fun h => (hv.cal _ _).trans h
  | cons j l ih =>
    intro s h
    have hreq := calRequest_unseen hv h (2 ^ j)
    exact view_ite (view_ite (ih hreq) ((hv.cal _ _).trans hreq)) (ih h)

theorem unitAdvance_unseen (k : Nat) : v (unitAdvance k s) = a := view_ite (unitRequest_unseen hv _ h) h

theorem schedule_unseen (x : Act) : v (schedule x s) = a := (hv.acts _ _).trans h

theorem strobeAfter_unseen (k : Nat) : v (strobeAfter k s) = a := view_ite (schedule_unseen hv h _) h

theorem calRec_unseen (sub mask pin : Nat) (valid : Bool) (quality : Nat) : v (calRec sub mask pin valid quality s) = a :=
  pushUnit_unseen hv h _ _

theorem abandonWindow_unseen (k : Nat) : v (abandonWindow k s) = a := by
  unfold abandonWindow
  split
  · exact h
  · have hoct (f) : v (modOct k f s) = a := (hv.octs _ _).trans h
    refine unitAdvance_unseen hv (strobeAfter_unseen hv (calRec_unseen hv (bump_unseen hv ?_ _ _ _ _) _ _ _ _ _) _) _
    exact (hv.cal _ _).trans (hoct _)

theorem safePins_unseen (mask : Nat) : v (safePins mask s) = a := (hv.pins _ _).trans h

theorem stopOctets_unseen (mask src : Nat) : v (stopOctets mask src s) = a := by
  have hpins : v (if pinsOn s then safePins mask s else s) = a := view_ite (safePins_unseen hv h _) h
  exact faultStop_unseen hv (view_foldl _ _ (returnXpt_unseen hv hpins _) fun _ _ hu => abandonWindow_unseen hv hu _) _ _

theorem react_unseen (src oct : Nat) (fresh : Bool) : v (react src oct fresh s) = a := by
  unfold react
  split
  · exact view_ite (stopOctets_unseen hv h _ _) h
  · exact faultStop_unseen hv h _ _
  · exact view_ite (pwrRequest_unseen hv h _ _ _) h
  · exact h

theorem unlog_unseen (e : LogEntry) : v (unlog e s) = a := view_ite ((hv.log _ _ _).trans h) h

theorem uncount_unseen (src oct : Nat) : v (uncount src oct s) = a := modScope_unseen hv ((hv.evPend _ _).trans h) _ _ _

theorem clearRefused_unseen (src oct : Nat) : v (clearRefused src oct s) = a := logPut_unseen hv (bump_unseen hv h _ _ _ _) _ _ _ _

theorem exitBack_unseen (src oct : Nat) : v (exitBack src oct s) = a := by
  unfold exitBack
  split
  · exact h
  · have hback (f e) : v (unlog e (modScope src oct f s)) = a := unlog_unseen hv (modScope_unseen hv h src oct f) e
    exact view_ite
      (react_unseen hv (view_ite (uncount_unseen hv (hback _ _) _ _) (clearRefused_unseen hv (hback _ _) _ _)) _ _ _) h

theorem logEvent_unseen (x : FltAt) (detail : Nat) (ws : List Nat) : v (logEvent x detail ws s) = a :=
  view_ite (modScope_unseen hv (logPut_unseen hv h _ _ _ _) _ _ _) (bump_unseen hv (modScope_unseen hv h _ _ _) _ _ _ _)

theorem goSevere_unseen (x : FltAt) : v (goSevere x s) = a :=
  react_unseen hv (bump_unseen hv (logPut_unseen hv (modScope_unseen hv h _ _ _) _ _ _ _) _ _ _ _) _ _ _

theorem fault_unseen (x : FltAt) (detail : Nat) (ws : List Nat) : v (fault x detail ws s) = a := by
  have hlog (f n) : v (logEvent x detail ws (bump n 16 16 1 (modScope x.src x.oct f (exitBack x.src x.oct s)))) = a :=
    logEvent_unseen hv (bump_unseen hv (modScope_unseen hv (exitBack_unseen hv h x.src x.oct) _ _ _) _ _ _ _) x detail ws
  exact view_ite (view_ite (react_unseen hv (hlog _ _) _ _ _) (view_ite (goSevere_unseen hv (hlog _ _) _) (hlog _ _))) h

/-! ### Records -/

theorem modCap_unseen (k : Nat) (f : Cap → Cap) : v (modCap k f s) = a := (hv.caps _ _).trans h

theorem lossCloseAt_unseen (k : Nat) : v (lossCloseAt k s) = a := by
  unfold lossCloseAt
  dsimp only
  split
  · exact h
  · exact view_ite (fault_unseen hv (bumpMax_unseen hv (modCap_unseen hv h _ _) _ _ _ _) _ _ _) h

theorem capIn_unseen (k : Nat) (q : QRec) (lo hi : Nat) : v (capIn k q lo hi s) = a := by
  have hput (f n x) : v (bumpMax (rgCapHw k) 16 n x (modCap k f (lossCloseAt k s))) = a :=
    bumpMax_unseen hv (modCap_unseen hv (lossCloseAt_unseen hv h k) _ _) _ _ _ _
  exact view_ite h (view_ite (hput _ _ _) (bump_unseen hv (hput _ _ _) _ _ _ _))

theorem formAt_unseen (k : Nat) (q : QRec) (lo hi : Nat) : v (formAt k q lo hi s) = a :=
  view_ite (capIn_unseen hv h _ _ _ _) (schedule_unseen hv h _)

theorem closeOcts_unseen (at_ : Instant) (mask : Nat) : v (closeOcts at_ mask s) = a :=
  view_foldl _ _ h fun _ _ hu => view_foldl _ _ (modCap_unseen hv hu _ _) fun _ _ hw => formAt_unseen hv hw _ _ _ _

theorem timeStateRec_unseen (sub : Nat) (step : Int) : v (timeStateRec sub step s) = a :=
  pushUnit_unseen hv (closeOcts_unseen hv h _ _) _ _

end Unseen

end Sys2Proof.Machine
end

section
/-!
SUPPORT. The enclosure and the hardware thermal trip (02 R32, R36, R42, R47, R52, R55): what an update of the enclosure registers, a trip, HPRES
and the fall of J4 do, and the statement about them.
-/

namespace Sys2Proof.Machine

open Sys2Proof

/-! ### The 1 ms sample (02 R55) -/

/-- What a sample brings: the enclosure, but for the boundary at which J4 is to stay low, and the ring. -/
def sampleView (s : State) : Encl × Ring := ({ s.encl with j4Skip := false }, s.ring)

theorem sampleView_unseen : Unseen sampleView := by
  constructor <;> intros <;> rfl

theorem faultU_sampleView (src detail : Nat) (s : State) : sampleView (faultU src detail s) = sampleView s :=
  fault_unseen sampleView_unseen rfl _ _ _

theorem setCond_sampleView (src oct : Nat) (c : Bool) (s : State) : sampleView (setCond src oct c s) = sampleView s :=
  setCond_unseen sampleView_unseen rfl _ _ _

theorem setSt_sampleView (st : TimeSt) (s : State) : sampleView (setSt st s) = sampleView s := by
  by_cases h : st = s.tim.st
  · rw [setSt_same h]
  · have hrec := timeStateRec_unseen sampleView_unseen (s := stTaken st s) rfl 0 0
    rw [setSt_change h]
    exact view_ite ((faultU_sampleView _ _ _).trans ((setCond_sampleView _ _ _ _).trans hrec))
      ((setCond_sampleView _ _ _ _).trans hrec)

theorem reviewDiscipline_sampleView (s : State) : sampleView (reviewDiscipline s) = sampleView s := by
  obtain h | ⟨st, -, h⟩ := reviewDiscipline_cases s
  · rw [h]
    rfl
  · rw [h, setSt_sampleView]
    rfl

theorem refJudge_sampleView (ok : Bool) (s : State) : sampleView (refJudge ok s) = sampleView s :=
  reviewDiscipline_sampleView _

theorem thermJudge_sampleView (src : Nat) (ev hold : Int → Bool) (old new : Int) (s : State) :
    sampleView (thermJudge src ev hold old new s) = sampleView s :=
  (setCond_sampleView _ _ _ _).trans (view_ite (faultU_sampleView _ _ _) rfl)

theorem fanEvent_sampleView (fan speed : Nat) (was now : Bool) (s : State) : sampleView (fanEvent fan speed was now s) = sampleView s :=
  view_ite (faultU_sampleView _ _ _) rfl

theorem presJudge_sampleView (k : Nat) (old new : Bool) (s : State) : sampleView (presJudge k old new s) = sampleView s :=
  (setCond_sampleView _ _ _ _).trans (view_ite rfl (fault_unseen sampleView_unseen rfl _ _ _))

theorem enclJudge_sampleView (o n : Encl) (s : State) : sampleView (enclJudge o n s) = sampleView s := by
  refine view_foldl _ _ ?_ fun u k hu => (presJudge_sampleView _ _ _ u).trans hu
  simp only [setCond_sampleView, fanEvent_sampleView, thermJudge_sampleView]

theorem tempRequests_sampleView (s : State) : sampleView (tempRequests s) = sampleView s :=
  view_ite (view_foldl _ _ rfl fun _ _ hu => view_ite (calRequest_unseen sampleView_unseen hu _) hu) rfl

/-- The enclosure as a sample leaves it while the fast domain is powered. -/
def sampledEncl (x : EnclSample) (s : State) : Encl :=
  let f0 := fanJudge s x.fan0 (fanCmd s x.cmd0 s.encl.fanFail1) s.encl.fanLow0
  let f1 := fanJudge s x.fan1 (fanCmd s x.cmd1 s.encl.fanFail0) s.encl.fanLow1
  { s.encl with
    sense := senseWord s x, fanSpeed0 := x.fan0 % 4096, fanSpeed1 := x.fan1 % 4096, fanLow0 := f0.1, fanLow1 := f1.1
    fanFail0 := f0.2, fanFail1 := f1.2, fanCmd0 := fanCmd s x.cmd0 f1.2, fanCmd1 := fanCmd s x.cmd1 f0.2
    ref10 := x.ref10, dieC := x.dieC, inletC := x.inletC, bankC := x.bankC, onset := false }

/-- The judgements and requests a sample sets off move nothing of what it brings. -/
theorem enclUpdate_powered {s : State} (x : EnclSample) (h : fastOn s = true) :
    (∃ b, (enclUpdate x s).encl = { sampledEncl x s with j4Skip := b }) ∧
    (enclUpdate x s).ring = { s.ring with
      pa := { s.ring.pa with carrier := x.carrierA }, pb := { s.ring.pb with carrier := x.carrierB } } := by
  have hview : sampleView (enclUpdate x s) = ({ sampledEncl x s with j4Skip := false }, { s.ring with
      pa := { s.ring.pa with carrier := x.carrierA }, pb := { s.ring.pb with carrier := x.carrierB } }) := by
    rw [enclUpdate, if_pos h, tempRequests_sampleView, enclJudge_sampleView, refJudge_sampleView]
    rfl
  obtain ⟨hencl, hring⟩ := Prod.mk.inj hview
  exact ⟨⟨_, congrArg (fun e : Encl => { e with j4Skip := (enclUpdate x s).encl.j4Skip }) hencl⟩, hring⟩

theorem enclUpdate_unpowered {s : State} (x : EnclSample) (h : fastOn s = false) : enclUpdate x s = s :=
  if_neg (by simp [h])

/-! ### The fans (02 R32, R55) -/

/-- A fan commanded to any speed is commanded on. -/
theorem fansOn_of_lt_fanCmd {s : State} {n cmd : Nat} {other : Bool} (h : n < fanCmd s cmd other) : fansOn s = true := by
  by_contra hoff
  rw [fanCmd, if_neg hoff] at h
  exact Nat.not_lt_zero _ h

theorem fanJudge_fails {s : State} {speed cmd : Nat} {low : Option Instant} :
    (fanJudge s speed cmd low).2 = true ↔ 5 * speed < cmd ∧ ∃ k, low = some k ∧ 2 * cS + k ≤ s.now := by
  unfold fanJudge
  split
  next hlow => cases low <;> simp [hlow]
  next hlow => simp [hlow]

theorem fanJudge_fanCmd_fails {s : State} {speed cmd : Nat} {other : Bool} {low : Option Instant} :
    (fanJudge s speed (fanCmd s cmd other) low).2 = true ↔
      fansOn s = true ∧ 5 * speed < fanCmd s cmd other ∧ ∃ k, low = some k ∧ 2 * cS + k ≤ s.now := by
  rw [fanJudge_fails]
  exact ⟨fun ⟨hlow, hlong⟩ => ⟨fansOn_of_lt_fanCmd hlow, hlow, hlong⟩, And.right⟩

/-! ### G_ENCL_SENSE and G_ENCL_THERM (Tables 2-11, 2-12) -/

theorem regVal_enclSense (s : State) : regVal s 0x030 = enclSense s := rfl

theorem regVal_enclTherm (s : State) : regVal s 0x034 = enclTherm s := rfl

theorem b2n_le_one (b : Bool) : b2n b ≤ 1 := by cases b <;> decide

/-- The lines of a sample leave the place of PPS_IN_OK empty. -/
theorem senseWord_bit9 (s : State) (x : EnclSample) : (senseWord s x).getLsbD 9 = false := by
  have hpres : x.pres.toNat < 256 := x.pres.isLt
  have href := b2n_le_one x.ref10
  rw [senseWord, word, BitVec.getLsbD_ofNat, Nat.testBit_eq_decide_div_mod_eq]
  simp only [Nat.reducePow, Nat.reduceLT, decide_true, Bool.true_and, decide_eq_false_iff_not]
  omega

theorem and_not_twoPow {w : Word} {i : Nat} (h : w.getLsbD i = false) : w &&& ~~~BitVec.twoPow 32 i = w := by
  ext j hj
  by_cases hij : i = j
  · subst hij
    simp_all
  · simp [Ne.symm hij]

/-- A bit set at an empty place is all that is masked away there. -/
theorem add_twoPow_and_not {w : Word} {i : Nat} (h : w.getLsbD i = false) :
    (w + BitVec.twoPow 32 i) &&& ~~~BitVec.twoPow 32 i = w := by
  have hdisj : w &&& BitVec.twoPow 32 i = 0#32 := by rw [BitVec.and_twoPow, h]; rfl
  rw [BitVec.add_eq_or_of_and_eq_zero _ _ hdisj, BitVec.and_or_distrib_right, and_not_twoPow h, BitVec.and_not_self]
  exact BitVec.or_zero

theorem enclSense_masked {s : State} (h : s.encl.sense.getLsbD 9 = false) : enclSense s &&& 0xFFFFFDFF = s.encl.sense := by
  have hmask : (0xFFFFFDFF : Word) = ~~~BitVec.twoPow 32 9 := by decide
  have hword (n : Nat) : word (s.encl.sense.toNat + n) = s.encl.sense + word n := by
    rw [word, BitVec.ofNat_add, BitVec.ofNat_toNat, BitVec.setWidth_eq, word]
  rw [enclSense, hword, hmask]
  cases (if fastOn s then ppsOk s else s.encl.ppsKept) with
  | false =>
    have hnone : word (2 ^ 9 * b2n false) = 0#32 := by decide
    rw [hnone, BitVec.add_zero, and_not_twoPow h]
  | true =>
    have hset : word (2 ^ 9 * b2n true) = BitVec.twoPow 32 9 := by decide
    rw [hset, add_twoPow_and_not h]

/-! ### The hardware thermal trip (02 R52) -/

/-- What a trip leaves as it is, whatever it cuts off: the chain in Nightwatch, whether line power is there, and the stream rings. -/
def tripView (s : State) : ChainSt × Bool × Vector SRing 4 := (s.nw.chain, s.pwr.linePresent, s.seqr.srings)

theorem tripView_unseen : Unseen tripView := by
  constructor <;> intros <;> rfl

theorem ckptFail_tripView (s : State) : tripView (ckptFail s) = tripView s := by
  unfold ckptFail
  split <;> rfl

theorem ckptCut_tripView (s : State) : tripView (ckptCut s) = tripView s :=
  view_ite (fault_unseen tripView_unseen (ckptFail_tripView s) _ _ _) rfl

theorem ckptCut_none {s : State} (h : s.sl.ckptWrite = none) : ckptCut s = s := if_neg (by simp [h])

theorem keepSettings_eq (s : State) : ∃ k, keepSettings s = { s with nw := { s.nw with kept := k } } := by
  unfold keepSettings
  split
  · exact ⟨_, rfl⟩
  · exact ⟨_, rfl⟩
  · exact ⟨_, rfl⟩
  · exact ⟨s.nw.kept, rfl⟩

/-- The unit as a trip finds it when power goes: the trip held, no wake latched, the settings kept and the die temperature noted. -/
def tripTaken (dieC : Int) (s : State) : State :=
  assureLapse (modEncl (fun e => { e with dieC := dieC })
    { keepSettings s with nw := { (keepSettings s).nw with tripHeld := true, tripFound := true, wakeLatch := false } })

theorem tripTaken_eq (dieC : Int) (s : State) : ∃ k e, tripTaken dieC s =
    { s with
      nw := { s.nw with kept := k, tripHeld := true, tripFound := true, wakeLatch := false }
      encl := { s.encl with dieC := dieC }, evPend := e } := by
  obtain ⟨k, hk⟩ := keepSettings_eq s
  refine ⟨k, (tripTaken dieC s).evPend, ?_⟩
  unfold tripTaken
  rw [assureLapse_eq, hk]
  rfl

/-- A trip removes power with no Dusk: to Night while line power is there, else to line absent. -/
theorem thermalTrip_trips {s : State} {dieC : Int} (hon : fastOn s = true) (hhot : 115 ≤ dieC) : thermalTrip dieC s =
    if (ckptCut s).pwr.linePresent then
      powerOff .night (modPwr (fun p => { p with classEvents := p.lineBack.getD p.classEvents }) (tripTaken dieC (ckptCut s)))
    else enterAbsent (tripTaken dieC (ckptCut s)) := if_pos ⟨hon, hhot⟩

theorem thermalTrip_stays {s : State} {dieC : Int} (h : fastOn s = false ∨ dieC < 115) : thermalTrip dieC s = s := by
  refine if_neg fun ⟨hon, hhot⟩ => ?_
  obtain h | h := h
  · cases hon.symm.trans h
  · exact absurd hhot (Int.not_le.mpr h)

/-- The fast domain is without power: its ports and the sequencer hold nothing, but for the stream rings. -/
structure Unpowered (w : State) : Prop where
  fast : fastOn w = false
  spi : w.spi = {}
  usb : w.usb = {}
  eth : w.eth = {}
  seqr : w.seqr = { srings := w.seqr.srings }

theorem powerOff_unpowered {st : PwrSt} (h : st = .night ∨ st = .absent) (s : State) : Unpowered (powerOff st s) := by
  refine ⟨?_, rfl, rfl, rfl, rfl⟩
  rcases h with rfl | rfl <;> rfl

theorem enterAbsent_eq (s : State) : ∃ p, p.st = .absent ∧ enterAbsent s = { powerOff .absent s with pwr := p } := by
  unfold enterAbsent
  dsimp only
  split
  · exact ⟨_, rfl, rfl⟩
  · exact ⟨_, rfl, rfl⟩

theorem enterAbsent_unpowered (s : State) : Unpowered (enterAbsent s) := by
  obtain ⟨p, hp, h⟩ := enterAbsent_eq s
  obtain ⟨-, hspi, husb, heth, hseqr⟩ := powerOff_unpowered (.inr rfl) s
  rw [h]
  exact ⟨by rw [fastOn, hp], hspi, husb, heth, hseqr⟩

/-- What a trip leaves: no power, the trip held and found, no wake latched, and of what Nightwatch and the DRAM keep nothing else moved. -/
theorem thermalTrip_effect {s : State} {dieC : Int} (hon : fastOn s = true) (hhot : 115 ≤ dieC) :
    let w := thermalTrip dieC s
    Unpowered w ∧ w.pwr.st = (if s.pwr.linePresent = true then .night else .absent) ∧
    w.nw.tripHeld = true ∧ w.nw.tripFound = true ∧ w.nw.wakeLatch = false ∧ w.encl.dieC = dieC ∧
    w.nw.chain = s.nw.chain ∧ w.nw.log = (ckptCut s).nw.log ∧
    (s.pwr.linePresent = true → w.seqr.srings = s.seqr.srings) := by
  have hcut := ckptCut_tripView s
  simp only [tripView, Prod.mk.injEq] at hcut
  obtain ⟨hchain, hline, hrings⟩ := hcut
  obtain ⟨k, e, hz⟩ := tripTaken_eq dieC (ckptCut s)
  rw [thermalTrip_trips hon hhot, ← hchain, ← hline, ← hrings]
  dsimp only
  split
  next hpres =>
    refine ⟨powerOff_unpowered (.inl rfl) _, ?_⟩
    rw [hz]
    exact ⟨rfl, rfl, rfl, rfl, rfl, rfl, rfl, fun _ => rfl⟩
  next habs =>
    refine ⟨enterAbsent_unpowered _, ?_⟩
    obtain ⟨p, hp, h⟩ := enterAbsent_eq (tripTaken dieC (ckptCut s))
    rw [h, hz]
    exact ⟨hp, rfl, rfl, rfl, rfl, rfl, rfl, fun h => absurd h habs⟩

/-! ### HPRES (02 R47) -/

theorem noteLatency_eq (k : Option Instant) (s : State) : noteLatency k s = { s with evPend := (noteLatency k s).evPend } := by
  unfold noteLatency
  split
  · rfl
  · dsimp only
    split <;> rfl

theorem spiHandover_idle {s : State} (h : ¬ (s.spi.running ∧ s.spi.note.isSome ∧ s.encl.hpres)) : spiHandover s = s := if_neg h

/-- A handover notes the latency of what it hands over, and that it is measured. -/
theorem spiHandover_eq (s : State) : ∃ k e, spiHandover s = { s with spi := { s.spi with noteStrobe := k }, evPend := e } := by
  unfold spiHandover
  split
  · rw [noteLatency_eq]
    exact ⟨_, _, rfl⟩
  · exact ⟨s.spi.noteStrobe, s.evPend, rfl⟩

/-- The bit written into a word is read back. -/
theorem setFld_bit {w : Word} {i : Nat} (b : Bool) (hi : i < 32) : (setFld w i 1 (b2n b)).getLsbD i = b := by
  have hpos : 0 < 2 ^ i := Nat.two_pow_pos i
  obtain ⟨q, r, hr, hw⟩ : ∃ q r, r < 2 ^ i ∧ w.toNat = r + 2 ^ i * q :=
    ⟨w.toNat / 2 ^ i, w.toNat % 2 ^ i, Nat.mod_lt _ hpos, (Nat.mod_add_div _ _).symm⟩
  have hq : w.toNat / 2 ^ i = q := by rw [hw, Nat.add_mul_div_left _ _ hpos, Nat.div_eq_of_lt hr, Nat.zero_add]
  have hsplit : r + 2 ^ i * q = r + 2 ^ i * (2 * (q / 2)) + 2 ^ i * (q % 2) := by
    rw [Nat.add_assoc, ← Nat.mul_add, Nat.div_add_mod]
  have hset : setFld w i 1 (b2n b) = BitVec.ofNat 32 (r + 2 ^ i * (2 * (q / 2) + b2n b % 2)) := by
    rw [setFld, fld, Nat.shiftRight_eq_div_pow, hq, hw, Nat.pow_one, hsplit, Nat.add_sub_cancel, Nat.add_assoc, ← Nat.mul_add]
  rw [hset, BitVec.getLsbD_ofNat, Nat.testBit_eq_decide_div_mod_eq, Nat.add_mul_div_left _ _ hpos, Nat.div_eq_of_lt hr]
  cases b <;> simp [hi, b2n]

/-- A change of HPRES sets the line and, while the fast domain is powered, SPI_HPRES; only a handover that it allows moves the port. -/
theorem hpresChange_effect (high : Bool) (s : State) :
    let w := hpresChange high s
    w = { s with encl := { s.encl with hpres := high, sense := w.encl.sense }, spi := w.spi, evPend := w.evPend } ∧
    (high = false ∨ s.spi.note = none ∨ s.spi.running = false → w.spi = s.spi ∧ w.evPend = s.evPend) ∧
    w.spi.note = s.spi.note ∧ w.spi.queue = s.spi.queue ∧ (fastOn s = true → w.encl.sense.getLsbD 14 = high) := by
  intro w
  obtain ⟨k, e, hw⟩ := spiHandover_eq { s with encl := { s.encl with
    hpres := high, sense := if fastOn s then setFld s.encl.sense 14 1 (b2n high) else s.encl.sense } }
  change w = _ at hw
  refine ⟨by rw [hw], fun hidle => ?_, by rw [hw], by rw [hw], fun hon => ?_⟩
  · have hstays : w = _ := spiHandover_idle fun ⟨hrun, hnote, hhigh⟩ => by
      obtain h | h | h := hidle
      · cases (show high = true from hhigh).symm.trans h
      · simp [h] at hnote
      · cases (show s.spi.running = true from hrun).symm.trans h
    rw [hstays]
    exact ⟨rfl, rfl⟩
  · rw [hw]
    dsimp only
    rw [if_pos hon]
    exact setFld_bit high (by decide)

/-! ### The fall of J4 (02 R42) -/

theorem ppsOutFall_due {s : State} (hhigh : s.encl.ppsOutHigh = true) (hdue : s.encl.ppsOutRise + ppsoWidth s ≤ s.now) :
    ppsOutFall s = { s with encl := { s.encl with ppsOutHigh := false } } := if_pos ⟨hhigh, hdue⟩

theorem ppsOutFall_not_due {s : State} (h : s.encl.ppsOutHigh = false ∨ s.now < s.encl.ppsOutRise + ppsoWidth s) : ppsOutFall s = s := by
  refine if_neg fun ⟨hhigh, hdue⟩ => ?_
  obtain h | h := h
  · cases hhigh.symm.trans h
  · exact absurd hdue (Nat.not_le.mpr h)

/-! ### The statement -/

theorem exec_enclSenseUpdate (t : Instant) (x : EnclSample) (s : State) :
    exec (.enclSenseUpdate t x) s = .next (enclUpdate x (advance t s)) := rfl
theorem exec_hardwareThermalTrip (t : Instant) (dieC : Int) (s : State) :
    exec (.hardwareThermalTrip t dieC) s = .next (thermalTrip dieC (advance t s)) := rfl
theorem exec_hpresChange (t : Instant) (high : Bool) (s : State) :
    exec (.hpresChange t high) s = .next (hpresChange high (advance t s)) := rfl
theorem exec_ppsOutFall (t : Instant) (s : State) : exec (.ppsOutFall t) s = .next (ppsOutFall (advance t s)) := rfl

theorem exec_thermalTripRelease_cold {dieC : Int} (h : dieC < 95) (t : Instant) (s : State) : exec (.thermalTripRelease t dieC) s =
    .next { advance t s with nw := { (advance t s).nw with tripHeld := false } } := congrArg Host.Outcome.next (if_pos h)

theorem exec_thermalTripRelease_warm {dieC : Int} (h : 95 ≤ dieC) (t : Instant) (s : State) :
    exec (.thermalTripRelease t dieC) s = .next (advance t s) := congrArg Host.Outcome.next (if_neg (Int.not_lt.mpr h))

/-- Settles O20: the sample by `enclUpdate_powered`, `enclSense_masked` and `fanJudge_fanCmd_fails`, the trip by `thermalTrip_effect`,
HPRES by `hpresChange_effect`. -/
theorem enclosureCommands : Obligations.EnclosureCommands := by
  intro t x dieC high s u speed
  refine ⟨fun hon => ⟨_, exec_enclSenseUpdate .., ?sample⟩,
    fun hoff => ⟨_, exec_enclSenseUpdate .., enclUpdate_unpowered x hoff⟩,
    fun hon hhot => ⟨_, exec_hardwareThermalTrip .., ?trip⟩,
    fun h => ⟨_, exec_hardwareThermalTrip .., thermalTrip_stays h⟩,
    fun h => ⟨_, exec_thermalTripRelease_cold h .., rfl⟩,
    fun h => ⟨_, exec_thermalTripRelease_warm h .., rfl⟩,
    ⟨_, exec_hpresChange .., hpresChange_effect high u⟩,
    fun hhigh hdue => ⟨_, exec_ppsOutFall .., ppsOutFall_due hhigh hdue⟩,
    fun h => ⟨_, exec_ppsOutFall .., ppsOutFall_not_due h⟩⟩
  case sample =>
    obtain ⟨⟨b, hencl⟩, hring⟩ := enclUpdate_powered x hon
    have hsense : (enclUpdate x u).encl.sense = senseWord u x := by rw [hencl]; rfl
    rw [regVal_enclSense, enclSense_masked (hsense ▸ senseWord_bit9 u x), regVal_enclTherm, enclTherm, hencl, hring]
    exact ⟨rfl, rfl, rfl, rfl, fanJudge_fanCmd_fails, fanJudge_fanCmd_fails, rfl, rfl, rfl, rfl⟩
  case trip =>
    obtain ⟨⟨hfast, hspi, husb, heth, hseqr⟩, hst, hheld, hfound, hwake, hdie, hchain, hlog, hrings⟩ := thermalTrip_effect hon hhot
    exact ⟨hst, hheld, hfound, hwake, hdie, hfast, hspi, husb, heth, hchain, hseqr, hrings,
      fun h => hlog.trans (by rw [ckptCut_none h])⟩

end Sys2Proof.Machine
end

section
/-!
SUPPORT. Three statements about power transitions that a state outside their prose refutes: each hypothesis is met, and one command
moves what the statement says is kept.
-/

set_option Elab.async false

namespace Sys2Proof.Machine

open Sys2Proof

/-! ### A clock stop that begins a checkpoint (12 R285) -/

/-- Step 7 of a Dusk towards Night, the core synthesiser still locked, with a seal whose parts are not written yet and a checkpoint owed
to it; the CRC word of checkpoint slot 0 is not zero. -/
def sealUnwrittenAtNight : State :=
  { mram := [(0x280044, 1)], pwr := { st := .dusk, target := .night, duskStep := 7 }, clk := { core := .locked 0 }
    sl := { writing := [(0, [])], ckptForce := true } }

/-- The clock stop writes the seal, and the checkpoint that begins zeroes its slot's CRC word. -/
theorem duskDown_seal_unwritten :
    (duskDown (advance 0 sealUnwrittenAtNight)).mram ≠ (advance 0 sealUnwrittenAtNight).mram := by decide

/-- Refutes O25: its hypotheses name stores and commits, and not a seal that is still to be written. The clock stop of step 7 writes such a
seal, which begins a checkpoint, so that the configuration memory does not stay as it was. -/
theorem not_nightEntry : ¬ Obligations.NightEntry := by
  intro h
  obtain ⟨hnight, -⟩ := h 0 sealUnwrittenAtNight rfl rfl rfl rfl rfl
  obtain ⟨w, hw, -, -, -, -, -, -, -, -, -, hmram, -⟩ := hnight (.inl rfl)
  cases Host.Outcome.next.inj hw
  exact duskDown_seal_unwritten hmram

/-- Evening with a request for Day, with no image applied, the core synthesiser locked, and a seal still to be written to which a checkpoint is
owed, 1 ms after the start. -/
def sealUnwrittenInEvening : State :=
  { now := cMs, pwr := { st := .evening, pend := some ⟨.day, 0, 0, 0⟩ }, clk := { core := .locked 0 }
    sl := { writing := [(0, [])], ckptForce := true } }

/-- Without an image step 9 leads to maintenance Day and stops the clocks; the checkpoint that begins brings the account of the
configuration memory's port up to date. -/
theorem shortDawn_seal_unwritten :
    (shortDawn (advance 0 sealUnwrittenInEvening)).boot.portAt ≠ (advance 0 sealUnwrittenInEvening).boot.portAt := by decide

/-- Refutes O32, in its clause on the short Dawn: the statement does not say that the clocks are off in Evening. Where they are not, a short
Dawn that leads to maintenance Day stops them, and a seal still to be written begins a checkpoint, which moves the start-up block. -/
theorem not_dawnEnd : ¬ Obligations.DawnEnd := by
  intro h
  obtain ⟨-, -, -, -, hday, -⟩ := h 0 [] 0 0 ⟨.day, 0, 0, 0⟩ sealUnwrittenInEvening
  obtain ⟨w, hw, -, -, -, -, -, -, -, hboot, -⟩ := hday rfl rfl rfl rfl (by decide)
  cases Host.Outcome.next.inj hw
  exact shortDawn_seal_unwritten (congrArg Boot.portAt hboot)

/-! ### A release that waits for an export (10 R258) -/

/-- An abandoned short Dawn with one sealed record held, an export of it under way over TASP, and its release waiting for that export. -/
def releaseWaitsInDawn : State :=
  { pwr := { st := .dawn, shortDawn := true, abandoned := true }
    evid := { count := 1, sealedEnd := 1, held := [default], exports := [⟨.tasp, 0, 0, 1⟩], relWait := [1] } }

/-- A Dawn whose configuration memory does not identify itself. -/
def dawnWithoutMram : DawnInput := ⟨false, false, 20, 3000⟩

/-- The full Dawn ends the export, and the release that waited for it takes effect. -/
theorem fullDawn_release_waits : (fullDawn dawnWithoutMram (advance 0 releaseWaitsInDawn)).evid.held = [] := by decide +kernel

/-- Refutes O28, in its clause on an abandoned short Dawn: the full Dawn that follows ends every export, so that a release held by one is
applied and evidence memory is not kept. -/
theorem not_fullDawn : ¬ Obligations.FullDawn := by
  intro h
  obtain ⟨-, -, hagain, -⟩ := h 0 dawnWithoutMram default releaseWaitsInDawn
  obtain ⟨w, hw, -, -, -, -, -, hheld, -⟩ := hagain rfl rfl rfl
  cases Host.Outcome.next.inj hw
  cases fullDawn_release_waits.symm.trans hheld

end Sys2Proof.Machine
end

section
/-!
SUPPORT. What fault events, ends of jobs and the decisions of the queue keep, stated once for every predicate of the state: a view (`Unseen`)
cannot tell a request that acts in Day from one in a Dusk, nor a job that runs from one that does not; a predicate can. One lemma
`f_calm` for each operation `f`, from the shared ones up.
-/

set_option Elab.async false

namespace Sys2Proof.Machine

open Sys2Proof

/-- `P` outlives what fault events and their reactions may do: a request in Day waits, a running job is ordered to stop, a window ends, the
whole-unit sequence goes on, and no condition begins or ends. -/
structure Calm (P : State → Prop) : Prop where
  evPend : ∀ s x, P s → P { s with evPend := x }
  log : ∀ s l n, P s → P { s with nw := { s.nw with log := l, logNext := n } }
  pend : ∀ s x, s.pwr.st = .day → P s → P { s with pwr := { s.pwr with pend := x } }
  pins : ∀ s x, P s → P { s with pins := x }
  octs : ∀ s x, (∀ k, (octAt s k).win = none → (vget x k {}).win = none) → P s → P { s with octs := x }
  acts : ∀ s x, P s → P { s with seqr := { s.seqr with acts := x } }
  stop : ∀ s i x, (slotAt s i).st = .running → P s → P (modSlot i (fun y => { y with stops := x :: y.stops }) s)
  caps : ∀ s x, P s → P { s with caps := x }
  evid : ∀ s x, P s → P { s with evid := x }
  cal : ∀ s x, (s.cal.unitNext = none → x.unitNext = none) → P s → P { s with cal := x }
  flt : ∀ s x, (∀ i, (vget x i {}).cond = (vget s.flt i {}).cond) → P s → P { s with flt := x }

/-- `P` also outlives the end of a job in a slot that `held` does not name. -/
structure CalmEnd (P : State → Prop) (held : Nat → Prop) : Prop extends Calm P where
  slot : ∀ s i f, ¬ held i → P s → P (modSlot i f s)
  srings : ∀ s x, P s → P { s with seqr := { s.seqr with srings := x } }
  stopCause : ∀ s x, P s → P { s with pwr := { s.pwr with stopCause := x } }

/-- `P` also outlives the decisions of the queue: the slots it holds are those of running jobs. -/
structure CalmDue (P : State → Prop) (held : Nat → Prop) : Prop extends CalmEnd P held where
  running : ∀ s i, P s → held i → (slotAt s i).st = .running
  seg : ∀ s x, P s → P { s with seg := x }
  bus : ∀ s x, P s → P { s with bus := x }
  head : ∀ s x b, P s → P { s with seqr := { s.seqr with head := x, admitWait := b } }

theorem calm_ite {P : State → Prop} {x y : State} {c : Prop} [Decidable c] (hx : P x) (hy : P y) : P (if c then x else y) := by
  split
  · exact hx
  · exact hy

theorem calm_foldl {P : State → Prop} {β : Type} {s : State} (f : State → β → State) (l : List β) (h : P s)
    (hf : ∀ u b, P u → P (f u b)) : P (l.foldl f s) :=
  List.foldlRecOn l f h fun u hu b _ => hf u b hu

section Calm

variable {P : State → Prop} (hP : Calm P) {s : State} (h : P s)
include hP h

/-! ### The trouble log, the unit queue and power requests -/

theorem bump_calm (reg lo width amt : Nat) : P (bump reg lo width amt s) := hP.evPend _ _ h

theorem bumpMax_calm (reg lo width n : Nat) : P (bumpMax reg lo width n s) := hP.evPend _ _ h

theorem logWrite_calm (es : List LogEntry) : P (logWrite es s) := by
  unfold logWrite
  dsimp only
  split
  · exact hP.log _ _ _ h
  · exact hP.log _ _ _ (bump_calm hP h _ _ _ _)

theorem logPut_calm (src code value : Nat) (ws : List Nat) : P (logPut src code value ws s) := logWrite_calm hP h _

theorem notice_calm (code value : Nat) (ws : List Nat) : P (notice code value ws s) := logPut_calm hP h _ _ _ _

theorem pushUnit_calm (r : Rec) (k : Instant) : P (pushUnit r k s) := calm_ite h (hP.evid _ _ h)

/-- The request of a reaction (17 R399), which is made in Day alone. -/
theorem pwrRequest_evening_calm (source cause : Nat) (hday : s.pwr.st = .day) : P (pwrRequest .evening source cause s) := by
  have hgoal : nightOrEvening s .evening = .evening := if_neg fun ⟨hnight, _⟩ => nomatch hnight
  simp only [pwrRequest, hgoal, hday, reduceCtorEq, false_and, if_false]
  exact calm_ite h (hP.pend _ _ hday h)

/-! ### Fault events and their reactions -/

theorem modOct_calm (k : Nat) (f : OctCh → OctCh) (hf : ∀ o, o.win = none → (f o).win = none) : P (modOct k f s) := by
  refine hP.octs _ _ (fun j hj => ?_) h
  rw [vget_vmod]
  split
  · exact hf _ hj
  · exact hj

theorem mapOcts_calm (f : Nat → OctCh → OctCh) (hf : ∀ k o, o.win = none → (f k o).win = none) :
    P { s with octs := vmap s.octs f } := by
  refine hP.octs _ _ (fun j hj => ?_) h
  by_cases hlt : j < 8
  · rw [vget_vmap _ _ _ _ hlt]
    exact hf _ _ hj
  · rw [vget_ge _ _ _ (Nat.not_lt.mp hlt)]

theorem modScope_calm (src oct : Nat) (f : FltScope → FltScope)
    (hf : ∀ x, (f x).cond = x.cond := by exact fun _ => rfl) : P (modScope src oct f s) := by
  refine hP.flt _ _ (fun j => ?_) h
  rw [vget_vmod]
  split
  · exact hf _
  · rfl

theorem returnXpt_calm (mask : Nat) : P (returnXpt mask s) := by
  refine calm_foldl _ _ (mapOcts_calm hP h _ fun k o ho => ?_) fun _ _ hu => bump_calm hP hu _ _ _ _
  split
  · exact ho
  · exact ho

theorem orderStop_calm (gran : Bool) (code cause : Nat) (line : Bool) (i : Nat) : P (orderStop gran code cause line i s) := by
  unfold orderStop
  split
  next hrun => exact hP.stop _ _ _ hrun h
  · exact h

theorem faultStop_calm (mask src : Nat) : P (faultStop mask src s) := calm_foldl _ _ h fun _ _ hu => orderStop_calm hP hu _ _ _ _ _

theorem calRequest_calm (mask : Nat) : P (calRequest mask s) := by
  have hpend : P { s with octs := vmap s.octs fun k o =>
      if ((mask &&& s.pwr.octActive.toNat).testBit k && o.calPend.isNone && o.win.isNone) = true then
        { o with calPend := some s.now, calOverdue := false } else o } := by
    refine mapOcts_calm hP h _ fun k o ho => ?_
    split
    · exact ho
    · exact ho
  exact calm_ite hpend (notice_calm hP hpend _ _ _)

omit hP h in
theorem notice_cal (code value : Nat) (ws : List Nat) (s : State) : (notice code value ws s).cal = s.cal := by
  unfold notice logPut logWrite
  dsimp only
  split
  · rfl
  · rfl

omit hP h in
theorem calRequest_cal (mask : Nat) (s : State) : (calRequest mask s).cal = s.cal := by
  unfold calRequest
  extract_lets live dead s1
  split
  · rfl
  · exact notice_cal _ _ _ s1

omit h in
theorem unitRequest_calm (l : List Nat) : ∀ {s : State}, P s → s.cal.unitNext ≠ none → P (unitRequest l s) := by
  induction l with
  | nil => exact fun h hn => hP.cal _ _ (fun hnone => absurd hnone hn) h
  | cons j l ih =>
    intro s h hn
    have hreq := calRequest_calm hP h (2 ^ j)
    have hn' : (calRequest (2 ^ j) s).cal.unitNext ≠ none := by rwa [calRequest_cal]
    exact calm_ite (calm_ite (ih hreq hn') (hP.cal _ _ (fun hnone => absurd hnone hn') hreq)) (ih h hn)

theorem unitAdvance_calm (k : Nat) : P (unitAdvance k s) := by
  unfold unitAdvance
  split
  next hk => exact unitRequest_calm hP _ h (by simp [hk])
  · exact h

theorem schedule_calm (x : Act) : P (schedule x s) := hP.acts _ _ h

theorem strobeAfter_calm (k : Nat) : P (strobeAfter k s) := calm_ite (schedule_calm hP h _) h

theorem calRec_calm (sub mask pin : Nat) (valid : Bool) (quality : Nat) : P (calRec sub mask pin valid quality s) :=
  pushUnit_calm hP h _ _

theorem abandonWindow_calm (k : Nat) : P (abandonWindow k s) := by
  unfold abandonWindow
  split
  · exact h
  · refine unitAdvance_calm hP (strobeAfter_calm hP (calRec_calm hP (bump_calm hP ?_ _ _ _ _) _ _ _ _ _) _) _
    exact hP.cal _ _ id (modOct_calm hP h _ _ fun _ _ => rfl)

theorem abandonWindows_calm (mask : Nat) : P (abandonWindows mask s) := calm_foldl _ _ h fun _ _ hu => abandonWindow_calm hP hu _

theorem mapPins_calm (mask : Nat) (f : Nat → PinCh → PinCh) : P (mapPins mask f s) := hP.pins _ _ h

theorem stopOctets_calm (mask src : Nat) : P (stopOctets mask src s) :=
  faultStop_calm hP (abandonWindows_calm hP (returnXpt_calm hP (calm_ite (mapPins_calm hP h _ _) h) _) _) _ _

theorem react_calm (src oct : Nat) (fresh : Bool) : P (react src oct fresh s) := by
  unfold react
  split
  · exact calm_ite (stopOctets_calm hP h _ _) h
  · exact faultStop_calm hP h _ _
  · split
    next hday => exact pwrRequest_evening_calm hP h _ _ hday.2
    · exact h
  · exact h

theorem unlog_calm (e : LogEntry) : P (unlog e s) := calm_ite (hP.log _ _ _ h) h

theorem uncount_calm (src oct : Nat) : P (uncount src oct s) := modScope_calm hP (hP.evPend _ _ h) _ _ _

theorem clearRefused_calm (src oct : Nat) : P (clearRefused src oct s) := logPut_calm hP (bump_calm hP h _ _ _ _) _ _ _ _

theorem exitBack_calm (src oct : Nat) : P (exitBack src oct s) := by
  unfold exitBack
  split
  · exact h
  · have hback (x : FltExit) := unlog_calm hP
      (modScope_calm hP h src oct fun f => { f with severe := true, ticks := x.ticks, left := none }) x.entry
    exact calm_ite
      (react_calm hP (calm_ite (uncount_calm hP (hback _) _ _) (clearRefused_calm hP (hback _) _ _)) _ _ _) h

theorem logEvent_calm (x : FltAt) (detail : Nat) (ws : List Nat) : P (logEvent x detail ws s) :=
  calm_ite (modScope_calm hP (logPut_calm hP h _ _ _ _) _ _ _)
    (bump_calm hP (modScope_calm hP h _ _ _) _ _ _ _)

theorem goSevere_calm (x : FltAt) : P (goSevere x s) :=
  react_calm hP (bump_calm hP (logPut_calm hP (modScope_calm hP h _ _ _) _ _ _ _) _ _ _ _) _ _ _

theorem fault_calm (x : FltAt) (detail : Nat) (ws : List Nat) : P (fault x detail ws s) := by
  have hlog := logEvent_calm hP (bump_calm hP (modScope_calm hP (exitBack_calm hP h x.src x.oct) x.src x.oct
    fun f => { f with ticks := ((exitBack x.src x.oct s).now / cMs :: f.ticks).take 255
                      lastEv := some (exitBack x.src x.oct s).now })
    (rgFltCount (scopeIx x.src x.oct)) 16 16 1) x detail ws
  exact calm_ite (calm_ite (react_calm hP hlog _ _ _) (calm_ite (goSevere_calm hP hlog _) hlog)) h

theorem faultU_calm (src detail : Nat) : P (faultU src detail s) := fault_calm hP h _ _ _

/-! ### Records -/

theorem modCap_calm (k : Nat) (f : Cap → Cap) : P (modCap k f s) := hP.caps _ _ h

theorem lossCloseAt_calm (k : Nat) : P (lossCloseAt k s) := by
  unfold lossCloseAt
  dsimp only
  split
  · exact h
  · exact calm_ite (fault_calm hP (bumpMax_calm hP (modCap_calm hP h _ _) _ _ _ _) _ _ _) h

theorem capIn_calm (k : Nat) (q : QRec) (lo hi : Nat) : P (capIn k q lo hi s) := by
  have hput (f n x) : P (bumpMax (rgCapHw k) 16 n x (modCap k f (lossCloseAt k s))) :=
    bumpMax_calm hP (modCap_calm hP (lossCloseAt_calm hP h k) _ _) _ _ _ _
  exact calm_ite h (calm_ite (hput _ _ _) (bump_calm hP (hput _ _ _) _ _ _ _))

theorem formAt_calm (k : Nat) (q : QRec) (lo hi : Nat) : P (formAt k q lo hi s) :=
  calm_ite (capIn_calm hP h _ _ _ _) (schedule_calm hP h _)

theorem closeOcts_calm (at_ : Instant) (mask : Nat) : P (closeOcts at_ mask s) :=
  calm_foldl _ _ h fun _ _ hu => calm_foldl _ _ (modCap_calm hP hu _ _) fun _ _ hw => formAt_calm hP hw _ _ _ _

end Calm

/-! ### The end of a job (09 R225) -/

section CalmEnd

variable {P : State → Prop} {held : Nat → Prop} (hP : CalmEnd P held) {s : State} (h : P s)
include hP h

theorem dropActs_calm (jobNo mask : Nat) : P (dropActs jobNo mask s) := by
  have hpins := hP.pins _ (dropActs jobNo mask s).pins h
  exact (hP.acts _ (dropActs jobNo mask s).seqr.acts (hP.caps _ (dropActs jobNo mask s).caps hpins) :)

theorem resetRings_calm (mask : Nat) : P (resetRings mask s) :=
  calm_foldl _ _ h fun _ _ hu => bump_calm hP.toCalm (hP.srings _ _ hu) _ _ _ _

theorem endPins_calm (code mask : Nat) (act ran : Bool) : P (endPins code mask act ran s) :=
  calm_ite (calm_ite (mapPins_calm hP.toCalm h _ _) (calm_ite (mapPins_calm hP.toCalm h _ _) h)) h

theorem endFault_calm (i code cause : Nat) : P (endFault i code cause s) := by
  unfold endFault
  split
  · exact faultU_calm hP.toCalm h _ _
  · exact faultU_calm hP.toCalm h _ _
  · exact h

theorem endJob_calm (code cause : Nat) (line : Bool) {i : Nat} (hi : ¬ held i) : P (endJob code cause line i s) := by
  unfold endJob
  extract_lets x e1 p e2 ran s1 s2 s3 s4 s5 q s6
  split
  · exact h
  · exact h
  · have he1 : P e1 := hP.slot _ _ _ hi (hP.evPend _ _ h)
    have he2 : P e2 := calm_ite (hP.stopCause e1 _ he1) he1
    exact calm_ite (endPins_calm hP he2 _ _ _ _) h
  · have h1 : P s1 := calm_ite (closeOcts_calm hP.toCalm (dropActs_calm hP h _ _) _ _) h
    have h2 : P s2 := calm_ite h1 (resetRings_calm hP h1 _)
    have h4 : P s4 := hP.slot _ _ _ hi (endPins_calm hP h2 _ _ _ _)
    have h5 : P s5 := hP.evPend s4 _ h4
    have h6 : P s6 := calm_ite (hP.stopCause s5 _ h5) h5
    exact endFault_calm hP h6 _ _ _

theorem endJobs_calm (code cause : Nat) (line : Bool) {l : List Nat} (hl : ∀ i ∈ l, ¬ held i) : P (endJobs code cause line l s) :=
  List.foldlRecOn l _ h fun _ hu i hi => endJob_calm hP hu _ _ _ (hl i hi)

end CalmEnd

/-! ### The decisions of the queue (09 R217) -/

section CalmDue

variable {P : State → Prop} {held : Nat → Prop} (hP : CalmDue P held) {s : State} (h : P s)
include hP h

theorem not_held {i : Nat} (hi : (slotAt s i).st ≠ .running) : ¬ held i := fun hh => hi (hP.running s i h hh)

theorem markDue_calm (i : Nat) : P (markDue i s) := by
  unfold markDue
  dsimp only
  split
  next hq =>
    have hi : ¬ held i := not_held hP h (by simp [hq.1])
    split
    · exact h
    · exact calm_ite (hP.slot _ _ _ hi h) (hP.slot _ _ _ hi h)
  · exact h

theorem refuseBus_calm (addr : Nat) : P (refuseBus addr s) := by
  unfold refuseBus
  split
  · exact calm_ite (hP.bus _ _ h) h
  · exact h

theorem setStat_calm (e : Nat) (x : Nat × Nat) : P (setStat e x s) := hP.seg _ _ h

theorem takeBack_calm (x : SegUndo) : P (takeBack x s) := by
  unfold takeBack
  split
  · exact refuseBus_calm hP (bump_calm hP.toCalm (hP.seg _ _ h) _ _ _ _) _
  · exact refuseBus_calm hP (bump_calm hP.toCalm (setStat_calm hP (hP.seg _ _ h) _ _) _ _ _ _) _

theorem takeBackFor_calm (sets : Nat) (es : List Nat) : P (takeBackFor sets es s) :=
  calm_ite (calm_foldl _ _ (hP.seg _ _ h) fun _ _ hu => takeBack_calm hP hu _) h

theorem beginCheck_calm {i : Nat} (hi : ¬ held i) (st : Option Nat) (late : Bool) : P (beginCheck i st late s) :=
  hP.slot _ _ _ hi (hP.srings _ _ (takeBackFor_calm hP h _ _))

theorem atHead_calm {i : Nat} (hi : ¬ held i) (a : Admit) : P (atHead i a s) := hP.slot _ _ _ hi (hP.head _ _ _ h)

theorem decideOne_calm {i : Nat} (hi : ¬ held i) : P (decideOne i s).1 := by
  have hend (code : Nat) : P (endJob code 0 false i s) := endJob_calm hP.toCalmEnd h _ _ _ hi
  unfold decideOne
  dsimp only
  split
  · exact hend _
  · split
    · exact hend _
    · split
      · exact beginCheck_calm hP h hi _ _
      · exact atHead_calm hP h hi _
    · exact atHead_calm hP h hi _

omit h in
theorem decideDue_calm (l : List Nat) : ∀ {s : State}, P s → (∀ i ∈ l, ¬ held i) → P (decideDue l s) := by
  induction l with
  | nil => exact fun h _ => hP.head _ _ _ h
  | cons i l ih =>
    intro s h hl
    obtain ⟨hi, hrest⟩ := List.forall_mem_cons.mp hl
    have hone := decideOne_calm hP h hi
    exact calm_ite (ih hone hrest) hone

omit hP h in
theorem dueJobs_queued {s : State} {i : Nat} (hi : i ∈ dueJobs s) : (slotAt s i).st = .queued := by
  simp only [dueJobs, List.mem_mergeSort, List.mem_filter, slotsIn, beq_iff_eq] at hi
  exact hi.1.2

theorem jobDue_calm : P (jobDue s) := by
  have hmark : P ((List.range 16).foldl (fun s i => markDue i s) s) := calm_foldl _ _ h fun _ _ hu => markDue_calm hP hu _
  unfold jobDue
  refine calm_ite hmark (decideDue_calm hP _ hmark fun i hi => not_held hP hmark ?_)
  rw [dueJobs_queued hi]
  decide

end CalmDue

end Sys2Proof.Machine
end

section
/-!
SUPPORT. The floor event of the bank (03 R73): which stops it orders, which jobs it ends, and that no window outlives it; and what an end, and
a run of ends, leaves in a slot.
-/

set_option Elab.async false

namespace Sys2Proof.Machine

open Sys2Proof

/-! ### What an end leaves in its slot (09 R225) -/

/-- The job of slot `i` has left it for its end with a code. -/
def EndedWith (i code : Nat) (s : State) : Prop := (slotAt s i).st = .ending ∧ (slotAt s i).endCode = code

/-- A property of slot `i` that a further stop ordered for a running job keeps outlives the ends of other jobs. -/
theorem calmEnd_slot (i : Nat) {Q : Slot → Prop} (hQ : ∀ x y, x.st = .running → Q x → Q { x with stops := y :: x.stops }) :
    CalmEnd (fun s => Q (slotAt s i)) (· = i) where
  evPend _ _ h := h
  log _ _ _ h := h
  pend _ _ _ h := h
  pins _ _ h := h
  octs _ _ _ h := h
  acts _ _ h := h
  stop s j x hrun h := by
    rw [slotAt_modSlot]
    split
    next hj =>
      obtain ⟨rfl, -⟩ := hj
      exact hQ _ _ hrun h
    · exact h
  caps _ _ h := h
  evid _ _ h := h
  cal _ _ _ h := h
  flt _ _ _ h := h
  slot s j f hj h := by
    rw [slotAt_modSlot, if_neg fun hji => hj hji.1]
    exact h
  srings _ _ h := h
  stopCause _ _ h := h

theorem calmEnd_endedWith (i code : Nat) : CalmEnd (EndedWith i code) (· = i) :=
  calmEnd_slot i (Q := fun x => x.st = .ending ∧ x.endCode = code) fun _ _ _ h => h

theorem calmEnd_slotSt (i : Nat) (p : JobSt → Prop) : CalmEnd (fun s => p (slotAt s i).st) (· = i) :=
  calmEnd_slot i (Q := fun x => p x.st) fun _ _ _ h => h

/-- A job that is queued, or beyond the queue and not over, ends with the code given. -/
theorem endJob_ends {i : Nat} {s : State} (code cause : Nat) (line : Bool) (hi : i < 16) (hst : (slotAt s i).st ∉ [.free, .ending, .ended]) :
    EndedWith i code (endJob code cause line i s) := by
  simp only [List.mem_cons, List.not_mem_nil, or_false, not_or] at hst
  obtain ⟨hfree, hending, hended⟩ := hst
  unfold endJob
  extract_lets x e1 p e2 ran s1 s2 s3 s4 s5 q s6
  split
  next h => exact absurd h hfree
  next h => exact absurd h hended
  next h => exact absurd h hending
  · have h4 : EndedWith i code s4 := by
      simp only [EndedWith, s4, slotAt_modSlot, hi, and_self, if_true]
    have h6 : EndedWith i code s6 := calm_ite (P := EndedWith i code) h4 h4
    exact endFault_calm (calmEnd_endedWith i code) h6 _ _ _

/-- Of the slots listed, each that is queued, or beyond the queue and not over, ends with the code given, whatever the causes. -/
theorem foldl_endJob_ends {i code : Nat} {line : Bool} (cause : State → Nat → Nat) (hi : i < 16) (l : List Nat) :
    ∀ s : State, l.Nodup → i ∈ l → (slotAt s i).st ∉ [.free, .ending, .ended] →
      EndedWith i code (l.foldl (fun s i => endJob code (cause s i) line i s) s) := by
  induction l with
  | nil => exact fun _ _ hmem => absurd hmem List.not_mem_nil
  | cons j l ih =>
    intro s hnd hmem hst
    obtain ⟨hj, hnd⟩ := List.nodup_cons.mp hnd
    rw [List.foldl_cons]
    by_cases hij : i = j
    · subst hij
      refine List.foldlRecOn l _ (endJob_ends code _ line hi hst) fun u hu k hk => ?_
      exact endJob_calm (calmEnd_endedWith i code) hu _ _ _ fun hki => hj (hki ▸ hk)
    · refine ih _ hnd ((List.mem_cons.mp hmem).resolve_left hij) ?_
      exact endJob_calm (calmEnd_slotSt i (· ∉ [.free, .ending, .ended])) hst _ _ _ (Ne.symm hij)

theorem mem_slotsIn {s : State} {p : JobSt → Bool} {i : Nat} : i ∈ slotsIn s p ↔ i < 16 ∧ p (slotAt s i).st = true := by
  rw [slotsIn, List.mem_filter, List.mem_range]

theorem slotsIn_nodup (s : State) (p : JobSt → Bool) : (slotsIn s p).Nodup := List.nodup_range.filter _

/-! ### Stops for energy (03 R73) -/

/-- The job of slot `i` runs, and is to end with ENERGY_STOP at its next granule boundary. -/
def EnergyStopped (i : Nat) (s : State) : Prop :=
  (slotAt s i).st = .running ∧ ∃ x ∈ (slotAt s i).stops, x.gran = true ∧ x.code = 7

theorem calmEnd_energyStopped (i : Nat) : CalmEnd (EnergyStopped i) (· = i) :=
  calmEnd_slot i (Q := fun x => x.st = .running ∧ ∃ y ∈ x.stops, y.gran = true ∧ y.code = 7)
    fun _ _ _ ⟨hrun, x, hx, hcode⟩ => ⟨hrun, x, List.mem_cons_of_mem _ hx, hcode⟩

theorem orderStop_energyStopped {i : Nat} {s : State} (cause : Nat) (line : Bool) (hi : i < 16) (hrun : (slotAt s i).st = .running) :
    EnergyStopped i (orderStop true 7 cause line i s) := by
  rw [orderStop, if_pos hrun, EnergyStopped, slotAt_modSlot, if_pos ⟨rfl, hi⟩]
  exact ⟨hrun, _, List.mem_cons_self, rfl, rfl⟩

/-- Of the slots listed, each whose job runs is ordered to stop, whatever the causes. -/
theorem foldl_orderStop_energyStopped {i : Nat} {line : Bool} (cause : State → Nat → Nat) (hi : i < 16) (l : List Nat) :
    ∀ s : State, i ∈ l → (slotAt s i).st = .running →
      EnergyStopped i (l.foldl (fun s i => orderStop true 7 (cause s i) line i s) s) := by
  induction l with
  | nil => exact fun _ hmem => absurd hmem List.not_mem_nil
  | cons j l ih =>
    intro s hmem hrun
    rw [List.foldl_cons]
    by_cases hij : i = j
    · subst hij
      exact calm_foldl _ _ (orderStop_energyStopped _ line hi hrun) fun _ _ hu =>
        orderStop_calm (calmEnd_energyStopped i).toCalm hu _ _ _ _ _
    · exact ih _ ((List.mem_cons.mp hmem).resolve_left hij)
        (orderStop_calm (calmEnd_slotSt i (· = .running)).toCalm hrun _ _ _ _ _)

/-! ### Windows (13 R304) -/

theorem calm_noWindow (k : Nat) : Calm fun s => (octAt s k).win = none where
  evPend _ _ h := h
  log _ _ _ h := h
  pend _ _ _ h := h
  pins _ _ h := h
  octs _ _ hx h := hx k h
  acts _ _ h := h
  stop _ _ _ _ h := h
  caps _ _ h := h
  evid _ _ h := h
  cal _ _ _ h := h
  flt _ _ _ h := h

theorem abandonWindow_noWindow (k : Nat) (s : State) : (octAt (abandonWindow k s) k).win = none := by
  have hP := calm_noWindow k
  unfold abandonWindow
  split
  next h => exact h
  next w h =>
    have hk : k < 8 := by
      by_contra hge
      simp [octAt, vget_ge _ _ _ (Nat.not_lt.mp hge)] at h
    refine unitAdvance_calm hP (strobeAfter_calm hP (calRec_calm hP (bump_calm hP ?_ _ _ _ _) _ _ _ _ _) _) _
    refine hP.cal _ _ id ?_
    rw [octAt_modOct, if_pos ⟨rfl, hk⟩]

theorem abandonWindows_noWindow {k mask : Nat} (hk : k < 8) (hm : mask.testBit k = true) (s : State) :
    (octAt (abandonWindows mask s) k).win = none := by
  have hP := calm_noWindow k
  have hmem : k ∈ bitsOf 8 mask := List.mem_filter.mpr ⟨List.mem_range.mpr hk, hm⟩
  have hfold (l : List Nat) : ∀ s : State, k ∈ l → (octAt (l.foldl (fun s k => abandonWindow k s) s) k).win = none := by
    induction l with
    | nil => exact fun _ h => absurd h List.not_mem_nil
    | cons j l ih =>
      intro s hkl
      rw [List.foldl_cons]
      by_cases hkj : k = j
      · subst hkj
        exact calm_foldl (P := fun s => (octAt s k).win = none) _ _ (abandonWindow_noWindow k s) fun _ _ hu => abandonWindow_calm hP hu _
      · exact ih _ ((List.mem_cons.mp hkl).resolve_left hkj)
  exact hfold _ s hmem

/-! ### The floor event -/

theorem bankFloor_energyStopped {i : Nat} {s : State} (hi : i < 16) (hrun : (slotAt s i).st = .running) :
    EnergyStopped i (bankFloor s) := by
  have hP := calmEnd_energyStopped i
  have hordered := foldl_orderStop_energyStopped (line := false) floorCause hi (slotsIn s (· == .running)) s
    (mem_slotsIn.mpr ⟨hi, by simp [hrun]⟩) hrun
  refine abandonWindows_calm hP.toCalm (List.foldlRecOn _ _ hordered fun u hu j hj => endJob_calm hP hu _ _ _ ?_) _
  rintro rfl
  have hst := (mem_slotsIn.mp hj).2
  rw [hordered.1] at hst
  cases hst

theorem bankFloor_ends {i : Nat} {s : State} (hi : i < 16) (hst : (slotAt s i).st = .checking ∨ (slotAt s i).st = .armed) :
    EndedWith i 7 (bankFloor s) := by
  have hordered : (slotAt ((slotsIn s (· == .running)).foldl (fun s i => orderStop true 7 (floorCause s i) false i s) s) i).st ∈
      [JobSt.checking, .armed] :=
    calm_foldl (P := fun s => (slotAt s i).st ∈ [JobSt.checking, .armed]) _ _ (by simpa using hst) fun _ _ hu =>
      orderStop_calm (calmEnd_slotSt i (· ∈ [JobSt.checking, .armed])).toCalm hu _ _ _ _ _
  refine abandonWindows_calm (calmEnd_endedWith i 7).toCalm (foldl_endJob_ends floorCause hi _ _ (slotsIn_nodup _ _)
    (mem_slotsIn.mpr ⟨hi, ?_⟩) ?_) _
  · simpa using hordered
  · simp only [List.mem_cons, List.not_mem_nil, or_false] at hordered ⊢
    rcases hordered with h | h <;> simp [h]

/-- Settles O27: running jobs by `bankFloor_energyStopped`, those checked or armed by `bankFloor_ends`, windows by
`abandonWindows_noWindow`. -/
theorem floorStopsJobs : Obligations.FloorStopsJobs := by
  intro s
  have hall : ∀ k < 8, Nat.testBit 0xFF k = true := by decide
  exact ⟨fun i hi hrun => bankFloor_energyStopped hi hrun, fun i hi hst => bankFloor_ends hi hst,
    fun k hk => abandonWindows_noWindow hk (hall k hk) _⟩

end Sys2Proof.Machine
end

section
/-!
SUPPORT. The bank, the 1 ms power window and the charger (03 R57, R62, R67, R68, R72, R73): what a sample of the bank and the end of a window
leave, and the statement about them; before these, what a stop of the clocks and step 9 of a Dawn change.
-/

set_option Elab.async false

namespace Sys2Proof.Machine

open Sys2Proof

/-! ### The clocks stop (04 R86, 12 R285) -/

theorem mramSettle_eq (s : State) : ∃ q b, mramSettle s = { s with sl := q, boot := b } := by
  unfold mramSettle takeSnap
  split
  · split
    · exact ⟨_, _, rfl⟩
    · exact ⟨_, _, rfl⟩
  · exact ⟨_, _, rfl⟩

theorem startCkpt_eq (dusk : Bool) (s : State) : ∃ m q b, startCkpt dusk s = { s with mram := m, sl := q, boot := b } := by
  obtain ⟨q, b, hs⟩ := mramSettle_eq s
  unfold startCkpt
  dsimp only
  split
  · rw [hs]
    exact ⟨_, _, _, rfl⟩
  · rw [hs]
    exact ⟨_, _, _, rfl⟩

theorem sealsWritten_eq (n : Nat) : ∀ s : State,
    ∃ e m q b, sealsWritten n s = { s with evid := e, mram := m, sl := q, boot := b } := by
  induction n with
  | zero => exact fun s => ⟨s.evid, s.mram, s.sl, s.boot, rfl⟩
  | succ n ih =>
    intro s
    unfold sealsWritten
    split
    · exact ⟨s.evid, s.mram, s.sl, s.boot, rfl⟩
    · split
      · exact ⟨s.evid, s.mram, s.sl, s.boot, rfl⟩
      · extract_lets e0 q0 s1
        split
        · obtain ⟨m, q, b, hck⟩ := startCkpt_eq false s1
          obtain ⟨e, m', q', b', h⟩ := ih (startCkpt false s1)
          rw [h, hck]
          exact ⟨_, _, _, _, rfl⟩
        · obtain ⟨e, m, q, b, h⟩ := ih s1
          rw [h]
          exact ⟨_, _, _, _, rfl⟩

/-- A stop of the clocks leaves the core synthesiser off, and changes the clocks, the arbiter and, with seals it writes, evidence memory, the
sealing engine and the configuration memory. -/
theorem clockStop_eq (s : State) : ∃ e a m q b, clockStop s = { s with
    clk := { s.clk with core := .off, oct := Vector.replicate 8 .off }, evid := e, arb := a, mram := m, sl := q, boot := b } := by
  unfold clockStop arbClockStop
  split
  · obtain ⟨e, m, q, b, h⟩ := sealsWritten_eq s.sl.writing.length (modArb (fun a => { a with
      reqs := [], done := false, prev := .idle, owner := .idle, ownerBeats := 0, refDue := none, dbgReq := none })
      { s with evid := { s.evid with unwritten := [] } })
    rw [h]
    exact ⟨_, _, _, _, _, rfl⟩
  · exact ⟨s.evid, s.arb, s.mram, s.sl, s.boot, rfl⟩

theorem synthStart_eq (w : Option (Fin 8)) (s : State) : ∃ c, synthStart w s = { s with clk := c } := by
  unfold synthStart
  split
  · split
    · exact ⟨_, rfl⟩
    · exact ⟨_, rfl⟩
  · exact ⟨_, rfl⟩

theorem clockStart_eq (s : State) : ∃ c, clockStart s = { s with clk := c } := by
  unfold clockStart
  obtain ⟨c, h⟩ := synthStart_eq none (modClk (fun c => { c with
    clockStep := s.now, lastLock := 0, bandCalRan := false, relock := false, oct := Vector.replicate 8 .off }) s)
  rw [h]
  exact ⟨_, rfl⟩

/-- The clock step of a Dawn towards Day starts, or the clocks of another target stop. -/
theorem dawnClocks_eq (s : State) : ∃ c e a m q b,
    (if s.pwr.target = .day then
      if s.clk.core = .off ∧ 20000 ≤ bankMj s then clockStart s else s
    else if s.clk.core = .off then s else clockStop s) = { s with clk := c, evid := e, arb := a, mram := m, sl := q, boot := b } := by
  split
  · split
    · obtain ⟨c, hc⟩ := clockStart_eq s
      exact ⟨c, s.evid, s.arb, s.mram, s.sl, s.boot, hc⟩
    · exact ⟨s.clk, s.evid, s.arb, s.mram, s.sl, s.boot, rfl⟩
  · split
    · exact ⟨s.clk, s.evid, s.arb, s.mram, s.sl, s.boot, rfl⟩
    · obtain ⟨e, a, m, q, b, hc⟩ := clockStop_eq s
      exact ⟨_, e, a, m, q, b, hc⟩

/-- Step 9 of a Dawn moves the target and the request that waits, the SPI port, the clocks, and what a stop of the clocks moves. -/
theorem dawnStep9_eq (s : State) : ∃ t p i c e a m q b, dawnStep9 s = { s with
    pwr := { s.pwr with target := t, pend := p }, spi := i, clk := c, evid := e, arb := a, mram := m, sl := q, boot := b } := by
  unfold dawnStep9
  split
  · extract_lets fresh s0 x s1 y
    obtain ⟨t, p, h0⟩ : ∃ t p, s0 = { s with pwr := { s.pwr with target := t, pend := p } } := by
      simp only [s0]
      split
      · exact ⟨s.pwr.target, s.pwr.pend, rfl⟩
      · exact ⟨_, _, rfl⟩
    obtain ⟨i, h1⟩ : ∃ i, s1 = { s0 with spi := i } := by
      simp only [s1]
      split
      · exact ⟨s0.spi, rfl⟩
      · exact ⟨_, rfl⟩
    obtain ⟨c, e, a, m, q, b, h⟩ := dawnClocks_eq s1
    exact ⟨t, p, i, c, e, a, m, q, b, h.trans (by rw [h1, h0])⟩
  · exact ⟨s.pwr.target, s.pwr.pend, s.spi, s.clk, s.evid, s.arb, s.mram, s.sl, s.boot, rfl⟩

theorem dawnStep9_not_dawn {s : State} (h : s.pwr.st ≠ .dawn) : dawnStep9 s = s := if_neg fun hd => h hd.1

/-! ### Views as predicates -/

/-- A view of nothing that faults, ends and decisions write holds its value through them all. -/
theorem Unseen.calmDue {α : Type} {v : State → α} (hv : Unseen v) (a : α)
    (srings : ∀ s x, v { s with seqr := { s.seqr with srings := x } } = v s)
    (stopCause : ∀ s x, v { s with pwr := { s.pwr with stopCause := x } } = v s) (seg : ∀ s x, v { s with seg := x } = v s)
    (bus : ∀ s x, v { s with bus := x } = v s) (head : ∀ s x b, v { s with seqr := { s.seqr with head := x, admitWait := b } } = v s) :
    CalmDue (fun s => v s = a) fun _ => False where
  evPend _ _ h := (hv.evPend _ _).trans h
  log _ _ _ h := (hv.log _ _ _).trans h
  pend _ _ _ h := (hv.request _ _ _ _ _ _).trans h
  pins _ _ h := (hv.pins _ _).trans h
  octs _ _ _ h := (hv.octs _ _).trans h
  acts _ _ h := (hv.acts _ _).trans h
  stop _ _ _ _ h := (hv.slots _ _).trans h
  caps _ _ h := (hv.caps _ _).trans h
  evid _ _ h := (hv.evid _ _).trans h
  cal _ _ _ h := (hv.cal _ _).trans h
  flt _ _ _ h := (hv.flt _ _).trans h
  slot _ _ _ _ h := (hv.slots _ _).trans h
  srings _ _ h := (srings _ _).trans h
  stopCause _ _ h := (stopCause _ _).trans h
  running _ _ _ hf := hf.elim
  seg _ _ h := (seg _ _).trans h
  bus _ _ h := (bus _ _).trans h
  head _ _ _ h := (head _ _ _).trans h

/-! ### A sample of the bank (03 R68) -/

/-- What a sample leaves to be shown: the state, the bank's voltage, the bus load, and the window. -/
def bankView (s : State) : PwrSt × Nat × Nat × PwrWin := (s.pwr.st, s.pwr.bankUv, s.pwr.busNow, s.pwr.win)

theorem bankView_unseen : Unseen bankView := by
  constructor <;> intros <;> rfl

theorem bankView_calmDue (a : PwrSt × Nat × Nat × PwrWin) : CalmDue (fun s => bankView s = a) fun _ => False :=
  bankView_unseen.calmDue a (fun _ _ => rfl) (fun _ _ => rfl) (fun _ _ => rfl) (fun _ _ => rfl) fun _ _ _ => rfl

theorem bankFloor_bankView (s : State) : bankView (bankFloor s) = bankView s := by
  have hP := (bankView_calmDue (bankView s)).toCalmEnd
  have hordered := calm_foldl (P := fun u => bankView u = bankView s) (fun s i => orderStop true 7 (floorCause s i) false i s)
    (slotsIn s (· == .running)) rfl fun u i hu => orderStop_calm hP.toCalm hu _ _ _ _ _
  exact abandonWindows_calm hP.toCalm
    (calm_foldl (P := fun u => bankView u = bankView s) _ _ hordered fun _ _ hu => endJob_calm hP hu _ _ _ not_false) _

/-- The account of source 2 keeps every view that the bank's history and the conditions of sources are no part of. -/
theorem chargeJudge_calm {P : State → Prop} (hP : Calm P) (hist : ∀ s x, P s → P { s with pwr := { s.pwr with bankHist := x } })
    (cond : ∀ s x, P s → P { s with flt := x }) {s : State} (h : P s) : P (chargeJudge s) := by
  unfold chargeJudge
  split
  · exact cond _ _ (calm_ite (faultU_calm hP (hist _ _ h) _ _) (hist _ _ h))
  · exact cond _ _ (hist _ _ h)

theorem dawnStep9_bankView (s : State) : bankView (dawnStep9 s) = bankView s := by
  obtain ⟨t, p, i, c, e, a, m, q, b, h⟩ := dawnStep9_eq s
  rw [h]
  rfl

theorem dawnStep9_day {s : State} (h : s.pwr.st = .day) : dawnStep9 s = s := dawnStep9_not_dawn (by rw [h]; decide)

theorem energyStopped_calmDue (i : Nat) : CalmDue (EnergyStopped i) (· = i) where
  toCalmEnd := calmEnd_energyStopped i
  running _ _ h hj := hj ▸ h.1
  seg _ _ h := h
  bus _ _ h := h
  head _ _ _ h := h

/-- The state in which the account of a sample is kept: the voltage and the bus load noted, and the window one sample on. -/
def bankSampled (uv bus inp : Nat) (s : State) : State :=
  winSample bus inp (modPwr (fun p => { p with bankUv := uv, busNow := bus }) s)

theorem bankMj_congr {x y : State} (h : x.pwr.bankUv = y.pwr.bankUv) : bankMj x = bankMj y := by rw [bankMj, bankMj, h]

theorem bankMj_bankSampled (uv bus inp : Nat) (s : State) :
    bankMj (bankSampled uv bus inp s) = bankMj { s with pwr := { s.pwr with bankUv := uv } } := bankMj_congr rfl

/-- The state after the floor test. -/
def bankTested (uv bus inp : Nat) (s : State) : State :=
  if s.pwr.st = .day ∧ bankMj (bankSampled uv bus inp s) ≤ 20000 ∧ bankMj (bankSampled uv bus inp s) < bankMj s then
    bankFloor (bankSampled uv bus inp s)
  else bankSampled uv bus inp s

theorem bankUpdate_powered (uv bus inp : Nat) {s : State} (hon : fastOn s = true) :
    bankUpdate uv bus inp s = commitUpdate (jobDue (dawnStep9 (chargeJudge (bankTested uv bus inp s)))) := if_pos hon

theorem commitUpdate_bankView (s : State) : bankView (commitUpdate s) = bankView s := rfl

theorem commitUpdate_energyStopped {i : Nat} {s : State} (h : EnergyStopped i s) : EnergyStopped i (commitUpdate s) := h

theorem bankUpdate_bankView (uv bus inp : Nat) {s : State} (hon : fastOn s = true) :
    bankView (bankUpdate uv bus inp s) = bankView (bankSampled uv bus inp s) := by
  have hP := bankView_calmDue (bankView (bankSampled uv bus inp s))
  have htested : bankView (bankTested uv bus inp s) = bankView (bankSampled uv bus inp s) :=
    view_ite (bankFloor_bankView _) rfl
  have hjudged := chargeJudge_calm hP.toCalm (fun _ _ h => h) (fun _ _ h => h) htested
  rw [bankUpdate_powered uv bus inp hon, commitUpdate_bankView]
  exact jobDue_calm hP ((dawnStep9_bankView _).trans hjudged)

theorem commitNow_commitUpdate (s : State) : commitNow (commitUpdate s) = commitNow s := rfl

theorem bankUpdate_commitCj (uv bus inp : Nat) {s : State} (hon : fastOn s = true) :
    (bankUpdate uv bus inp s).pwr.commitCj = commitNow (bankUpdate uv bus inp s) := by
  rw [bankUpdate_powered uv bus inp hon, commitNow_commitUpdate]
  rfl

/-- A sample that takes the bank to the floor in Day stops every job that runs. -/
theorem bankUpdate_floor {uv bus inp i : Nat} {s : State} (hday : s.pwr.st = .day)
    (hlow : bankMj { s with pwr := { s.pwr with bankUv := uv } } ≤ 20000)
    (hfall : bankMj { s with pwr := { s.pwr with bankUv := uv } } < bankMj s)
    (hi : i < 16) (hrun : (slotAt s i).st = .running) : EnergyStopped i (bankUpdate uv bus inp s) := by
  have hon : fastOn s = true := by simp [fastOn, hday]
  have hP := energyStopped_calmDue i
  rw [← bankMj_bankSampled uv bus inp] at hlow hfall
  have htested : bankTested uv bus inp s = bankFloor (bankSampled uv bus inp s) := if_pos ⟨hday, hlow, hfall⟩
  have hst : (chargeJudge (bankTested uv bus inp s)).pwr.st = .day := by
    have hQ := (bankView_calmDue (bankView (bankSampled uv bus inp s))).toCalm
    have hview := chargeJudge_calm hQ (fun _ _ h => h) (fun _ _ h => h) (htested ▸ bankFloor_bankView _)
    exact (congrArg Prod.fst hview).trans hday
  rw [bankUpdate_powered uv bus inp hon, dawnStep9_day hst, htested]
  refine commitUpdate_energyStopped (jobDue_calm hP (chargeJudge_calm hP.toCalm (fun _ _ h => h) (fun _ _ h => h) ?_))
  exact bankFloor_energyStopped hi hrun

/-! ### The end of a window (03 R72) -/

/-- What the end of a window shows. -/
def windowView (s : State) : Nat × Nat × PwrWin := (s.pwr.busMw, s.pwr.inputMw, s.pwr.win)

theorem windowView_unseen : Unseen windowView := by
  constructor <;> intros <;> rfl

/-- The load of a window exceeds its declaration by more than 1 W and 3 % of the excess declared. -/
def WindowOver (w : PwrWin) : Prop := 100 * (w.decl + 1000 * w.samples) + 3 * w.excess < 100 * w.load

/-- The averages of the window shown, and the window emptied. -/
def windowShown (s : State) : State :=
  modPwr (fun p => { p with win := {}, busMw := s.pwr.win.load / s.pwr.win.samples, inputMw := s.pwr.win.input / s.pwr.win.samples }) s

/-- A job seen running in a window is over its declaration. -/
def overMark (w : PwrWin) (x : Slot) : Slot :=
  if x.st ≠ .free ∧ x.st ≠ .queued ∧ w.jobs.contains x.jobNo then { x with overDecl := true } else x

/-- Every job seen running in the window that ends is over its declaration. -/
def windowMarked (s : State) : State :=
  { windowShown s with seqr := { s.seqr with slots := vmap s.seqr.slots fun _ x => overMark s.pwr.win x } }

theorem slotAt_windowMarked {i : Nat} (s : State) (hi : i < 16) : slotAt (windowMarked s) i = overMark s.pwr.win (slotAt s i) :=
  vget_vmap s.seqr.slots (fun _ x => overMark s.pwr.win x) i {} hi

theorem windowEnd_within {s : State} (hon : fastOn s = true) (hfull : 100 ≤ s.pwr.win.samples) (h : ¬ WindowOver s.pwr.win) :
    windowEnd s = windowShown s := (if_pos ⟨hon, hfull⟩).trans (if_neg h)

theorem windowEnd_over {s : State} (hon : fastOn s = true) (hfull : 100 ≤ s.pwr.win.samples) (h : WindowOver s.pwr.win) :
    windowEnd s = faultU 0 ((s.pwr.win.load - s.pwr.win.decl) / s.pwr.win.samples / 100) (bump rgPwrStop 16 16 1 (windowMarked s)) :=
  (if_pos ⟨hon, hfull⟩).trans (if_pos h)

theorem windowEnd_not_due {s : State} (h : fastOn s = false ∨ s.pwr.win.samples < 100) : windowEnd s = s := by
  refine if_neg fun ⟨hon, hfull⟩ => ?_
  rcases h with h | h
  · cases h.symm.trans hon
  · exact absurd hfull (Nat.not_le.mpr h)

theorem windowEnd_shows {s : State} (hon : fastOn s = true) (hfull : 100 ≤ s.pwr.win.samples) :
    windowView (windowEnd s) = windowView (windowShown s) := by
  by_cases h : WindowOver s.pwr.win
  · have hpwr : (windowMarked s).pwr = (windowShown s).pwr := rfl
    have hmarked : windowView (windowMarked s) = windowView (windowShown s) := by rw [windowView, windowView, hpwr]
    rw [windowEnd_over hon hfull h, faultU]
    exact fault_unseen windowView_unseen (bump_unseen windowView_unseen hmarked _ _ _ _) _ _ _
  · rw [windowEnd_within hon hfull h]

theorem windowMarked_overDecl {i : Nat} {s : State} (hi : i < 16) (hst : (slotAt s i).st ∉ [.free, .queued])
    (hjob : (slotAt s i).jobNo ∈ s.pwr.win.jobs) : (slotAt (windowMarked s) i).overDecl = true := by
  simp only [List.mem_cons, List.not_mem_nil, or_false, not_or] at hst
  obtain ⟨hfree, hqueued⟩ := hst
  rw [slotAt_windowMarked s hi, overMark, if_pos ⟨hfree, hqueued, List.contains_iff_mem.mpr hjob⟩]

theorem windowEnd_overDecl {i : Nat} {s : State} (hon : fastOn s = true) (hfull : 100 ≤ s.pwr.win.samples) (h : WindowOver s.pwr.win)
    (hi : i < 16) (hst : (slotAt s i).st ∉ [.free, .queued]) (hjob : (slotAt s i).jobNo ∈ s.pwr.win.jobs) :
    (slotAt (windowEnd s) i).overDecl = true := by
  have hP := (calmEnd_slot i (Q := fun x => x.overDecl = true) fun _ _ _ h => h).toCalm
  rw [windowEnd_over hon hfull h]
  exact faultU_calm hP (bump_calm hP (windowMarked_overDecl hi hst hjob) _ _ _ _) _ _

/-! ### The charger and the converter (03 R62, R67) -/

theorem chargerLimit_class3 {s : State} (h : s.pwr.classEvents < 2) : chargerLimit s = 0 := by
  have ht : tier s = 0 := by
    unfold tier
    split_ifs <;> omega
  simp [chargerLimit, ht]

theorem chargeRoom_eq_zero {s : State} (h : s.pwr.classEvents < 2 ∨ 10000000 ≤ s.pwr.bankUv ∨ s.pwr.st = .absent ∨
    s.pwr.linePresent = false ∨ (s.pwr.st = .night ∧ 8000 ≤ bankEnergy s)) : chargeRoom s = 0 := by
  unfold chargeRoom
  rcases h with h | h | h | h | ⟨h, henergy⟩
  · rw [chargerLimit_class3 h]
    split
    · rfl
    · split
      · rfl
      · exact ite_self 0
      · exact Nat.zero_min _
  · rw [if_pos (.inr h)]
  · rw [h]
    exact ite_self 0
  · rw [if_pos (.inl (by simp [lineFeeds, h]))]
  · simp only [h, if_neg (Nat.not_lt.mpr henergy), ite_self]

theorem chargeRoom_le_margin {s : State} (hon : fastOn s = true) : chargeRoom s ≤ pbMw s - s.pwr.busNow := by
  unfold chargeRoom
  split
  · exact Nat.zero_le _
  · split
    · exact Nat.zero_le _
    next h => simp [fastOn, h] at hon
    · exact Nat.min_le_right _ _

theorem chargerMw_le_current (s : State) : 1000 * chargerMw s ≤ 3 * s.pwr.bankUv :=
  (Nat.mul_le_mul_left _ (Nat.min_le_left _ _)).trans (Nat.mul_div_le _ _)

theorem bankSupplies_powered {s : State} (hon : fastOn s = true) :
    bankSupplies s = if lineFeeds s then s.pwr.busNow - pbMw s else s.pwr.busNow := by
  unfold bankSupplies
  split
  next h => simp [fastOn, h] at hon
  next h => simp [fastOn, h] at hon
  · rfl

/-! ### The statement -/

theorem exec_bankUpdate (t : Instant) (uv bus inp : Nat) (s : State) :
    exec (.bankUpdate t uv bus inp) s = .next (bankUpdate uv bus inp (advance t s)) := rfl
theorem exec_powerWindowEnd (t : Instant) (s : State) : exec (.powerWindowEnd t) s = .next (windowEnd (advance t s)) := rfl

/-- Settles O26: a sample by `bankUpdate_bankView` and `bankUpdate_floor`, the end of a window by `windowEnd_shows` and
`windowEnd_overDecl`, the charger by `chargeRoom`'s cases. -/
theorem bankAndWindow : Obligations.BankAndWindow := by
  intro t uv bus inp s u win above
  refine ⟨fun hon => ⟨_, exec_bankUpdate .., ?sample⟩, fun hst => ⟨_, exec_bankUpdate .., ?night⟩,
    fun hst => ⟨_, exec_bankUpdate .., ?absent⟩, fun hon hfull => ⟨_, exec_powerWindowEnd .., ?window⟩,
    fun h => ⟨_, exec_powerWindowEnd .., windowEnd_not_due h⟩,
    fun h => ?none, chargerMw_le_current u, fun hon => (Nat.min_le_right _ _).trans (chargeRoom_le_margin hon), ?line, ?loss⟩
  case sample =>
    have hview := bankUpdate_bankView uv bus inp hon
    simp only [bankView, Prod.mk.injEq] at hview
    obtain ⟨-, hvolts, hload, hwin⟩ := hview
    exact ⟨hvolts, hload, bankUpdate_commitCj uv bus inp hon, congrArg PwrWin.samples hwin, congrArg PwrWin.load hwin,
      congrArg PwrWin.input hwin,
      fun hday hlow hfall i hi hrun => (bankUpdate_floor hday hlow hfall hi hrun).2⟩
  case night => simp [bankUpdate, fastOn, hst, modPwr, u]
  case absent => simp [bankUpdate, fastOn, hst, u]
  case window =>
    have hview := windowEnd_shows hon hfull
    simp only [windowView, Prod.mk.injEq] at hview
    obtain ⟨hbus, hinput, hwin⟩ := hview
    exact ⟨hbus, hinput, hwin, fun hover i hi hst hjob => windowEnd_overDecl hon hfull hover hi hst hjob,
      fun hover => windowEnd_within hon hfull hover⟩
  case none => rw [chargerMw, chargeRoom_eq_zero h, Nat.min_zero]
  case line =>
    intro hon hline hst
    rw [bankSupplies_powered hon, if_pos]
    simp [lineFeeds, hline, hst]
  case loss =>
    intro hst htarget
    rw [bankSupplies_powered (by simp [fastOn, hst]), if_neg]
    simp [lineFeeds, hst, htarget]

end Sys2Proof.Machine
end

section
/-!
SUPPORT. Wake lines, job wakes and host requests (03 R63 to R65, R432; 09 R220): what a request leaves where none waits, what a notice
writes, and what loss of VBUS leaves at J8.
-/

set_option Elab.async false

namespace Sys2Proof.Machine

open Sys2Proof

/-! ### Notices (17 R408) -/

theorem logWrite_eq (es : List LogEntry) (s : State) :
    ∃ l n e, logWrite es s = { s with evPend := e, nw := { s.nw with log := l ++ es, logNext := n } } := by
  unfold logWrite
  dsimp only
  split
  · exact ⟨_, _, s.evPend, rfl⟩
  · exact ⟨_, _, _, rfl⟩

/-- A notice without continuations moves the trouble log, whose last entry it is, and the events that wait. -/
theorem notice_eq (code value : Nat) (s : State) : ∃ l n e, notice code value [] s =
    { s with evPend := e, nw := { s.nw with log := l ++ [logHead 0xFF code value (tamNow s) s.tim.valid], logNext := n } } :=
  logWrite_eq _ s

/-! ### Requests where none waits (03 R64) -/

/-- The unit with a request waiting. -/
def withRequest (target : PwrSt) (source cause : Nat) (s : State) : State :=
  { s with pwr := { s.pwr with pend := some ⟨target, source, cause, s.now⟩ } }

theorem holdRequest_none {target : PwrSt} {source cause : Nat} {s : State} (h : s.pwr.pend = none) :
    holdRequest ⟨target, source, cause, s.now⟩ s = withRequest target source cause s := by
  simp [holdRequest, withRequest, h]

theorem nightOrEvening_of_ne {target : PwrSt} {s : State} (h : target ≠ .night) : nightOrEvening s target = target :=
  if_neg fun ⟨hnight, _⟩ => h hnight

/-- A request that leads to another state than Day waits in Day and in Evening, and in Night where it leads out of it. -/
theorem pwrRequest_waits {target0 target : PwrSt} {source cause : Nat} {s : State} (hgoal : nightOrEvening s target0 = target)
    (hday : target ≠ .day) (hst : s.pwr.st ∈ [.day, .evening] ∨ s.pwr.st = .night ∧ target ≠ .night) (h : s.pwr.pend = none) :
    pwrRequest target0 source cause s = withRequest target source cause s := by
  simp only [List.mem_cons, List.not_mem_nil, or_false] at hst
  rcases hst with (hst | hst) | ⟨hst, hnight⟩
  · simp only [pwrRequest, hgoal, hday, hst, false_and, if_false, holdRequest_none h]
  · simp only [pwrRequest, hgoal, hday, hst, false_and, if_false, holdRequest_none h]
  · simp only [pwrRequest, hgoal, hday, hnight, hst, false_and, if_false, holdRequest_none h]

theorem pwrRequest_evening {source cause : Nat} {s : State} (hst : s.pwr.st ∈ [.day, .evening] ∨ s.pwr.st = .night)
    (h : s.pwr.pend = none) : pwrRequest .evening source cause s = withRequest .evening source cause s :=
  pwrRequest_waits (nightOrEvening_of_ne nofun) nofun (hst.imp_right fun hnight => ⟨hnight, nofun⟩) h

/-- A request for Night is one for Evening where VBUS holds the unit out of Night (03 R65). -/
theorem pwrRequest_night {source cause : Nat} {s : State} (hst : s.pwr.st ∈ [.day, .evening]) (h : s.pwr.pend = none) :
    pwrRequest .night source cause s = withRequest (if s.encl.vbus && usbEn s then .evening else .night) source cause s := by
  refine pwrRequest_waits ?_ ?_ (.inl hst) h
  · simp [nightOrEvening]
  · split <;> nofun

/-- A request for Day also cancels the AFTER states that wait. -/
theorem pwrRequest_day {source cause : Nat} {s : State} (hst : s.pwr.st ∈ [.day, .evening]) (hcore : s.clk.coreFailed = false)
    (hbar : dayBlock s = false) (h : s.pwr.pend = none) :
    pwrRequest .day source cause s = withRequest .day source cause { s with rt := { s.rt with after := [] } } := by
  have hgoal := nightOrEvening_of_ne (target := .day) (s := s) nofun
  have hheld : holdRequest ⟨.day, source, cause, s.now⟩ { s with rt := { s.rt with after := [] } } =
      withRequest .day source cause { s with rt := { s.rt with after := [] } } := holdRequest_none h
  simp only [List.mem_cons, List.not_mem_nil, or_false] at hst
  rcases hst with hst | hst <;>
    simp only [pwrRequest, hgoal, hcore, hbar, hst, Bool.false_eq_true, and_false, if_false, if_true, hheld]

/-- A request for Day is discarded, with a notice, while CORE_FAILED is 1 (04 R89). -/
theorem pwrRequest_day_coreFailed {source cause : Nat} {s : State} (hcore : s.clk.coreFailed = true) :
    pwrRequest .day source cause s = notice 4 (16 + source) [] s := if_pos ⟨nightOrEvening_of_ne nofun, hcore⟩

/-! ### Host requests -/

theorem portWrite_pwrReq {p : Port} {n : Word} {s : State} (hup : portUp s p = true) :
    portWrite p 0x104 n (pwrReqWrite n) s = { (pwrReqWrite n (assureLapse s)).1 with bus := some (carried p 0x104 true n) } :=
  portWrite_up hup

theorem pwrReqWrite_day (s : State) : (pwrReqWrite 1 s).1 = pwrRequest .day 0 0 s := rfl
theorem pwrReqWrite_evening (s : State) : (pwrReqWrite 2 s).1 = pwrRequest .evening 0 0 s := rfl
theorem pwrReqWrite_night (s : State) : (pwrReqWrite 3 s).1 = pwrRequest .night 0 0 s := rfl

/-- What a request is judged by does not depend on the events that wait. -/
theorem requestTerms_assureLapse (s : State) : (assureLapse s).pwr = s.pwr ∧ (assureLapse s).clk = s.clk ∧ (assureLapse s).encl = s.encl ∧
    (assureLapse s).rt = s.rt ∧ (assureLapse s).now = s.now ∧ (assureLapse s).tim = s.tim ∧ tamNow (assureLapse s) = tamNow s ∧
    usbEn (assureLapse s) = usbEn s ∧ dayBlock (assureLapse s) = dayBlock s := by
  rw [assureLapse_eq]
  exact ⟨rfl, rfl, rfl, rfl, rfl, rfl, rfl, rfl, rfl⟩

/-! ### Job wakes (09 R220) -/

theorem wakeCondition_free {i : Nat} {s : State} (hst : s.pwr.st = .evening) (hq : (slotAt s i).st = .queued)
    (hkind : (slotAt s i).desc.kind ∈ [0, 3]) (hstart : (slotAt s i).start = none) : wakeCondition i s = pwrRequest .day 6 0 s := by
  have hall : ∀ d : JobDesc, d.kind ∈ [0, 3] → d.kind ≠ 2 ∧ timed d = false := by
    intro d hd
    simp only [List.mem_cons, List.not_mem_nil, or_false] at hd
    rcases hd with hd | hd <;> simp [timed, hd]
  obtain ⟨hne, huntimed⟩ := hall _ hkind
  simp [wakeCondition, hst, hq, hne, hstart, huntimed]

theorem wakeCondition_not_queued {i : Nat} {s : State} (h : (slotAt s i).st ≠ .queued) : wakeCondition i s = s :=
  if_neg fun ⟨_, hq, _⟩ => h hq

/-! ### VBUS (03 R63, 15 R365) -/

theorem usbConnect_eq (s : State) : ∃ b, usbConnect s = { s with usb := b } := by
  unfold usbConnect
  split
  · exact ⟨_, rfl⟩
  · exact ⟨s.usb, rfl⟩

/-- The unit with VBUS present, and J8 in a state of its own. -/
def withVbus (b : Usb) (s : State) : State := { s with encl := { s.encl with vbus := true }, usb := b }

theorem vbusRise_night {s : State} (hst : s.pwr.st = .night) (hlow : s.encl.vbus = false) (hen : usbEn s = true)
    (h : s.pwr.pend = none) : ∃ b, vbusRise s = withRequest .evening 5 0 (withVbus b s) := by
  obtain ⟨b, hb⟩ := usbConnect_eq (modEncl (fun e => { e with vbus := true }) s)
  refine ⟨b, ?_⟩
  have hrise : vbusRise s = pwrRequest .evening 5 0 (usbConnect (modEncl (fun e => { e with vbus := true }) s)) :=
    if_pos ⟨by simp [hlow], hen, .inl hst⟩
  rw [hrise, hb]
  exact pwrRequest_evening (.inr hst) h

section Release

variable {α : Type} {v : State → α} (hv : Unseen v) (hchain : ∀ s x, v { s with nw := { s.nw with chain := x } } = v s) {a : α} {s : State}
  (h : v s = a)
include hv h

theorem fullClear_unseen : v (fullClear s) = a := view_ite (setCond_unseen hv ((hv.evid _ _).trans h) _ _ _) h

theorem resume_unseen : v (resume s) = a := by
  have h1 := setCond_unseen hv ((hv.evid s { s.evid with suspended := false }).trans h) 25 0 false
  refine view_ite ?_ h
  refine (hv.slots _ _).trans ((hv.evid _ _).trans (view_foldl _ _ ?_ fun _ _ hu => pushUnit_unseen hv hu _ _))
  exact pushUnit_unseen hv (pushUnit_unseen hv h1 _ _) _ _

theorem assureLapse_unseen : v (assureLapse s) = a := by
  rw [assureLapse_eq]
  exact (hv.evPend _ _).trans h

include hchain

theorem applyRelease_unseen (upto : Nat) : v (applyRelease upto s) = a :=
  view_ite h (resume_unseen hv (fullClear_unseen hv ((hchain _ _).trans ((hv.evid _ _).trans (assureLapse_unseen hv h)))))

theorem exportEnd_unseen (port : Port) : v (exportEnd port s) = a :=
  view_foldl _ _ ((hv.evid _ _).trans ((hv.evid _ _).trans h)) fun _ _ hu => applyRelease_unseen hv hchain hu _

end Release

/-- VBUS, and the bulk stream of J8. -/
def j8View (s : State) : Bool × Option UsbBulk := (s.encl.vbus, s.usb.bulk)

theorem j8View_unseen : Unseen j8View := by
  constructor <;> intros <;> rfl

theorem usbCut_unseen {α : Type} {v : State → α} (hv : Unseen v) {a : α} {s : State} (h : v s = a) (why : Nat) (cut : Option UsbCut) :
    v (usbCut why cut s) = a := by
  unfold usbCut
  split
  · exact h
  · exact notice_unseen hv (bump_unseen hv h _ _ _ _) _ _ _

theorem usbEndBulk_j8View (s : State) : j8View (usbEndBulk s) = (s.encl.vbus, none) :=
  exportEnd_unseen j8View_unseen (fun _ _ => rfl) rfl _

theorem usbEndUpload_ends (s : State) : (usbEndUpload s).usb.upOn = false ∧ j8View (usbEndUpload s) = j8View s := by
  unfold usbEndUpload stageDiscard
  split
  · dsimp only
    split
    · exact ⟨rfl, rfl⟩
    · exact ⟨rfl, rfl⟩
  next h => exact ⟨Bool.not_eq_true _ ▸ h, rfl⟩

theorem usbDetach_leaves (why dev : Nat) (cut : Option UsbCut) (s : State) :
    (usbDetach why dev cut s).encl.vbus = s.encl.vbus ∧ (usbDetach why dev cut s).usb.dev = dev ∧ (usbDetach why dev cut s).usb.addr = 0 ∧
    (usbDetach why dev cut s).usb.bulk = none ∧ (usbDetach why dev cut s).usb.upOn = false := by
  obtain ⟨hup, hview⟩ := usbEndUpload_ends (usbEndBulk (usbCut why cut s))
  rw [usbEndBulk_j8View] at hview
  have hcut : (usbCut why cut s).encl.vbus = s.encl.vbus := congrArg Prod.fst (usbCut_unseen j8View_unseen (s := s) rfl why cut)
  exact ⟨(congrArg Prod.fst hview).trans hcut, rfl, rfl, congrArg Prod.snd hview, hup⟩

/-! ### The statement -/

theorem exec_hselWake (t : Instant) (s : State) : exec (.hselWake t) s =
    .next (if (advance t s).pwr.st = .night ∧ (advance t s).encl.hpres then pwrRequest .evening 4 0 (advance t s) else advance t s) := rfl
theorem exec_vbusRise (t : Instant) (s : State) : exec (.vbusRise t) s = .next (vbusRise (advance t s)) := rfl
theorem exec_vbusLoss (t : Instant) (c : Option UsbCut) (s : State) : exec (.vbusLoss t c) s = .next (vbusLoss c (advance t s)) := rfl
theorem exec_jobWakeCondition (t : Instant) (i : Fin 16) (s : State) :
    exec (.jobWakeCondition t i) s = .next (wakeCondition i.val (advance t s)) := rfl
theorem exec_pwrReqDay (t : Instant) (p : Port) (s : State) :
    exec (.pwrReqDay t p) s = .next (portWrite p 0x104 1 (pwrReqWrite 1) (advance t s)) := rfl
theorem exec_pwrReqEvening (t : Instant) (p : Port) (s : State) :
    exec (.pwrReqEvening t p) s = .next (portWrite p 0x104 2 (pwrReqWrite 2) (advance t s)) := rfl
theorem exec_pwrReqNight (t : Instant) (p : Port) (s : State) :
    exec (.pwrReqNight t p) s = .next (portWrite p 0x104 3 (pwrReqWrite 3) (advance t s)) := rfl

/-- Settles O23: each request by `pwrRequest_day`, `pwrRequest_evening` or `pwrRequest_night`, loss of VBUS by `usbDetach_leaves`. -/
theorem powerRequests : Obligations.PowerRequests := by
  intro t p i s u l free
  obtain ⟨hpwr, hclk, hencl, hrt, hnow, htim, htam, hen, hbar⟩ := requestTerms_assureLapse u
  refine ⟨fun hst hhigh hpend => ⟨_, exec_hselWake .., ?hsel⟩, fun h => ⟨_, exec_hselWake .., ?low⟩,
    fun hst hlow hen hpend => ⟨_, exec_vbusRise .., ?rise⟩, fun hdev => ⟨_, exec_vbusLoss .., if_pos hdev⟩,
    fun hdev c => ⟨_, exec_vbusLoss .., ?loss⟩, fun hst hfree hpend hq hkind hstart => ⟨_, exec_jobWakeCondition .., ?wake⟩,
    fun hq => ⟨_, exec_jobWakeCondition .., wakeCondition_not_queued hq⟩,
    fun hup hst hpend => ⟨fun hfree => ⟨_, exec_pwrReqDay .., ?day⟩, ⟨_, exec_pwrReqEvening .., ?evening⟩,
      ⟨_, exec_pwrReqNight .., ?night⟩⟩,
    fun hup hcore => ⟨_, exec_pwrReqDay .., ?refused⟩⟩
  case hsel => exact (if_pos ⟨hst, hhigh⟩).trans (pwrRequest_evening (.inr hst) hpend)
  case low =>
    refine if_neg fun ⟨hst, hhigh⟩ => ?_
    rcases h with h | h
    · exact h hst
    · cases h.symm.trans hhigh
  case rise =>
    obtain ⟨b, hb⟩ := vbusRise_night hst hlow hen hpend
    rw [hb]
    rfl
  case loss =>
    have hloss : vbusLoss c u = usbDetach 2 0 c { u with encl := { u.encl with vbus := false } } := if_neg hdev
    rw [hloss]
    exact usbDetach_leaves 2 0 c _
  case wake =>
    obtain ⟨hcore, hday⟩ := hfree
    rw [wakeCondition_free hst hq hkind hstart, pwrRequest_day (by simp [u, hst]) hcore hday hpend]
    rfl
  case day =>
    obtain ⟨hcore, hday⟩ := hfree
    rw [portWrite_pwrReq hup, pwrReqWrite_day,
      pwrRequest_day (hpwr ▸ hst) (hclk ▸ hcore) (hbar.trans hday) (hpwr ▸ hpend), withRequest, hpwr, hrt, hnow]
  case evening =>
    rw [portWrite_pwrReq hup, pwrReqWrite_evening, pwrRequest_evening (.inl (hpwr ▸ hst)) (hpwr ▸ hpend), withRequest, hpwr, hnow]
  case night =>
    rw [portWrite_pwrReq hup, pwrReqWrite_night, pwrRequest_night (hpwr ▸ hst) (hpwr ▸ hpend), withRequest, hpwr, hnow, hencl, hen]
    rfl
  case refused =>
    rw [portWrite_pwrReq hup, pwrReqWrite_day, pwrRequest_day_coreFailed (hclk ▸ hcore)]
    obtain ⟨log, n, e, hn⟩ := notice_eq 4 16 (assureLapse u)
    rw [hn]
    refine ⟨hpwr, rfl, ?_⟩
    rw [htam, htim]
    exact List.getLast?_concat

end Sys2Proof.Machine
end

section
/-!
SUPPORT. The backup cell and the Nightwatch alarm (02 R79, 03 R85, 17 R395): what CELL_LOW and CELL_ABSENT leave, and which set values of
the alarm stay.
-/

set_option Elab.async false

namespace Sys2Proof.Machine

open Sys2Proof

/-! ### Conditions of sources -/

/-- Whether the condition of a source holds, through what fault events may do. -/
theorem calm_cond (src oct : Nat) (c : Bool) : Calm fun s => (scopeAt s src oct).cond = c where
  evPend _ _ h := h
  log _ _ _ h := h
  pend _ _ _ h := h
  pins _ _ h := h
  octs _ _ _ h := h
  acts _ _ h := h
  stop _ _ _ _ h := h
  caps _ _ h := h
  evid _ _ h := h
  cal _ _ _ h := h
  flt _ _ hx h := (hx _).trans h

theorem scopeAt_modScope (src oct src' oct' : Nat) (f : FltScope → FltScope) (s : State) :
    scopeAt (modScope src oct f s) src' oct' =
      if scopeIx src oct = scopeIx src' oct' ∧ scopeIx src oct < 384 then f (scopeAt s src' oct') else scopeAt s src' oct' := by
  rw [scopeAt, modScope, vget_vmod]
  rfl

theorem setCond_cond {src oct : Nat} (h : scopeIx src oct < 384) (c : Bool) (s : State) : (scopeAt (setCond src oct c s) src oct).cond = c := by
  rw [setCond, scopeAt_modScope, if_pos ⟨rfl, h⟩]

theorem setCond_cond_of_ne {src oct src' oct' : Nat} (h : scopeIx src oct ≠ scopeIx src' oct') (c : Bool) (s : State) :
    scopeAt (setCond src oct c s) src' oct' = scopeAt s src' oct' := by
  rw [setCond, scopeAt_modScope, if_neg fun hix => h hix.1]

/-! ### The cell -/

/-- What is known of the cell. -/
def cellView (s : State) : Bool × Nat × Bool := (s.pwr.cellLow, s.pwr.cellMv, s.pwr.cellAbsent)

theorem cellView_unseen : Unseen cellView := by
  constructor <;> intros <;> rfl

theorem setCellLow_cellView (low : Bool) (s : State) : cellView (setCellLow low s) = (low, s.pwr.cellMv, s.pwr.cellAbsent) :=
  setCond_unseen cellView_unseen (view_ite (fault_unseen cellView_unseen rfl _ _ _) rfl) _ _ _

theorem setCellLow_cond (low : Bool) (s : State) : (scopeAt (setCellLow low s) 3 0).cond = low := setCond_cond (by decide) _ _

theorem setCellLow_cond_absent (low : Bool) (s : State) : (scopeAt (setCellLow low s) 4 0).cond = (scopeAt s 4 0).cond := by
  rw [setCellLow, setCond_cond_of_ne (by decide)]
  have hlow : (scopeAt { s with pwr := { s.pwr with cellLow := low } } 4 0).cond = (scopeAt s 4 0).cond := rfl
  exact calm_ite (P := fun u => (scopeAt u 4 0).cond = (scopeAt s 4 0).cond) (faultU_calm (calm_cond 4 0 _) hlow _ _) hlow

/-- A cell that is no longer low changes its flag and its condition alone. -/
theorem setCellLow_cleared (s : State) :
    setCellLow false s = { s with pwr := { s.pwr with cellLow := false }, flt := (setCellLow false s).flt } := rfl

theorem cellPresence_cellView (present : Bool) (mv : Nat) (s : State) :
    cellView (cellPresence present mv s) = (present && decide (mv ≤ 2500), mv, !present) := by
  rw [cellPresence, setCellLow_cellView, Prod.mk.injEq]
  refine ⟨rfl, ?_⟩
  have hview := setCond_unseen cellView_unseen (view_ite (c := (!present && !s.pwr.cellAbsent) = true)
    (fault_unseen cellView_unseen (s := { s with pwr := { s.pwr with cellAbsent := !present, cellMv := mv } }) rfl ⟨4, 0, none⟩ 0 [])
    rfl) 4 0 (!present)
  exact congrArg Prod.snd hview

theorem cellPresence_cond (present : Bool) (mv : Nat) (s : State) : (scopeAt (cellPresence present mv s) 4 0).cond = !present := by
  rw [cellPresence, setCellLow_cond_absent]
  exact setCond_cond (by decide) _ _

/-! ### The Nightwatch alarm -/

theorem nwTicks_eq (s : State) : nwTicks s = s.nw.codes / 7812500 :=
  Nat.mul_div_mul_left s.nw.codes 7812500 (by decide : 0 < 32768)

/-- Whether the counter has reached a set value. -/
def alarmReached (s : State) (a : Option Nat) : Bool := match a with | some v => decide (v ≤ nwTicks s) | none => false

/-- The set values of the alarm. -/
def alarmView (s : State) : Option Nat × Option Nat := (s.nw.alarm, s.nw.alarmRdv)

theorem alarmView_unseen : Unseen alarmView := by
  constructor <;> intros <;> rfl

theorem alarmFire_alarmView (s : State) : alarmView (alarmFire s) =
    (if alarmReached s s.nw.alarm then none else s.nw.alarm, if alarmReached s s.nw.alarmRdv then none else s.nw.alarmRdv) := by
  unfold alarmFire
  extract_lets hit acts nw0 s0 s1 nw1 s2 s3
  have h1 : alarmView s1 = (if alarmReached s s.nw.alarm then none else s.nw.alarm, s.nw.alarmRdv) := by
    simp only [s1]
    split
    next h =>
      rw [if_pos (c := alarmReached s s.nw.alarm = true) h]
      exact view_ite (pwrRequest_unseen alarmView_unseen rfl _ _ _) rfl
    next h =>
      rw [if_neg (c := alarmReached s s.nw.alarm = true) h]
      rfl
  have h3 : alarmView s3 = (if alarmReached s s.nw.alarm then none else s.nw.alarm, none) := by
    have h2 : alarmView s2 = (if alarmReached s s.nw.alarm then none else s.nw.alarm, none) :=
      Prod.ext (congrArg Prod.fst h1 :) rfl
    exact view_ite h2 h2
  split
  next h =>
    rw [if_pos (c := alarmReached s s.nw.alarmRdv = true) h]
    exact view_ite (pwrRequest_unseen alarmView_unseen h3 _ _ _) h3
  next h =>
    rw [if_neg (c := alarmReached s s.nw.alarmRdv = true) h]
    exact h1

theorem alarmFire_not_reached {s : State} (h : alarmReached s s.nw.alarm = false) (hrdv : alarmReached s s.nw.alarmRdv = false) :
    alarmFire s = s := by
  have hno : ¬ alarmReached s s.nw.alarm = true := Bool.not_eq_true _ ▸ h
  have hnordv : ¬ alarmReached s s.nw.alarmRdv = true := Bool.not_eq_true _ ▸ hrdv
  exact (if_neg hnordv).trans (if_neg hno)

/-! ### The statement -/

theorem exec_cellLowSet (t : Instant) (mv : Nat) (s : State) : exec (.cellLowSet t mv) s =
    .next (if mv ≤ 2500 ∧ !(advance t s).pwr.cellAbsent then
      setCellLow true { advance t s with pwr := { (advance t s).pwr with cellMv := mv } } else advance t s) := rfl
theorem exec_cellLowCleared (t : Instant) (mv : Nat) (s : State) : exec (.cellLowCleared t mv) s =
    .next (if 2500 < mv then setCellLow false { advance t s with pwr := { (advance t s).pwr with cellMv := mv } } else advance t s) := rfl
theorem exec_cellPresenceChange (t : Instant) (present : Bool) (mv : Nat) (s : State) :
    exec (.cellPresenceChange t present mv) s = .next (cellPresence present mv (advance t s)) := rfl
theorem exec_nightwatchAlarm (t : Instant) (s : State) : exec (.nightwatchAlarm t) s = .next (alarmFire (advance t s)) := rfl

/-- Settles O22: CELL_LOW by `setCellLow_cellView` and `setCellLow_cond`, the cell's absence by `cellPresence_cellView`, the alarm by
`alarmFire_alarmView`. -/
theorem cellAndAlarm : Obligations.CellAndAlarm := by
  intro t mv present s u
  refine ⟨fun hmv hcell => ⟨_, exec_cellLowSet .., ?low⟩, fun h => ⟨_, exec_cellLowSet .., ?notLow⟩,
    fun hmv => ⟨_, exec_cellLowCleared .., ?cleared⟩, fun hmv => ⟨_, exec_cellLowCleared .., if_neg (Nat.not_lt.mpr hmv)⟩,
    ⟨_, exec_cellPresenceChange .., ?presence⟩, ⟨_, exec_nightwatchAlarm .., ?alarm⟩⟩
  case low =>
    rw [if_pos ⟨hmv, by rw [hcell]; rfl⟩]
    have hview := setCellLow_cellView true { u with pwr := { u.pwr with cellMv := mv } }
    simp only [cellView, Prod.mk.injEq] at hview
    obtain ⟨hlow, hmv, -⟩ := hview
    exact ⟨hlow, hmv, setCellLow_cond _ _⟩
  case notLow =>
    refine if_neg fun ⟨hmv, hcell⟩ => ?_
    rcases h with h | h
    · exact absurd hmv (Nat.not_le.mpr h)
    · rw [h] at hcell
      cases hcell
  case cleared =>
    rw [if_pos hmv]
    exact ⟨setCellLow_cleared _, setCellLow_cond _ _⟩
  case presence =>
    have hview := cellPresence_cellView present mv u
    simp only [cellView, Prod.mk.injEq] at hview
    obtain ⟨hlow, hmv, habsent⟩ := hview
    exact ⟨habsent, hmv, hlow, cellPresence_cond _ _ _⟩
  case alarm =>
    obtain ⟨halarm, hrdv⟩ := Prod.mk.inj (alarmFire_alarmView u)
    have hreached {v : Nat} (h : v ≤ u.nw.codes / 7812500) : alarmReached u (some v) = true :=
      decide_eq_true (nwTicks_eq u ▸ h)
    have hnot {v : Nat} (h : u.nw.codes / 7812500 < v) : alarmReached u (some v) = false :=
      decide_eq_false (Nat.not_le.mpr (nwTicks_eq u ▸ h))
    refine ⟨fun v hv h => ?_, fun v hv h => ?_, fun v hv h => ?_, fun h => alarmFire_not_reached ?_ ?_⟩
    · rw [halarm, hv, hreached h, if_pos rfl]
    · rw [halarm, hv, hnot h, if_neg nofun]
    · rw [hrdv, hv, hreached h, if_pos rfl]
    · cases hv : u.nw.alarm with
      | none => rfl
      | some v => exact hnot (h v (.inl hv))
    · cases hv : u.nw.alarmRdv with
      | none => rfl
      | some v => exact hnot (h v (.inr hv))

end Sys2Proof.Machine
end

section
/-!
SUPPORT. The steps of a Dusk (03 R66, R74, R432): what its beginning leaves, which stops DUSK_WAIT's end orders, what the end of the jobs
does to pins and queue, the seal, and the entry into Evening.
-/

set_option Elab.async false

namespace Sys2Proof.Machine

open Sys2Proof

/-! ### Operations that move few blocks -/

theorem returnXpt_eq (mask : Nat) (s : State) : ∃ o e, returnXpt mask s = { s with octs := o, evPend := e } := by
  unfold returnXpt
  refine List.foldlRecOn (motive := fun u : State => ∃ o e, u = { s with octs := o, evPend := e }) _ _ ?_ ?_
  · exact ⟨_, s.evPend, rfl⟩
  · rintro - ⟨o, e, rfl⟩ - -
    exact ⟨_, _, rfl⟩

theorem resetRings_eq (mask : Nat) (s : State) :
    ∃ r e, resetRings mask s = { s with seqr := { s.seqr with srings := r }, evPend := e } := by
  unfold resetRings
  refine List.foldlRecOn (motive := fun u : State => ∃ r e, u = { s with seqr := { s.seqr with srings := r }, evPend := e }) _ _ ?_ ?_
  · exact ⟨s.seqr.srings, s.evPend, rfl⟩
  · rintro - ⟨r, e, rfl⟩ - -
    exact ⟨_, _, rfl⟩

theorem stageDiscard_eq (s : State) : ∃ u t b, stageDiscard s = { s with usb := u, tasp := t, boot := b } ∧ b.stage = [] := by
  unfold stageDiscard
  dsimp only
  split
  · exact ⟨_, _, _, rfl, rfl⟩
  · exact ⟨_, _, _, rfl, rfl⟩

theorem closeSessions_eq (target : PwrSt) (s : State) : ∃ t, closeSessions target s = { s with tasp := t } := by
  unfold closeSessions
  split
  · exact ⟨_, rfl⟩
  · exact ⟨s.tasp, rfl⟩

theorem armAlarm_eq (s : State) : ∃ n, armAlarm s = { s with nw := n } := by
  unfold armAlarm
  split
  · exact ⟨_, rfl⟩
  · exact ⟨_, rfl⟩

/-! ### The beginning of a Dusk (03 R66) -/

section Ring

variable {P : State → Prop} (hP : CalmEnd P fun _ => False) (hring : ∀ s x, P s → P { s with ring := x }) {s : State} (h : P s)
include hring h

theorem originate_calm (type : Nat) (outA outB : Bool) (body : List Byte) : P (originate type outA outB body s) :=
  calm_ite (hring _ _ (hring _ _ h)) (hring _ _ h)

include hP

theorem syncLost_calm : P (syncLost s) := by
  unfold syncLost
  extract_lets lost waits s1 s2
  refine calm_ite ?_ h
  have h1 : P s1 := by
    refine calm_foldl _ _ h fun u i hu => ?_
    dsimp only
    split
    · exact calm_ite (notice_calm hP.toCalm (hP.slot _ _ _ not_false hu) _ _ _) hu
    · exact hu
  have h2 : P s2 := hring _ _ h1
  exact calm_ite (faultU_calm hP.toCalm h2 _ _) h2

theorem resign_calm : P (resign s) := calm_ite (hring _ _ (syncLost_calm hP hring (originate_calm hring h _ _ _ _))) h

end Ring

/-- The whole-unit sequence and the rolling cycles as a Dusk ends them. -/
def calCut (s : State) : State :=
  { s with
    cal := { s.cal with unitStep := none, unitNext := none }
    octs := vmap s.octs fun _ o => if o.served.isNone then { o with roll := o.roll.cut } else o }

theorem calDusk_calm {P : State → Prop} (hP : Calm P) {s : State} (h : P (calCut s)) : P (calDusk s) := by
  unfold calDusk
  extract_lets c0 s1 s2 m s3
  have h2 : P s2 := abandonWindows_calm hP h 0xFF
  have h3 : P s3 := mapOcts_calm hP h2 _ fun _ _ ho => ho
  exact calm_ite h3 (notice_calm hP h3 _ _ _)

theorem duskStops_calm {P : State → Prop} (hP : Calm P) {s : State} (h : P s) : P (duskStops s) :=
  calm_foldl _ _ h fun _ _ hu => calm_ite hu (orderStop_calm hP hu _ _ _ _ _)

/-- Where a Dusk stands: STATE, target, cause, step, beginning and DUSK_WAIT. -/
def duskView (s : State) : PwrSt × PwrSt × Nat × Nat × Instant × Nat :=
  (s.pwr.st, s.pwr.target, s.pwr.duskCause, s.pwr.duskStep, s.pwr.duskStart, s.pwr.duskWaitMs)

/-- A Dusk stands there, and no whole-unit sequence runs. -/
def DuskStands (a : PwrSt × PwrSt × Nat × Nat × Instant × Nat) (s : State) : Prop := duskView s = a ∧ s.cal.unitNext = none

/-- Neither faults nor ends move a Dusk: a reaction's request is made in Day alone. -/
theorem duskStands_calmEnd {a : PwrSt × PwrSt × Nat × Nat × Instant × Nat} (ha : a.1 = .dusk) : CalmEnd (DuskStands a) fun _ => False where
  evPend _ _ h := h
  log _ _ _ h := h
  pend _ _ hst h := absurd (hst.symm.trans ((congrArg Prod.fst h.1).trans ha)) nofun
  pins _ _ h := h
  octs _ _ _ h := h
  acts _ _ h := h
  stop _ _ _ _ h := h
  caps _ _ h := h
  evid _ _ h := h
  cal _ _ hx h := ⟨h.1, hx h.2⟩
  flt _ _ _ h := h
  slot _ _ _ _ h := h
  srings _ _ h := h
  stopCause _ _ h := h

theorem notice_duskView (code value : Nat) (s : State) : duskView (notice code value [] s) = duskView s := by
  obtain ⟨l, n, e, h⟩ := notice_eq code value s
  rw [h]
  rfl

theorem duskNotice_duskView (s : State) : duskView (duskNotice s) = duskView s := notice_duskView _ _ _

theorem duskStands_calCut {a : PwrSt × PwrSt × Nat × Nat × Instant × Nat} {s : State} (h : duskView s = a) : DuskStands a (calCut s) :=
  ⟨h, rfl⟩

/-- A Dusk towards another state than line absent begins at step 2, and the staged image is dropped. -/
theorem duskBegin_stands {target : PwrSt} (ht : target ≠ .absent) (cause : Nat) (s : State) :
    DuskStands (.dusk, target, cause, 2, s.now, fld s.r.pwrCfg 0 16) (duskBegin target cause s) ∧
      (duskBegin target cause s).boot.stage = [] := by
  have hP := duskStands_calmEnd (a := (.dusk, target, cause, 2, s.now, fld s.r.pwrCfg 0 16)) rfl
  unfold duskBegin
  extract_lets s1 wait s2 s3 n x s4
  have hwait : wait = fld s.r.pwrCfg 0 16 := if_neg ht
  have h2 : duskView s2 = (.dusk, target, cause, 2, s.now, fld s.r.pwrCfg 0 16) := by
    rw [← hwait]
    rfl
  have h3 : DuskStands (.dusk, target, cause, 2, s.now, fld s.r.pwrCfg 0 16) s3 :=
    calDusk_calm hP.toCalm (duskStands_calCut ((duskNotice_duskView s2).trans h2))
  have hx : DuskStands (.dusk, target, cause, 2, s.now, fld s.r.pwrCfg 0 16) x := endJobs_calm hP h3 _ _ _ fun _ _ => not_false
  have h4 : DuskStands (.dusk, target, cause, 2, s.now, fld s.r.pwrCfg 0 16) s4 := by
    simp only [s4, if_neg ht]
    exact calm_ite (duskStops_calm hP.toCalm hx) hx
  obtain ⟨u, t, b, hstage, hb⟩ := stageDiscard_eq (resign s4)
  obtain ⟨t', hclose⟩ := closeSessions_eq target (stageDiscard (resign s4))
  have hresigned := resign_calm hP (fun _ _ h => h) h4
  rw [hclose, hstage]
  exact ⟨hresigned, hb⟩

theorem duskEntry_begins {q : PwrPend} {s : State} (hst : s.pwr.st = .day) (hq : s.pwr.pend = some q) (ht : q.target ∈ [.evening, .night])
    (hold : sameCycle q.at_ s.now = false) : duskEntry s = duskBegin q.target q.cause s := by
  have hgo : q.target = .night ∨ q.target = .evening := by simpa [or_comm] using ht
  simp [duskEntry, hq, hst, hgo, hold]

theorem duskEntry_waits {s : State} (h : s.pwr.pend = none ∨ ∃ r, s.pwr.pend = some r ∧ sameCycle r.at_ s.now = true) :
    duskEntry s = s := by
  rcases h with h | ⟨r, h, hfresh⟩
  · simp only [duskEntry, h]
  · simp only [duskEntry, h, hfresh, Bool.not_true, Bool.false_eq_true, and_false, if_false]

/-! ### The end of DUSK_WAIT -/

/-- A running job ordered to stop with DUSK_STOP at its next granule boundary, once. -/
def duskOrdered (now : Instant) (x : Slot) : Slot :=
  if x.st = .running ∧ x.stops.all (fun y => y.code != 4) = true then { x with stops := ⟨true, 4, 0, now, false⟩ :: x.stops } else x

/-- The step of `duskStops` for one slot. -/
theorem duskStop_slot {i : Nat} {s : State} (hi : i < 16) : ∃ v,
    (if (slotAt s i).stops.any fun x => x.code == 4 then s else orderStop true 4 0 false i s) = { s with seqr := { s.seqr with slots := v } } ∧
    ∀ j, vget v j {} = if j = i then duskOrdered s.now (slotAt s i) else slotAt s j := by
  have hall : (slotAt s i).stops.all (fun y => y.code != 4) = !(slotAt s i).stops.any fun x => x.code == 4 := by
    simp [List.all_eq_not_any_not, bne]
  by_cases hord : (slotAt s i).st = .running ∧ (slotAt s i).stops.all (fun y => y.code != 4) = true
  · obtain ⟨hrun, hnone⟩ := id hord
    rw [hall, Bool.not_eq_true'] at hnone
    refine ⟨_, (if_neg (by rw [hnone]; nofun)).trans (if_pos hrun), fun j => ?_⟩
    rw [duskOrdered, if_pos hord, vget_vmod]
    simp only [hi, and_true, eq_comm (a := i)]
    split
    next h =>
      subst h
      rfl
    · rfl
  · refine ⟨s.seqr.slots, ?_, fun j => ?_⟩
    · split
      · rfl
      next hany =>
        refine if_neg fun hrun => hord ⟨hrun, ?_⟩
        rw [hall, Bool.eq_false_iff.mpr hany]
        rfl
    · rw [duskOrdered, if_neg hord]
      split
      next h =>
        subst h
        rfl
      · rfl

theorem foldl_duskStop_slots (l : List Nat) : ∀ s : State, l.Nodup → (∀ i ∈ l, i < 16) → ∃ v,
    l.foldl (fun s i => if (slotAt s i).stops.any fun x => x.code == 4 then s else orderStop true 4 0 false i s) s =
      { s with seqr := { s.seqr with slots := v } } ∧
    ∀ j, vget v j {} = if j ∈ l then duskOrdered s.now (slotAt s j) else slotAt s j := by
  induction l with
  | nil => exact fun s _ _ => ⟨s.seqr.slots, rfl, fun _ => rfl⟩
  | cons i l ih =>
    intro s hnd hlt
    obtain ⟨hil, hnd⟩ := List.nodup_cons.mp hnd
    obtain ⟨v, hstep, hv⟩ := duskStop_slot (s := s) (hlt i List.mem_cons_self)
    rw [List.foldl_cons, hstep]
    obtain ⟨v', hfold, hv'⟩ := ih { s with seqr := { s.seqr with slots := v } } hnd fun j hj => hlt j (List.mem_cons_of_mem _ hj)
    refine ⟨v', hfold, fun j => ?_⟩
    have hslot : slotAt { s with seqr := { s.seqr with slots := v } } j = vget v j {} := rfl
    rw [hv', hslot, hv]
    by_cases hj : j = i
    · subst hj
      simp [hil]
    · simp [hj]

theorem duskStops_slots (s : State) : ∃ v, duskStops s = { s with seqr := { s.seqr with slots := v } } ∧
    ∀ i < 16, vget v i {} = duskOrdered s.now (slotAt s i) := by
  obtain ⟨v, hfold, hv⟩ := foldl_duskStop_slots (slotsIn s (· == .running)) s (slotsIn_nodup _ _) fun i hi => (mem_slotsIn.mp hi).1
  refine ⟨v, hfold, fun i hi => ?_⟩
  rw [hv]
  split
  · rfl
  next h =>
    have hrun : (slotAt s i).st ≠ .running := fun hrun => h (mem_slotsIn.mpr ⟨hi, by simp [hrun]⟩)
    exact (if_neg fun hord => hrun hord.1).symm

theorem duskWaited_due {s : State} (hst : s.pwr.st = .dusk) (hstep : s.pwr.duskStep = 2)
    (hdue : s.pwr.duskStart + cMs * s.pwr.duskWaitMs ≤ s.now) : duskWaited s = duskStops s := if_pos ⟨hst, hstep, hdue⟩

theorem duskWaited_not_due {s : State} (h : s.pwr.st ≠ .dusk ∨ s.pwr.duskStep ≠ 2 ∨ s.now < s.pwr.duskStart + cMs * s.pwr.duskWaitMs) :
    duskWaited s = s := by
  refine if_neg fun ⟨hst, hstep, hdue⟩ => ?_
  rcases h with h | h | h
  · exact h hst
  · exact h hstep
  · exact absurd hdue (Nat.not_le.mpr h)

/-! ### No job is left: steps 3 and 4 -/

theorem slotAt_modPwr (f : Pwr → Pwr) (s : State) (i : Nat) : slotAt (modPwr f s) i = slotAt s i := rfl
theorem pinAt_modPwr (f : Pwr → Pwr) (s : State) (n : Nat) : pinAt (modPwr f s) n = pinAt s n := rfl

/-- A queued job refused moves its slot, the stream rings it names and the events that wait. -/
theorem endJob_refused_eq {i : Nat} {s : State} (hq : (slotAt s i).st = .queued) :
    ∃ v r e, endJob 15 0 false i s = { s with seqr := { s.seqr with slots := v, srings := r }, evPend := e } := by
  obtain ⟨r, e, hr⟩ := resetRings_eq (jobRings s (slotAt s i).desc) s
  have hend : endJob 15 0 false i s = { modSlot i (fun x => { x with
      st := .ending, endCode := 15, cause := 0, endLine := false, endAt := s.now, endTam := tamNow s,
      endSt := 1, stops := [], play := { x.play with buf := [], cacheG := 0, cacheV := [], lastOf := false, eats := none } })
      (resetRings (jobRings s (slotAt s i).desc) s) with
        evPend := addEnd 15 0 (resetRings (jobRings s (slotAt s i).desc) s).evPend } := by
    simp [endJob, hq, endPins, endFault]
  rw [hend, hr]
  exact ⟨_, _, _, rfl⟩

theorem endJobs_refused_eq (l : List Nat) : ∀ s : State, l.Nodup → (∀ i ∈ l, (slotAt s i).st = .queued) →
    ∃ v r e, endJobs 15 0 false l s = { s with seqr := { s.seqr with slots := v, srings := r }, evPend := e } := by
  induction l with
  | nil => exact fun s _ _ => ⟨s.seqr.slots, s.seqr.srings, s.evPend, rfl⟩
  | cons i l ih =>
    intro s hnd hq
    obtain ⟨hil, hnd⟩ := List.nodup_cons.mp hnd
    obtain ⟨v, r, e, hstep⟩ := endJob_refused_eq (hq i List.mem_cons_self)
    obtain ⟨v', r', e', hfold⟩ := ih (endJob 15 0 false i s) hnd fun j hj =>
      endJob_calm (calmEnd_slotSt j (· = .queued)) (hq j (List.mem_cons_of_mem _ hj)) _ _ _ fun hij => hil (hij ▸ hj)
    exact ⟨v', r', e', hfold.trans (by rw [hstep])⟩

theorem nightRefuse_eq (s : State) :
    ∃ v r e, nightRefuse s = { s with seqr := { s.seqr with slots := v, srings := r }, evPend := e } :=
  endJobs_refused_eq _ s (slotsIn_nodup _ _) fun _ hi => by simpa using (mem_slotsIn.mp hi).2

/-- No job is left in the queue. -/
theorem nightRefuse_not_queued {i : Nat} (hi : i < 16) (s : State) : (slotAt (nightRefuse s) i).st ≠ .queued := by
  by_cases hq : (slotAt s i).st = .queued
  · have hends : EndedWith i 15 (nightRefuse s) := foldl_endJob_ends (fun _ _ => 0) hi _ s (slotsIn_nodup _ _)
      (mem_slotsIn.mpr ⟨hi, by simp [hq]⟩) (by simp [hq])
    rw [hends.1]
    nofun
  · refine List.foldlRecOn (motive := fun u => (slotAt u i).st ≠ .queued) _ _ hq fun u hu j hj => ?_
    refine endJob_calm (calmEnd_slotSt i (· ≠ .queued)) hu _ _ _ ?_
    rintro rfl
    exact hq (by simpa using (mem_slotsIn.mp hj).2)

theorem slotsIn_eq_nil {s : State} {p : JobSt → Bool} (h : ∀ i < 16, p (slotAt s i).st = false) : slotsIn s p = [] := by
  refine List.eq_nil_iff_forall_not_mem.mpr fun i hi => ?_
  obtain ⟨hlt, hp⟩ := mem_slotsIn.mp hi
  cases hp.symm.trans (h i hlt)

/-- Step 3: every pin safe, and returned to its own channel. -/
def duskSafe (s : State) : State := returnXpt 0xFF (if pinsOn s then safePins 0xFF s else s)

theorem duskSafe_eq (s : State) : ∃ n o e, duskSafe s = { s with pins := n, octs := o, evPend := e } := by
  obtain ⟨o, e, h⟩ := returnXpt_eq 0xFF (if pinsOn s then safePins 0xFF s else s)
  obtain ⟨n, hn⟩ : ∃ n, (if pinsOn s then safePins 0xFF s else s) = { s with pins := n } := by
    split
    · exact ⟨_, rfl⟩
    · exact ⟨s.pins, rfl⟩
  exact ⟨n, o, e, h.trans (by rw [hn])⟩

theorem pinAt_safePins {n : Nat} (mask : Nat) (s : State) (hn : n < 64) :
    pinAt (safePins mask s) n = if mask.testBit (n / 8) then (pinAt s n).toSafe s.now else pinAt s n :=
  vget_vmap s.pins (fun n p => if mask.testBit (n / 8) then p.toSafe s.now else p) n {} hn

theorem pinAt_duskSafe {n : Nat} {s : State} (hon : pinsOn s = true) (hn : n < 64) :
    (pinAt (duskSafe s) n).safe = true ∧ (pinAt (duskSafe s) n).drv = false := by
  have hall : ∀ n < 64, Nat.testBit 0xFF (n / 8) = true := by decide
  obtain ⟨o, e, h⟩ := returnXpt_eq 0xFF (safePins 0xFF s)
  have hpins : (duskSafe s).pins = (safePins 0xFF s).pins := by rw [duskSafe, if_pos hon, h]
  have hpin : pinAt (duskSafe s) n = (pinAt s n).toSafe s.now := by
    rw [pinAt, hpins, ← pinAt, pinAt_safePins _ _ hn, if_pos (hall n hn)]
  rw [hpin]
  exact ⟨rfl, rfl⟩

/-- Steps 3 and 4: the queue refused where the target is Night or line absent. -/
def duskRefused (s : State) : State := if duskDeep s then nightRefuse (duskSafe s) else duskSafe s

theorem duskRefused_eq (s : State) : ∃ v r o e, duskRefused s = { duskSafe s with
    seqr := { s.seqr with slots := v, srings := r }, octs := o, evPend := e } ∧ (duskRefused s).pwr = s.pwr := by
  unfold duskRefused
  obtain ⟨n, o, e, h⟩ := duskSafe_eq s
  split
  · obtain ⟨v, r, e', h'⟩ := nightRefuse_eq (duskSafe s)
    rw [h', h]
    exact ⟨_, _, _, _, rfl, rfl⟩
  · rw [h]
    exact ⟨s.seqr.slots, s.seqr.srings, _, _, rfl, rfl⟩

theorem duskJobs_done {s : State} (hst : s.pwr.st = .dusk) (hstep : s.pwr.duskStep = 2) (hnone : slotsIn s JobSt.active = []) :
    duskJobs s = modPwr (fun p => { p with duskStep := 4 }) (duskRefused s) := if_pos ⟨hst, hstep, hnone⟩

theorem duskJobs_not_done {s : State} (h : s.pwr.st ≠ .dusk ∨ s.pwr.duskStep ≠ 2 ∨ slotsIn s JobSt.active ≠ []) : duskJobs s = s := by
  refine if_neg fun ⟨hst, hstep, hnone⟩ => ?_
  rcases h with h | h | h
  · exact h hst
  · exact h hstep
  · exact h hnone

/-! ### The seal: step 5 -/

theorem sealDue_eq {trig : Nat} {k : Instant} {s : State} (h : s.evid.suspended = false) :
    ∃ q, sealDue trig k s = { s with sl := q } ∧ trig ∈ q.due.map (·.1) := by
  unfold sealDue
  split
  next hdue =>
    obtain ⟨d, hd, htrig⟩ := List.any_eq_true.mp (hdue.resolve_left (by rw [h]; nofun))
    exact ⟨s.sl, rfl, List.mem_map.mpr ⟨d, hd, by simpa using htrig⟩⟩
  · exact ⟨_, rfl, by simp⟩

theorem duskSeal_night {s : State} (hst : s.pwr.st = .dusk) (hstep : s.pwr.duskStep = 4) (hdrained : drained s = true)
    (htarget : s.pwr.target = .night) :
    duskSeal s = modPwr (fun p => { p with duskStep := 5, duskSealed := true }) (sealDue 4 s.now s) := by
  simp [duskSeal, hst, hstep, hdrained, duskDeep, htarget]

theorem duskSeal_not_drained {s : State} (h : s.pwr.st ≠ .dusk ∨ s.pwr.duskStep ≠ 4 ∨ drained s = false) : duskSeal s = s := by
  refine if_neg fun ⟨hst, hstep, hdrained⟩ => ?_
  rcases h with h | h | h
  · exact h hst
  · exact h hstep
  · cases h.symm.trans hdrained

/-! ### The seal written: steps 6 and 7 -/

theorem duskSealed_evening {s : State} (hst : s.pwr.st = .dusk) (hstep : s.pwr.duskStep = 5) (hdone : sealsDone s = true)
    (hck : s.sl.ckptWrite = none) (htarget : s.pwr.target = .evening) :
    duskSealed s = modPwr (fun p => { p with duskStep := 7 }) s := by
  simp [duskSealed, hst, hstep, hdone, hck, duskDeep, htarget]

theorem duskSealed_night {s : State} (hst : s.pwr.st = .dusk) (hstep : s.pwr.duskStep = 5) (hdone : sealsDone s = true)
    (hck : s.sl.ckptWrite = none) (htarget : s.pwr.target = .night) (hqueue : slotsIn s (· == .queued) = [])
    (hsealed : s.pwr.duskSealed = true) : duskSealed s = startCkpt true (modPwr (fun p => { p with duskStep := 6 }) s) := by
  simp [duskSealed, hst, hstep, hdone, hck, duskDeep, htarget, hqueue, hsealed]

theorem duskSealed_not_written {s : State} (h : s.pwr.st ≠ .dusk ∨ s.pwr.duskStep ≠ 5 ∨ sealsDone s = false) : duskSealed s = s := by
  refine if_neg fun ⟨hst, hstep, hdone, _⟩ => ?_
  rcases h with h | h | h
  · exact h hst
  · exact h hstep
  · cases h.symm.trans hdone

theorem startCkpt_pwr (dusk : Bool) (s : State) : (startCkpt dusk s).pwr = s.pwr := by
  obtain ⟨m, q, b, h⟩ := startCkpt_eq dusk s
  rw [h]

/-! ### Evening: step 7 -/

theorem pinAt_pinsOff {n : Nat} (hn : n < 64) (s : State) : (pinAt (pinsOff s) n).drv = false ∧ (pinAt (pinsOff s) n).safe = false := by
  have hpin : pinAt (pinsOff s) n = { pinAt s n with safe := false, drv := false, term := false, hold := none } :=
    vget_vmap s.pins (fun _ p => { p with safe := false, drv := false, term := false, hold := none }) n {} hn
  rw [hpin]
  exact ⟨rfl, rfl⟩

/-- The power block as Evening is entered. -/
def eveningPwr (p : Pwr) : Pwr :=
  { p with st := .evening, target := .evening, duskStep := 0, duskLatched := none, duskReq := none, duskPins := false }

/-- Evening as it is entered, before the request latched in the Dusk is made. -/
def eveningEntered (s : State) : State := armAlarm (modPwr eveningPwr (clockStop (pinsOff s)))

theorem enterEvening_none (s : State) : enterEvening none s = eveningEntered s := rfl
theorem enterEvening_some (k : Nat) (s : State) : enterEvening (some k) s = pwrRequest .day k 0 (eveningEntered s) := rfl

/-- The entry into Evening moves the power block, the pins, Nightwatch, and what a stop of the clocks moves. -/
theorem eveningEntered_eq (s : State) : ∃ n e a m q b, eveningEntered s = { s with
    pwr := eveningPwr s.pwr, pins := (pinsOff s).pins, nw := n, clk := { s.clk with core := .off, oct := Vector.replicate 8 .off }
    evid := e, arb := a, mram := m, sl := q, boot := b } := by
  obtain ⟨v, hv⟩ : ∃ v, pinsOff s = { s with pins := v } := ⟨_, rfl⟩
  rw [eveningEntered, hv]
  obtain ⟨e, a, m, q, b, hstop⟩ := clockStop_eq { s with pins := v }
  obtain ⟨n, halarm⟩ := armAlarm_eq (modPwr eveningPwr (clockStop { s with pins := v }))
  rw [halarm, hstop]
  exact ⟨n, e, a, m, q, b, rfl⟩

theorem dayBlock_congr {x y : State} (hr : x.r = y.r) (hflt : x.flt = y.flt) : dayBlock x = dayBlock y := by
  simp only [dayBlock, fltReact, scopeAt, hr, hflt]

theorem eveningEntered_leaves (s : State) : (eveningEntered s).pwr.st = .evening ∧ (eveningEntered s).clk.core = .off ∧
    (eveningEntered s).pins = (pinsOff s).pins ∧ (eveningEntered s).pwr.pend = s.pwr.pend ∧
    (eveningEntered s).clk.coreFailed = s.clk.coreFailed ∧ dayBlock (eveningEntered s) = dayBlock s ∧ (eveningEntered s).now = s.now := by
  obtain ⟨n, e, a, m, q, b, h⟩ := eveningEntered_eq s
  rw [h]
  exact ⟨rfl, rfl, rfl, rfl, rfl, dayBlock_congr rfl rfl, rfl⟩

theorem holdRequest_eq (p : PwrPend) (s : State) : ∃ r, holdRequest p s = { s with pwr := { s.pwr with pend := r } } := by
  unfold holdRequest
  extract_lets keep
  split
  · exact ⟨s.pwr.pend, rfl⟩
  · exact ⟨_, rfl⟩

/-- A request for Day made in Evening leaves STATE, the clocks and the pins. -/
theorem pwrRequest_day_leaves {k : Nat} {s : State} (hst : s.pwr.st = .evening) : (pwrRequest .day k 0 s).pwr.st = .evening ∧
    (pwrRequest .day k 0 s).clk = s.clk ∧ (pwrRequest .day k 0 s).pins = s.pins := by
  have hgoal := nightOrEvening_of_ne (target := .day) (s := s) nofun
  simp only [pwrRequest, hgoal, hst, if_true, true_and]
  split
  · obtain ⟨l, n, e, h⟩ := notice_eq 4 (16 + k) s
    rw [h]
    exact ⟨hst, rfl, rfl⟩
  · split
    · obtain ⟨l, n, e, h⟩ := notice_eq 4 (32 + k) s
      rw [h]
      exact ⟨hst, rfl, rfl⟩
    · obtain ⟨r, h⟩ := holdRequest_eq ⟨.day, k, 0, s.now⟩ { s with rt := { s.rt with after := [] } }
      rw [h]
      exact ⟨hst, rfl, rfl⟩

theorem enterEvening_leaves (latched : Option Nat) (s : State) : (enterEvening latched s).pwr.st = .evening ∧
    (enterEvening latched s).clk.core = .off ∧ (enterEvening latched s).pins = (pinsOff s).pins := by
  obtain ⟨hst, hcore, hpins, -⟩ := eveningEntered_leaves s
  cases latched with
  | none => exact ⟨hst, hcore, hpins⟩
  | some k =>
    obtain ⟨hst', hclk, hpins'⟩ := pwrRequest_day_leaves (k := k) hst
    rw [enterEvening_some, hclk, hpins']
    exact ⟨hst', hcore, hpins⟩

theorem duskDown_evening {s : State} (hst : s.pwr.st = .dusk) (hstep : s.pwr.duskStep = 7) (htarget : s.pwr.target = .evening) :
    duskDown s = enterEvening s.pwr.duskLatched s := by
  have hseven : stepSeven s = true := by simp [stepSeven, hstep]
  have hgoal := nightOrEvening_of_ne (target := .evening) (s := s) nofun
  simp only [duskDown, hst, hseven, htarget, hgoal, and_self, if_true]

theorem duskDown_not_seven {s : State} (h : s.pwr.st ≠ .dusk ∨ stepSeven s = false) : duskDown s = s := by
  refine if_neg fun ⟨hst, hseven⟩ => ?_
  rcases h with h | h
  · exact h hst
  · cases h.symm.trans hseven

/-! ### The statement -/

theorem exec_duskEntry (t : Instant) (s : State) : exec (.duskEntry t) s = .next (duskEntry (advance t s)) := rfl
theorem exec_duskWaitExpiry (t : Instant) (s : State) : exec (.duskWaitExpiry t) s = .next (duskWaited (advance t s)) := rfl
theorem exec_duskJobsEnded (t : Instant) (s : State) : exec (.duskJobsEnded t) s = .next (duskJobs (advance t s)) := rfl
theorem exec_duskFifosDrained (t : Instant) (s : State) : exec (.duskFifosDrained t) s = .next (duskSeal (advance t s)) := rfl
theorem exec_duskSealed (t : Instant) (s : State) : exec (.duskSealed t) s = .next (duskSealed (advance t s)) := rfl
theorem exec_duskPowerDown (t : Instant) (s : State) : exec (.duskPowerDown t) s = .next (duskDown (advance t s)) := rfl

/-- Settles O24: the beginning by `duskBegin_stands`, the stops by `duskStops_slots`, pins and queue by `duskRefused_eq`, the seal by
`sealDue_eq`, Evening by `eveningEntered_leaves`. -/
theorem duskSteps : Obligations.DuskSteps := by
  intro t q s u
  refine ⟨fun hst hq ht hold => ⟨_, exec_duskEntry .., ?entry⟩, fun h => ⟨_, exec_duskEntry .., duskEntry_waits h⟩,
    fun hst hstep hdue => ⟨_, exec_duskWaitExpiry .., ?wait⟩, fun h => ⟨_, exec_duskWaitExpiry .., duskWaited_not_due h⟩,
    fun hst hstep hnone => ⟨_, exec_duskJobsEnded .., ?jobs⟩, fun h => ⟨_, exec_duskJobsEnded .., duskJobs_not_done h⟩,
    fun hst hstep hdrained hsus htarget => ⟨_, exec_duskFifosDrained .., ?drained⟩,
    fun h => ⟨_, exec_duskFifosDrained .., duskSeal_not_drained h⟩,
    fun hst hstep hdone hck => ⟨fun htarget => ⟨_, exec_duskSealed .., duskSealed_evening hst hstep hdone hck htarget⟩,
      fun htarget hqueue hsealed => ⟨_, exec_duskSealed .., ?ckpt⟩⟩,
    fun h => ⟨_, exec_duskSealed .., duskSealed_not_written h⟩,
    fun hst hstep htarget => ⟨_, exec_duskPowerDown .., ?evening⟩, fun h => ⟨_, exec_duskPowerDown .., duskDown_not_seven h⟩⟩
  case entry =>
    have hne : q.target ≠ .absent := by
      intro h
      rw [h] at ht
      simp at ht
    rw [duskEntry_begins hst hq ht hold]
    obtain ⟨⟨hview, hcal⟩, hstage⟩ := duskBegin_stands hne q.cause u
    simp only [duskView, Prod.mk.injEq] at hview
    obtain ⟨h1, h2, h3, h4, h5, h6⟩ := hview
    exact ⟨h1, h2, h3, h4, h5, h6, hstage, hcal⟩
  case wait =>
    obtain ⟨v, hstops, hv⟩ := duskStops_slots u
    rw [duskWaited_due hst hstep hdue, hstops]
    exact ⟨rfl, hv⟩
  case jobs =>
    rw [duskJobs_done hst hstep hnone]
    obtain ⟨v, r, o, e, hrefused, hpwr⟩ := duskRefused_eq u
    refine ⟨(congrArg Pwr.st hpwr).trans hst, rfl, fun hon n hn => ?_, fun htarget => slotsIn_eq_nil fun i hi => ?_⟩
    · rw [pinAt_modPwr, hrefused]
      exact pinAt_duskSafe hon hn
    · have hdeep : duskRefused u = nightRefuse (duskSafe u) := if_pos (by simp [duskDeep, htarget])
      have hqueue := nightRefuse_not_queued hi (duskSafe u)
      rw [hdeep, slotAt_modPwr]
      exact beq_eq_false_iff_ne.mpr hqueue
  case drained =>
    obtain ⟨l, hseal, hmem⟩ := sealDue_eq (trig := 4) (k := u.now) hsus
    rw [duskSeal_night hst hstep hdrained htarget, hseal]
    exact ⟨rfl, hmem⟩
  case ckpt =>
    rw [duskSealed_night hst hstep hdone hck htarget hqueue hsealed]
    exact startCkpt_pwr _ _
  case evening =>
    rw [duskDown_evening hst hstep htarget]
    obtain ⟨hev, hcore, hpins⟩ := enterEvening_leaves u.pwr.duskLatched u
    obtain ⟨hst', -, -, hpend, hfailed, hbar, hnow⟩ := eveningEntered_leaves u
    refine ⟨hev, hcore, fun n hn => ?_, fun hl => ?_, fun k hl => ⟨fun hfail => ?_, fun hfail hday hnone => ?_⟩⟩
    · rw [pinAt, hpins]
      exact pinAt_pinsOff hn u
    · rw [hl, enterEvening_none, hpend]
    · rw [hl, enterEvening_some, pwrRequest_day_coreFailed (hfailed.trans hfail)]
      obtain ⟨l, n, e, h⟩ := notice_eq 4 (16 + k) (eveningEntered u)
      rw [h]
      exact hpend
    · rw [hl, enterEvening_some, pwrRequest_day (by simp [hst']) (hfailed.trans hfail) (hbar.trans hday) (hpend.trans hnone), withRequest,
        ← hnow]

end Sys2Proof.Machine
end

section
/-!
SUPPORT. What every command keeps: the operation behind each command is one of those of which Kept.lean's relation is proved.
-/

namespace Sys2Proof.Machine

open Sys2Proof

/-! ### What every command keeps -/

theorem Kept.ite {z a b : State} {c : Prop} [Decidable c] (ha : Kept z a) (hb : Kept z b) : Kept z (if c then a else b) := by
  split
  · exact ha
  · exact hb

theorem exec_twilightWindowEnd_kept (t : Instant) (k : Fin 8) (s : State) : Does (.twilightWindowEnd t k) s (Kept s) := by
  have ha : Kept s (advance t s) := advance_kept (.refl s) t
  refine ⟨_, rfl, ?_⟩
  split
  · exact .ite (windowDone_kept ha ..) ha
  · exact ha

/-- A session that is closed holds no note. -/
theorem sessEnd_kept {z s : State} (hk : Kept z s) (i : Nat) :
    Kept z (modTasp (fun p => { p with sess := vmod p.sess i fun _ => none }) s) :=
  modTasp_kept hk _ fun _ ⟨hqueue, hreqs, hnotes⟩ => ⟨hqueue, hreqs, fun j x hx => by
    rw [vget_vmod] at hx
    split at hx
    · exact absurd hx (by simp)
    · exact hnotes j x hx⟩

theorem exec_taspSessionIdleExpiry_kept (t : Instant) (i : Fin 4) (s : State) : Does (.taspSessionIdleExpiry t i) s (Kept s) := by
  have ha : Kept s (advance t s) := advance_kept (.refl s) t
  refine ⟨_, rfl, ?_⟩
  split
  · exact ha
  · exact .ite (sessEnd_kept ha _) ha

/-- Every command, at its instant, is one of the operations of the model, and each of these keeps what `Kept` says. -/
theorem exec_kept (c : Instr) (s : State) : Does c s (Kept s) := by
  have ha (t : Instant) : Kept s (advance t s) := advance_kept (.refl s) t
  cases c with
  | registerWrite t _ _ _ => exact ⟨_, rfl, portWrite_kept (ha t) _ _ _ _ fun _ hu => busWrite_kept hu ..⟩
  | rcRegisterRead t _ _ => exact ⟨_, rfl, portRead_kept (inputsNow_kept (ha t) _) ..⟩
  | latchedGroupLowRead t _ _ => exact ⟨_, rfl, portRead_kept (ha t) ..⟩
  | enclSenseUpdate t _ => exact ⟨_, rfl, enclUpdate_kept (ha t) ..⟩
  | hardwareThermalTrip t _ => exact ⟨_, rfl, thermalTrip_kept (ha t) ..⟩
  | thermalTripRelease t _ => exact ⟨_, rfl, .ite ((ha t).same id id id id id id id id) (ha t)⟩
  | tamongSecondBoundary t => exact ⟨_, rfl, secondBoundary_kept (ha t)⟩
  | ppsOutFall t => exact ⟨_, rfl, ppsOutFall_kept (ha t)⟩
  | hpresChange t _ => exact ⟨_, rfl, hpresChange_kept (ha t) ..⟩
  | linePowerApplied t _ => exact ⟨_, rfl, lineApplied_kept (ha t) ..⟩
  | lineLoss t _ => exact ⟨_, rfl, .ite (lineLost_kept (ha t)) (ha t)⟩
  | bankExhausted t => exact ⟨_, rfl, .ite (enterAbsent_kept (ckptCut_kept (ha t))) (ha t)⟩
  | nightwatchReset t _ => exact ⟨_, rfl, .ite ((nwReset_kept (ha t)).same id id id id id id id id) (nwReset_kept (ha t))⟩
  | cellLowSet t _ => exact ⟨_, rfl, .ite (setCellLow_kept ((ha t).same id id id id id id id id) _) (ha t)⟩
  | nightwatchAlarm t => exact ⟨_, rfl, alarmFire_kept (ha t)⟩
  | hselWake t => exact ⟨_, rfl, .ite (pwrRequest_kept (ha t) ..) (ha t)⟩
  | vbusRise t => exact ⟨_, rfl, vbusRise_kept (ha t)⟩
  | vbusLoss t _ => exact ⟨_, rfl, vbusLoss_kept (ha t) ..⟩
  | jobWakeCondition t _ => exact ⟨_, rfl, wakeCondition_kept (ha t) ..⟩
  | pwrReqDay t _ | pwrReqEvening t _ | pwrReqNight t _ => exact ⟨_, rfl, portWrite_kept (ha t) _ _ _ _ fun _ hu => pwrReqWrite_kept hu _⟩
  | fullDawnBegin t _ => exact ⟨_, rfl, fullDawn_kept (ha t) ..⟩
  | imageBankReadDone t _ _ => exact ⟨_, rfl, bankRead_kept (ha t) ..⟩
  | imgTimeoutExpiry t _ _ => exact ⟨_, rfl, imgTimeout_kept (ha t) ..⟩
  | dawnEnterTarget _ => exact ⟨_, rfl, dawnEnter_kept (ha _) _⟩
  | shortDawnBegin t => exact ⟨_, rfl, shortDawn_kept (ha t)⟩
  | bandCalDone t _ => exact ⟨_, rfl, bandDone_kept (ha t) ..⟩
  | synthLocked t _ => exact ⟨_, rfl, synthLock_kept (ha t) ..⟩
  | lockAttemptTimeout t _ => exact ⟨_, rfl, attemptFail_kept (ha t) ..⟩
  | synthLockLoss t _ => exact ⟨_, rfl, lockLost_kept (ha t) ..⟩
  | ovenWarm t => exact ⟨_, rfl, ovenWarmed_kept (ha t)⟩
  | ovenWarmTimeout t => exact ⟨_, rfl, ovenLate_kept (ha t)⟩
  | duskEntry t => exact ⟨_, rfl, duskEntry_kept (ha t)⟩
  | duskWaitExpiry t => exact ⟨_, rfl, duskWaited_kept (ha t)⟩
  | duskJobsEnded t => exact ⟨_, rfl, duskJobs_kept (ha t)⟩
  | duskFifosDrained t => exact ⟨_, rfl, duskSeal_kept (ha t)⟩
  | duskSealed t => exact ⟨_, rfl, duskSealed_kept (ha t)⟩
  | duskPowerDown t => exact ⟨_, rfl, duskDown_kept (ha t)⟩
  | bankUpdate t _ _ _ => exact ⟨_, rfl, bankUpdate_kept (ha t) ..⟩
  | powerWindowEnd t => exact ⟨_, rfl, windowEnd_kept (ha t)⟩
  | ppsEdge t => exact ⟨_, rfl, ppsEdge_kept (ha t)⟩
  | ppsMissing t => exact ⟨_, rfl, ppsMissing_kept (ha t)⟩
  | ref10LossTimeout t => exact ⟨_, rfl, ref10Lost_kept (ha t)⟩
  | holdoverExpiry t => exact ⟨_, rfl, holdExpired_kept (ha t)⟩
  | stepApply t => exact ⟨_, rfl, .ite (ha t) (applyStep_kept (ha t) _)⟩
  | timeSetLoWrite t _ _ => exact ⟨_, rfl, portWrite_kept (ha t) _ _ _ _ fun _ hu => timeSetWrite_kept hu ..⟩
  | ptpAnnounce t _ _ => exact ⟨_, rfl, ptpMsg_kept (ha t) _ _ _ _ _ fun _ hu => announceIn_kept hu ..⟩
  | ptpSync t _ _ _ _ => exact ⟨_, rfl, ptpMsg_kept (ha t) _ _ _ _ _ fun _ hu => syncIn_kept hu ..⟩
  | ptpFollowUp t _ _ _ => exact ⟨_, rfl, ptpMsg_kept (ha t) _ _ _ _ _ fun _ hu => followUpIn_kept hu ..⟩
  | ptpDelayReqSend t => exact ⟨_, rfl, delayReqOut_kept (ha t)⟩
  | ptpDelayResp t _ _ _ _ => exact ⟨_, rfl, ptpMsg_kept (ha t) _ _ _ _ _ fun _ hu => delayRespIn_kept hu ..⟩
  | ptpAnnounceTimeout t => exact ⟨_, rfl, announceTimeout_kept (ha t)⟩
  | ptpSyncTimeout t => exact ⟨_, rfl, syncTimeout_kept (ha t)⟩
  | ptpFollowUpTimeout t => exact ⟨_, rfl, followUpTimeout_kept (ha t)⟩
  | ptpDelayRespTimeout t => exact ⟨_, rfl, delayRespTimeout_kept (ha t)⟩
  | jobDue t => exact ⟨_, rfl, jobDue_kept (ha t)⟩
  | startCheckDone t _ => exact ⟨_, rfl, startCheckDone_kept (ha t) ..⟩
  | jobJudgement t _ => exact ⟨_, rfl, judge_kept (jobDue_kept (ha t)) ..⟩
  | jobStartInstant t _ => exact ⟨_, rfl, jobStart_kept (ha t) ..⟩
  | lateStartExpiry t _ => exact ⟨_, rfl, lateExpiry_kept (ha t) ..⟩
  | holdLimitExpiry t _ => exact ⟨_, rfl, holdExpiry_kept (ha t) ..⟩
  | admitTimeoutExpiry t _ => exact ⟨_, rfl, admitExpiry_kept (ha t) ..⟩
  | jobCancelWrite t _ _ => exact ⟨_, rfl, portWrite_kept (ha t) _ _ _ _ fun _ hu => cancelMask_kept hu _⟩
  | vectorCycle t _ _ => exact ⟨_, rfl, vectorCycle_kept (ha t) ..⟩
  | lossClose t _ => exact ⟨_, rfl, formEnds_kept (lossCloseAt_kept (ha t) _)⟩
  | jobEndChained t _ => exact ⟨_, rfl, jobEndChained_kept (ha t) ..⟩
  | chainStep t => exact ⟨_, rfl, chainStep_kept (ha t)⟩
  | evidReleaseWrite t _ _ => exact ⟨_, rfl, portWrite_kept (ha t) _ _ _ _ fun _ hu => evidReleaseWrite_kept hu ..⟩
  | arbRequestRaised t _ _ => exact ⟨_, rfl, arbRaise_kept (arbReady_kept (ha t)) ..⟩
  | memoryTransferComplete t => exact ⟨_, rfl, transferComplete_kept (arbReady_kept (ha t))⟩
  | arbWindowStart t => exact ⟨_, rfl, arbReady_kept (ha t)⟩
  | refreshDue t => exact ⟨_, rfl, refDue_kept (arbReady_kept (ha t))⟩
  | refreshInterrupt t => exact ⟨_, rfl, refInterrupt_kept (arbReady_kept (ha t))⟩
  | refreshDone t => exact ⟨_, rfl, refDone_kept (arbReady_kept (ha t))⟩
  | dbgRequest t _ => exact ⟨_, rfl, dbgRaise_kept (arbReady_kept (ha t)) ..⟩
  | arbPreempt t => exact ⟨_, rfl, arbPreempt_kept (arbReady_kept (ha t))⟩
  | grantWatchdogExpiry t => exact ⟨_, rfl, gwdFire_kept (arbReady_kept (ha t))⟩
  | sealIntervalExpiry t => exact ⟨_, rfl, sealInterval_kept (ha t)⟩
  | sealForm t => exact ⟨_, rfl, sealForm_kept (ha t)⟩
  | sealSigned t => exact ⟨_, rfl, sealSigned_kept (ha t)⟩
  | nonceRefill t => exact ⟨_, rfl, nonceRefill_kept (ha t)⟩
  | checkpointWriteDone t _ => exact ⟨_, rfl, ckptDone_kept (ha t) ..⟩
  | mramBusyTimeout t => exact ⟨_, rfl, mramBusy_kept (ha t)⟩
  | calStoreComplete t _ => exact ⟨_, rfl, storeDone_kept (ha t) ..⟩
  | imageCommitComplete t _ => exact ⟨_, rfl, commitDone_kept (ha t) ..⟩
  | routineOccurrence t _ => exact ⟨_, rfl, rtOccur_kept (ha t) ..⟩
  | routineJobSubmit t _ => exact ⟨_, rfl, rtSubmit_kept (ha t) ..⟩
  | routineAfterRequest t => exact ⟨_, rfl, rtAfter_kept (ha t)⟩
  | routineEnableWrite t _ _ => exact ⟨_, rfl, portWrite_kept (ha t) _ _ _ _ fun _ hu => bootRoutineWrite_kept hu _⟩
  | octLoadWrite t _ _ _ => exact ⟨_, rfl, portWrite_kept (ha t) _ _ _ _ fun _ hu => loadCtrlWrite_kept hu ..⟩
  | loadTimerExpiry t _ => exact ⟨_, rfl, .ite (strobeOrDefer_kept (ha t) ..) (ha t)⟩
  | waveTick t _ => exact ⟨_, rfl, waveTick_kept (ha t) ..⟩
  | driverOvercurrent t _ _ => exact ⟨_, rfl, overcurrent_kept (ha t) ..⟩
  | safeReleaseWrite t _ _ _ => exact ⟨_, rfl, portWrite_kept (ha t) _ _ _ _ fun _ hu => pinStatusWrite_kept hu ..⟩
  | urRelease t _ _ => exact ⟨_, rfl, portWrite_kept (ha t) _ _ _ _ fun _ hu => segCtrlWrite_kept hu ..⟩
  | timingSetWrite t _ _ _ => exact ⟨_, rfl, portWrite_kept (ha t) _ _ _ _ fun _ hu => tsetWrite_kept hu ..⟩
  | segmentEntryWrite t _ _ _ => exact ⟨_, rfl, portWrite_kept (ha t) _ _ _ _ fun _ hu => segWrite_kept hu ..⟩
  | waveTableWrite t _ _ _ => exact ⟨_, rfl, portWrite_kept (ha t) _ _ _ _ fun _ hu => waveTabWrite_kept hu ..⟩
  | tsetProbeWrite t _ _ => exact ⟨_, rfl, portWrite_kept (ha t) _ _ _ _ fun _ hu => probeWrite_kept hu ..⟩
  | tsetProbeDone t => exact ⟨_, rfl, probeDone_kept (ha t)⟩
  | segLoadWrite t _ _ => exact ⟨_, rfl, portWrite_kept (ha t) _ _ _ _ fun _ hu => segLoadWrite_kept hu ..⟩
  | segLoadDone t => exact ⟨_, rfl, segLoadDone_kept (ha t)⟩
  | sringResetWrite t _ _ => exact ⟨_, rfl, portWrite_kept (ha t) _ _ _ _ fun _ hu => sringResetWrite_kept hu ..⟩
  | calReqOct t _ _ | calReqUnit t _ _ | calReqStore t _ _ | calReqCancel t _ _ =>
    exact ⟨_, rfl, portWrite_kept (ha t) _ _ _ _ fun _ hu => calReqWrite_kept hu ..⟩
  | twilightWindowBegin t _ => exact ⟨_, rfl, windowBegin_kept (ha t) ..⟩
  | twilightStepDone t _ _ => exact ⟨_, rfl, windowStep_kept (ha t) ..⟩
  | twilightWindowEnd t _ => exact exec_twilightWindowEnd_kept ..
  | calUnitStepDone t _ => exact ⟨_, rfl, unitStepDone_kept (ha t) ..⟩
  | calRequestOverdue t _ => exact ⟨_, rfl, calOverdueAt_kept (ha t) ..⟩
  | rollPhaseDone t _ _ => exact ⟨_, rfl, rollPhase_kept (ha t) ..⟩
  | spareSwapIn t _ => exact ⟨_, rfl, swapIn_kept (ha t) ..⟩
  | spareHandBack t _ => exact ⟨_, rfl, handBack_kept (ha t) ..⟩
  | rollGapExpiry t _ => exact ⟨_, rfl, rollGap_kept (ha t) ..⟩
  | ringAlignmentFound t _ => exact ⟨_, rfl, ringCmd_kept (ha t) _ fun _ hu => alignIn_kept hu ..⟩
  | ringFrameDiscarded t _ _ _ => exact ⟨_, rfl, ringCmd_kept (ha t) _ fun _ hu => frameDiscard_kept hu ..⟩
  | ringIdleReceived t _ _ _ => exact ⟨_, rfl, ringCmd_kept (ha t) _ fun _ hu => idleIn_kept hu ..⟩
  | surveySend t => exact ⟨_, rfl, ringCmd_kept (ha t) _ fun _ hu => surveySend_kept hu⟩
  | surveyReceived t _ _ _ _ => exact ⟨_, rfl, frameIn_kept (ha t) _ _ _ _ (fun _ hu => surveyBack_kept hu ..) fun _ hu => forward_kept hu ..⟩
  | surveyTimeout t => exact ⟨_, rfl, ringCmd_kept (ha t) _ fun _ hu => surveyMissing_kept hu⟩
  | delayReqSend t => exact ⟨_, rfl, ringCmd_kept (ha t) _ fun _ hu => delaySend_kept hu⟩
  | delayReqReceived t _ _ => exact ⟨_, rfl, linkIn_kept (ha t) _ _ _ fun _ hu => delayIn_kept hu _⟩
  | delayRespReceived t _ => exact ⟨_, rfl, linkIn_kept (ha t) _ _ _ fun _ hu => delayDone_kept hu ..⟩
  | ringTick t => exact ⟨_, rfl, ringCmd_kept (ha t) _ fun _ hu => ringTick_kept hu⟩
  | claimReceived t _ _ _ _ => exact ⟨_, rfl, frameIn_kept (ha t) _ _ _ _ (fun _ hu => hu) fun _ hu => claimIn_kept hu ..⟩
  | claimTimeout t => exact ⟨_, rfl, ringCmd_kept (ha t) _ fun _ hu => claimDone_kept hu⟩
  | resignReceived t _ _ =>
    exact ⟨_, rfl, frameIn_kept (ha t) _ _ _ _ (fun _ hu => hu) fun _ hu => forward_kept (.ite (masterSet_kept hu _) hu) ..⟩
  | timeReceived t _ _ _ _ _ _ => exact ⟨_, rfl, frameIn_kept (ha t) _ _ _ _ (fun _ hu => hu) fun _ hu => timeIn_kept hu ..⟩
  | ringSyncTimeout t => exact ⟨_, rfl, ringCmd_kept (ha t) _ fun _ hu => .ite (masterSet_kept hu _) hu⟩
  | loopMeasureDone t _ => exact ⟨_, rfl, ringCmd_kept (ha t) _ fun _ hu => .ite (modRing_kept hu _ fun _ h => h) hu⟩
  | ringCmdWake t _ _ | ringCmdPropose t _ _ | ringCmdTrig t _ _ | ringCmdRun t _ _ =>
    exact ⟨_, rfl, portWrite_kept (ha t) _ _ _ _ fun _ hu => ringCmdWrite_kept hu ..⟩
  | trigReceived t _ _ _ _ | runReceived t _ _ _ _ _ => exact ⟨_, rfl, frameIn_kept (ha t) _ _ _ _ (fun _ hu => hu) fun _ hu => trigIn_kept hu ..⟩
  | proposeReceived t _ _ _ => exact ⟨_, rfl, frameIn_kept (ha t) _ _ _ _ (fun _ hu => proposeBack_kept hu _) fun _ hu => proposeIn_kept hu ..⟩
  | commitReceived t _ _ _ => exact ⟨_, rfl, frameIn_kept (ha t) _ _ _ _ (fun _ hu => commitBack_kept hu _) fun _ hu => commitIn_kept hu ..⟩
  | verdictReceived t _ _ _ _ => exact ⟨_, rfl, frameIn_kept (ha t) _ _ _ _ (fun _ hu => hu) fun _ hu => verdictIn_kept hu ..⟩
  | wakeReceived t _ _ _ _ _ => exact ⟨_, rfl, frameIn_kept (ha t) _ _ _ _ (fun _ hu => hu) fun _ hu => wakeIn_kept hu ..⟩
  | agreeReturnTimeout t => exact ⟨_, rfl, ringCmd_kept (ha t) _ fun _ hu => returnTimeout_kept hu⟩
  | verdictTimeout t => exact ⟨_, rfl, ringCmd_kept (ha t) _ fun _ hu => verdictTimeout_kept hu⟩
  | sleepInstant t => exact ⟨_, rfl, ringCmd_kept (ha t) _ fun _ hu => sleepInstant_kept hu⟩
  | rendezvousStart t => exact ⟨_, rfl, ringCmd_kept (ha t) _ fun _ hu => rendezvousStart_kept hu⟩
  | rendezvousGuardExpiry t => exact ⟨_, rfl, ringCmd_kept (ha t) _ fun _ hu => rendezvousLost_kept hu⟩
  | listenExpiry t => exact ⟨_, rfl, ringCmd_kept (ha t) _ fun _ hu => listenFail_kept hu⟩
  | wakeToneDetected t => exact ⟨_, rfl, .ite (modRing_kept (wakeAct_kept (ha t)) _ fun _ h => h) (ha t)⟩
  | spiCommandFrame t _ => exact ⟨_, rfl, .ite (spiCommand_kept (spiBegin_kept (ha t) ..) _) (ha t)⟩
  | spiFetchAnswerFrame t _ =>
    exact ⟨_, rfl, .ite (.ite (spiExpNext_kept (modSpi_kept (spiBegin_kept (ha t) ..) _ fun _ h => h)) (spiBegin_kept (ha t) ..)) (ha t)⟩
  | spiFetchNoteFrame t _ =>
    exact ⟨_, rfl, .ite (.ite (spiNoteMove_kept (modSpi_kept (spiBegin_kept (ha t) ..) _ fun _ h => h)) (spiBegin_kept (ha t) ..)) (ha t)⟩
  | spiAbortFrame t _ => exact ⟨_, rfl, .ite (.ite (spiBegin_kept (ha t) ..) (spiAbort_kept (spiBegin_kept (ha t) ..))) (ha t)⟩
  | spiBadFrame t _ =>
    exact ⟨_, rfl, .ite (spiBegin_kept (ha t) ..)
      (.ite (.ite (spiBegin_kept (ha t) ..) (spiViol_kept (spiDiscard_kept (spiBegin_kept (ha t) ..)) ..)) (ha t))⟩
  | spiFrameWhileStopped t => exact ⟨_, rfl, .ite (bump_kept (modSpi_kept (ha t) (fun p => { p with disc := true }) fun _ h => h) ..) (ha t)⟩
  | spiRegRead t => exact ⟨_, rfl, spiServe_kept (ha t) _ _ fun _ _ hu => svcRegRead_kept hu ..⟩
  | spiRegWrite t => exact ⟨_, rfl, spiServe_kept (ha t) _ _ fun _ _ hu => svcRegWrite_kept hu ..⟩
  | spiEcho t => exact ⟨_, rfl, spiServe_kept (ha t) _ _ fun _ _ hu => hu⟩
  | spiVstoreWrite t => exact ⟨_, rfl, spiServe_kept (ha t) _ _ fun _ _ hu => vstoreWrite_kept hu ..⟩
  | spiVstoreRead t => exact ⟨_, rfl, spiServe_kept (ha t) _ _ fun _ _ hu => hu⟩
  | spiStreamPiece t => exact ⟨_, rfl, spiServe_kept (ha t) _ _ fun _ _ hu => spiPiece_kept hu _⟩
  | spiJobSubmit t => exact ⟨_, rfl, spiServe_kept (ha t) _ _ fun _ _ hu => spiSubmit_kept hu _⟩
  | spiJobCancel t => exact ⟨_, rfl, spiServe_kept (ha t) _ _ fun _ _ hu => cancelMask_kept hu _⟩
  | spiJobStatus t => exact ⟨_, rfl, spiServe_kept (ha t) _ _ fun _ _ hu => hu⟩
  | spiExport t => exact ⟨_, rfl, spiServe_kept (ha t) _ _ fun _ _ hu => spiExport_kept hu ..⟩
  | spiExportTimeout t => exact ⟨_, rfl, .ite (spiAbort_kept (ha t)) (ha t)⟩
  | spiRelease t => exact ⟨_, rfl, spiServe_kept (ha t) _ _ fun _ _ hu => release_kept hu _⟩
  | spiCertRead t | spiLogRead t => exact ⟨_, rfl, spiServe_kept (ha t) _ _ fun _ _ hu => hu⟩
  | usbBusReset t _ _ => exact ⟨_, rfl, usbReset_kept (ha t) ..⟩
  | usbSuspend t => exact ⟨_, rfl, .ite (ha t) (modUsb_kept (ha t) _)⟩
  | usbGetStatus t _ => exact ⟨_, rfl, usbStd_kept (ha t) _ _ fun _ hu => stdGetStatus_kept hu _⟩
  | usbClearFeature t _ => exact ⟨_, rfl, usbStd_kept (ha t) _ _ fun _ hu => stdClearFeature_kept hu _⟩
  | usbSetFeature t _ => exact ⟨_, rfl, usbStd_kept (ha t) _ _ fun _ hu => stdSetFeature_kept hu _⟩
  | usbSetAddress t _ => exact ⟨_, rfl, usbStd_kept (ha t) _ _ fun _ hu => stdSetAddress_kept hu _⟩
  | usbGetDescriptor t _ => exact ⟨_, rfl, usbStd_kept (ha t) _ _ fun _ hu => stdGetDescriptor_kept hu _⟩
  | usbGetConfiguration t _ => exact ⟨_, rfl, usbStd_kept (ha t) _ _ fun _ hu => stdGetConfiguration_kept hu _⟩
  | usbSetConfiguration t _ => exact ⟨_, rfl, usbStd_kept (ha t) _ _ fun _ hu => stdSetConfiguration_kept hu _⟩
  | usbGetInterface t _ => exact ⟨_, rfl, usbStd_kept (ha t) _ _ fun _ hu => stdGetInterface_kept hu _⟩
  | usbSetInterface t _ => exact ⟨_, rfl, usbStd_kept (ha t) _ _ fun _ hu => stdSetInterface_kept hu _⟩
  | usbGetInfo t _ => exact ⟨_, rfl, usbVendor_kept (ha t) _ _ _ _ _ fun _ hu => usbInfo_kept hu⟩
  | usbRegRead t _ => exact ⟨_, rfl, usbVendor_kept (ha t) _ _ _ _ _ fun _ hu => usbReadRegs_kept hu _⟩
  | usbRegWrite t _ _ => exact ⟨_, rfl, usbVendor_kept (ha t) _ _ _ _ _ fun _ hu => usbOut_kept hu _ _ _ fun _ hv => usbWriteRegs_kept hv ..⟩
  | usbCertRead t _ | usbLastResult t _ => exact ⟨_, rfl, usbVendor_kept (ha t) _ _ _ _ _ fun _ hu => hu⟩
  | usbExportStart t _ _ => exact ⟨_, rfl, usbVendor_kept (ha t) _ _ _ _ _ fun _ hu => usbOut_kept hu _ _ _ fun _ hv => usbExport_kept hv ..⟩
  | usbLogStart t _ _ => exact ⟨_, rfl, usbVendor_kept (ha t) _ _ _ _ _ fun _ hu => usbOut_kept hu _ _ _ fun _ hv => usbLog_kept hv ..⟩
  | usbDebugStart t _ _ => exact ⟨_, rfl, usbVendor_kept (ha t) _ _ _ _ _ fun _ hu => usbOut_kept hu _ _ _ fun _ hv => usbDebug_kept hv ..⟩
  | usbBulkAbort t _ _ => exact ⟨_, rfl, usbVendor_kept (ha t) _ _ _ _ _ fun _ hu => usbOut_kept hu _ _ _ fun _ hv => bulkAbort_kept hv⟩
  | usbRelease t _ _ => exact ⟨_, rfl, usbVendor_kept (ha t) _ _ _ _ _ fun _ hu => usbOut_kept hu _ _ _ fun _ hv => release_kept hv _⟩
  | usbUploadBegin t _ _ => exact ⟨_, rfl, usbVendor_kept (ha t) _ _ _ _ _ fun _ hu => usbOut_kept hu _ _ _ fun _ hv => usbUpload_kept hv ..⟩
  | usbUploadCommit t _ _ => exact ⟨_, rfl, usbVendor_kept (ha t) _ _ _ _ _ fun _ hu => usbOut_kept hu _ _ _ fun _ hv => usbCommit_kept hv⟩
  | usbStageStatus t _ => exact ⟨_, rfl, usbVendor_kept (ha t) _ _ _ _ _ fun _ hu => hu⟩
  | usbBulkOutPacket t _ => exact ⟨_, rfl, bulkOut_kept (ha t) ..⟩
  | usbBulkInPacket t => exact ⟨_, rfl, bulkIn_kept (ha t)⟩
  | usbBulkTimeout t => exact ⟨_, rfl, uploadTimeout_kept (streamTimeout_kept (ha t))⟩
  | ethLinkUp t => exact ⟨_, rfl, ethCmd_kept (ha t) _ fun _ hu => linkUp_kept hu⟩
  | ethLinkDown t => exact ⟨_, rfl, ethCmd_kept (ha t) _ fun _ hu => linkDown_kept hu⟩
  | dhcpMessage t _ => exact ⟨_, rfl, ethCmd_kept (ha t) _ fun _ hu => dhcpIn_kept hu ..⟩
  | dhcpTimer t => exact ⟨_, rfl, ethCmd_kept (ha t) _ fun _ hu => dhcpTick_kept hu⟩
  | arpRequest t _ _ _ => exact ⟨_, rfl, ethCmd_kept (ha t) _ fun _ hu => arpIn_kept hu ..⟩
  | arpEntryAgeOut t _ => exact ⟨_, rfl, modEth_kept (ha t) _ fun _ h => (List.length_filter_le ..).trans h⟩
  | ipv6RouterAdvertisement t _ _ => exact ⟨_, rfl, ethCmd_kept (ha t) _ fun _ hu => routerAdv_kept hu ..⟩
  | ipv6DadDone t _ _ => exact ⟨_, rfl, ethCmd_kept (ha t) _ fun _ hu => dadDone_kept hu ..⟩
  | ipv6NeighbourMessage t _ _ _ _ => exact ⟨_, rfl, ethCmd_kept (ha t) _ fun _ hu => neighbour_kept hu ..⟩
  | icmpEcho t _ _ _ _ => exact ⟨_, rfl, ethCmd_kept (ha t) _ fun _ hu => echoIn_kept hu ..⟩
  | ethFrameDropped t _ => exact ⟨_, rfl, ethCmd_kept (ha t) _ fun _ hu => dropped_kept hu ..⟩
  | taspDatagramRejected t _ _ => exact ⟨_, rfl, ethCmd_kept (ha t) _ fun _ hu => taspReject_kept hu ..⟩
  | taspRegRead t _ | taspRegWrite t _ | taspEcho t _ | taspVstoreWrite t _ | taspVstoreRead t _ | taspStreamPiece t _ | taspJobSubmit t _
  | taspJobCancel t _ | taspJobStatus t _ | taspRingTrig t _ | taspExport t _ | taspRelease t _ | taspCertRead t _ | taspLogRead t _
  | taspOpen t _ | taspClose t _ | taspNoteSub t _ | taspNoteResend t _ | taspUploadBegin t _ | taspUploadData t _ | taspUploadCommit t _
  | taspStageStatus t _ => exact ⟨_, rfl, taspRow_kept (ha t) ..⟩
  | taspUploadTimeout t => exact ⟨_, rfl, .ite (stageDiscard_kept (ha t)) (ha t)⟩
  | taspSessionIdleExpiry t _ => exact exec_taspSessionIdleExpiry_kept ..
  | taspEventHandover t => exact ⟨_, rfl, .ite (taspHandover_kept (ha t)) (ha t)⟩
  | streamGapRetry t _ => exact ⟨_, rfl, ethCmd_kept (ha t) _ fun _ hu => gapRetry_kept hu ..⟩
  | faultQuietExpiry t _ _ => exact ⟨_, rfl, quietExit_kept (ha t) ..⟩
  | faultClearWrite t _ _ => exact ⟨_, rfl, portWrite_kept (ha t) _ _ _ _ fun _ hu => faultClear_kept hu ..⟩
  | faultCfgWrite t _ _ => exact ⟨_, rfl, portWrite_kept (ha t) _ _ _ _ fun _ hu => faultCfg_kept hu ..⟩
  | fwWatchdogService t => exact ⟨_, rfl, .ite ((ha t).same id id id id id id id id) (ha t)⟩
  | fwdCfgWrite t _ _ => exact ⟨_, rfl, portWrite_kept (ha t) _ _ _ _ fun _ hu => fwdCfg_kept hu ..⟩
  | fwWatchdogExpiry t _ => exact ⟨_, rfl, fwdFire_kept (ha t) ..⟩
  | fwRestartDone t => exact ⟨_, rfl, ethCmd_kept (ha t) _ fun _ hu => fwRestarted_kept hu⟩
  | logSuppressPeriodEnd t _ _ => exact ⟨_, rfl, suppressEnd_kept (ha t) ..⟩
  | cellPresenceChange t _ _ => exact ⟨_, rfl, cellPresence_kept (ha t) ..⟩
  | cellLowCleared t _ => exact ⟨_, rfl, .ite (setCellLow_kept ((ha t).same id id id id id id id id) _) (ha t)⟩
  | usbResume t => exact ⟨_, rfl, modUsb_kept (ha t) ..⟩
  | multicastListenerQuery t _ _ => exact ⟨_, rfl, ethCmd_kept (ha t) _ fun _ hu => groupQuery_kept hu ..⟩

/-! ### The capacities -/

/-- What `Kept` says of the buffers is what `Capacity` says of them. -/
theorem Kept.capacity {s w : State} (h : Kept s w) (hs : Capacity s) : Capacity w := by
  obtain ⟨hlog, hspi, hqueue, hreqs, hnotes, harp, htrigs, hpool, hmasters, hcaps, hhead⟩ := hs
  obtain ⟨hlog', hhead'⟩ := h.log ⟨hlog, hhead⟩
  obtain ⟨hqueue', hreqs', hnotes'⟩ := h.tasp ⟨hqueue, hreqs, hnotes⟩
  exact ⟨hlog', h.spi hspi, hqueue', hreqs', hnotes', h.arp harp, h.trigs htrigs, h.pool hpool, h.masters hmasters, h.caps hcaps, hhead'⟩

theorem step_capacity {s w : State} (hs : Capacity s) (h : step s = .next w) : Capacity w := by
  unfold step at h
  split at h
  case h_1 =>
    cases h
    exact hs
  case h_2 c rest _ =>
    obtain ⟨v, hv, hk⟩ := exec_kept c { s with pending := rest }
    cases hv.symm.trans h
    exact hk.capacity hs

/-- Settles O59: every command keeps what `Kept` names (`exec_kept`), and that is the capacities (`Kept.capacity`). -/
theorem capacitiesKept : Obligations.CapacitiesKept := fun _ _ hs h => step_capacity hs h

end Sys2Proof.Machine
end

section
/-!
SUPPORT. Pins in the safe state (06 R156): no fault event, record, window, or end of a job takes a pin out of it. One lemma `f_pinSafe` for each
operation `f`, from the shared ones up.
-/

namespace Sys2Proof.Machine

open Sys2Proof

/-! ### Pins in the safe state -/

/-- Pin `n` is in the safe state with its driver off (06 R156). -/
def PinSafe (n : Nat) (s : State) : Prop := (pinAt s n).safe = true ∧ (pinAt s n).drv = false

theorem safePins_pinSafe {n mask : Nat} (s : State) (hn : n < 64) (hm : mask.testBit (n / 8) = true) : PinSafe n (safePins mask s) := by
  rw [PinSafe, pinAt_safePins _ _ hn, if_pos hm]
  exact ⟨rfl, rfl⟩

section PinSafe

variable {n : Nat} {s : State} (h : PinSafe n s)
include h

/-- An update that writes no pin. -/
theorem PinSafe.upd {w : State} (hp : w.pins = s.pins := by rfl) : PinSafe n w := by
  rwa [PinSafe, pinAt, hp]

/-- A change of pins that takes no pin out of the safe state. -/
theorem vmapPins_pinSafe (f : Nat → PinCh → PinCh)
    (hf : ∀ k p, p.safe = true → p.drv = false → (f k p).safe = true ∧ (f k p).drv = false) : PinSafe n { s with pins := vmap s.pins f } := by
  by_cases hn : n < 64
  · rw [PinSafe, pinAt, vget_vmap _ _ _ _ hn]
    exact hf _ _ h.1 h.2
  · rw [PinSafe, pinAt, vget_ge _ _ _ (Nat.not_lt.mp hn)]
    rwa [PinSafe, pinAt, vget_ge _ _ _ (Nat.not_lt.mp hn)] at h

theorem safePins_stays (mask : Nat) : PinSafe n (safePins mask s) :=
  vmapPins_pinSafe h _ fun _ _ hsafe hdrv => by
    split
    · exact ⟨rfl, rfl⟩
    · exact ⟨hsafe, hdrv⟩

theorem dropActs_pinSafe (jobNo mask : Nat) : PinSafe n (dropActs jobNo mask s) := by
  refine vmapPins_pinSafe h (fun k p => if mask.testBit (k / 8) then { p with win := none } else p) fun _ _ hsafe hdrv => ?_
  split
  · exact ⟨hsafe, hdrv⟩
  · exact ⟨hsafe, hdrv⟩

theorem bump_pinSafe (reg lo width amt : Nat) : PinSafe n (bump reg lo width amt s) := h.upd

theorem modScope_pinSafe (src oct : Nat) (f : FltScope → FltScope) : PinSafe n (modScope src oct f s) := h.upd

theorem logWrite_pinSafe (es : List LogEntry) : PinSafe n (logWrite es s) := by
  unfold logWrite
  dsimp only
  split
  · exact h.upd
  · exact h.upd

theorem notice_pinSafe (code value : Nat) (ws : List Nat) : PinSafe n (notice code value ws s) := logWrite_pinSafe h _

theorem pushUnit_pinSafe (r : Rec) (k : Instant) : PinSafe n (pushUnit r k s) := calm_ite h h.upd

theorem holdRequest_pinSafe (p : PwrPend) : PinSafe n (holdRequest p s) := calm_ite h h.upd

theorem duskUndo_pinSafe : PinSafe n (duskUndo s) := by
  unfold duskUndo
  split
  · exact calm_ite h.upd h
  · exact h

theorem duskAct_pinSafe (p : PwrPend) : PinSafe n (duskAct p s) :=
  calm_ite h.upd (calm_ite h (calm_ite h.upd (holdRequest_pinSafe h p)))

theorem duskRequest_pinSafe (p : PwrPend) : PinSafe n (duskRequest p s) :=
  calm_ite h (duskAct_pinSafe (duskUndo_pinSafe h).upd p)

theorem pwrRequest_pinSafe (target : PwrSt) (source cause : Nat) : PinSafe n (pwrRequest target source cause s) := by
  have hday : PinSafe n (if nightOrEvening s target = .day then { s with rt := { s.rt with after := [] } } else s) := calm_ite h.upd h
  refine calm_ite (notice_pinSafe h _ _ _) (calm_ite (notice_pinSafe h _ _ _) ?_)
  dsimp only
  split
  · exact hday
  · exact duskRequest_pinSafe hday _
  · exact calm_ite hday (holdRequest_pinSafe hday _)
  · exact calm_ite hday (holdRequest_pinSafe hday _)
  · exact holdRequest_pinSafe hday _

theorem returnXpt_pinSafe (mask : Nat) : PinSafe n (returnXpt mask s) := calm_foldl (P := PinSafe n) _ _ h.upd fun _ _ hu => hu.upd

theorem orderStop_pinSafe (gran : Bool) (code cause : Nat) (line : Bool) (i : Nat) : PinSafe n (orderStop gran code cause line i s) :=
  calm_ite h.upd h

theorem faultStop_pinSafe (mask src : Nat) : PinSafe n (faultStop mask src s) :=
  calm_foldl _ _ h fun _ _ hu => orderStop_pinSafe hu _ _ _ _ _

theorem calRequest_pinSafe (mask : Nat) : PinSafe n (calRequest mask s) := calm_ite h.upd (notice_pinSafe h.upd _ _ _)

omit h in
theorem unitRequest_pinSafe (l : List Nat) : ∀ {s : State}, PinSafe n s → PinSafe n (unitRequest l s) := by
  induction l with
  | nil => exact fun h => h.upd
  | cons j l ih => exact fun h => calm_ite (calm_ite (ih (calRequest_pinSafe h _)) (calRequest_pinSafe h _).upd) (ih h)

theorem unitAdvance_pinSafe (k : Nat) : PinSafe n (unitAdvance k s) := calm_ite (unitRequest_pinSafe _ h) h

theorem strobeAfter_pinSafe (k : Nat) : PinSafe n (strobeAfter k s) := calm_ite h.upd h

theorem abandonWindow_pinSafe (k : Nat) : PinSafe n (abandonWindow k s) := by
  unfold abandonWindow
  split
  · exact h
  · exact unitAdvance_pinSafe (strobeAfter_pinSafe (pushUnit_pinSafe h.upd _ _) _) _

theorem abandonWindows_pinSafe (mask : Nat) : PinSafe n (abandonWindows mask s) :=
  calm_foldl _ _ h fun _ _ hu => abandonWindow_pinSafe hu _

theorem stopOctets_pinSafe (mask src : Nat) : PinSafe n (stopOctets mask src s) :=
  faultStop_pinSafe (abandonWindows_pinSafe (returnXpt_pinSafe (calm_ite (safePins_stays h _) h) _) _) _ _

theorem react_pinSafe (src oct : Nat) (fresh : Bool) : PinSafe n (react src oct fresh s) := by
  unfold react
  split
  · exact calm_ite (stopOctets_pinSafe h _ _) h
  · exact faultStop_pinSafe h _ _
  · exact calm_ite (pwrRequest_pinSafe h _ _ _) h
  · exact h

theorem exitBack_pinSafe (src oct : Nat) : PinSafe n (exitBack src oct s) := by
  unfold exitBack
  split
  · exact h
  · have hback (f e) : PinSafe n (unlog e (modScope src oct f s)) := calm_ite h.upd h.upd
    have hrefused (f e) : PinSafe n (clearRefused src oct (unlog e (modScope src oct f s))) := logWrite_pinSafe (hback f e).upd _
    exact calm_ite (react_pinSafe (calm_ite (hback _ _).upd (hrefused _ _)) _ _ _) h

theorem logEvent_pinSafe (x : FltAt) (detail : Nat) (ws : List Nat) : PinSafe n (logEvent x detail ws s) :=
  calm_ite (modScope_pinSafe (logWrite_pinSafe h _) _ _ _) (bump_pinSafe (modScope_pinSafe h _ _ _) _ _ _ _)

theorem goSevere_pinSafe (x : FltAt) : PinSafe n (goSevere x s) := 
  react_pinSafe (bump_pinSafe (logWrite_pinSafe (modScope_pinSafe h _ _ _) _) _ _ _ _) _ _ _

theorem fault_pinSafe (x : FltAt) (detail : Nat) (ws : List Nat) : PinSafe n (fault x detail ws s) := by
  have hlog (f b) : PinSafe n (logEvent x detail ws (bump b 16 16 1 (modScope x.src x.oct f (exitBack x.src x.oct s)))) :=
    logEvent_pinSafe (bump_pinSafe (modScope_pinSafe (exitBack_pinSafe h _ _) _ _ _) _ _ _ _) _ _ _
  exact calm_ite (calm_ite (react_pinSafe (hlog _ _) _ _ _) (calm_ite (goSevere_pinSafe (hlog _ _) _) (hlog _ _))) h

theorem lossCloseAt_pinSafe (k : Nat) : PinSafe n (lossCloseAt k s) := by
  unfold lossCloseAt
  dsimp only
  split
  · exact h
  · exact calm_ite (fault_pinSafe h.upd _ _ _) h

theorem capIn_pinSafe (k : Nat) (q : QRec) (lo hi : Nat) : PinSafe n (capIn k q lo hi s) :=
  calm_ite h (calm_ite (lossCloseAt_pinSafe h k).upd (lossCloseAt_pinSafe h k).upd)

theorem formAt_pinSafe (k : Nat) (q : QRec) (lo hi : Nat) : PinSafe n (formAt k q lo hi s) := calm_ite (capIn_pinSafe h _ _ _ _) h.upd

theorem closeOcts_pinSafe (at_ : Instant) (mask : Nat) : PinSafe n (closeOcts at_ mask s) :=
  calm_foldl (P := PinSafe n) _ _ h fun _ _ hu => calm_foldl _ _ hu.upd fun _ _ hv => formAt_pinSafe hv _ _ _ _

theorem resetRings_pinSafe (mask : Nat) : PinSafe n (resetRings mask s) := calm_foldl (P := PinSafe n) _ _ h.upd fun _ _ hu => hu.upd

/-- No end takes a pin out of the safe state: the pins of a job that completes or is aborted become idle only where they are not in it (R156). -/
theorem endPins_pinSafe (code mask : Nat) (act ran : Bool) : PinSafe n (endPins code mask act ran s) := by
  have hidle : PinSafe n (mapPins mask (fun _ p => if p.safe then p else p.toIdle) s) := by
    refine vmapPins_pinSafe h (fun k p => if mask.testBit (k / 8) then (if p.safe then p else p.toIdle) else p) fun _ _ hsafe hdrv => ?_
    rw [if_pos hsafe]
    split
    · exact ⟨hsafe, hdrv⟩
    · exact ⟨hsafe, hdrv⟩
  exact calm_ite (calm_ite (safePins_stays h _) (calm_ite hidle h)) h

theorem endFault_pinSafe (i code cause : Nat) : PinSafe n (endFault i code cause s) := by
  unfold endFault
  split
  · exact fault_pinSafe h _ _ _
  · exact fault_pinSafe h _ _ _
  · exact h

theorem endJob_pinSafe (code cause : Nat) (line : Bool) (i : Nat) : PinSafe n (endJob code cause line i s) := by
  unfold endJob
  extract_lets x e1 p e2 ran s1 s2 s3 s4 s5 q s6
  split
  · exact h
  · exact h
  · have he2 : PinSafe n e2 := calm_ite (P := PinSafe n) h.upd h.upd
    exact calm_ite (endPins_pinSafe he2 _ _ _ _) h
  · have h1 : PinSafe n s1 := calm_ite (closeOcts_pinSafe (dropActs_pinSafe h _ _) _ _) h
    have h2 : PinSafe n s2 := calm_ite h1 (resetRings_pinSafe h1 _)
    have h5 : PinSafe n s5 := (endPins_pinSafe h2 _ _ _ _).upd
    have h6 : PinSafe n s6 := calm_ite (P := PinSafe n) h5.upd h5
    exact endFault_pinSafe h6 _ _ _

theorem endJobs_pinSafe (code cause : Nat) (line : Bool) (l : List Nat) : PinSafe n (endJobs code cause line l s) :=
  calm_foldl _ _ h fun _ _ hu => endJob_pinSafe hu _ _ _ _

end PinSafe

end Sys2Proof.Machine
end

section
/-!
SUPPORT. The clocks (04 R86 to R91, R431): band calibration, attempts, lock and failure of a synthesiser, loss of lock in Day, the oven, and the
statement about them.
-/

namespace Sys2Proof.Machine

open Sys2Proof

/-! ### A synthesiser's state after a change -/

theorem synthAt_setSynth_same (o : Option (Fin 8)) (x : SynthSt) (s : State) : synthAt (setSynth o x s) o = x := by
  cases o with
  | none => rfl
  | some k => exact Vector.getElem_set_self ..

theorem synthAt_congr {s w : State} (o : Option (Fin 8)) (h : w.clk = s.clk) : synthAt w o = synthAt s o := by
  cases o with
  | none => exact congrArg Clk.core h
  | some k => exact congrArg (fun c : Clk => c.oct[k]) h

theorem bandIx_lt (o : Option (Fin 8)) : bandIx o < 9 := by
  cases o with
  | none => decide
  | some k => exact Nat.lt_succ_of_lt k.isLt

theorem bandDur_eq (o : Option (Fin 8)) : bandDur o = if o.isNone then 307200000 else 230400000 := rfl
theorem attemptLimit_eq (o : Option (Fin 8)) : attemptLimit o = if o.isNone then 256000000 else 128000000 := rfl
theorem lockLeast_eq (o : Option (Fin 8)) : lockLeast o = if o.isNone then 6553600 else 655360 := rfl

/-! ### Band calibration -/

theorem bandDone_due {o : Option (Fin 8)} {b : Instant} {n : Nat} {s : State} (h : synthAt s o = .band b n) (hdue : b + bandDur o ≤ s.now) :
    bandDone o s = setSynth o (.attempt s.now n)
      { s with nw := { s.nw with bands := vmod s.nw.bands (bandIx o) fun _ => some s.encl.dieC } } := by
  unfold bandDone
  rw [h]
  exact if_pos hdue

theorem bandDone_other {o : Option (Fin 8)} {s : State} (h : ∀ b n, synthAt s o ≠ .band b n) : bandDone o s = s := by
  unfold bandDone
  split
  next b n hb => exact absurd hb (h b n)
  · rfl

/-! ### What fault events, ends and decisions leave of the clocks -/

/-- What a failure, a lock and a loss of lock must not move unawares: the clocks, OCT_ACTIVE, and the power state. -/
def clockView (s : State) : Clk × BitVec 8 × PwrSt := (s.clk, s.pwr.octActive, s.pwr.st)

theorem clockView_unseen : Unseen clockView := by
  constructor <;> intros <;> rfl

theorem clockView_calmDue (a : Clk × BitVec 8 × PwrSt) : CalmDue (fun s => clockView s = a) fun _ => False :=
  clockView_unseen.calmDue a (fun _ _ => rfl) (fun _ _ => rfl) (fun _ _ => rfl) (fun _ _ => rfl) fun _ _ _ => rfl

theorem jobDue_clockView (s : State) : clockView (jobDue s) = clockView s := jobDue_calm (clockView_calmDue _) rfl

theorem endJobs_clockView (code cause : Nat) (line : Bool) (l : List Nat) (s : State) :
    clockView (endJobs code cause line l s) = clockView s := endJobs_calm (clockView_calmDue _).toCalmEnd rfl _ _ _ fun _ _ => not_false

theorem faultU_clockView (src detail : Nat) (s : State) : clockView (faultU src detail s) = clockView s :=
  faultU_calm (clockView_calmDue _).toCalm rfl _ _

theorem pwrRequest_clockView (target : PwrSt) (source cause : Nat) (s : State) : clockView (pwrRequest target source cause s) = clockView s :=
  pwrRequest_unseen clockView_unseen rfl _ _ _

theorem clk_of_clockView {s w : State} (h : clockView w = clockView s) : w.clk = s.clk := congrArg Prod.fst h
theorem octActive_of_clockView {s w : State} (h : clockView w = clockView s) : w.pwr.octActive = s.pwr.octActive :=
  congrArg (fun x => x.2.1) h
theorem st_of_clockView {s w : State} (h : clockView w = clockView s) : w.pwr.st = s.pwr.st := congrArg (fun x => x.2.2) h

/-! ### Lock -/

theorem arbClockStart_clk (s : State) : (arbClockStart s).clk = s.clk := rfl

theorem synthStart_oct_core (k : Fin 8) (s : State) : (synthStart (some k) s).clk.core = s.clk.core := by
  unfold synthStart
  split
  · split
    · rfl
    · rfl
  · rfl

theorem noteLock_core (s : State) : (noteLock s).clk.core = s.clk.core := by
  unfold noteLock
  split
  · rfl
  · rfl

theorem noteLock_oct (s : State) : (noteLock s).clk.oct = s.clk.oct := by
  unfold noteLock
  split
  · rfl
  · rfl

theorem coreLock_core (s : State) : (coreLock s).clk.core = s.clk.core := by
  have h : (noteLock (arbClockStart { s with sl := { s.sl with poolAt := s.now } })).clk.core = s.clk.core := by
    rw [noteLock_core, arbClockStart_clk]
  exact List.foldlRecOn (motive := fun u : State => u.clk.core = s.clk.core) _ _ h fun u hu k _ => (synthStart_oct_core k u).trans hu

theorem synthLock_due {o : Option (Fin 8)} {b : Instant} {n : Nat} {s : State} (h : synthAt s o = .attempt b n)
    (hleast : b + lockLeast o ≤ s.now) (hlimit : s.now ≤ b + attemptLimit o) : synthAt (synthLock o s) o = .locked s.now := by
  have hset := synthAt_setSynth_same o (.locked s.now) s
  have hlock : synthLock o s = jobDue (if o.isNone then coreLock (setSynth o (.locked s.now) s) else noteLock (setSynth o (.locked s.now) s)) := by
    unfold synthLock
    rw [h]
    exact if_pos ⟨hleast, hlimit⟩
  rw [hlock, synthAt_congr o (clk_of_clockView (jobDue_clockView _))]
  cases o with
  | none => exact (coreLock_core _).trans hset
  | some k => exact (congrArg (fun v : Vector SynthSt 8 => v[k]) (noteLock_oct _)).trans hset

theorem synthLock_other {o : Option (Fin 8)} {s : State} (h : ∀ b n, synthAt s o ≠ .attempt b n) : synthLock o s = s := by
  unfold synthLock
  split
  next b n hb => exact absurd hb (h b n)
  · rfl

/-! ### Failed attempts -/

/-- The synthesiser noted as one of which an attempt has failed (R88). -/
def triedNoted (o : Option (Fin 8)) (s : State) : State := modClk (fun c => { c with tried := c.tried ||| BitVec.ofNat 9 (2 ^ bandIx o) }) s

theorem attemptFail_again {o : Option (Fin 8)} {b : Instant} {n : Nat} {s : State} (h : synthAt s o = .attempt b n)
    (hdue : b + attemptLimit o ≤ s.now) (htries : n < lockTries s) :
    ∃ c, attemptFail o s = setSynth o (.band s.now (n + 1)) { s with clk := c } := by
  unfold attemptFail
  rw [h]
  dsimp only
  rw [if_pos hdue, if_pos htries]
  split
  · exact ⟨_, rfl⟩
  · exact ⟨_, rfl⟩

theorem attemptFail_core {b : Instant} {n : Nat} {s : State} (h : synthAt s none = .attempt b n)
    (hdue : b + attemptLimit none ≤ s.now) (htries : lockTries s ≤ n) : attemptFail none s = coreFail (triedNoted none s) := by
  unfold attemptFail
  rw [h]
  exact (if_pos hdue).trans (if_neg (Nat.not_lt.mpr htries))

theorem attemptFail_oct {k : Fin 8} {b : Instant} {n : Nat} {s : State} (h : synthAt s (some k) = .attempt b n)
    (hdue : b + attemptLimit (some k) ≤ s.now) (htries : lockTries s ≤ n) :
    attemptFail (some k) s = octFail k (triedNoted (some k) s) := by
  unfold attemptFail
  rw [h]
  exact (if_pos hdue).trans (if_neg (Nat.not_lt.mpr htries))

theorem attemptFail_other {o : Option (Fin 8)} {s : State} (h : ∀ b n, synthAt s o ≠ .attempt b n) : attemptFail o s = s := by
  unfold attemptFail
  split
  next b n hb => exact absurd hb (h b n)
  · rfl

/-- After the last attempt on the core (R89) nothing but a request, or another target of the Dawn, follows the ends of the queued jobs. -/
theorem coreFail_clk (s : State) : (coreFail s).clk.core = .failed ∧ (coreFail s).clk.coreFailed = true := by
  have hclk : (coreFail s).clk = { s.clk with core := .failed, coreFailed := true, lastLock := if s.clk.relock then s.clk.lastLock else 0 } := by
    unfold coreFail
    extract_lets s1 s2
    have h1 : s1.clk = { s.clk with core := .failed, coreFailed := true, lastLock := if s.clk.relock then s.clk.lastLock else 0 } :=
      clk_of_clockView (faultU_clockView _ _ _)
    have h2 : s2.clk = s1.clk := clk_of_clockView (endJobs_clockView _ _ _ _ _)
    rw [← h1, ← h2]
    split
    · split
      · rfl
      · rfl
    · exact clk_of_clockView (pwrRequest_clockView _ _ _ _)
    · rfl
  rw [hclk]
  exact ⟨rfl, rfl⟩

/-- An octet removed from OCT_ACTIVE: the clocks stand, and no other octet is removed. -/
theorem octRemove_clockView (k : Nat) (s : State) :
    clockView (octRemove k s) = (s.clk, s.pwr.octActive &&& ~~~(BitVec.ofNat 8 (2 ^ k)), s.pwr.st) := by
  unfold octRemove
  extract_lets s1 p s2
  have h1 : clockView s1 = clockView s := abandonWindow_calm (clockView_calmDue _).toCalm rfl k
  have h2 : clockView s2 = (s1.clk, s1.pwr.octActive &&& ~~~(BitVec.ofNat 8 (2 ^ k)), s1.pwr.st) :=
    unitAdvance_calm (clockView_calmDue _).toCalm rfl k
  rw [endJobs_clockView, h2, clk_of_clockView h1, octActive_of_clockView h1, st_of_clockView h1]

theorem octFail_fullDawn {k : Fin 8} {s : State} (h : s.pwr.shortDawn = false) : clockView (octFail k s) =
    ({ s.clk with oct := s.clk.oct.set k .failed, octFailed := s.clk.octFailed ||| BitVec.ofNat 8 (2 ^ k.val) },
      s.pwr.octActive &&& ~~~(BitVec.ofNat 8 (2 ^ k.val)), s.pwr.st) := by
  unfold octFail
  extract_lets s1
  have h1 : clockView s1 = ({ s.clk with oct := s.clk.oct.set k .failed, octFailed := s.clk.octFailed ||| BitVec.ofNat 8 (2 ^ k.val) },
      s.pwr.octActive, s.pwr.st) := faultU_clockView _ _ _
  simp only [clockView, Prod.mk.injEq] at h1
  obtain ⟨hclk, hact, hst⟩ := h1
  rw [if_neg (by simp [h]), octRemove_clockView, hclk, hact, hst]

/-! ### Loss of lock (R91) -/

theorem synthStart_not_locked (o : Option (Fin 8)) (s : State) : (synthAt (synthStart o s) o).isLocked = false := by
  unfold synthStart
  split
  · rw [synthAt_setSynth_same]
    rfl
  · rw [synthAt_setSynth_same]
    rfl

theorem synthStart_relock (k : Fin 8) (s : State) : (synthStart (some k) s).clk.relock = s.clk.relock := by
  unfold synthStart
  split
  · split
    · rfl
    · rfl
  · rfl

theorem lockLost_not_locked {o : Option (Fin 8)} {s : State} (h : (synthAt s o).isLocked = false) : lockLost o s = s :=
  if_neg fun hlost => by cases h.symm.trans hlost.2

/-- The unit as the relock of octet `k` starts in: its pins safe, its windows abandoned, its jobs ended. -/
theorem lockLost_day {k : Fin 8} {s : State} (hst : s.pwr.st = .day) (hl : (synthAt s (some k)).isLocked = true) :
    ∃ v, lockLost (some k) s = synthStart (some k) v ∧ v.clk.relock = true ∧ ∀ i < 8, PinSafe (8 * k.val + i) v := by
  unfold lockLost
  rw [if_pos ⟨.inl hst, hl⟩]
  extract_lets mask s1 s2 s3 s4
  refine ⟨s4, rfl, rfl, fun i hi => ?_⟩
  have hday : s1.pwr.st = .day := (st_of_clockView (faultU_clockView _ _ _)).trans ((congrArg Pwr.st (requestTerms_assureLapse s).1).trans hst)
  have hon : pinsOn s1 = true := by rw [pinsOn, hday]
  have hoct : (8 * k.val + i) / 8 = k.val := by omega
  have hsafe : PinSafe (8 * k.val + i) (if pinsOn s1 then safePins mask s1 else s1) := by
    rw [if_pos hon]
    exact safePins_pinSafe s1 (by omega) (by rw [hoct]; exact Nat.testBit_two_pow_self)
  have h2 : PinSafe (8 * k.val + i) s2 := abandonWindows_pinSafe hsafe mask
  exact (endJobs_pinSafe h2 _ _ _ _).upd

/-! ### The oven (R431) -/

theorem ovenWarmed_starts {s : State} (hon : fastOn s = true) (hcold : s.clk.oscWarm = false) :
    ovenWarmed s = setCond 11 0 false (modClk (fun c => { c with oscWarm := true }) s) := if_pos ⟨by rw [hcold]; rfl, hon⟩

theorem ovenLate_due {b : Instant} {s : State} (hstart : s.clk.ovenStart = some b) (hcold : s.clk.oscWarm = false)
    (hdue : 180 * cS + b ≤ s.now) : (ovenLate s).clk = { s.clk with ovenStart := none } := by
  have hlate : ovenLate s = faultU 11 0 (modClk (fun c => { c with ovenStart := none }) s) := by
    unfold ovenLate
    rw [hstart]
    exact if_pos ⟨by rw [hcold]; rfl, hdue⟩
  rw [hlate, clk_of_clockView (faultU_clockView _ _ _)]
  rfl

theorem ovenLate_not_due {s : State}
    (h : s.clk.ovenStart = none ∨ s.clk.oscWarm = true ∨ ∃ o, s.clk.ovenStart = some o ∧ s.now < 180 * cS + o) : ovenLate s = s := by
  unfold ovenLate
  split
  · rfl
  next k hk =>
    refine if_neg fun ⟨hcold, hdue⟩ => ?_
    rcases h with h | h | ⟨o, ho, hlt⟩
    · cases h.symm.trans hk
    · rw [h] at hcold
      cases hcold
    · cases ho.symm.trans hk
      exact absurd hdue (Nat.not_le.mpr hlt)

/-! ### The statement -/

theorem exec_bandCalDone (t : Instant) (o : Option (Fin 8)) (s : State) : exec (.bandCalDone t o) s = .next (bandDone o (advance t s)) := rfl
theorem exec_synthLocked (t : Instant) (o : Option (Fin 8)) (s : State) : exec (.synthLocked t o) s = .next (synthLock o (advance t s)) := rfl
theorem exec_lockAttemptTimeout (t : Instant) (o : Option (Fin 8)) (s : State) :
    exec (.lockAttemptTimeout t o) s = .next (attemptFail o (advance t s)) := rfl
theorem exec_synthLockLoss (t : Instant) (o : Option (Fin 8)) (s : State) :
    exec (.synthLockLoss t o) s = .next (lockLost o (advance t s)) := rfl
theorem exec_ovenWarm (t : Instant) (s : State) : exec (.ovenWarm t) s = .next (ovenWarmed (advance t s)) := rfl
theorem exec_ovenWarmTimeout (t : Instant) (s : State) : exec (.ovenWarmTimeout t) s = .next (ovenLate (advance t s)) := rfl

/-- The bit of octet `k` in a mask. -/
theorem getLsbD_octBit (k : Nat) {j : Nat} (hj : j < 8) : (BitVec.ofNat 8 (2 ^ k)).getLsbD j = decide (k = j) := by
  rw [BitVec.getLsbD_ofNat, Nat.testBit_two_pow, decide_eq_true hj, Bool.true_and]

/-- Settles O34: band calibration by `bandDone_due`, lock by `synthLock_due`, failed attempts by `attemptFail_again`, `coreFail_clk` and
`octFail_fullDawn`, loss of lock by `lockLost_day`, the oven by `ovenWarmed_starts` and `ovenLate_due`. -/
theorem clocks : Obligations.Clocks := by
  intro t o k b n s u band limit least
  refine ⟨fun h hdue => ⟨_, exec_bandCalDone .., ?band⟩, fun h hleast hlimit => ⟨_, exec_synthLocked .., synthLock_due h ?least ?limit⟩,
    fun h hdue htries => ⟨_, exec_lockAttemptTimeout .., ?again⟩,
    fun h hdue htries => ⟨_, exec_lockAttemptTimeout .., ?core⟩,
    fun h hdue htries hst hshort => ⟨_, exec_lockAttemptTimeout .., ?oct⟩,
    fun hst hl => ⟨_, exec_synthLockLoss .., ?loss⟩,
    fun h => ⟨_, exec_synthLockLoss .., lockLost_not_locked h⟩,
    fun h => ⟨_, exec_bandCalDone .., bandDone_other h⟩,
    fun h => ⟨⟨_, exec_synthLocked .., synthLock_other h⟩, ⟨_, exec_lockAttemptTimeout .., attemptFail_other h⟩⟩,
    fun hon hcold => ⟨_, exec_ovenWarm .., ?warm⟩,
    fun hstart hcold hdue => ⟨_, exec_ovenWarmTimeout .., ovenLate_due hstart hcold hdue⟩,
    fun h => ⟨_, exec_ovenWarmTimeout .., ovenLate_not_due h⟩⟩
  case band =>
    rw [bandDone_due h (by rwa [bandDur_eq])]
    refine ⟨synthAt_setSynth_same .., ?_, rfl⟩
    exact vget_vmod_same _ _ _ _ (bandIx_lt o)
  case least => rwa [lockLeast_eq]
  case limit => rwa [attemptLimit_eq]
  case again =>
    obtain ⟨c, hagain⟩ := attemptFail_again h (by rwa [attemptLimit_eq]) htries
    rw [hagain]
    exact ⟨synthAt_setSynth_same .., rfl⟩
  case core =>
    rw [attemptFail_core h (by rw [attemptLimit_eq, Nat.add_comm]; exact hdue) htries]
    exact coreFail_clk _
  case oct =>
    have hview := octFail_fullDawn (k := k) (s := triedNoted (some k) u) hshort
    simp only [clockView, Prod.mk.injEq] at hview
    obtain ⟨hclk, hact, -⟩ := hview
    rw [attemptFail_oct h (by rw [attemptLimit_eq, Nat.add_comm]; exact hdue) htries]
    refine ⟨(congrArg (fun c : Clk => c.oct[k]) hclk).trans (Vector.getElem_set_self ..), ?_, ?_, fun j hj hne => ?_⟩
    · rw [hclk, BitVec.getLsbD_or, getLsbD_octBit _ k.isLt, decide_eq_true rfl, Bool.or_true]
    · rw [octOn, hact, BitVec.getLsbD_and, BitVec.getLsbD_not, getLsbD_octBit _ k.isLt]
      simp
    · rw [octOn, hact, BitVec.getLsbD_and, BitVec.getLsbD_not, getLsbD_octBit _ hj, decide_eq_true hj, decide_eq_false hne.symm]
      exact Bool.and_true _
  case loss =>
    obtain ⟨v, hlost, hrelock, hpins⟩ := lockLost_day hst hl
    obtain ⟨c, hstart⟩ := synthStart_eq (some k) v
    rw [hlost]
    refine ⟨synthStart_not_locked _ v, (synthStart_relock k v).trans hrelock, fun i hi => ?_⟩
    rw [hstart]
    exact hpins i hi
  case warm =>
    rw [ovenWarmed_starts hon hcold]
    exact ⟨rfl, setCond_cond (by decide) _ _⟩

end Sys2Proof.Machine
end

section
/-!
SUPPORT. The PTP port (04 R103 to R106): what becomes of a message, the best master, the servo's bookkeeping through a step of the time base, the
path delay and the four timeouts, and the statement about them.
-/

namespace Sys2Proof.Machine

open Sys2Proof

/-! ### What a change of state and a violation leave of the port -/

theorem ptp_unseen : Unseen State.ptp := by
  constructor <;> intros <;> rfl

theorem fault_ptp (x : FltAt) (detail : Nat) (ws : List Nat) (s : State) : (fault x detail ws s).ptp = s.ptp :=
  fault_unseen ptp_unseen rfl _ _ _

@[simp] theorem setSt_ptp (st : TimeSt) (s : State) : (setSt st s).ptp = s.ptp := by
  by_cases h : st = s.tim.st
  · rw [setSt_same h]
  · have hrec : (setCond 12 0 (!st.isLock) (timeStateRec 0 0 (stTaken st s))).ptp = s.ptp :=
      setCond_unseen ptp_unseen (timeStateRec_unseen ptp_unseen rfl 0 0) _ _ _
    rw [setSt_change h]
    exact view_ite ((fault_ptp ..).trans hrec) hrec

@[simp] theorem loseLock_ptp (s : State) : (loseLock s).ptp = s.ptp := view_ite (setSt_ptp _ s) rfl

/-- A lock lost is none to PTP. -/
theorem loseLock_st_ne_ptp (s : State) : (loseLock s).tim.st ≠ .ptp := by
  unfold loseLock
  split
  · rw [setSt_st]
    split
    · nofun
    · nofun
  next h =>
    intro hst
    exact h (by rw [hst]; rfl)

/-- A lock to PTP is given up; any other state stays. -/
def lockGivenUp (s : State) : State := if s.tim.st = .ptp then loseLock s else s

@[simp] theorem lockGivenUp_ptp (s : State) : (lockGivenUp s).ptp = s.ptp := view_ite (loseLock_ptp s) rfl

theorem lockGivenUp_st (s : State) : (lockGivenUp s).tim.st ≠ .ptp := by
  unfold lockGivenUp
  split
  · exact loseLock_st_ne_ptp s
  next h => exact h

@[simp] theorem ptpViol_ptp (row : Nat) (ws : List Nat) (s : State) : (ptpViol row ws s).ptp = s.ptp := fault_ptp ..

theorem ptpViol_faultKept (row : Nat) (ws : List Nat) (s : State) : FaultKept (bump rgTime 0 16 1 s) (ptpViol row ws s) :=
  fault_faultKept (.refl _) _ _ _

@[simp] theorem ptpViol_tim (row : Nat) (ws : List Nat) (s : State) : (ptpViol row ws s).tim = s.tim := (ptpViol_faultKept row ws s).tim

theorem ptpViol_counts (row : Nat) (ws : List Nat) (s : State) : ⟨rgTime, 0, 16, .add, 1⟩ ∈ (ptpViol row ws s).evPend :=
  (ptpViol_faultKept row ws s).events _ List.mem_cons_self rfl

/-! ### What becomes of a message (R106, Table 4-8) -/

section Message

variable {type : Nat} {h : PtpHdr} {two : Bool} {corr : Int} {f : State → State} {s : State}

theorem ptpMsg_inactive (hoff : ptpActive s = false) : ptpMsg type h two corr f s = s := by
  simp [ptpMsg, ptpJudge, hoff]

theorem ptpMsg_not_meant (hsound : h.version % 16 = 2 ∧ h.msgLen ≤ h.rxLen)
    (hnot : ¬ (h.version / 16 ≤ 1 ∧ h.domain = ptpDomain s ∧ h.sdo = 0)) : ptpMsg type h two corr f s = s := by
  have hother : 1 < h.version / 16 ∨ h.domain ≠ ptpDomain s ∨ h.sdo ≠ 0 := by
    by_contra hall
    push Not at hall
    exact hnot hall
  cases hon : ptpActive s with
  | false => exact ptpMsg_inactive hon
  | true => simp [ptpMsg, ptpJudge, hon, hsound.1, Nat.not_lt.mpr hsound.2, hother]

theorem ptpMsg_breach (hon : ptpActive s = true) (hnot : ¬ (h.version % 16 = 2 ∧ h.msgLen ≤ h.rxLen)) :
    ptpMsg type h two corr f s = ptpViol 1 (ptpWords type h two corr) s := by
  have hbad : h.version % 16 ≠ 2 ∨ h.rxLen < h.msgLen := by omega
  simp [ptpMsg, ptpJudge, hon, hbad]

theorem ptpMsg_taken (hon : ptpActive s = true) (hsound : h.version % 16 = 2 ∧ h.msgLen ≤ h.rxLen)
    (hmeant : h.version / 16 ≤ 1 ∧ h.domain = ptpDomain s ∧ h.sdo = 0) : ptpMsg type h two corr f s = f s := by
  simp [ptpMsg, ptpJudge, hon, hsound.1, Nat.not_lt.mpr hsound.2, Nat.not_lt.mpr hmeant.1, hmeant.2.1, hmeant.2.2]

end Message

/-! ### The best master (R103) -/

/-- The choice among the masters held that qualify. -/
def bestId (s : State) : Option Nat := (bestOf (s.ptp.masters.filter qualified)).map (·.id)

theorem ptpSelect_same {s : State} (h : bestId s = s.ptp.best) : ptpSelect s = s := if_pos h

theorem ptpSelect_change {s : State} (h : bestId s ≠ s.ptp.best) : (ptpSelect s).tim.st = (lockGivenUp s).tim.st ∧
    (ptpSelect s).ptp = { (lockGivenUp s).ptp with
      best := bestId s, offsets := [], raw := none, delay := none, offset := none, bad := 0, lost := 0, good := 0
      pendSync := [], pendReq := [], lastSync := none, syncCount := 0 } := by
  have hne : ptpSelect s = _ := if_neg h
  rw [hne]
  exact ⟨rfl, rfl⟩

theorem ptpSelect_masters (s : State) : (ptpSelect s).ptp.masters = s.ptp.masters := by
  by_cases h : bestId s = s.ptp.best
  · rw [ptpSelect_same h]
  · rw [(ptpSelect_change h).2, lockGivenUp_ptp]

theorem ptpSelect_best (s : State) : (ptpSelect s).ptp.best = bestId s := by
  by_cases h : bestId s = s.ptp.best
  · rw [ptpSelect_same h, h]
  · rw [(ptpSelect_change h).2]

/-- Another choice ends lock to PTP. -/
theorem ptpSelect_change_st {s : State} (h : bestId s ≠ s.ptp.best) : (ptpSelect s).tim.st ≠ .ptp := by
  rw [(ptpSelect_change h).1]
  exact lockGivenUp_st s

/-- The best of a list is one of its masters. -/
theorem bestOf_mem {l : List Master} {b : Master} (h : bestOf l = some b) : b ∈ l := by
  induction l with
  | nil => cases h
  | cons m l ih =>
    unfold bestOf at h
    split at h
    · cases h
      exact List.mem_cons_self
    next c hc =>
      split at h
      · cases h
        exact List.mem_cons_of_mem _ (ih hc)
      · cases h
        exact List.mem_cons_self

theorem bestId_mem {s : State} {n : Nat} (h : bestId s = some n) : ∃ m ∈ s.ptp.masters, m.id = n := by
  obtain ⟨m, hm, hid⟩ := Option.map_eq_some_iff.mp h
  exact ⟨m, (List.mem_filter.mp (bestOf_mem hm)).1, hid⟩

theorem announceIn_renews {h : PtpHdr} (a : PtpAnnounce) {s : State} (hroom : (s.ptp.masters.filter fun m => m.id != h.source).length < 4) :
    ∃ m ∈ (announceIn h a s).ptp.masters, m.id = h.source ∧ m.ann = a ∧ m.lastAt = s.now := by
  unfold announceIn
  extract_lets live old m rest
  have hrest : rest.length < 4 := by
    refine Nat.lt_of_le_of_lt (List.Sublist.length_le ?_) hroom
    exact List.Sublist.filter _ List.filter_sublist
  refine ⟨m, ?_, rfl, rfl, rfl⟩
  rw [ptpSelect_masters]
  change m ∈ if rest.length < 4 then m :: rest else rest
  rw [if_pos hrest]
  exact List.mem_cons_self

theorem announceIn_best (h : PtpHdr) (a : PtpAnnounce) (s : State) : (announceIn h a s).ptp.best = bestId (announceIn h a s) := by
  unfold announceIn
  extract_lets live old m rest
  rw [ptpSelect_best, bestId, bestId, ptpSelect_masters]

/-! ### Silence of the selected master (R105) -/

theorem announceTimeout_due {m : Master} {s : State} (h : (s.ptp.masters.find? fun m => some m.id == s.ptp.best) = some m)
    (hdue : m.lastAt + annTimeout s * logDur m.interval ≤ s.now) :
    announceTimeout s = ptpSelect (modPtp (fun p => { p with masters := p.masters.filter fun x => x.id != m.id }) s) := by
  unfold announceTimeout
  rw [h]
  exact if_pos hdue

theorem announceTimeout_not_due {m : Master} {s : State} (h : (s.ptp.masters.find? fun m => some m.id == s.ptp.best) = some m)
    (hlt : s.now < m.lastAt + annTimeout s * logDur m.interval) : announceTimeout s = s := by
  unfold announceTimeout
  rw [h]
  exact if_neg (Nat.not_le.mpr hlt)

theorem announceTimeout_drops {m : Master} {s : State} (h : (s.ptp.masters.find? fun m => some m.id == s.ptp.best) = some m)
    (hdue : m.lastAt + annTimeout s * logDur m.interval ≤ s.now) :
    (∀ y ∈ (announceTimeout s).ptp.masters, y.id ≠ m.id) ∧ (announceTimeout s).ptp.best ≠ some m.id ∧
      (announceTimeout s).tim.st ≠ .ptp := by
  have hbest : some m.id = s.ptp.best := by simpa using List.find?_some h
  rw [announceTimeout_due h hdue]
  have hgone : ∀ y ∈ s.ptp.masters.filter fun x => x.id != m.id, y.id ≠ m.id := fun y hy => by simpa using (List.mem_filter.mp hy).2
  have hother : bestId (modPtp (fun p => { p with masters := p.masters.filter fun x => x.id != m.id }) s) ≠ some m.id := by
    intro hid
    obtain ⟨y, hy, hym⟩ := bestId_mem hid
    exact hgone y hy hym
  rw [ptpSelect_masters, ptpSelect_best]
  refine ⟨hgone, hother, ptpSelect_change_st ?_⟩
  change _ ≠ s.ptp.best
  rwa [← hbest]

/-! ### What the servo leaves of the Syncs: the steps it brings move times of arrival alone -/

/-- The latest valid Sync, and the numbers of those that wait for their Follow_Up. -/
def syncView (s : State) : Option Instant × List Nat := (s.ptp.lastSync, s.ptp.pendSync.map (·.seq))

theorem syncView_calmDue (a : Option Instant × List Nat) : CalmDue (fun s => syncView s = a) fun _ => False :=
  Unseen.calmDue (v := syncView) (by constructor <;> intros <;> rfl) a (fun _ _ => rfl) (fun _ _ => rfl) (fun _ _ => rfl) (fun _ _ => rfl)
    fun _ _ _ => rfl

theorem syncView_congr {s w : State} (h : w.ptp = s.ptp) : syncView w = syncView s := by rw [syncView, syncView, h]

section Servo

variable {a : Option Instant × List Nat} {s : State} (h : syncView s = a)
include h

/-- An update that leaves the port alone. -/
theorem upd_syncView {w : State} (hp : w.ptp = s.ptp := by rfl) : syncView w = a := (syncView_congr hp).trans h

/-- A change of the port that leaves its Syncs alone. -/
theorem modPtp_syncView (f : Ptp → Ptp) (hlast : ∀ p, (f p).lastSync = p.lastSync := by exact fun _ => rfl)
    (hpend : ∀ p, (f p).pendSync = p.pendSync := by exact fun _ => rfl) : syncView (modPtp f s) = a := by
  rw [← h, syncView, modPtp, hlast, hpend]
  rfl

theorem stepKept_syncView (x : Int) : syncView (stepKept x s) = a := by
  rw [← h]
  simp [syncView, stepKept, Function.comp_def]

theorem armAlarm_syncView : syncView (armAlarm s) = a := by
  obtain ⟨n, hn⟩ := armAlarm_eq s
  rw [hn]
  exact upd_syncView h

theorem rtSkip_syncView (i n : Nat) : syncView (rtSkip i n s) = a :=
  view_ite h (faultU_calm (syncView_calmDue a).toCalm (bump_calm (syncView_calmDue a).toCalm h ..) _ _)

theorem rtRecompute_syncView (count : Bool) : syncView (rtRecompute count s) = a := by
  refine view_ite (armAlarm_syncView (view_foldl _ _ h fun u i hu => ?_)) h
  have hskip (n : Nat) : syncView (if count ∧ (rtEntry u i).action ≠ 0 then rtSkip i n u else u) = a := view_ite (rtSkip_syncView hu _ _) hu
  exact upd_syncView (hskip _)

theorem becameValid_syncView (was : Bool) : syncView (becameValid was s) = a :=
  jobDue_calm (syncView_calmDue a) (view_ite (rtRecompute_syncView h _) (view_ite (armAlarm_syncView h) h))

theorem ringWatch_syncView (old : State) : syncView (ringWatch old s) = a := by
  have hP := (syncView_calmDue a).toCalmEnd
  have hres : syncView (if isMaster s && mustResign s then resign s else s) = a := view_ite (resign_calm hP (fun _ _ h => h) h) h
  exact upd_syncView (view_ite (faultU_calm hP.toCalm hres _ _) hres)

theorem timeStateRec_syncView (sub : Nat) (x : Int) : syncView (timeStateRec sub x s) = a :=
  pushUnit_calm (syncView_calmDue a).toCalm (closeOcts_calm (syncView_calmDue a).toCalm h _ _) _ _

theorem applyStep_syncView (src : Nat) : syncView (applyStep src s) = a := by
  unfold applyStep
  extract_lets x was s1 q s2 s3 s4
  have h2 : syncView s2 = a := stepKept_syncView (upd_syncView h) x
  have h3 : syncView s3 = a := view_ite h2 (timeStateRec_syncView (upd_syncView h2) _ _)
  have h4 : syncView s4 = a := view_ite h3 (timeStateRec_syncView h3 _ _)
  exact ringWatch_syncView (becameValid_syncView h4 _) s

theorem stepDue_syncView (old : Int × Int) : syncView (stepDue old s) = a := by
  unfold stepDue
  extract_lets s1 x b
  have h1 : syncView s1 = a := upd_syncView h
  exact view_ite h (view_ite (view_ite h1 (notice_calm (syncView_calmDue _).toCalm h1 _ _ _)) (applyStep_syncView h _))

theorem acquire_syncView (e : Int) : syncView (acquire e s) = a := by
  obtain ⟨p, w, k, q, hacq⟩ := acquire_cases e s
  rw [hacq]
  exact upd_syncView h

theorem ptpSample_syncView (o : Int) (ws : List Nat) : syncView (ptpSample o ws s) = a := by
  unfold ptpSample
  extract_lets n b l s1 d s2 old s3
  have hb : syncView b = a := modPtp_syncView ((syncView_congr (ptpViol_ptp 7 ws s)).trans h) _
  have hlost : syncView (loseLock b) = a := (syncView_congr (loseLock_ptp b)).trans hb
  have h1 : syncView s1 = a := modPtp_syncView h _
  have h2 : syncView s2 = a := view_ite (upd_syncView h1) (upd_syncView h1)
  have h3 : syncView s3 = a := stepDue_syncView (acquire_syncView h2 o) old
  have hlocked : syncView (setSt .ptp s3) = a := (syncView_congr (setSt_ptp .ptp s3)).trans h3
  exact view_ite (view_ite (modPtp_syncView hlost _) hb) (view_ite (view_ite hlocked h3) h2)

theorem ptpOffset_syncView (x : Int) (origin : Nat) (corr : Int) (ws : List Nat) : syncView (ptpOffset x origin corr ws s) = a := by
  unfold ptpOffset
  extract_lets raw s1
  have h1 : syncView s1 = a := modPtp_syncView h _
  split
  · exact h1
  · exact ptpSample_syncView h1 _ _

end Servo

/-! ### Sync and Follow_Up (R104, R105) -/

theorem ptpOffset_first {s : State} (h : s.ptp.delay = none) (x : Int) (origin : Nat) (corr : Int) (ws : List Nat) :
    ptpOffset x origin corr ws s = modPtp (fun p => { p with raw := some (x - origin - corr) }) s := by
  unfold ptpOffset
  extract_lets raw s1
  split
  · rfl
  next d hd => cases hd.symm.trans h

/-- The port with one more Sync of its second counted. -/
def syncCounted (h : PtpHdr) (s : State) : State :=
  modPtp (fun p => { p with
    syncSecond := s.now / cS, syncCount := if s.ptp.syncSecond = s.now / cS then s.ptp.syncCount + 1 else 1, syncInterval := h.logInterval }) s

/-- The port with a one-step Sync, which is valid at once. -/
def syncArrived (h : PtpHdr) (s : State) : State := modPtp (fun p => { p with lastSync := some s.now }) (syncCounted h s)

theorem syncIn_taken {h : PtpHdr} {s : State} (two : Bool) (origin : Nat) (corr : Int) (hours : s.ptp.best = some h.source)
    (hlo : -7 ≤ h.logInterval) (hhi : h.logInterval ≤ 1) (hroom : s.ptp.syncSecond ≠ s.now / cS ∨ s.ptp.syncCount < 128) :
    syncIn h two origin corr s =
      if two then
        modPtp (fun p => { p with
          pendSync := ⟨h.seq, s.now, (tamNow s : Int) - Config.ptpPhyDelay, corr, ptpWords 0 h two corr⟩ :: p.pendSync }) (syncCounted h s)
      else ptpOffset ((tamNow s : Int) - Config.ptpPhyDelay) origin corr (ptpWords 0 h two corr) (syncArrived h s) := by
  have htake : ¬ (some h.source ≠ s.ptp.best ∨ h.logInterval < -7 ∨ 1 < h.logInterval) := by
    simp [hours, Int.not_lt.mpr hlo, Int.not_lt.mpr hhi]
  have hcount : ¬ 128 < if s.ptp.syncSecond = s.now / cS then s.ptp.syncCount + 1 else 1 := by
    split
    next hsec => exact Nat.not_lt.mpr (hroom.resolve_left fun hne => hne hsec)
    · decide
  unfold syncIn
  dsimp only
  rw [if_neg htake, if_neg hcount]
  rfl

theorem syncIn_other {h : PtpHdr} {s : State} (two : Bool) (origin : Nat) (corr : Int) (hother : ¬ s.ptp.best = some h.source) :
    syncIn h two origin corr s = s := if_pos (.inl fun hours => hother hours.symm)

theorem followUpIn_other {h : PtpHdr} {s : State} (origin : Nat) (corr : Int) (hother : ¬ s.ptp.best = some h.source) :
    followUpIn h origin corr s = s := if_pos fun hours => hother hours.symm

/-- The port with the Sync that a Follow_Up completes. -/
def syncDone (x : PendSync) (s : State) : State :=
  modPtp (fun p => { p with
    pendSync := p.pendSync.filter fun y => y.seq != x.seq, lastSync := some (max x.at_ (p.lastSync.getD 0)) }) s

theorem followUpIn_completes {h : PtpHdr} {x : PendSync} {s : State} (origin : Nat) (corr : Int) (hours : s.ptp.best = some h.source)
    (hfind : (s.ptp.pendSync.find? fun y => y.seq == h.seq) = some x) :
    followUpIn h origin corr s = ptpOffset x.rx origin (x.corr + corr) x.hdr (syncDone x s) := by
  have hseq : x.seq = h.seq := by simpa using List.find?_some hfind
  unfold followUpIn
  rw [if_neg (fun hne => hne hours.symm), hfind, syncDone, hseq]

theorem followUpIn_no_sync {h : PtpHdr} {s : State} (origin : Nat) (corr : Int) (hours : s.ptp.best = some h.source)
    (hnone : ∀ y ∈ s.ptp.pendSync, y.seq ≠ h.seq) : followUpIn h origin corr s = ptpViol 3 (ptpWords 8 h false corr) s := by
  have hfind : (s.ptp.pendSync.find? fun y => y.seq == h.seq) = none := List.find?_eq_none.mpr fun y hy => by simpa using hnone y hy
  unfold followUpIn
  rw [if_neg (fun hne => hne hours.symm), hfind]

/-- A Sync that is completed waits no longer, whatever its offset brings. -/
theorem ptpOffset_syncDone (x : PendSync) (origin : Nat) (corr : Int) (ws : List Nat) (s : State) :
    (∀ y ∈ (ptpOffset x.rx origin corr ws (syncDone x s)).ptp.pendSync, y.seq ≠ x.seq) ∧
      (ptpOffset x.rx origin corr ws (syncDone x s)).ptp.lastSync = some (max x.at_ (s.ptp.lastSync.getD 0)) := by
  have hview := ptpOffset_syncView (s := syncDone x s) rfl x.rx origin corr ws
  simp only [syncView, Prod.mk.injEq] at hview
  obtain ⟨hlast, hseqs⟩ := hview
  refine ⟨fun y hy hyx => ?_, hlast⟩
  obtain ⟨z, hz, hzy⟩ := List.mem_map.mp (hseqs ▸ List.mem_map_of_mem (f := fun y : PendSync => y.seq) hy)
  have hne : z.seq ≠ x.seq := by simpa using (List.mem_filter.mp hz).2
  exact hne (hzy.trans hyx)

theorem foldl_ptpViol {α : Type} (row : Nat) (ws : α → List Nat) (l : List α) (s : State) :
    (l.foldl (fun s x => ptpViol row (ws x) s) s).ptp = s.ptp ∧ (l.foldl (fun s x => ptpViol row (ws x) s) s).tim = s.tim :=
  List.foldlRecOn (motive := fun u : State => u.ptp = s.ptp ∧ u.tim = s.tim) l _ ⟨rfl, rfl⟩ fun _ hu _ _ =>
    ⟨(ptpViol_ptp ..).trans hu.1, (ptpViol_tim ..).trans hu.2⟩

theorem followUpTimeout_leaves (s : State) : (followUpTimeout s).tim = s.tim ∧ (followUpTimeout s).ptp = { s.ptp with
    pendSync := s.ptp.pendSync.filter fun x => !decide (x.at_ + max (100 * cMs) (logDur s.ptp.syncInterval) ≤ s.now) } := by
  unfold followUpTimeout
  extract_lets lim due
  obtain ⟨hptp, htim⟩ := foldl_ptpViol 2 (·.hdr) due
    (modPtp (fun p => { p with pendSync := p.pendSync.filter fun x => !decide (x.at_ + lim ≤ s.now) }) s)
  exact ⟨htim, hptp⟩

theorem syncTimeout_due {k : Instant} {s : State} (h : s.ptp.lastSync = some k) (hdue : k + 4 * logDur s.ptp.syncInterval ≤ s.now) :
    syncTimeout s = modPtp (fun p => { p with lastSync := none, good := 0 }) (lockGivenUp s) := by
  unfold syncTimeout
  rw [h]
  exact if_pos hdue

theorem syncTimeout_not_due {k : Instant} {s : State} (h : s.ptp.lastSync = some k) (hlt : s.now < k + 4 * logDur s.ptp.syncInterval) :
    syncTimeout s = s := by
  unfold syncTimeout
  rw [h]
  exact if_neg (Nat.not_le.mpr hlt)

theorem syncTimeout_none {s : State} (h : s.ptp.lastSync = none) : syncTimeout s = s := by
  unfold syncTimeout
  rw [h]

/-! ### The path delay (Table 4-7) -/

theorem delayReqOut_opens {s : State} (hus : ptpUsable s = true) (hrun : s.tim.running = true)
    (hfree : ∀ k, s.ptp.lastReq = some k → k + max (cS / 16) (logDur s.ptp.reqInterval) ≤ s.now) :
    ∃ q m, delayReqOut s = { s with
        ptp := { s.ptp with reqSeq := (s.ptp.reqSeq + 1) % 65536, lastReq := some s.now, pendReq := q :: s.ptp.pendReq }
        eth := { s.eth with txPri := [m] } } ∧ q.seq = s.ptp.reqSeq ∧ q.at_ = s.now := by
  refine ⟨_, _, if_pos ?_, rfl, rfl⟩
  rw [hus, hrun, Bool.true_and, Bool.and_true]
  split
  next k hk => exact decide_eq_true (hfree k hk)
  · rfl

theorem delayReqOut_waits {s : State} (h : ptpUsable s = false ∨ s.tim.running = false ∨
    ∃ k, s.ptp.lastReq = some k ∧ s.now < k + max (cS / 16) (logDur s.ptp.reqInterval)) : delayReqOut s = s := by
  refine if_neg fun hgo => ?_
  simp only [Bool.and_eq_true] at hgo
  obtain ⟨⟨hus, hfree⟩, hrun⟩ := hgo
  rcases h with h | h | ⟨k, hk, hlt⟩
  · cases h.symm.trans hus
  · cases h.symm.trans hrun
  · rw [hk] at hfree
    exact absurd (of_decide_eq_true hfree) (Nat.not_le.mpr hlt)

theorem delayRespIn_other {h : PtpHdr} {s : State} (forUs : Bool) (x : Nat) (corr : Int) (hother : ¬ s.ptp.best = some h.source) :
    delayRespIn h forUs x corr s = s := if_pos fun hours => hother hours.symm

theorem delayRespIn_answers {h : PtpHdr} {q : PendReq} {s : State} (x : Nat) (corr : Int) (hours : s.ptp.best = some h.source)
    (hfind : (s.ptp.pendReq.find? fun y => y.seq == h.seq) = some q) :
    ∃ d, delayRespIn h true x corr s = modPtp (fun p => { p with
      pendReq := p.pendReq.filter fun y => y.seq != h.seq, lost := 0, reqInterval := h.logInterval, delay := d }) s ∧
      ∀ r, s.ptp.raw = some r → d = some ((r + (x - q.tx - corr)) / 2) := by
  unfold delayRespIn
  rw [if_neg (fun hne => hne hours.symm), hfind]
  dsimp only
  split
  next hraw => exact ⟨s.ptp.delay, rfl, fun r hr => by cases (show s.ptp.raw = none from hraw).symm.trans hr⟩
  next r hraw =>
    refine ⟨_, rfl, fun r' hr => ?_⟩
    cases (show s.ptp.raw = some r from hraw).symm.trans hr
    rfl

theorem delayRespIn_no_request {h : PtpHdr} {forUs : Bool} {s : State} (x : Nat) (corr : Int) (hours : s.ptp.best = some h.source)
    (hnone : forUs = false ∨ ∀ y ∈ s.ptp.pendReq, y.seq ≠ h.seq) :
    delayRespIn h forUs x corr s = ptpViol 4 (ptpWords 9 h false corr) s := by
  unfold delayRespIn
  rw [if_neg (fun hne => hne hours.symm)]
  cases forUs with
  | false => rfl
  | true =>
    have hfind : (s.ptp.pendReq.find? fun y => y.seq == h.seq) = none :=
      List.find?_eq_none.mpr fun y hy => by simpa using hnone.resolve_left nofun y hy
    rw [hfind]

theorem delayRespTimeout_pendReq (s : State) :
    (delayRespTimeout s).ptp.pendReq = s.ptp.pendReq.filter fun x => !decide (cS + x.at_ ≤ s.now) := by
  unfold delayRespTimeout
  extract_lets due lose
  refine List.foldlRecOn (motive := fun u : State => u.ptp.pendReq = s.ptp.pendReq.filter fun x => !decide (cS + x.at_ ≤ s.now)) due lose rfl ?_
  intro u hu x _
  have hlost (n : Nat) (ws : List Nat) : (modPtp (fun p => { p with lost := n }) (ptpViol 5 ws u)).ptp.pendReq =
      s.ptp.pendReq.filter fun x => !decide (cS + x.at_ ≤ s.now) := (congrArg Ptp.pendReq (ptpViol_ptp 5 ws u)).trans hu
  exact view_ite (v := fun w : State => w.ptp.pendReq) ((congrArg Ptp.pendReq (loseLock_ptp _)).trans (hlost _ _)) (hlost _ _)

theorem delayRespTimeout_not_due {s : State} (h : ∀ x ∈ s.ptp.pendReq, s.now < cS + x.at_) : delayRespTimeout s = s := by
  have hnone : (s.ptp.pendReq.filter fun x => decide (cS + x.at_ ≤ s.now)) = [] :=
    List.filter_eq_nil_iff.mpr fun x hx => by simpa using h x hx
  have hall : (s.ptp.pendReq.filter fun x => !decide (cS + x.at_ ≤ s.now)) = s.ptp.pendReq :=
    List.filter_eq_self.mpr fun x hx => by simpa using h x hx
  unfold delayRespTimeout
  rw [hnone, List.foldl_nil, modPtp, hall]

/-! ### The statement -/

theorem exec_ptpAnnounce (t : Instant) (h : PtpHdr) (a : PtpAnnounce) (s : State) :
    exec (.ptpAnnounce t h a) s = .next (ptpMsg 0xB h false 0 (announceIn h a) (advance t s)) := rfl
theorem exec_ptpSync (t : Instant) (h : PtpHdr) (two : Bool) (origin : Nat) (corr : Int) (s : State) :
    exec (.ptpSync t h two origin corr) s = .next (ptpMsg 0 h two corr (syncIn h two origin corr) (advance t s)) := rfl
theorem exec_ptpFollowUp (t : Instant) (h : PtpHdr) (origin : Nat) (corr : Int) (s : State) :
    exec (.ptpFollowUp t h origin corr) s = .next (ptpMsg 8 h false corr (followUpIn h origin corr) (advance t s)) := rfl
theorem exec_ptpDelayResp (t : Instant) (h : PtpHdr) (forUs : Bool) (x : Nat) (corr : Int) (s : State) :
    exec (.ptpDelayResp t h forUs x corr) s = .next (ptpMsg 9 h false corr (delayRespIn h forUs x corr) (advance t s)) := rfl
theorem exec_ptpDelayReqSend (t : Instant) (s : State) : exec (.ptpDelayReqSend t) s = .next (delayReqOut (advance t s)) := rfl
theorem exec_ptpAnnounceTimeout (t : Instant) (s : State) : exec (.ptpAnnounceTimeout t) s = .next (announceTimeout (advance t s)) := rfl
theorem exec_ptpSyncTimeout (t : Instant) (s : State) : exec (.ptpSyncTimeout t) s = .next (syncTimeout (advance t s)) := rfl
theorem exec_ptpFollowUpTimeout (t : Instant) (s : State) : exec (.ptpFollowUpTimeout t) s = .next (followUpTimeout (advance t s)) := rfl
theorem exec_ptpDelayRespTimeout (t : Instant) (s : State) :
    exec (.ptpDelayRespTimeout t) s = .next (delayRespTimeout (advance t s)) := rfl

/-- Each of the four messages is received as `ptpMsg` says. -/
theorem exec_ptpMessage {t : Instant} {h : PtpHdr} {a : PtpAnnounce} {two forUs : Bool} {origin x : Nat} {corr : Int} {c : Instr}
    (hc : c ∈ [Instr.ptpAnnounce t h a, .ptpSync t h two origin corr, .ptpFollowUp t h origin corr, .ptpDelayResp t h forUs x corr])
    (s : State) : ∃ type b e f, exec c s = .next (ptpMsg type h b e f (advance t s)) := by
  simp only [List.mem_cons, List.not_mem_nil, or_false] at hc
  rcases hc with rfl | rfl | rfl | rfl
  · exact ⟨_, _, _, _, exec_ptpAnnounce ..⟩
  · exact ⟨_, _, _, _, exec_ptpSync ..⟩
  · exact ⟨_, _, _, _, exec_ptpFollowUp ..⟩
  · exact ⟨_, _, _, _, exec_ptpDelayResp ..⟩

/-- Settles O44: every message by `ptpMsg_inactive`, `ptpMsg_not_meant` and `ptpMsg_breach`; those taken by `announceIn_renews`, `syncIn_taken`,
`followUpIn_completes` and `delayRespIn_answers`, with `ptpOffset_syncView` for what the servo leaves; the timeouts by their lemmas. -/
theorem ptpCommands : Obligations.PtpCommands := by
  intro t h a two forUs origin rx corr s u msgs sound meant ours viol lim gap
  have hviol (row : Nat) (ws : List Nat) : viol (ptpViol row ws u) := ⟨ptpViol_counts .., ptpViol_ptp .., ptpViol_tim ..⟩
  refine ⟨fun c hc => ?every, fun hon hsound hmeant => ?taken,
    fun hus hrun hfree => ⟨_, exec_ptpDelayReqSend .., ?send⟩, fun hwait => ⟨_, exec_ptpDelayReqSend .., delayReqOut_waits hwait⟩,
    fun m hm => ⟨fun hdue => ⟨_, exec_ptpAnnounceTimeout .., announceTimeout_drops hm hdue⟩,
      fun hlt => ⟨_, exec_ptpAnnounceTimeout .., announceTimeout_not_due hm hlt⟩⟩,
    fun k hk => ⟨fun hdue => ⟨_, exec_ptpSyncTimeout .., ?silent⟩, fun hlt => ⟨_, exec_ptpSyncTimeout .., syncTimeout_not_due hk hlt⟩⟩,
    fun hnone => ⟨_, exec_ptpSyncTimeout .., syncTimeout_none hnone⟩,
    ⟨_, exec_ptpFollowUpTimeout .., followUpTimeout_leaves u⟩,
    ⟨_, exec_ptpDelayRespTimeout .., delayRespTimeout_pendReq u, delayRespTimeout_not_due⟩⟩
  case every =>
    obtain ⟨type, b, e, f, hexec⟩ := exec_ptpMessage hc s
    refine ⟨fun hign => ⟨_, hexec, ?_⟩, fun hon hnot => ⟨_, hexec, ?_⟩⟩
    · rcases hign with hoff | ⟨hsound, hnot⟩
      · exact ptpMsg_inactive hoff
      · exact ptpMsg_not_meant hsound hnot
    · rw [ptpMsg_breach hon hnot]
      exact hviol _ _
  case taken =>
    have htake (type : Nat) (b : Bool) (e : Int) (f : State → State) : ptpMsg type h b e f u = f u := ptpMsg_taken hon hsound hmeant
    have hann : exec (.ptpAnnounce t h a) s = .next (announceIn h a u) := by rw [exec_ptpAnnounce, htake]
    have hsync : exec (.ptpSync t h two origin corr) s = .next (syncIn h two origin corr u) := by rw [exec_ptpSync, htake]
    have hfollow : exec (.ptpFollowUp t h origin corr) s = .next (followUpIn h origin corr u) := by rw [exec_ptpFollowUp, htake]
    have hresp : exec (.ptpDelayResp t h forUs rx corr) s = .next (delayRespIn h forUs rx corr u) := by rw [exec_ptpDelayResp, htake]
    refine ⟨fun hroom => ⟨_, hann, announceIn_renews a hroom, announceIn_best h a u⟩,
      fun hours hlo hhi hroom => ⟨_, hsync, ?sync⟩,
      fun hother => ⟨⟨_, hsync, syncIn_other two origin corr hother⟩, ⟨_, hfollow, followUpIn_other origin corr hother⟩,
        ⟨_, hresp, delayRespIn_other forUs rx corr hother⟩⟩,
      fun p hours hfind => ⟨_, hfollow, ?follow⟩, fun hours hnone => ⟨_, hfollow, ?noSync⟩,
      fun q hours hfor hfind => ⟨_, hresp, ?answer⟩, fun hours hnone => ⟨_, hresp, ?noRequest⟩⟩
    case sync =>
      rw [syncIn_taken two origin corr hours hlo hhi hroom]
      refine ⟨fun htwo => ?_, fun hone => ?_⟩
      · rw [if_pos htwo]
        exact ⟨rfl, _, List.mem_cons_self, rfl, rfl, rfl, rfl⟩
      · rw [if_neg (by rw [hone]; nofun)]
        refine ⟨congrArg Prod.fst (ptpOffset_syncView rfl _ origin corr _), fun hdelay => ?_⟩
        rw [ptpOffset_first (s := syncArrived h u) hdelay]
        exact ⟨rfl, rfl⟩
    case follow =>
      have hseq : p.seq = h.seq := by simpa using List.find?_some hfind
      rw [followUpIn_completes origin corr hours hfind]
      obtain ⟨hgone, hlast⟩ := ptpOffset_syncDone p origin (p.corr + corr) p.hdr u
      refine ⟨hseq ▸ hgone, hlast, fun hdelay => ?_⟩
      rw [ptpOffset_first (s := syncDone p u) hdelay]
      rfl
    case noSync =>
      rw [followUpIn_no_sync origin corr hours hnone]
      exact hviol _ _
    case answer =>
      subst hfor
      obtain ⟨d, hansw, hd⟩ := delayRespIn_answers rx corr hours hfind
      rw [hansw]
      exact ⟨rfl, fun y hy => by simpa using (List.mem_filter.mp hy).2, rfl, hd⟩
    case noRequest =>
      rw [delayRespIn_no_request rx corr hours hnone]
      exact hviol _ _
  case send =>
    obtain ⟨q, m, hopen, hseq, hat⟩ := delayReqOut_opens hus hrun hfree
    rw [hopen]
    exact ⟨⟨q, rfl, hseq, hat⟩, rfl, rfl, rfl⟩
  case silent =>
    rw [syncTimeout_due hk hdue]
    exact ⟨rfl, lockGivenUp_st u⟩

end Sys2Proof.Machine
end

section
/-!
SUPPORT. The canonical form of every memory: at reset, and over a step.
-/

namespace Sys2Proof.Machine

open Sys2Proof

/-- What `Kept` says of the memories is what `Canon` says of them. -/
theorem Kept.canon {s w : State} (h : Kept s w) (hs : Canon s) : Canon w := by
  obtain ⟨hmram, hvstore, htset, hmem, hstat, hwave⟩ := hs
  have hocts : OctsOk s.octs := fun k => by
    by_cases hk : k < 8
    · exact hwave k hk
    · rw [vget_ge _ _ _ (Nat.not_lt.mp hk)]
      rfl
  obtain ⟨hvstore', htset', hmem', hstat'⟩ := h.seg ⟨hvstore, htset, hmem, hstat⟩
  exact ⟨h.mram hmram, hvstore', htset', hmem', hstat', fun k _ => h.octs hocts k⟩

theorem step_cons {s : State} {c : Instr} {rest : List Instr} (h : s.pending = c :: rest) :
    step s = exec c { s with pending := rest } := by
  rw [step, h]

theorem step_nil {s : State} (h : s.pending = []) : step s = .next s := by
  rw [step, h]

/-- Settles O58: every command keeps what `Kept` names (`exec_kept`), the queue it is run with and the memories (`Kept.canon`) among it. -/
theorem stepKeepsMemory : Obligations.StepKeepsMemory := by
  refine ⟨fun s c rest hc => ?_, fun s w hnil hw => ?_⟩
  · obtain ⟨w, hw, hk⟩ := exec_kept c { s with pending := rest }
    exact ⟨w, (step_cons hc).trans hw, hk.pending, hk.now, hk.canon⟩
  · cases (step_nil hnil).symm.trans hw
    exact ⟨hnil, Nat.le_refl _, id⟩

theorem canon_reset : Canon State.reset := ⟨rfl, rfl, rfl, rfl, rfl, fun k _ => octsOk_reset k⟩

theorem capacity_reset : Capacity State.reset := by
  obtain ⟨hlog, hhead⟩ := logOk_nil
  exact ⟨hlog, Nat.zero_le _, Nat.zero_le _, Nat.zero_le _, sessNone, Nat.zero_le _, Nat.zero_le _, Nat.zero_le _, Nat.zero_le _,
    capsOk_reset, hhead⟩

/-- Settles O60: at reset every memory lists nothing and every buffer is empty. -/
theorem invariantsAtReset : Obligations.InvariantsAtReset := ⟨canon_reset, capacity_reset⟩

end Sys2Proof.Machine
end

section
/-!
SUPPORT. The routine table (05 R138 to R142): what an occurrence, a submission and AFTER do, and the statement about them.
-/

set_option Elab.async false

namespace Sys2Proof.Machine

open Sys2Proof

/-! ### What occurrences look at -/

/-- The routine table, the time base, the registers and the power state: all that an occurrence is judged by. -/
def routineView (s : State) : Rt × Tim × Regs × PwrSt := (s.rt, s.tim, s.r, s.pwr.st)

/-- A request that a fault makes is one for Evening, which leaves every AFTER state waiting. -/
theorem routineView_calmDue (a : Rt × Tim × Regs × PwrSt) : CalmDue (fun s => routineView s = a) fun _ => False where
  evPend _ _ h := h
  log _ _ _ h := h
  pend _ _ _ h := h
  pins _ _ h := h
  octs _ _ _ h := h
  acts _ _ h := h
  stop _ _ _ _ h := h
  caps _ _ h := h
  evid _ _ h := h
  cal _ _ _ h := h
  flt _ _ _ h := h
  slot _ _ _ _ h := h
  srings _ _ h := h
  stopCause _ _ h := h
  running _ _ _ h := h.elim
  seg _ _ h := h
  bus _ _ h := h
  head _ _ _ h := h

theorem rt_of_routineView {s w : State} (h : routineView w = routineView s) : w.rt = s.rt := congrArg Prod.fst h
theorem r_of_routineView {s w : State} (h : routineView w = routineView s) : w.r = s.r := congrArg (fun v => v.2.2.1) h

theorem faultU_routineView (src detail : Nat) (s : State) : routineView (faultU src detail s) = routineView s :=
  faultU_calm (routineView_calmDue _).toCalm rfl _ _

theorem notice_routineView (code value : Nat) (ws : List Nat) (s : State) : routineView (notice code value ws s) = routineView s :=
  notice_calm (routineView_calmDue _).toCalm rfl _ _ _

theorem rtSkip_routineView (i n : Nat) (s : State) : routineView (rtSkip i n s) = routineView s :=
  view_ite rfl (faultU_routineView _ _ _)

theorem calRequest_routineView (mask : Nat) (s : State) : routineView (calRequest mask s) = routineView s :=
  calRequest_calm (routineView_calmDue _).toCalm rfl mask

theorem jobDue_routineView (s : State) : routineView (jobDue s) = routineView s := jobDue_calm (routineView_calmDue _) rfl

/-- The table with the next occurrence of entry `i` acted on. -/
def consumed (i : Nat) (x : Rt) : Rt := { x with next := x.next.set i (x.next.getD i 0 + 1) }

theorem rtConsume_eq (i : Nat) (s : State) : ∃ n, rtConsume i s = { s with rt := consumed i s.rt, nw := n } := armAlarm_eq _

theorem rtConsume_routineView (i : Nat) (s : State) : routineView (rtConsume i s) = (consumed i s.rt, s.tim, s.r, s.pwr.st) := by
  obtain ⟨n, hn⟩ := rtConsume_eq i s
  rw [hn]
  rfl

/-- A skipped occurrence is counted and logged, and the entry goes on to its next one. -/
theorem rtConsume_rtSkip_routineView (i n : Nat) (s : State) :
    routineView (rtConsume i (rtSkip i n s)) = (consumed i s.rt, s.tim, s.r, s.pwr.st) := by
  have hskip := rtSkip_routineView i n s
  simp only [routineView, Prod.mk.injEq] at hskip
  obtain ⟨hrt, htim, hr, hst⟩ := hskip
  rw [rtConsume_routineView, hrt, htim, hr, hst]

theorem consumed_next_same {i : Nat} {x : Rt} (hi : i < x.next.length) : (consumed i x).next.getD i 0 = x.next.getD i 0 + 1 := by
  simp [consumed, hi]

theorem consumed_next_ne {i j : Nat} (x : Rt) (h : i ≠ j) : (consumed i x).next.getD j 0 = x.next.getD j 0 := by
  simp [consumed, List.getD_eq_getElem?_getD, List.getElem?_set_ne h]

theorem consumed_next_length (i : Nat) (x : Rt) : (consumed i x).next.length = x.next.length := List.length_set

/-- The next occurrence of an entry depends on the table's entries, on its own number in the table and on VALID. -/
theorem rtNext_congr {s w : State} {j : Nat} (hentries : w.rt.entries = s.rt.entries) (hvalid : w.tim.valid = s.tim.valid)
    (hnext : w.rt.next.getD j 0 = s.rt.next.getD j 0) : rtNext w j = rtNext s j := by
  unfold rtNext rtEntry
  rw [hentries, hvalid, hnext]

/-! ### The entries that act together (R142) -/

theorem mem_rtSame {s : State} {i j c : Nat} (hi : rtNext s i = some c) : j ∈ rtSame s i ↔ j ≤ i ∧ rtNext s j = some c := by
  have hiff : (j < i ∧ (rtNext s j).isSome = true ∧ rtNext s j = rtNext s i) ↔ j < i ∧ rtNext s j = some c := by
    refine and_congr_right fun _ => ⟨fun h => h.2.trans hi, fun h => ⟨by simp [h], h.trans hi.symm⟩⟩
  simp only [rtSame, List.mem_append, List.mem_filter, List.mem_range, List.mem_singleton, Bool.and_eq_true, beq_iff_eq, hiff]
  constructor
  · rintro (⟨hlt, hj⟩ | rfl)
    · exact ⟨hlt.le, hj⟩
    · exact ⟨le_rfl, hi⟩
  · rintro ⟨hle, hj⟩
    exact (Nat.lt_or_eq_of_le hle).imp (⟨·, hj⟩) id

theorem rtSame_nodup (s : State) (i : Nat) : (rtSame s i).Nodup := by
  refine (List.nodup_range.filter _).append (List.nodup_singleton i) (List.disjoint_singleton.mpr fun h => ?_)
  simp at h

/-- An entry acts alone where none below it has the same S. -/
theorem rtSame_alone {s : State} {i : Nat} (h : ∀ j < i, rtNext s j ≠ rtNext s i) : rtSame s i = [i] := by
  rw [rtSame, List.filter_eq_nil_iff.mpr fun j hj => ?_, List.nil_append]
  simp [h j (List.mem_range.mp hj)]

theorem rtSame_none {s : State} {i : Nat} (h : rtNext s i = none) : rtSame s i = [i] := by
  rw [rtSame, List.filter_eq_nil_iff.mpr fun j _ => ?_, List.nil_append]
  rw [h]
  cases rtNext s j <;> simp

theorem rtOccur_alone {s : State} {i : Nat} (h : ∀ j < i, rtNext s j ≠ rtNext s i) : rtOccur i s = rtOccurOne s i := by
  rw [rtOccur, rtSame_alone h]
  rfl

/-! ### One occurrence -/

theorem rtOccurOne_none {s : State} {i : Nat} (h : rtNext s i = none) : rtOccurOne s i = s := by
  rw [rtOccurOne, h]

theorem rtOccurOne_not_due {s : State} {i c : Nat} (h : rtNext s i = some c) (hc : s.tim.codes < rtDueAt (rtEntry s i) c) :
    rtOccurOne s i = s := by
  simp only [rtOccurOne, h, if_pos (Or.inl hc)]

theorem rtOccurOne_job {s : State} {i c : Nat} (h : rtNext s i = some c) (hon : fastOn s = true) (hen : routineEn s = true)
    (hst : s.pwr.st ≠ .maint) (hact : (rtEntry s i).action = 1) : rtOccurOne s i = s := by
  simp [rtOccurOne, h, hon, hen, hst, hact]

section Due

variable {s : State} {i c : Nat} (h : rtNext s i = some c) (hc : rtDueAt (rtEntry s i) c ≤ s.tim.codes) (hon : fastOn s = true)
include h hc hon

theorem rtOccurOne_disabled (hen : routineEn s = false) : rtOccurOne s i = rtConsume i (rtSkip i 1 s) := by
  simp [rtOccurOne, h, hc, hon, hen]

theorem rtOccurOne_calibrate (hen : routineEn s = true) (hst : s.pwr.st ≠ .maint) (hact : (rtEntry s i).action = 3) :
    rtOccurOne s i = if inDay (rtConsume i s) then calRequest (rtEntry s i).arg (rtConsume i s) else rtConsume i s := by
  simp [rtOccurOne, rtAct, h, hc, hon, hen, hst, hact]

end Due

/-- While ROUTINE_EN is 0 an occurrence does nothing, or the entry goes on to its next one. -/
theorem rtOccurOne_disabled_view {s : State} (i : Nat) (hen : routineEn s = false) : routineView (rtOccurOne s i) = routineView s ∨
    routineView (rtOccurOne s i) = (consumed i s.rt, s.tim, s.r, s.pwr.st) := by
  unfold rtOccurOne
  dsimp only
  split
  · exact .inl rfl
  · split
    · exact .inl rfl
    · rw [if_pos (.inl (by simp [hen]))]
      exact .inr (rtConsume_rtSkip_routineView ..)

/-! ### Occurrences at one S while ROUTINE_EN is 0 -/

/-- The next occurrence of entry `j`, its number `n`, is due at S `c`, while ROUTINE_EN is 0. -/
structure DueDisabled (j c n : Nat) (s : State) : Prop where
  on : fastOn s = true
  disabled : routineEn s = false
  listed : j < s.rt.next.length
  number : s.rt.next.getD j 0 = n
  next : rtNext s j = some c
  due : rtDueAt (rtEntry s j) c ≤ s.tim.codes

theorem rtOccurOne_other {j k n : Nat} {s : State} (hkj : k ≠ j) (hs : routineEn s = false ∧ s.rt.next.getD j 0 = n) :
    routineEn (rtOccurOne s k) = false ∧ (rtOccurOne s k).rt.next.getD j 0 = n := by
  obtain ⟨hen, hn⟩ := hs
  rcases rtOccurOne_disabled_view k hen with h | h <;> simp only [routineView, Prod.mk.injEq] at h <;> obtain ⟨hrt, -, hr, -⟩ := h
  · rw [routineEn, hr, hrt]
    exact ⟨hen, hn⟩
  · rw [routineEn, hr, hrt, consumed_next_ne _ hkj]
    exact ⟨hen, hn⟩

theorem DueDisabled.other {j k c n : Nat} {s : State} (hs : DueDisabled j c n s) (hkj : k ≠ j) : DueDisabled j c n (rtOccurOne s k) := by
  obtain ⟨hen', hn'⟩ := rtOccurOne_other hkj ⟨hs.disabled, hs.number⟩
  obtain ⟨hentries, hlen, htim, hst⟩ : (rtOccurOne s k).rt.entries = s.rt.entries ∧ (rtOccurOne s k).rt.next.length = s.rt.next.length ∧
      (rtOccurOne s k).tim = s.tim ∧ (rtOccurOne s k).pwr.st = s.pwr.st := by
    rcases rtOccurOne_disabled_view k hs.disabled with h | h <;> simp only [routineView, Prod.mk.injEq] at h <;>
      obtain ⟨hrt, htim, -, hst⟩ := h
    · exact ⟨by rw [hrt], by rw [hrt], htim, hst⟩
    · exact ⟨by rw [hrt]; rfl, by rw [hrt, consumed_next_length], htim, hst⟩
  have hentry : rtEntry (rtOccurOne s k) j = rtEntry s j := by rw [rtEntry, hentries, rtEntry]
  exact {
    on := by simpa only [fastOn, hst] using hs.on
    disabled := hen'
    listed := hlen ▸ hs.listed
    number := hn'
    next := (rtNext_congr hentries (by rw [htim]) (hn'.trans hs.number.symm)).trans hs.next
    due := by rw [hentry, htim]; exact hs.due }

theorem DueDisabled.skipped {j c n : Nat} {s : State} (hs : DueDisabled j c n s) :
    routineEn (rtOccurOne s j) = false ∧ (rtOccurOne s j).rt.next.getD j 0 = n + 1 := by
  have hview := rtConsume_rtSkip_routineView j 1 s
  simp only [routineView, Prod.mk.injEq] at hview
  obtain ⟨hrt, -, hr, -⟩ := hview
  rw [rtOccurOne_disabled hs.next hs.due hs.on hs.disabled, routineEn, hr, hrt, consumed_next_same hs.listed, hs.number]
  exact ⟨hs.disabled, rfl⟩

/-- Of the entries listed, each whose next occurrence is due goes on to the one after it. -/
theorem foldl_rtOccurOne_skips {j c n : Nat} (l : List Nat) :
    ∀ s : State, l.Nodup → j ∈ l → DueDisabled j c n s → (l.foldl rtOccurOne s).rt.next.getD j 0 = n + 1 := by
  induction l with
  | nil => exact fun _ _ hmem => absurd hmem List.not_mem_nil
  | cons k l ih =>
    intro s hnd hmem hs
    obtain ⟨hk, hnd⟩ := List.nodup_cons.mp hnd
    rw [List.foldl_cons]
    by_cases hkj : k = j
    · subst hkj
      exact (List.foldlRecOn (motive := fun u => routineEn u = false ∧ u.rt.next.getD k 0 = n + 1) l _ hs.skipped
        fun u hu i hi => rtOccurOne_other (fun hik => hk (hik ▸ hi)) hu).2
    · exact ih _ hnd ((List.mem_cons.mp hmem).resolve_left (Ne.symm hkj)) (hs.other hkj)

/-! ### CALIBRATE (R139) -/

theorem notice_octs (code value : Nat) (s : State) : (notice code value [] s).octs = s.octs := by
  obtain ⟨l, n, e, h⟩ := notice_eq code value s
  rw [h]

/-- Every powered octet of the mask with no window under way has a request waiting. -/
theorem calRequest_pending {mask k : Nat} {s : State} (hk : k < 8) (hmask : mask.testBit k = true) (hon : octOn s k = true)
    (hwin : (octAt s k).win = none) : (octAt (calRequest mask s) k).calPend.isSome = true := by
  have hlive : (mask &&& s.pwr.octActive.toNat).testBit k = true := by
    rw [Nat.testBit_and, hmask, Bool.true_and]
    exact hon
  have hocts : (calRequest mask s).octs = vmap s.octs fun k o =>
      if ((mask &&& s.pwr.octActive.toNat).testBit k && o.calPend.isNone && o.win.isNone) = true then
        { o with calPend := some s.now, calOverdue := false } else o := by
    unfold calRequest
    extract_lets live dead s1
    split
    · rfl
    · exact notice_octs ..
  rw [octAt] at hwin ⊢
  rw [hocts, vget_vmap _ _ _ _ hk]
  split
  · rfl
  next h =>
    simp only [hlive, hwin, Option.isNone_none, Bool.and_true, Bool.true_and, Bool.not_eq_true, Option.isNone_eq_false_iff] at h
    exact h

/-- A CALIBRATE entry goes on to its next occurrence, and requests its windows in Day alone. -/
theorem rtOccurOne_calibrates {s : State} {i c : Nat} (h : rtNext s i = some c) (hc : rtDueAt (rtEntry s i) c ≤ s.tim.codes)
    (hon : fastOn s = true) (hen : routineEn s = true) (hst : s.pwr.st ≠ .maint) (hact : (rtEntry s i).action = 3) :
    (rtOccurOne s i).rt.next = s.rt.next.set i (s.rt.next.getD i 0 + 1) ∧
    (s.pwr.st = .day → ∀ k < 8, (rtEntry s i).arg.testBit k = true → octOn s k = true → (octAt s k).win = none →
      (octAt (rtOccurOne s i) k).calPend.isSome = true) ∧
    (s.pwr.st ≠ .day → (rtOccurOne s i).octs = s.octs) := by
  obtain ⟨hrt, hocts, hpwr⟩ : (rtConsume i s).rt = consumed i s.rt ∧ (rtConsume i s).octs = s.octs ∧ (rtConsume i s).pwr = s.pwr := by
    obtain ⟨n, hn⟩ := rtConsume_eq i s
    rw [hn]
    exact ⟨rfl, rfl, rfl⟩
  rw [rtOccurOne_calibrate h hc hon hen hst hact]
  have hday : inDay (rtConsume i s) = true ↔ s.pwr.st = .day := by rw [inDay_iff, hpwr]
  refine ⟨?_, fun hd k hk hmask hk' hwin => ?_, fun hd => ?_⟩
  · split
    · rw [rt_of_routineView (calRequest_routineView ..), hrt]
      rfl
    · rw [hrt]
      rfl
  · rw [if_pos (hday.mpr hd)]
    exact calRequest_pending hk hmask (by rw [octOn, hpwr]; exact hk') (by rw [octAt, hocts]; exact hwin)
  · rw [if_neg fun h => hd (hday.mp h), hocts]

/-! ### Submissions (R139, R142) -/

theorem refuse_routineView (source code : Nat) (s : State) : routineView (refuse source code s).1 = routineView s := by
  have hbump : routineView (bump rgJob 24 8 1 (if code = 9 then bump rgTset 8 8 1 s else s)) = routineView s :=
    (show _ = routineView (if code = 9 then bump rgTset 8 8 1 s else s) from rfl).trans (view_ite rfl rfl)
  exact view_ite ((faultU_routineView ..).trans hbump) hbump

theorem submitEdge_routineView (d : JobDesc) (f : Option TFail) (s : State) : routineView (submitEdge d f s) = routineView s := by
  unfold submitEdge
  dsimp only
  split
  · rfl
  · rfl

/-- A submission, taken or refused, leaves the routine table as it is. -/
theorem submit_routineView (source : Nat) (raw : RawDesc) (occ : Option (Nat × Nat)) (s : State) :
    routineView (submit source raw occ s).1 = routineView s := by
  unfold submit
  extract_lets d0 d d' c f s1 sl stalled s2
  have h1 : routineView s1 = routineView s := submitEdge_routineView ..
  have hstall : routineView (stalled s1) = routineView s := view_ite h1 h1
  have h2 : routineView (jobDue s2) = routineView s := (jobDue_routineView s2).trans hstall
  split
  · exact refuse_routineView ..
  split
  · exact refuse_routineView ..
  split
  · exact refuse_routineView ..
  split
  · exact refuse_routineView ..
  split
  · exact (refuse_routineView ..).trans h1
  split
  · exact (refuse_routineView ..).trans hstall
  · dsimp only
    exact h2

theorem jobNo_unseen : Unseen fun s : State => s.nw.jobNo := by
  constructor <;> intros <;> rfl

theorem rtSkip_jobNo (i n : Nat) (s : State) : (rtSkip i n s).nw.jobNo = s.nw.jobNo := by
  unfold rtSkip
  split
  · rfl
  · exact fault_unseen jobNo_unseen (s := bump rgBoot 24 8 n s) rfl _ _ _

theorem rtSubmitOne_none {s : State} {i : Nat} (h : rtNext s i = none) : rtSubmitOne s i = s := by
  rw [rtSubmitOne, h]

theorem rtSubmitOne_other {s : State} {i : Nat} (h : (rtEntry s i).action ≠ 1 ∨ s.pwr.st ≠ .day) : rtSubmitOne s i = s := by
  unfold rtSubmitOne
  dsimp only
  split
  · rfl
  · refine if_neg fun ⟨hact, hday, _⟩ => ?_
    exact h.elim (· hact) (· hday)

/-- A JOB entry at its time submits its template and goes on to its next occurrence. -/
theorem rtSubmitOne_submits {s : State} {i c : Nat} (h : rtNext s i = some c) (hact : (rtEntry s i).action = 1) (hday : s.pwr.st = .day)
    (hen : routineEn s = true) (hc : c ≤ cS + s.tim.codes) :
    (rtSubmitOne s i).rt.next = s.rt.next.set i (s.rt.next.getD i 0 + 1) ∧
    (rtSubmitOne s i).nw.jobNo = (submit 2 ⟨false, templateBytes s (rtEntry s i).arg⟩ (some (i, c)) (rtConsume i s)).1.nw.jobNo := by
  have hsub := submit_routineView 2 ⟨false, templateBytes s (rtEntry s i).arg⟩ (some (i, c)) (rtConsume i s)
  rw [rtConsume_routineView] at hsub
  have hnext : (submit 2 ⟨false, templateBytes s (rtEntry s i).arg⟩ (some (i, c)) (rtConsume i s)).1.rt.next =
      s.rt.next.set i (s.rt.next.getD i 0 + 1) := congrArg (fun v => v.1.next) hsub
  simp only [rtSubmitOne, h]
  rw [if_pos ⟨hact, hday, hen, hc⟩]
  split
  · split
    · exact ⟨hnext, rfl⟩
    · exact ⟨hnext, rfl⟩
  · split
    · exact ⟨(congrArg (fun v => v.1.next) (rtSkip_routineView i 1 _)).trans hnext, rtSkip_jobNo ..⟩
    · exact ⟨hnext, rfl⟩

theorem rtSubmit_alone {s : State} {i : Nat} (h : ∀ j < i, rtNext s j ≠ rtNext s i) : rtSubmit i s = rtSubmitOne s i := by
  rw [rtSubmit, rtSame_alone h]
  rfl

theorem rtSubmit_leaves {s : State} {i : Nat}
    (h : rtNext s i = none ∨ ((∀ j < i, rtNext s j ≠ rtNext s i) ∧ (rtEntry s i).action ≠ 1) ∨ s.pwr.st ≠ .day) : rtSubmit i s = s := by
  rcases h with hnone | ⟨halone, hact⟩ | hday
  · rw [rtSubmit, rtSame_none hnone]
    exact rtSubmitOne_none hnone
  · rw [rtSubmit_alone halone]
    exact rtSubmitOne_other (.inl hact)
  · refine List.foldlRecOn (motive := (· = s)) _ _ rfl fun u hu j _ => ?_
    rw [hu]
    exact rtSubmitOne_other (.inr hday)

/-! ### AFTER (R139) -/

theorem notice_rt (code value : Nat) (ws : List Nat) (s : State) : (notice code value ws s).rt = s.rt :=
  rt_of_routineView (notice_routineView code value ws s)

theorem holdRequest_rt (p : PwrPend) (s : State) : (holdRequest p s).rt = s.rt := view_ite (v := State.rt) rfl rfl

theorem duskUndo_rt (s : State) : (duskUndo s).rt = s.rt := by
  unfold duskUndo
  split
  · exact view_ite (v := State.rt) rfl rfl
  · rfl

theorem duskAct_rt (p : PwrPend) (s : State) : (duskAct p s).rt = s.rt :=
  view_ite (v := State.rt) rfl (view_ite (v := State.rt) rfl (view_ite (v := State.rt) rfl (holdRequest_rt p s)))

theorem duskRequest_rt (p : PwrPend) (s : State) : (duskRequest p s).rt = s.rt :=
  view_ite (v := State.rt) rfl ((duskAct_rt p _).trans (duskUndo_rt s))

/-- No power request adds an AFTER state. -/
theorem pwrRequest_after {target : PwrSt} {source cause : Nat} {s : State} (h : s.rt.after = []) :
    (pwrRequest target source cause s).rt.after = [] := by
  have hday : (if nightOrEvening s target = .day then { s with rt := { s.rt with after := [] } } else s).rt.after = [] :=
    view_ite (v := fun u => u.rt.after) rfl h
  have hhold (p u) (hu : u.rt.after = []) : (holdRequest p u).rt.after = [] := by rw [holdRequest_rt, hu]
  have hnotice (code value : Nat) : (notice code value [] s).rt.after = [] := by rw [notice_rt, h]
  refine view_ite (v := fun u => u.rt.after) (hnotice _ _) (view_ite (v := fun u => u.rt.after) (hnotice _ _) ?_)
  dsimp only
  split
  · exact hday
  · rw [duskRequest_rt, hday]
  · exact view_ite (v := fun u => u.rt.after) hday (hhold _ _ hday)
  · exact view_ite (v := fun u => u.rt.after) hday (hhold _ _ hday)
  · exact hhold _ _ hday

/-- Whether a slot holds a job that has not ended. -/
def unended (st : JobSt) : Bool := st == .queued || st == .checking || st == .armed || st == .running

theorem rtAfter_requests {s : State} {a : Nat × Nat × Nat} (ha : a ∈ s.rt.after) (hend : jobEnded s a.2.1 = true)
    (hidle : slotsIn s unended = []) : (rtAfter s).rt.after = [] := by
  have hmem : a ∈ s.rt.after.filter fun a => jobEnded s a.2.1 := List.mem_filter.mpr ⟨ha, hend⟩
  unfold rtAfter
  extract_lets busy
  split
  next hnil => exact absurd (hnil ▸ hmem) List.not_mem_nil
  · rw [if_pos (show busy = [] from hidle)]
    exact pwrRequest_after rfl

theorem rtAfter_waits {s : State} (h : s.rt.after = [] ∨ slotsIn s unended ≠ []) : rtAfter s = s := by
  unfold rtAfter
  extract_lets busy
  split
  · rfl
  next hcons =>
    rcases h with hnil | hbusy
    · rw [hnil] at hcons
      exact absurd hcons (by simp)
    · exact if_neg hbusy

/-! ### ROUTINE_EN (R142) -/

theorem rtRecompute_regs (count : Bool) (s : State) : (rtRecompute count s).r = s.r := by
  have hskip (i n : Nat) (u : State) : (rtSkip i n u).r = u.r := r_of_routineView (rtSkip_routineView i n u)
  have harm (u : State) : (armAlarm u).r = u.r := by
    obtain ⟨n, hn⟩ := armAlarm_eq u
    rw [hn]
  refine view_ite (v := State.r) ((harm _).trans (view_foldl (v := State.r) _ _ rfl fun u i hu => ?_)) rfl
  exact (view_ite (v := State.r) (a := u.r) (hskip ..) rfl).trans hu

theorem fld_one (w : Word) (i : Nat) : fld w i 1 = b2n (w.getLsbD i) := by
  rw [fld, BitVec.getLsbD, Nat.testBit_eq_decide_div_mod_eq, Nat.shiftRight_eq_div_pow, b2n]
  rcases Nat.mod_two_eq_zero_or_one (w.toNat / 2 ^ i) with h | h <;> simp [h]

theorem bootRoutineWrite_en (v : Word) (s : State) : (bootRoutineWrite v s).r.bootRoutine.getLsbD 31 = v.getLsbD 31 := by
  have hset : (setFld s.r.bootRoutine 31 1 (fld v 31 1)).getLsbD 31 = v.getLsbD 31 := by
    rw [fld_one]
    exact setFld_bit _ (by decide)
  refine view_ite (v := fun u => u.r.bootRoutine.getLsbD 31) ?_ hset
  rw [rtRecompute_regs]
  exact hset

/-! ### The statement -/

theorem exec_routineOccurrence (t : Instant) (i : Nat) (s : State) : exec (.routineOccurrence t i) s = .next (rtOccur i (advance t s)) := rfl
theorem exec_routineJobSubmit (t : Instant) (i : Nat) (s : State) : exec (.routineJobSubmit t i) s = .next (rtSubmit i (advance t s)) := rfl
theorem exec_routineAfterRequest (t : Instant) (s : State) : exec (.routineAfterRequest t) s = .next (rtAfter (advance t s)) := rfl
theorem exec_routineEnableWrite (t : Instant) (p : Port) (v : Word) (s : State) : exec (.routineEnableWrite t p v) s =
    .next (portWrite p 0x064 v (fun u => (bootRoutineWrite v u, .done)) (advance t s)) := rfl

/-- Settles O35: the entries that act together by `foldl_rtOccurOne_skips`, one that acts alone by what `rtOccurOne` and `rtSubmitOne` do. -/
theorem routineTable : Obligations.RoutineTable := by
  intro t p i c v s u e alone
  refine ⟨fun hnext _ hon hen => ⟨_, exec_routineOccurrence .., fun j hj hlt hc hdue => ?_⟩, fun hnext hdue hon halone => ⟨?_, ?_, ?_⟩,
    fun halone hidle => ⟨_, exec_routineOccurrence .., ?_⟩, fun hnext halone hact hday hen hc => ⟨_, exec_routineJobSubmit .., ?_⟩,
    fun h => ⟨_, exec_routineJobSubmit .., rtSubmit_leaves h⟩,
    fun a ha hend hbusy => ⟨_, exec_routineAfterRequest .., rtAfter_requests ha hend hbusy⟩,
    fun h => ⟨_, exec_routineAfterRequest .., rtAfter_waits h⟩, fun hup => ⟨_, exec_routineEnableWrite .., ?_⟩⟩
  case refine_1 =>
    exact foldl_rtOccurOne_skips _ u (rtSame_nodup u i) ((mem_rtSame hnext).mpr ⟨hj, hc⟩) ⟨hon, hen, hlt, rfl, hc, hdue⟩
  case refine_2 =>
    intro hen
    refine ⟨_, exec_routineOccurrence .., ?_⟩
    rw [rtOccur_alone halone, rtOccurOne_disabled hnext hdue hon hen]
    exact congrArg (fun v => v.1.next) (rtConsume_rtSkip_routineView i 1 u)
  case refine_3 =>
    intro hen hst hact
    exact ⟨_, exec_routineOccurrence .., (rtOccur_alone halone).trans (rtOccurOne_job hnext hon hen hst hact)⟩
  case refine_4 =>
    intro hen hst hact
    refine ⟨_, exec_routineOccurrence .., ?_⟩
    rw [rtOccur_alone halone]
    exact rtOccurOne_calibrates hnext hdue hon hen hst hact
  case refine_5 =>
    rw [rtOccur_alone halone]
    rcases hidle with hnone | ⟨d, hd, hlt⟩
    · exact rtOccurOne_none hnone
    · exact rtOccurOne_not_due hd hlt
  case refine_6 =>
    rw [rtSubmit_alone halone]
    exact rtSubmitOne_submits hnext hact hday hen hc
  case refine_7 =>
    rw [portWrite_up hup]
    exact ⟨bootRoutineWrite_en v _, rfl⟩

end Sys2Proof.Machine
end

section
/-!
SUPPORT. The banks of a full Dawn (05 R130 to R137): what a bank's read and its timeout do, and the statement about them. A record applied
writes registers and memories, never where the Dawn stands.
-/

set_option Elab.async false

namespace Sys2Proof.Machine

open Sys2Proof

/-! ### Where a full Dawn stands with its banks -/

/-- The banks and the image of a full Dawn, its state, whether step 9 is open, and the instant. -/
structure DawnView where
  statA : Nat
  statB : Nat
  bank : Nat
  imageApplied : Bool
  reading : Option (Bank × Instant)
  cands : List Bank
  st : PwrSt
  ready : Bool
  now : Instant

def dawnView (s : State) : DawnView :=
  ⟨s.boot.statA, s.boot.statB, s.boot.bank, s.boot.imageApplied, s.boot.reading, s.boot.cands, s.pwr.st, s.pwr.dawnReady, s.now⟩

theorem dawnView_unseen : Unseen dawnView := by
  constructor <;> intros <;> rfl

theorem dawnView_calmDue (a : DawnView) : CalmDue (fun s => dawnView s = a) fun _ => False :=
  dawnView_unseen.calmDue a (fun _ _ => rfl) (fun _ _ => rfl) (fun _ _ => rfl) (fun _ _ => rfl) fun _ _ _ => rfl

section Dawn

variable {a : DawnView} {s : State} (h : dawnView s = a)
include h

/-- An update that writes nothing of it. -/
theorem upd_dawnView {w : State} (hw : dawnView w = dawnView s := by rfl) : dawnView w = a := hw.trans h

theorem notice_dawnView (code value : Nat) (ws : List Nat) : dawnView (notice code value ws s) = a := notice_unseen dawnView_unseen h _ _ _

theorem bump_dawnView (reg lo width amt : Nat) : dawnView (bump reg lo width amt s) = a := bump_unseen dawnView_unseen h _ _ _ _

theorem setCond_dawnView (src oct : Nat) (c : Bool) : dawnView (setCond src oct c s) = a := setCond_unseen dawnView_unseen h _ _ _

theorem fault_dawnView (x : FltAt) (detail : Nat) (ws : List Nat) : dawnView (fault x detail ws s) = a :=
  fault_unseen dawnView_unseen h _ _ _

theorem faultU_dawnView (src detail : Nat) : dawnView (faultU src detail s) = a := fault_dawnView h _ _ _

theorem jobDue_dawnView : dawnView (jobDue s) = a := jobDue_calm (dawnView_calmDue a) h

/-! ### Registers (18 R421), pins and octets -/

theorem rwl_dawnView {f : State → State} (hf : dawnView (f s) = a) : dawnView (rwl s f).1 = a := by
  unfold rwl
  split
  · exact h
  · exact hf

theorem noteRange_dawnView (off sel : Nat) (subs : List (Nat × Nat)) : dawnView (noteRange off sel subs s) = a :=
  setCond_dawnView (view_foldl _ _ (upd_dawnView h) fun _ _ hu => faultU_dawnView hu _ _) _ _ _

theorem setReg_dawnView (off : Nat) (w : Word) (f : Regs → Regs) : dawnView (setReg off w f s) = a :=
  noteRange_dawnView (upd_dawnView h) _ _ _

theorem modOct_dawnView (k : Nat) (f : OctCh → OctCh) : dawnView (modOct k f s) = a := (dawnView_unseen.octs _ _).trans h

theorem modPin_dawnView (n : Nat) (f : PinCh → PinCh) : dawnView (modPin n f s) = a := (dawnView_unseen.pins _ _).trans h

theorem pinRegWrite_dawnView (n r : Nat) (val : Word) : dawnView (pinRegWrite n r val s) = a :=
  modOct_dawnView (modPin_dawnView h _ _) _ _

theorem waveRegWrite_dawnView (k r : Nat) (val : Word) : dawnView (waveRegWrite k r val s) = a := modOct_dawnView h _ _

theorem clipEvents_dawnView (k : Nat) (before : List (BitVec 5)) : dawnView (clipEvents k before s) = a :=
  view_foldl _ _ h fun _ _ hu => view_ite hu (fault_dawnView hu _ _ _)

theorem mapPins_dawnView (mask : Nat) (f : Nat → PinCh → PinCh) : dawnView (mapPins mask f s) = a :=
  (dawnView_unseen.pins _ _).trans h

theorem loadOct_dawnView (k : Nat) (dayEntry : Bool) : dawnView (loadOct k dayEntry s) = a :=
  clipEvents_dawnView (modOct_dawnView (mapPins_dawnView h _ _) _ _) _ _

theorem strobe_dawnView (k src : Nat) : dawnView (strobe k src s) = a :=
  view_ite (view_ite (modOct_dawnView h _ _) (loadOct_dawnView (modOct_dawnView h _ _) _ _)) h

theorem strobeOrDefer_dawnView (k src : Nat) : dawnView (strobeOrDefer k src s) = a :=
  view_ite (modOct_dawnView h _ _) (strobe_dawnView h _ _)

theorem loadCtrlWrite_dawnView (k : Nat) (val : Word) : dawnView (loadCtrlWrite k val s).1 = a := by
  have hset := noteRange_dawnView (modOct_dawnView h k fun o => { o with loadCtrl := val &&& 0x03FFFFFF }) (0x1000 + 0x40 * k) 0
    (subsOct 0 (val &&& 0x03FFFFFF))
  exact view_ite (strobeOrDefer_dawnView hset _ _) hset

theorem rollStart_dawnView (k : Nat) : dawnView (rollStart k s) = a := by
  unfold rollStart rollBegin
  refine view_ite (view_ite ?_ h) h
  split
  · exact modOct_dawnView h _ _
  · exact modOct_dawnView h _ _

theorem rollReview_dawnView (k : Nat) : dawnView (rollReview k s) = a :=
  view_ite (rollStart_dawnView h _) (view_ite (modOct_dawnView h _ _) h)

theorem writeOct_dawnView (k off : Nat) (v : Word) : dawnView (writeOct k off v s).1 = a := by
  unfold writeOct
  split
  · exact loadCtrlWrite_dawnView h _ _
  · exact noteRange_dawnView (waveRegWrite_dawnView h _ _ _) _ _ _
  · exact waveRegWrite_dawnView h _ _ _
  · exact waveRegWrite_dawnView h _ _ _
  · exact rollReview_dawnView (modOct_dawnView h _ _) _
  · exact rollReview_dawnView (modOct_dawnView h _ _) _
  · exact h

theorem writePin_dawnView (n off : Nat) (v : Word) : dawnView (writePin n off v s).1 = a := by
  unfold writePin
  split
  · exact noteRange_dawnView (pinRegWrite_dawnView h _ _ _) _ _ _
  · exact pinRegWrite_dawnView h n 1 v
  · exact pinRegWrite_dawnView h n 2 v
  · exact pinRegWrite_dawnView h n 3 v
  · exact modPin_dawnView h _ _
  · exact h

/-! ### The memories of the arrays (Table 18-4) -/

theorem waveTabWrite_dawnView (ix : Nat) (val : Word) : dawnView (waveTabWrite ix val s).1 = a := by
  unfold waveTabWrite
  split
  · exact h
  split
  · exact h
  · exact modOct_dawnView h _ _

theorem noteDirty_dawnView (e : Nat) : dawnView (noteDirty e s) = a := by
  unfold noteDirty
  split
  · exact h
  · exact view_ite (upd_dawnView h) h

theorem setStat_dawnView (e : Nat) (v : Nat × Nat) : dawnView (setStat e v s) = a := upd_dawnView h

theorem segWrite_dawnView (ix : Nat) (val : Word) : dawnView (segWrite ix val s).1 = a := by
  unfold segWrite
  dsimp only
  split
  · exact h
  split
  · exact h
  split
  · exact bump_dawnView h _ _ _ _
  · exact upd_dawnView (noteDirty_dawnView h (ix / 8))

theorem tsetWrite_dawnView (ix : Nat) (val : Word) : dawnView (tsetWrite ix val s).1 = a := by
  unfold tsetWrite
  split
  · exact h
  split
  · exact bump_dawnView h _ _ _ _
  · exact upd_dawnView h

/-! ### The routine table (R141) -/

theorem armAlarm_dawnView : dawnView (armAlarm s) = a := by
  obtain ⟨n, hn⟩ := armAlarm_eq s
  rw [hn]
  exact upd_dawnView h

theorem rtSkip_dawnView (i n : Nat) : dawnView (rtSkip i n s) = a := view_ite h (faultU_dawnView (bump_dawnView h _ _ _ _) _ _)

theorem rtRecompute_dawnView (count : Bool) : dawnView (rtRecompute count s) = a := by
  refine view_ite (armAlarm_dawnView (view_foldl _ _ h fun u i hu => ?_)) h
  have hskip (n : Nat) : dawnView (if count ∧ (rtEntry u i).action ≠ 0 then rtSkip i n u else u) = a := view_ite (rtSkip_dawnView hu _ _) hu
  exact upd_dawnView (hskip _)

theorem bootRoutineWrite_dawnView (val : Word) : dawnView (bootRoutineWrite val s) = a :=
  view_ite (rtRecompute_dawnView (upd_dawnView h) _) (upd_dawnView h)

/-! ### The ports -/

theorem usbConnect_dawnView : dawnView (usbConnect s) = a := view_ite (upd_dawnView h) h

theorem stageDiscard_dawnView : dawnView (stageDiscard s) = a := view_ite (upd_dawnView h) (upd_dawnView h)

theorem usbDetach_dawnView (why dev : Nat) (cut : Option UsbCut) : dawnView (usbDetach why dev cut s) = a := by
  have hbulk : dawnView (usbEndBulk (usbCut why cut s)) = a :=
    exportEnd_unseen dawnView_unseen (fun _ _ => rfl) (upd_dawnView (usbCut_unseen dawnView_unseen h why cut)) _
  exact upd_dawnView (view_ite (stageDiscard_dawnView hbulk) hbulk)

theorem portCfgWrite_dawnView (v : Word) : dawnView (portCfgWrite v s) = a := by
  unfold portCfgWrite
  extract_lets r0 s0 e p s1
  have h1 : dawnView s1 = a := by
    refine upd_dawnView h ?_
    unfold s1 p s0
    dsimp only [dawnView]
    split
    · rfl
    · rfl
  exact view_ite (view_ite h1 (usbDetach_dawnView h1 _ _ _)) (usbConnect_dawnView h1)

/-! ### The time base and the ring -/

theorem setSt_dawnView (st : TimeSt) : dawnView (setSt st s) = a := by
  by_cases hst : st = s.tim.st
  · rwa [setSt_same hst]
  · have hrec : dawnView (setCond 12 0 (!st.isLock) (timeStateRec 0 0 (stTaken st s))) = a :=
      setCond_dawnView (timeStateRec_unseen dawnView_unseen (upd_dawnView h) 0 0) _ _ _
    rw [setSt_change hst]
    exact view_ite (faultU_dawnView hrec _ _) hrec

theorem reviewDiscipline_dawnView : dawnView (reviewDiscipline s) = a := by
  obtain hs | ⟨st, -, hs⟩ := reviewDiscipline_cases s
  · rw [hs]
    exact upd_dawnView h
  · rw [hs]
    exact setSt_dawnView (upd_dawnView h) _

theorem ptpCfgWrite_dawnView (v : Word) : dawnView (ptpCfgWrite v s) = a := by
  unfold ptpCfgWrite
  extract_lets w keep s1
  have h1 : dawnView s1 = a := setReg_dawnView h _ _ _
  clear_value s1
  exact reviewDiscipline_dawnView (view_ite h1 (upd_dawnView h1))

theorem ringWatch_dawnView (old : State) : dawnView (ringWatch old s) = a := by
  have hres : dawnView (if isMaster s && mustResign s then resign s else s) = a :=
    view_ite (resign_calm (dawnView_calmDue a).toCalmEnd (fun _ _ h => h) h) h
  exact setCond_dawnView (setCond_dawnView (view_ite (faultU_dawnView hres _ _) hres) _ _ _) _ _ _

theorem ringCfgWrite_dawnView (v : Word) : dawnView (ringCfgWrite v s) = a := by
  have hnone : dawnView (masterSet none s) = a := upd_dawnView (syncLost_calm (dawnView_calmDue a).toCalmEnd (fun _ _ h => h) h)
  exact ringWatch_dawnView (upd_dawnView (view_ite (v := dawnView) h hnone)) _

/-! ### The arbiter brought up to its cycle (11 R272) -/

theorem modArb_dawnView (f : Arb → Arb) : dawnView (modArb f s) = a := upd_dawnView h

theorem arbDecide_dawnView (d : Nat) : dawnView (arbDecide d s) = a := by
  have hgrant (r : ArbReq) : dawnView (arbGrant d r s) = a :=
    modArb_dawnView (view_ite (bumpMax_unseen dawnView_unseen (view_ite (bump_dawnView h _ _ _ _) h) _ _ _ _) h) _
  unfold arbDecide
  split
  · exact upd_dawnView h
  split
  · exact upd_dawnView h
  split
  · exact hgrant _
  · exact upd_dawnView h

theorem settleIdle_dawnView : dawnView (settleIdle s) = a := by
  unfold settleIdle
  split
  · split
    · exact view_ite (arbDecide_dawnView h _) h
    · exact h
  · exact h

theorem settleDbg_dawnView : dawnView (settleDbg s) = a := by
  unfold settleDbg
  dsimp only
  split
  · exact view_ite h (view_ite (upd_dawnView h) (upd_dawnView h))
  · exact h

theorem arbSettle_dawnView : dawnView (arbSettle s) = a :=
  view_ite (settleDbg_dawnView (settleIdle_dawnView (view_ite (arbDecide_dawnView h _) h))) h

theorem swFlush_dawnView : dawnView (swFlush s) = a := view_foldl _ _ (upd_dawnView h) fun _ _ hu => view_ite (upd_dawnView hu) hu

theorem arbWindow_dawnView : dawnView (arbWindow s) = a := by
  have hl := assureLapse_unseen dawnView_unseen h
  exact view_ite (modArb_dawnView (view_ite (swFlush_dawnView hl) hl) _) h

theorem arbReady_dawnView : dawnView (arbReady s) = a := arbWindow_dawnView (arbSettle_dawnView h)

/-! ### The settings of faults (17 R399) -/

theorem afterRelease_dawnView : dawnView (afterRelease s) = a :=
  jobDue_dawnView (view_foldl _ _ h fun _ _ hu => rollStart_dawnView hu _)

theorem fltQuietWrite_dawnView (v : Word) : dawnView (fltQuietWrite v s) = a := noteRange_dawnView (upd_dawnView h) _ _ _

theorem faultCfg_dawnView (val : Word) : dawnView (faultCfg val s).1 = a := by
  unfold faultCfg
  extract_lets i was w r s1 s2
  have h1 : dawnView s1 = a := noteRange_dawnView (upd_dawnView h) _ _ _
  clear_value s1
  split
  · exact h1
  · dsimp only
    exact afterRelease_dawnView (view_foldl _ _ h1 fun _ _ hu => view_ite (react_unseen dawnView_unseen hu _ _ _) hu)

theorem fwdCfg_dawnView (val : Word) : dawnView (fwdCfg val s).1 = a := by
  unfold fwdCfg
  split
  · exact h
  · extract_lets w again r s1
    have h1 : dawnView s1 = a := noteRange_dawnView (upd_dawnView h) _ _ _
    clear_value s1
    exact view_ite (upd_dawnView h1) h1

/-! ### Register writes -/

theorem writeId_dawnView (x : Nat) (v : Word) : dawnView (writeId x v s).1 = a := by
  unfold writeId
  split
  · exact upd_dawnView h
  · exact upd_dawnView h
  · exact rwl_dawnView h (portCfgWrite_dawnView h _)
  · exact rwl_dawnView h (setReg_dawnView h _ _ _)
  · exact bootRoutineWrite_dawnView h _
  · exact h

theorem writePwr_dawnView {x : Nat} (hx : x ≠ 0x104) (v : Word) : dawnView (writePwr x v s).1 = a := by
  unfold writePwr
  split
  · exact absurd rfl hx
  · exact rwl_dawnView h (upd_dawnView h)
  · exact rwl_dawnView h (setReg_dawnView h _ _ _)
  · exact h

theorem writeClk_dawnView {x : Nat} (hx : x ≠ 0x22C) (v : Word) : dawnView (writeClk x v s).1 = a := by
  unfold writeClk
  split
  · exact rwl_dawnView h (setReg_dawnView h _ _ _)
  · exact rwl_dawnView h (reviewDiscipline_dawnView (setReg_dawnView h _ _ _))
  · exact rwl_dawnView h (upd_dawnView h)
  · exact rwl_dawnView h (ptpCfgWrite_dawnView h _)
  · exact rwl_dawnView h (upd_dawnView h)
  · exact absurd rfl hx
  · exact upd_dawnView h
  · exact h

theorem segCtrlWrite_dawnView (v : Word) : dawnView (segCtrlWrite v s).1 = a := view_ite (upd_dawnView h) (upd_dawnView h)

theorem writeSeq_dawnView {x : Nat} (hx : x ∉ [0x314, 0x320, 0x3A0, 0x3D0]) (v : Word) : dawnView (writeSeq x v s).1 = a := by
  unfold writeSeq
  split
  · exact setReg_dawnView h _ _ _
  · exact upd_dawnView h
  · exact absurd (by decide) hx
  · exact absurd (by decide) hx
  · exact rwl_dawnView h (upd_dawnView h)
  · exact rwl_dawnView h (upd_dawnView h)
  · exact rwl_dawnView h (upd_dawnView h)
  · exact rwl_dawnView h (upd_dawnView h)
  · exact absurd (by decide) hx
  · exact segCtrlWrite_dawnView h _
  · exact setReg_dawnView h _ _ _
  · exact absurd (by decide) hx
  · exact h

theorem writeEvid_dawnView {x : Nat} (hx : x ≠ 0x420) (v : Word) : dawnView (writeEvid x v s).1 = a := by
  unfold writeEvid
  split
  · exact absurd rfl hx
  · exact upd_dawnView h
  · exact h

theorem writeArb_dawnView (x : Nat) (v : Word) : dawnView (writeArb x v s).1 = a := by
  have hready := arbReady_dawnView h
  unfold writeArb
  dsimp only
  split
  · exact rwl_dawnView hready (setReg_dawnView hready _ _ _)
  · exact setReg_dawnView hready _ _ _
  · exact upd_dawnView hready
  · split
    · exact upd_dawnView hready
    · exact hready

theorem writeSeal_dawnView (x : Nat) (v : Word) : dawnView (writeSeal x v s).1 = a := by
  unfold writeSeal
  split
  · exact rwl_dawnView h (setReg_dawnView h _ _ _)
  · exact rwl_dawnView h (setReg_dawnView h _ _ _)
  · exact h

theorem writeFlt_dawnView {x : Nat} (hx : x ≠ 0x720) (v : Word) : dawnView (writeFlt x v s).1 = a := by
  unfold writeFlt
  split
  · exact setReg_dawnView h _ _ _
  · exact faultCfg_dawnView h _
  · exact fltQuietWrite_dawnView h _
  · exact absurd rfl hx
  · exact fwdCfg_dawnView h _
  · exact h

theorem writeRing_dawnView {x : Nat} (hx : x ≠ 0x82C) (v : Word) : dawnView (writeRing x v s).1 = a := by
  unfold writeRing
  split
  · exact rwl_dawnView h (ringCfgWrite_dawnView h _)
  · exact rwl_dawnView h (setReg_dawnView h _ _ _)
  · exact rwl_dawnView h (upd_dawnView h)
  · exact upd_dawnView h
  · exact absurd rfl hx
  · exact h

theorem writePorts_dawnView (x : Nat) (v : Word) : dawnView (writePorts x v s).1 = a := by
  unfold writePorts
  split
  · exact rwl_dawnView h (upd_dawnView h)
  · exact rwl_dawnView h (upd_dawnView h)
  · exact rwl_dawnView h (setReg_dawnView h _ _ _)
  · exact h

theorem writeCal_dawnView {x : Nat} (hx : x ≠ 0xA00) (v : Word) : dawnView (writeCal x v s).1 = a := by
  unfold writeCal
  split
  · exact absurd rfl hx
  · exact setReg_dawnView h _ _ _
  · exact setReg_dawnView h _ _ _
  · exact h

end Dawn

/-! ### What an image that verifies may write (R126, R131) -/

/-- The registers of Tables 18-5 to 18-15 whose write is a command: none of them is a setting. -/
def commandRegs : List Nat := [0x104, 0x22C, 0x314, 0x320, 0x3A0, 0x3D0, 0x420, 0x720, 0x82C, 0xA00]

theorem imgMask_commandRegs : ∀ x ∈ commandRegs, imgMask x = none := by decide

theorem commandRegs_lt : ∀ x ∈ commandRegs, x < 0x1000 := by decide

/-- A record of settings names no command, and one of an array lies among the arrays. -/
def RecordOk (r : ImgRec) : Prop := (r.type = 0x10 → regsOk r.body = true) ∧ (r.type = 0x11 → arrayOk r.body = true)

theorem recordOk_of_contentOk {rs : List ImgRec} (h : contentOk rs = true) : ∀ r ∈ rs, RecordOk r := by
  intro r hr
  have hrec := List.all_eq_true.mp (Bool.and_eq_true _ _ ▸ h).2 r hr
  constructor
  · intro ht
    rwa [ht] at hrec
  · intro ht
    rwa [ht] at hrec

theorem regsOk_not_command {b : List Byte} (h : regsOk b = true) : ∀ x ∈ regsPairs b, x.1 ∉ commandRegs := by
  intro x hx hmem
  have hmask := List.all_eq_true.mp h x hx
  rw [imgMask_commandRegs _ hmem] at hmask
  exact absurd hmask Bool.false_ne_true

theorem arrayOk_base {b : List Byte} (h : arrayOk b = true) : 0x100000 ≤ leAt b 0 4 := by
  simp only [arrayOk, arrayExtents, Bool.and_eq_true, List.any_cons, List.any_nil, Bool.or_eq_true, decide_eq_true_eq,
    Bool.false_eq_true, or_false] at h
  omega

theorem contentOk_of_verifyRest {m : List Host.Cell} {img : List Byte} (h : verifyRest m img = 1) :
    contentOk (imageRecs img).1 = true := by
  unfold verifyRest at h
  dsimp only at h
  split_ifs at h with h1 h2 h3 h4 hbad
  case neg => simpa using hbad
  all_goals exact absurd h (by decide)

theorem contentOk_of_verifyImage {m : List Host.Cell} {retry : Nat} {fails : List (Nat × Nat)} {img : List Byte}
    (h : (verifyImage m retry fails img).1 = 1) : contentOk (imageRecs img).1 = true := by
  unfold verifyImage at h
  dsimp only at h
  split at h
  · exact contentOk_of_verifyRest h
  · exact absurd h (by decide)

/-! ### Records applied (R132) -/

section Dawn

variable {a : DawnView} {s : State} (h : dawnView s = a)
include h

/-- No write but that of a command moves a Dawn or its banks. -/
theorem regWrite_dawnView {x : Nat} (hx : x ∉ commandRegs) (v : Word) : dawnView (regWrite x v s).1 = a := by
  have hne (y : Nat) (hy : y ∈ commandRegs) : x ≠ y := fun hxy => hx (hxy ▸ hy)
  unfold regWrite
  split
  · exact waveTabWrite_dawnView h _ _
  split
  · exact segWrite_dawnView h _ _
  split
  · exact tsetWrite_dawnView h _ _
  split
  · exact writePin_dawnView h _ _ _
  split
  · exact writeOct_dawnView h _ _ _
  split
  · exact writeId_dawnView h _ _
  · exact writePwr_dawnView h (hne _ (by decide)) _
  · exact writeClk_dawnView h (hne _ (by decide)) _
  · have hsub : [0x314, 0x320, 0x3A0, 0x3D0] ⊆ commandRegs := by decide
    exact writeSeq_dawnView h (fun hmem => hx (hsub hmem)) _
  · exact writeEvid_dawnView h (hne _ (by decide)) _
  · exact writeArb_dawnView h _ _
  · exact writeSeal_dawnView h _ _
  · exact writeFlt_dawnView h (hne _ (by decide)) _
  · exact writeRing_dawnView h (hne _ (by decide)) _
  · exact writePorts_dawnView h _ _
  · exact writeCal_dawnView h (hne _ (by decide)) _

theorem applyWords_dawnView {r : ImgRec} (hr : RecordOk r) : dawnView (applyWords r s) = a := by
  obtain ⟨hregs, harray⟩ := hr
  unfold applyWords
  split
  next ht =>
    exact List.foldlRecOn (motive := fun u => dawnView u = a) _ _ h fun u hu x hx =>
      regWrite_dawnView hu (regsOk_not_command (hregs ht) x hx) _
  next ht =>
    have hbase := arrayOk_base (harray ht)
    exact view_foldl _ _ h fun u x hu =>
      regWrite_dawnView hu (fun hx => absurd (commandRegs_lt _ hx) (by omega)) _
  · exact h

theorem smallWrite_dawnView (addr : Nat) (b : List Byte) : dawnView (smallWrite addr b s) = a := upd_dawnView h

theorem applyRec_dawnView {r : ImgRec} (hr : RecordOk r) : dawnView (applyRec r s) = a := by
  unfold applyRec
  split
  · exact applyWords_dawnView h hr
  · exact applyWords_dawnView h hr
  · exact upd_dawnView h
  · exact upd_dawnView h
  · exact upd_dawnView h
  · exact upd_dawnView h
  · exact view_ite h (smallWrite_dawnView h _ _)
  · exact h

theorem netCopy_dawnView : dawnView (netCopy s) = a := view_ite h (smallWrite_dawnView h _ _)

theorem octPower_dawnView : dawnView (octPower s) = a := by
  have hact (k : BitVec 8) : dawnView { s with pwr := { s.pwr with octActive := k } } = a := upd_dawnView h
  exact view_ite (hact _) (notice_dawnView (hact _) _ _ _)

/-! ### The services and the ring begin (step 7) -/

theorem ethSend_dawnView (f : EthFrame) : dawnView (ethSend f s) = a :=
  view_ite (view_ite (bump_dawnView h _ _ _ _) (upd_dawnView h)) h

theorem dhcpBegin_dawnView : dawnView (dhcpBegin s) = a := ethSend_dawnView (upd_dawnView h) _

theorem dawnOnset_dawnView (src detail : Nat) (holds : Bool) : dawnView (dawnOnset src detail holds s) = a :=
  setCond_dawnView (view_ite (faultU_dawnView h _ _) h) _ _ _

theorem netStart_dawnView : dawnView (netStart s) = a := by
  unfold netStart
  extract_lets u n key on' e1 t1 s1 s2 e3 s3 e4 s4 idle
  have h1 : dawnView s1 = a := upd_dawnView (dawnOnset_dawnView h _ _ _)
  have h2 : dawnView s2 = a := view_ite h1 (notice_dawnView h1 _ _ _)
  have h3 : dawnView s3 = a := view_ite (dhcpBegin_dawnView h2) (view_ite (upd_dawnView h2) h2)
  have h4 : dawnView s4 = a := view_ite (ethSend_dawnView (ethSend_dawnView (upd_dawnView h3) _) _) h3
  exact usbConnect_dawnView (view_ite (notice_dawnView h4 _ _ _) h4)

theorem imageFault_dawnView : dawnView (imageFault s) = a := view_ite (setCond_dawnView (faultU_dawnView h _ _) _ _ _) h

theorem ringBegins_dawnView : dawnView (ringBegins s) = a := by
  have hput (k : Instant) (fs : List RFrame) : dawnView (txPut k fs s) = a := view_ite (upd_dawnView h) h
  exact view_ite (upd_dawnView (hput _ _)) h

end Dawn

/-! ### A bank's verdict (R130, R131, R136, R137) -/

/-- The view with a bank's status set. -/
def DawnView.stated (x : DawnView) (bk : Bank) (st : Nat) : DawnView :=
  match bk with
  | .a => { x with statA := st }
  | .b => { x with statB := st }

theorem bankStat_dawnView (bk : Bank) (st : Nat) (s : State) : dawnView (bankStat bk st s) = (dawnView s).stated bk st := by
  cases bk
  · exact view_ite (notice_dawnView rfl _ _ _) rfl
  · exact view_ite (notice_dawnView rfl _ _ _) rfl

/-- The view as an image applied from a bank leaves it. -/
def DawnView.applied (x : DawnView) (bk : Bank) : DawnView :=
  { x.stated bk 1 with bank := bankCode bk, imageApplied := true, ready := true }

/-- An image applied gives its bank status 1 and opens step 9. -/
theorem applyImage_dawnView {rs : List ImgRec} (hrs : contentOk rs = true) (bk : Bank) (keyId : Nat) (s : State) :
    dawnView (applyImage bk rs keyId s) = (dawnView s).applied bk := by
  unfold applyImage
  extract_lets other b s1 s2 s3 s4 goal p q s5
  have h1 : dawnView s1 = { (dawnView s).stated bk 1 with bank := bankCode bk, imageApplied := true } := by
    refine (bankStat_dawnView ..).trans ?_
    cases bk <;> rfl
  have h2 : dawnView s2 = dawnView s1 :=
    List.foldlRecOn (motive := fun u => dawnView u = dawnView s1) _ _ rfl fun u hu r hr =>
      applyRec_dawnView hu (recordOk_of_contentOk hrs r hr)
  have h3 : dawnView s3 = dawnView s1 := view_foldl _ _ h2 fun _ _ hu => setStat_dawnView hu _ _
  have h4 : dawnView s4 = dawnView s1 := octPower_dawnView (netCopy_dawnView h3)
  clear_value s4
  have h5 : dawnView s5 = (dawnView s).applied bk := by
    change { dawnView s4 with ready := true } = _
    rw [h4, h1]
    rfl
  exact rtRecompute_dawnView (ringBegins_dawnView (imageFault_dawnView (netStart_dawnView h5))) _

theorem nextCand_cons {s : State} {c : Bank} {l : List Bank} (h : s.boot.cands = c :: l) :
    dawnView (nextCand s) = { dawnView s with cands := l, reading := some (c, s.now) } := by
  rw [nextCand, h]
  rfl

theorem maintPath_dawnView (s : State) : dawnView (maintPath s) = { dawnView s with ready := true } :=
  imageFault_dawnView (netStart_dawnView rfl)

theorem nextCand_nil {s : State} (h : s.boot.cands = []) : dawnView (nextCand s) = { dawnView s with reading := none, ready := true } := by
  rw [nextCand, h]
  exact maintPath_dawnView _

/-- The status a bank has in the view. -/
def DawnView.status (x : DawnView) (bk : Bank) : Nat :=
  match bk with
  | .a => x.statA
  | .b => x.statB

@[simp] theorem DawnView.status_stated (x : DawnView) (bk : Bank) (st : Nat) : (x.stated bk st).status bk = st := by
  cases bk <;> rfl

@[simp] theorem DawnView.status_applied (x : DawnView) (bk : Bank) : (x.applied bk).status bk = 1 := by
  cases bk <;> rfl

theorem nextCand_status (bk : Bank) (s : State) : (dawnView (nextCand s)).status bk = (dawnView s).status bk := by
  cases hc : s.boot.cands with
  | nil =>
    rw [nextCand_nil hc]
    cases bk <;> rfl
  | cons c l =>
    rw [nextCand_cons hc]
    cases bk <;> rfl

/-- A bank that fails has that status, and the next candidate is read from that instant. -/
theorem bankFail_leaves (bk : Bank) (st : Nat) (s : State) : (dawnView (bankFail bk st s)).status bk = st ∧
    ∀ c l, s.boot.cands = c :: l → (bankFail bk st s).boot.reading = some (c, s.now) ∧ (bankFail bk st s).boot.cands = l ∧
      (bankFail bk st s).pwr.st = s.pwr.st := by
  have hstat := bankStat_dawnView bk st s
  refine ⟨(nextCand_status ..).trans (by rw [hstat, DawnView.status_stated]), fun c l hc => ?_⟩
  have hcands : (bankStat bk st s).boot.cands = c :: l := by
    refine Eq.trans ?_ hc
    cases bk <;> exact congrArg DawnView.cands hstat
  have hnow : (bankStat bk st s).now = s.now := by cases bk <;> exact congrArg DawnView.now hstat
  have hview : dawnView (bankFail bk st s) = { (dawnView s).stated bk st with cands := l, reading := some (c, s.now) } := by
    rw [bankFail, nextCand_cons hcands, hstat, hnow]
  refine ⟨congrArg DawnView.reading hview, congrArg DawnView.cands hview, ?_⟩
  cases bk <;> exact congrArg DawnView.st hview

/-! ### The end of a read, and its timeout -/

section Reading

variable {bk : Bank} {k : Instant} {s : State}

theorem readingBank_reads (hst : s.pwr.st = .dawn) (hread : s.boot.reading = some (bk, k)) : readingBank s bk = some k := by
  simp [readingBank, hst, hread]

theorem readingBank_none (h : s.pwr.st ≠ .dawn ∨ s.boot.reading.map (·.1) ≠ some bk) : readingBank s bk = none := by
  unfold readingBank
  split
  next c k hst hread =>
    refine if_neg fun hc => ?_
    rcases h with hne | hne
    · exact hne hst
    · exact hne (by rw [hread, hc]; rfl)
  · rfl

theorem bankRead_none (h : readingBank s bk = none) (fails : List (Nat × Nat)) : bankRead bk fails s = s := by
  rw [bankRead, h]

theorem imgTimeout_none (h : readingBank s bk = none) (n : Nat) : imgTimeout bk n s = s := by
  rw [imgTimeout, h]

variable (h : readingBank s bk = some k)
include h

theorem bankRead_late (hk : k + cMs * (imgLimits s).2 < s.now) (fails : List (Nat × Nat)) : bankRead bk fails s = s := by
  simp only [bankRead, h, if_pos hk]

theorem imgTimeout_early (hk : s.now < k + cMs * (imgLimits s).2) (n : Nat) : imgTimeout bk n s = s := by
  simp only [imgTimeout, h, if_neg (Nat.not_le.mpr hk)]

theorem imgTimeout_fails (hk : k + cMs * (imgLimits s).2 ≤ s.now) (n : Nat) :
    ∃ w, dawnView w = dawnView s ∧ imgTimeout bk n s = bankFail bk 10 w := by
  simp only [imgTimeout, h, if_pos hk]
  exact ⟨_, faultU_dawnView (view_ite rfl (bump_dawnView rfl _ _ _ _)) _ _, rfl⟩

/-- The image of a bank as its read finds it. -/
def bankImage (s : State) (bk : Bank) : List Byte := rdBytes s.mram (bankAddr bk) (leAt (rdBytes s.mram (bankAddr bk) 64) 0x0C 4)

variable (hk : s.now ≤ k + cMs * (imgLimits s).2) {fails : List (Nat × Nat)}
include hk

theorem bankRead_fails (hv : (verifyImage s.mram (imgLimits s).1 fails (bankImage s bk)).1 ≠ 1) :
    ∃ w, dawnView w = dawnView s ∧
      bankRead bk fails s = bankFail bk (verifyImage s.mram (imgLimits s).1 fails (bankImage s bk)).1 w := by
  have hcount (n : Nat) : dawnView (if n = 0 then s else bump rgBoot 16 8 n s) = dawnView s :=
    view_ite rfl (bump_dawnView rfl _ _ _ _)
  simp only [bankRead, h, if_neg (Nat.not_lt.mpr hk)]
  refine ⟨_, ?_, if_neg hv⟩
  exact view_ite (faultU_dawnView (bump_dawnView (hcount _) _ _ _ _) _ _) (hcount _)

theorem bankRead_verified (hv : (verifyImage s.mram (imgLimits s).1 fails (bankImage s bk)).1 = 1) :
    dawnView (bankRead bk fails s) = { dawnView s with reading := none }.applied bk := by
  have hcount (n : Nat) : dawnView (if n = 0 then s else bump rgBoot 16 8 n s) = dawnView s :=
    view_ite rfl (bump_dawnView rfl _ _ _ _)
  have hread {u : State} (hu : dawnView u = dawnView s) :
      dawnView { u with boot := { u.boot with reading := none } } = { dawnView s with reading := none } := by
    rw [← hu]
    rfl
  simp only [bankRead, h, if_neg (Nat.not_lt.mpr hk)]
  refine (congrArg dawnView (if_pos hv)).trans ?_
  refine (applyImage_dawnView (contentOk_of_verifyImage hv) _ _ _).trans ?_
  exact congrArg (DawnView.applied · bk) (hread (hcount _))

end Reading

/-! ### The statement -/

theorem exec_imageBankReadDone (t : Instant) (bk : Bank) (fails : List (Nat × Nat)) (s : State) :
    exec (.imageBankReadDone t bk fails) s = .next (bankRead bk fails (advance t s)) := rfl
theorem exec_imgTimeoutExpiry (t : Instant) (bk : Bank) (n : Nat) (s : State) :
    exec (.imgTimeoutExpiry t bk n) s = .next (imgTimeout bk n (advance t s)) := rfl

/-- What a bank's failure leaves, where the state it is judged in stands with its banks as `u` does. -/
theorem bankFail_leaves_of {bk : Bank} {st : Nat} {u w : State} (h : dawnView w = dawnView u) (hst : u.pwr.st = .dawn) :
    (dawnView (bankFail bk st w)).status bk = st ∧
    ∀ c l, u.boot.cands = c :: l → (bankFail bk st w).boot.reading = some (c, u.now) ∧ (bankFail bk st w).boot.cands = l ∧
      (bankFail bk st w).pwr.st = .dawn := by
  obtain ⟨hstat, hnext⟩ := bankFail_leaves bk st w
  have hcands : w.boot.cands = u.boot.cands := congrArg DawnView.cands h
  have hnow : w.now = u.now := congrArg DawnView.now h
  have hdawn : w.pwr.st = .dawn := (congrArg DawnView.st h).trans hst
  rw [hcands, hnow, hdawn] at hnext
  exact ⟨hstat, hnext⟩

/-- Settles O31: a verdict by `bankRead_verified`, `bankRead_fails` and `imgTimeout_fails`, and what a failure leaves by
`bankFail_leaves_of`. -/
theorem imageBanks : Obligations.ImageBanks := by
  intro t bk fails n k s u img v stat next
  have hstat (w : State) : stat w = (dawnView w).status bk := by cases bk <;> rfl
  refine ⟨fun hst hread hk => ⟨fun hv => ⟨_, exec_imageBankReadDone .., ?_⟩, fun hv => ⟨_, exec_imageBankReadDone .., ?_⟩⟩,
    fun hst hread hk => ⟨_, exec_imgTimeoutExpiry .., ?_⟩,
    fun hst hread hk => ⟨_, exec_imgTimeoutExpiry .., imgTimeout_early (readingBank_reads hst hread) hk n⟩,
    fun hst hread hk => ⟨_, exec_imageBankReadDone .., bankRead_late (readingBank_reads hst hread) hk fails⟩,
    fun h => ⟨⟨_, exec_imageBankReadDone .., bankRead_none (readingBank_none h) fails⟩,
      ⟨_, exec_imgTimeoutExpiry .., imgTimeout_none (readingBank_none h) n⟩⟩⟩
  case refine_1 =>
    have hview := bankRead_verified (readingBank_reads hst hread) hk hv
    refine ⟨(hstat _).trans (by rw [hview, DawnView.status_applied]), congrArg DawnView.bank hview,
      congrArg DawnView.imageApplied hview, ?_, congrArg DawnView.ready hview⟩
    refine (congrArg DawnView.reading hview).trans ?_
    cases bk <;> rfl
  case refine_2 =>
    obtain ⟨w, hw, hfail⟩ := bankRead_fails (readingBank_reads hst hread) hk hv
    rw [hstat, hfail]
    exact bankFail_leaves_of hw hst
  case refine_3 =>
    obtain ⟨w, hw, hfail⟩ := imgTimeout_fails (readingBank_reads hst hread) hk n
    rw [hstat, hfail]
    exact bankFail_leaves_of hw hst

end Sys2Proof.Machine
end

section
/-!
SUPPORT. What fault events leave of pins and octets: a reaction takes pins into the safe state, and of an octet it writes only what belongs
to its window, to requests for one and to the crosspoint. Stated once for every predicate that outlives such changes (`CalmPins`), one
lemma `f_calmPins` for each operation `f`, and then for the settings of all pins and octets (`ChanKept`).
-/

set_option Elab.async false

namespace Sys2Proof.Machine

open Sys2Proof

/-! ### The parts of a pin and of an octet that no reaction writes -/

/-- A pin but for what the safe state (06 R156) writes of it. -/
def PinCh.settings (p : PinCh) : PinCh :=
  { p with safe := false, safeAt := 0, drv := false, term := false, dz := false, hold := none, win := none }

/-- An octet but for what belongs to its window, to requests for one and to the crosspoint. -/
def OctCh.settings (o : OctCh) : OctCh :=
  { o with served := none, roll := {}, calPend := none, calOverdue := false, win := none, lastOut := 0, lvlFail := 0, timFail := 0
           unitPhase := none }

theorem PinCh.settings_toSafe (now : Instant) (p : PinCh) : (p.toSafe now).settings = p.settings := rfl

/-- `P` outlives what fault events and their reactions may do, though it may look at pins and octets. -/
structure CalmPins (P : State → Prop) : Prop where
  evPend : ∀ s x, P s → P { s with evPend := x }
  log : ∀ s l n, P s → P { s with nw := { s.nw with log := l, logNext := n } }
  pend : ∀ s x, P s → P { s with pwr := { s.pwr with pend := x } }
  safe : ∀ s mask, P s → P (safePins mask s)
  octs : ∀ s x, (∀ k, (vget x k {}).settings = (octAt s k).settings) → P s → P { s with octs := x }
  acts : ∀ s x, P s → P { s with seqr := { s.seqr with acts := x } }
  slots : ∀ s x, P s → P { s with seqr := { s.seqr with slots := x } }
  evid : ∀ s x, P s → P { s with evid := x }
  cal : ∀ s x, P s → P { s with cal := x }
  flt : ∀ s x, P s → P { s with flt := x }
  subst : ∀ s l, P s → P { s with r := { s.r with subst := l } }

section CalmPins

variable {P : State → Prop} (hP : CalmPins P) {s : State} (h : P s)
include hP h

/-! ### The trouble log and requests -/

theorem logWrite_calmPins (es : List LogEntry) : P (logWrite es s) := by
  unfold logWrite
  dsimp only
  split
  · exact hP.log _ _ _ h
  · exact hP.log _ _ _ (hP.evPend _ _ h)

/-- The request of a reaction (17 R399), which is made in Day alone. -/
theorem pwrRequest_evening_calmPins (source cause : Nat) (hday : s.pwr.st = .day) : P (pwrRequest .evening source cause s) := by
  have hgoal : nightOrEvening s .evening = .evening := nightOrEvening_of_ne (by decide)
  simp only [pwrRequest, hgoal, hday, reduceCtorEq, false_and, if_false]
  exact calm_ite h (hP.pend _ _ h)

theorem bump_calmPins (reg lo width amt : Nat) : P (bump reg lo width amt s) := hP.evPend _ _ h

theorem modScope_calmPins (src oct : Nat) (f : FltScope → FltScope) : P (modScope src oct f s) := hP.flt _ _ h

theorem logPut_calmPins (src code value : Nat) (ws : List Nat) : P (logPut src code value ws s) := logWrite_calmPins hP h _

theorem calRec_calmPins (sub mask pin : Nat) (valid : Bool) (quality : Nat) : P (calRec sub mask pin valid quality s) :=
  calm_ite h (hP.evid _ _ h)

theorem strobeAfter_calmPins (k : Nat) : P (strobeAfter k s) := calm_ite (hP.acts _ _ h) h

/-! ### Octets -/

theorem mapOcts_calmPins (f : Nat → OctCh → OctCh) (hf : ∀ k o, (f k o).settings = o.settings) :
    P { s with octs := vmap s.octs f } := by
  refine hP.octs _ _ (fun k => ?_) h
  by_cases hk : k < 8
  · rw [vget_vmap _ _ _ _ hk]
    exact hf _ _
  · rw [octAt, vget_ge _ _ _ (Nat.not_lt.mp hk), vget_ge _ _ _ (Nat.not_lt.mp hk)]

theorem modOct_calmPins (k : Nat) (f : OctCh → OctCh) (hf : ∀ o, (f o).settings = o.settings) : P (modOct k f s) := by
  refine hP.octs _ _ (fun j => ?_) h
  rw [vget_vmod]
  split
  · exact hf _
  · rfl

theorem returnXpt_calmPins (mask : Nat) : P (returnXpt mask s) := by
  refine calm_foldl _ _ (mapOcts_calmPins hP h _ fun k o => ?_) fun _ _ hu => hP.evPend _ _ hu
  split
  · rfl
  · rfl

theorem calRequest_calmPins (mask : Nat) : P (calRequest mask s) := by
  have hpend : P { s with octs := vmap s.octs fun k o =>
      if ((mask &&& s.pwr.octActive.toNat).testBit k && o.calPend.isNone && o.win.isNone) = true then
        { o with calPend := some s.now, calOverdue := false } else o } := by
    refine mapOcts_calmPins hP h _ fun k o => ?_
    split
    · rfl
    · rfl
  exact calm_ite hpend (logPut_calmPins hP hpend _ _ _ _)

/-! ### Windows and stops -/

omit h in
theorem unitRequest_calmPins (l : List Nat) : ∀ {s : State}, P s → P (unitRequest l s) := by
  induction l with
  | nil => exact hP.cal _ _
  | cons j l ih =>
    intro s h
    have hreq := calRequest_calmPins hP h (2 ^ j)
    exact calm_ite (calm_ite (ih hreq) (hP.cal _ _ hreq)) (ih h)

theorem unitAdvance_calmPins (k : Nat) : P (unitAdvance k s) := calm_ite (unitRequest_calmPins hP _ h) h

theorem abandonWindow_calmPins (k : Nat) : P (abandonWindow k s) := by
  unfold abandonWindow
  split
  · exact h
  · refine unitAdvance_calmPins hP (strobeAfter_calmPins hP (calRec_calmPins hP (bump_calmPins hP ?_ _ _ _ _) _ _ _ _ _) _) _
    exact hP.cal _ _ (modOct_calmPins hP h _ _ fun _ => rfl)

theorem faultStop_calmPins (mask src : Nat) : P (faultStop mask src s) :=
  calm_foldl _ _ h fun _ _ hu => calm_ite (hP.slots _ _ hu) hu

theorem stopOctets_calmPins (mask src : Nat) : P (stopOctets mask src s) := by
  have hsafe : P (if pinsOn s then safePins mask s else s) := calm_ite (hP.safe _ _ h) h
  exact faultStop_calmPins hP
    (calm_foldl _ _ (returnXpt_calmPins hP hsafe mask) fun _ _ hu => abandonWindow_calmPins hP hu _) mask src

/-! ### Fault events -/

theorem react_calmPins (src oct : Nat) (fresh : Bool) : P (react src oct fresh s) := by
  unfold react
  split
  · exact calm_ite (stopOctets_calmPins hP h _ _) h
  · exact faultStop_calmPins hP h _ _
  · split
    next hday => exact pwrRequest_evening_calmPins hP h _ _ hday.2
    · exact h
  · exact h

theorem unlog_calmPins (e : LogEntry) : P (unlog e s) := calm_ite (hP.log _ _ _ h) h

theorem exitBack_calmPins (src oct : Nat) : P (exitBack src oct s) := by
  unfold exitBack
  split
  · exact h
  · have hback (x : FltExit) := unlog_calmPins hP
      (modScope_calmPins hP h src oct fun f => { f with severe := true, ticks := x.ticks, left := none }) x.entry
    exact calm_ite (react_calmPins hP (calm_ite (modScope_calmPins hP (hP.evPend _ _ (hback _)) _ _ _)
      (logPut_calmPins hP (bump_calmPins hP (hback _) _ _ _ _) _ _ _ _)) _ _ _) h

theorem logEvent_calmPins (x : FltAt) (detail : Nat) (ws : List Nat) : P (logEvent x detail ws s) :=
  calm_ite (modScope_calmPins hP (logPut_calmPins hP h _ _ _ _) _ _ _) (bump_calmPins hP (modScope_calmPins hP h _ _ _) _ _ _ _)

theorem goSevere_calmPins (x : FltAt) : P (goSevere x s) :=
  react_calmPins hP (bump_calmPins hP (logPut_calmPins hP (modScope_calmPins hP h _ _ _) _ _ _ _) _ _ _ _) _ _ _

theorem fault_calmPins (x : FltAt) (detail : Nat) (ws : List Nat) : P (fault x detail ws s) := by
  have hlog := logEvent_calmPins hP (bump_calmPins hP (modScope_calmPins hP (exitBack_calmPins hP h x.src x.oct) x.src x.oct
    fun f => { f with ticks := ((exitBack x.src x.oct s).now / cMs :: f.ticks).take 255
                      lastEv := some (exitBack x.src x.oct s).now })
    (rgFltCount (scopeIx x.src x.oct)) 16 16 1) x detail ws
  exact calm_ite (calm_ite (react_calmPins hP hlog _ _ _) (calm_ite (goSevere_calmPins hP hlog _) hlog)) h

theorem noteRange_calmPins (off sel : Nat) (subs : List (Nat × Nat)) : P (noteRange off sel subs s) :=
  modScope_calmPins hP (calm_foldl _ _ (hP.subst _ _ h) fun _ _ hu => fault_calmPins hP hu _ _ _) _ _ _

theorem clipEvents_calmPins (k : Nat) (before : List (BitVec 5)) : P (clipEvents k before s) :=
  calm_foldl _ _ h fun _ _ hu => calm_ite hu (fault_calmPins hP hu _ _ _)

end CalmPins

/-! ### The settings of every pin and octet -/

/-- From `z` to `w` every pin and every octet keeps its settings. -/
structure ChanKept (z w : State) : Prop where
  pin : ∀ n, (pinAt w n).settings = (pinAt z n).settings
  oct : ∀ k, (octAt w k).settings = (octAt z k).settings

theorem ChanKept.refl (s : State) : ChanKept s s := ⟨fun _ => rfl, fun _ => rfl⟩

/-- What is read of a pin's settings alone is as before. -/
theorem ChanKept.pinField {α : Type} {z w : State} (h : ChanKept z w) (n : Nat) (f : PinCh → α)
    (hf : ∀ p : PinCh, f p.settings = f p := by exact fun _ => rfl) : f (pinAt w n) = f (pinAt z n) := by
  rw [← hf, h.pin, hf]

/-- What is read of an octet's settings alone is as before. -/
theorem ChanKept.octField {α : Type} {z w : State} (h : ChanKept z w) (k : Nat) (f : OctCh → α)
    (hf : ∀ o : OctCh, f o.settings = f o := by exact fun _ => rfl) : f (octAt w k) = f (octAt z k) := by
  rw [← hf, h.oct, hf]

theorem safePins_chanKept {z s : State} (h : ChanKept z s) (mask : Nat) : ChanKept z (safePins mask s) where
  pin n := by
    rw [← h.pin n]
    by_cases hn : n < 64
    · rw [pinAt_safePins _ _ hn]
      split
      · exact PinCh.settings_toSafe _ _
      · rfl
    · rw [pinAt, pinAt, vget_ge _ _ _ (Nat.not_lt.mp hn), vget_ge _ _ _ (Nat.not_lt.mp hn)]
  oct k := by
    rw [safePins, octAt_mapPins]
    exact h.oct k

theorem chanKept_calmPins (z : State) : CalmPins (ChanKept z) where
  evPend _ _ h := ⟨h.pin, h.oct⟩
  log _ _ _ h := ⟨h.pin, h.oct⟩
  pend _ _ h := ⟨h.pin, h.oct⟩
  safe _ mask h := safePins_chanKept h mask
  octs _ _ hx h := ⟨h.pin, fun k => (hx k).trans (h.oct k)⟩
  acts _ _ h := ⟨h.pin, h.oct⟩
  slots _ _ h := ⟨h.pin, h.oct⟩
  evid _ _ h := ⟨h.pin, h.oct⟩
  cal _ _ h := ⟨h.pin, h.oct⟩
  flt _ _ h := ⟨h.pin, h.oct⟩
  subst _ _ h := ⟨h.pin, h.oct⟩

theorem noteRange_chanKept (off sel : Nat) (subs : List (Nat × Nat)) (s : State) : ChanKept s (noteRange off sel subs s) :=
  noteRange_calmPins (chanKept_calmPins s) (.refl s) _ _ _

theorem clipEvents_chanKept (k : Nat) (before : List (BitVec 5)) (s : State) : ChanKept s (clipEvents k before s) :=
  clipEvents_calmPins (chanKept_calmPins s) (.refl s) _ _

end Sys2Proof.Machine
end

section
/-!
SUPPORT. The registers of pins and octets on the register bus (18 R417, R421), and what a write of a level, of PIN_CFG or of a wave register
does (06 R162): O10.
-/

set_option Elab.async false

namespace Sys2Proof.Machine

open Sys2Proof

/-! ### Addresses of pins and octets (Tables 18-16, 18-17) -/

/-- Past the registers of the octets no register has event fields. -/
theorem evReg_past_octets {a : Nat} (h : 0x1200 ≤ a) (s : State) : evReg s a = none := by
  unfold evReg
  split
  case h_25 => exact if_neg fun hoct => absurd hoct.2 (Nat.not_lt.mpr h)
  all_goals omega

section Pin

variable {n off : Nat} (hn : n < 64) (hoff : off < 0x20)
include hn hoff

theorem addrJudge_pin (hal : off % 4 = 0) : addrJudge (0x2000 + 0x20 * n + off) = .done := by
  have hin : inSpace (0x2000 + 0x20 * n + off) = true := by
    simp only [inSpace, Bool.or_eq_true, Bool.and_eq_true, decide_eq_true_eq]
    omega
  rw [addrJudge, if_neg (by omega), if_pos hin]

theorem regVal_pin (s : State) : regVal s (0x2000 + 0x20 * n + off) = readPin s n off := by
  have hpin : (0x2000 + 0x20 * n + off - 0x2000) / 0x20 = n := by omega
  have hreg : (0x2000 + 0x20 * n + off) % 0x20 = off := by omega
  rw [regVal, evReg_past_octets (by omega), readPlain, if_neg (by omega), if_neg (by omega), if_neg (by omega), if_pos (by omega), hpin,
    hreg]

theorem regWrite_pin (v : Word) (s : State) : regWrite (0x2000 + 0x20 * n + off) v s = writePin n off v s := by
  have hpin : (0x2000 + 0x20 * n + off - 0x2000) / 0x20 = n := by omega
  have hreg : (0x2000 + 0x20 * n + off) % 0x20 = off := by omega
  rw [regWrite, if_neg (by omega), if_neg (by omega), if_neg (by omega), if_pos (by omega), hpin, hreg]

end Pin

/-- Offsets of the wave registers of an octet (Table 18-16). -/
def waveOffs : List Nat := [0x08, 0x0C, 0x10]

section Octet

variable {k off : Nat} (hk : k < 8) (hoff : off ∈ waveOffs)
include hk hoff

theorem addrJudge_wave : addrJudge (0x1000 + 0x40 * k + off) = .done := by
  simp only [waveOffs, List.mem_cons, List.not_mem_nil, or_false] at hoff
  have hin : inSpace (0x1000 + 0x40 * k + off) = true := by
    simp only [inSpace, Bool.or_eq_true, Bool.and_eq_true, decide_eq_true_eq]
    omega
  rw [addrJudge, if_neg (by omega), if_pos hin]

theorem regVal_wave (s : State) : regVal s (0x1000 + 0x40 * k + off) = readOct s k off := by
  interval_cases k <;> fin_cases hoff <;> rfl

theorem regWrite_wave (v : Word) (s : State) : regWrite (0x1000 + 0x40 * k + off) v s = writeOct k off v s := by
  simp only [waveOffs, List.mem_cons, List.not_mem_nil, or_false] at hoff
  have hoct : (0x1000 + 0x40 * k + off - 0x1000) / 0x40 = k := by omega
  have hreg : (0x1000 + 0x40 * k + off) % 0x40 = off := by omega
  rw [regWrite, if_neg (by omega), if_neg (by omega), if_neg (by omega), if_neg (by omega), if_pos (by omega), hoct, hreg]

end Octet

/-! ### Pins and octets before and after an access -/

theorem pinAt_assureLapse (s : State) (n : Nat) : pinAt (assureLapse s) n = pinAt s n := by rw [assureLapse_eq]; rfl

theorem octAt_assureLapse (s : State) (k : Nat) : octAt (assureLapse s) k = octAt s k := by rw [assureLapse_eq]; rfl

theorem pinAt_modOct (k : Nat) (f : OctCh → OctCh) (s : State) (n : Nat) : pinAt (modOct k f s) n = pinAt s n := rfl

theorem octAt_modPin (n : Nat) (f : PinCh → PinCh) (s : State) (k : Nat) : octAt (modPin n f s) k = octAt s k := rfl

@[simp] theorem pinAt_answer (p : Port) (a : Nat) (wr : Bool) (v : Word) (x : BusRes) (s : State) (n : Nat) :
    pinAt (answer p a wr v x s) n = pinAt s n := rfl

@[simp] theorem octAt_answer (p : Port) (a : Nat) (wr : Bool) (v : Word) (x : BusRes) (s : State) (k : Nat) :
    octAt (answer p a wr v x s) k = octAt s k := rfl

theorem readPin_answer (p : Port) (a : Nat) (wr : Bool) (v : Word) (x : BusRes) (s : State) (n off : Nat) :
    readPin (answer p a wr v x s) n off = readPin s n off := rfl

theorem readOct_answer (p : Port) (a : Nat) (wr : Bool) (v : Word) (x : BusRes) (s : State) (k off : Nat) :
    readOct (answer p a wr v x s) k off = readOct s k off := rfl

/-! ### A write of a pin register (06 R162) -/

/-- A pin with register `r` (0 PIN_CFG, 1 drive, 2 compare, 3 VTT) written. -/
def PinCh.withReg (r : Nat) (v : Word) (p : PinCh) : PinCh :=
  match r with
  | 0 => { p with cfg := v &&& pinCfgMask }
  | 1 => { p with lvlDrv := v }
  | 2 => { p with lvlCmp := v }
  | _ => { p with lvlTt := v &&& 0xFFFF }

theorem PinCh.withReg_ld (r : Nat) (v : Word) (p : PinCh) : (p.withReg r v).ld = p.ld := by
  unfold withReg
  split <;> rfl

theorem pinRegWrite_eq (n r : Nat) (v : Word) (s : State) : ∃ old,
    pinRegWrite n r v s = modOct (n / 8) (noteFresh s.now (4 * (n % 8) + r) old) (modPin n (PinCh.withReg r v) s) := ⟨_, rfl⟩

theorem pinAt_pinRegWrite {n : Nat} (hn : n < 64) (r : Nat) (v : Word) (s : State) :
    pinAt (pinRegWrite n r v s) n = (pinAt s n).withReg r v := by
  obtain ⟨old, h⟩ := pinRegWrite_eq n r v s
  rw [h, pinAt_modOct, pinAt_modPin, if_pos ⟨rfl, hn⟩]

/-- What a write of a pin register leaves: the pin with what it has loaded, its octet with values to load, and the others. -/
structure PinWritten (n : Nat) (s w : State) : Prop where
  pending : (octAt w (n / 8)).pending = true
  ld : (pinAt w n).ld = (pinAt s n).ld
  pins : ∀ m, m ≠ n → pinAt w m = pinAt s m
  octs : ∀ k, k ≠ n / 8 → octAt w k = octAt s k

theorem PinWritten.answer {n : Nat} {s w : State} (h : PinWritten n s w) (p : Port) (a : Nat) (wr : Bool) (v : Word) (x : BusRes) :
    PinWritten n s (answer p a wr v x w) := ⟨h.pending, h.ld, h.pins, h.octs⟩

theorem pinRegWrite_written {n : Nat} (hn : n < 64) (r : Nat) (v : Word) (s : State) : PinWritten n s (pinRegWrite n r v s) where
  pending := by
    obtain ⟨old, h⟩ := pinRegWrite_eq n r v s
    rw [h, octAt_modOct, if_pos ⟨rfl, by omega⟩]
    rfl
  ld := by rw [pinAt_pinRegWrite hn, PinCh.withReg_ld]
  pins m hm := by
    obtain ⟨old, h⟩ := pinRegWrite_eq n r v s
    rw [h, pinAt_modOct, pinAt_modPin, if_neg fun h => hm h.1.symm]
  octs k hk := by
    obtain ⟨old, h⟩ := pinRegWrite_eq n r v s
    rw [h, octAt_modOct, if_neg fun h => hk h.1.symm, octAt_modPin]

theorem and_allOnes32 (v : Word) : v &&& 0xFFFFFFFF = v := BitVec.and_allOnes

/-- A write of a level register (offset and writable bits) writes that register and no other. -/
theorem writePin_level {n : Nat} (hn : n < 64) (v : Word) (s : State) :
    ∀ x ∈ ([(4, 0xFFFFFFFF), (8, 0xFFFFFFFF), (12, 0xFFFF)] : List (Nat × Word)), x.1 < 0x20 ∧ x.1 % 4 = 0 ∧
      ∃ r, writePin n x.1 v s = (pinRegWrite n r v s, .done) ∧ readPin (pinRegWrite n r v s) n x.1 = v &&& x.2 := by
  rw [List.forall_mem_cons, List.forall_mem_cons, List.forall_mem_cons]
  refine ⟨⟨by decide, rfl, 1, rfl, ?_⟩, ⟨by decide, rfl, 2, rfl, ?_⟩, ⟨by decide, rfl, 3, rfl, ?_⟩,
    fun x hx => absurd hx List.not_mem_nil⟩
  · rw [readPin, pinAt_pinRegWrite hn, and_allOnes32]
    rfl
  · rw [readPin, pinAt_pinRegWrite hn, and_allOnes32]
    rfl
  · rw [readPin, pinAt_pinRegWrite hn]
    rfl

theorem writePin_cfg (n : Nat) (v : Word) (s : State) : writePin n 0 v s =
    (noteRange (0x2000 + 0x20 * n) 0 (subsPin 0 (v &&& pinCfgMask)) (pinRegWrite n 0 v s), .done) := rfl

/-! ### A write of a wave register (06 R162) -/

/-- An octet with wave register `r` (0 OCT_WAVE_FTW, 1 OCT_WAVE_LVL, 2 OCT_WAVE_CTRL) written. -/
def OctCh.withWave (r : Nat) (v : Word) (o : OctCh) : OctCh :=
  match r with
  | 0 => { o with waveFtw := v }
  | 1 => { o with waveLvl := v }
  | _ => { o with waveCtrl := v &&& 0x800003FF }

/-- The generator's loaded tuning word, level and RUN. -/
def OctCh.loadedWave (o : OctCh) : Word × Word × Bool := (o.ldFtw, o.ldLvl, o.ldRun)

theorem OctCh.withWave_loaded (r : Nat) (v : Word) (o : OctCh) : (o.withWave r v).loadedWave = o.loadedWave := by
  unfold withWave
  split <;> rfl

theorem octAt_waveRegWrite {k : Nat} (hk : k < 8) (r : Nat) (v : Word) (s : State) : ∃ old,
    octAt (waveRegWrite k r v s) k = noteFresh s.now (32 + r) old ((octAt s k).withWave r v) :=
  ⟨_, (octAt_modOct s k k _).trans (if_pos ⟨rfl, hk⟩)⟩

/-- What a write of a wave register leaves: the octet with values to load and with what its generator has loaded, and the others. -/
structure WaveWritten (k : Nat) (s w : State) : Prop where
  pending : (octAt w k).pending = true
  loaded : (octAt w k).loadedWave = (octAt s k).loadedWave
  octs : ∀ j, j ≠ k → octAt w j = octAt s j

theorem WaveWritten.answer {k : Nat} {s w : State} (h : WaveWritten k s w) (p : Port) (a : Nat) (wr : Bool) (v : Word) (x : BusRes) :
    WaveWritten k s (answer p a wr v x w) := ⟨h.pending, h.loaded, h.octs⟩

theorem waveRegWrite_written {k : Nat} (hk : k < 8) (r : Nat) (v : Word) (s : State) : WaveWritten k s (waveRegWrite k r v s) where
  pending := by
    obtain ⟨old, h⟩ := octAt_waveRegWrite hk r v s
    rw [h]
    rfl
  loaded := by
    obtain ⟨old, h⟩ := octAt_waveRegWrite hk r v s
    rw [h]
    exact OctCh.withWave_loaded r v (octAt s k)
  octs j hj := (octAt_modOct s k j _).trans (if_neg fun h => hj h.1.symm)

/-- Beside RUN and the start phase OCT_WAVE_CTRL shows SAT, bit 30. -/
theorem waveCtrl_fields (v : Word) (sat : Bool) :
    word ((v &&& 0x800003FF).toNat + 2 ^ 30 * b2n sat) &&& 0xBFFFFFFF = v &&& 0x800003FF &&& 0xBFFFFFFF := by
  have hsum : word ((v &&& 0x800003FF).toNat + 2 ^ 30 * b2n sat) = (v &&& 0x800003FF) + word (2 ^ 30 * b2n sat) := by
    simp [word, BitVec.ofNat_add]
  have hdisj : (v &&& 0x800003FF) &&& word (2 ^ 30 * b2n sat) = 0 := by
    rw [BitVec.and_assoc]
    cases sat <;> simp [word, b2n]
  have hout : word (2 ^ 30 * b2n sat) &&& 0xBFFFFFFF = 0 := by cases sat <;> decide
  rw [hsum, BitVec.add_eq_or_of_and_eq_zero _ _ hdisj, BitVec.and_or_distrib_right, hout]
  exact BitVec.or_zero

/-- A write of OCT_WAVE_LVL or OCT_WAVE_CTRL (offset and writable bits) writes that register and no other. -/
theorem writeOct_wave {k : Nat} (hk : k < 8) (v : Word) (s : State) :
    ∀ x ∈ ([(12, 0xFFFFFFFF), (16, 0x800003FF)] : List (Nat × Word)), x.1 ∈ waveOffs ∧
      ∃ r, writeOct k x.1 v s = (waveRegWrite k r v s, .done) ∧
        readOct (waveRegWrite k r v s) k x.1 &&& 0xBFFFFFFF = v &&& x.2 &&& 0xBFFFFFFF := by
  rw [List.forall_mem_cons, List.forall_mem_cons]
  refine ⟨⟨by decide, 1, rfl, ?_⟩, ⟨by decide, 2, rfl, ?_⟩, fun x hx => absurd hx List.not_mem_nil⟩
  · obtain ⟨old, h⟩ := octAt_waveRegWrite hk 1 v s
    rw [readOct, h, and_allOnes32]
    rfl
  · obtain ⟨old, h⟩ := octAt_waveRegWrite hk 2 v s
    rw [readOct, h]
    exact waveCtrl_fields v _

/-! ### The statement -/

/-- Settles O10: levels by `writePin_level` and `pinRegWrite_written`, OCT_WAVE_LVL and OCT_WAVE_CTRL by `writeOct_wave`; watching the range
of PIN_CFG and OCT_WAVE_FTW keeps the settings of pins and octets (`noteRange_chanKept`). -/
theorem pinAndWaveRegisterWrites : Obligations.PinAndWaveRegisterWrites := by
  intro t p v s hp u
  refine ⟨fun n hn x hx => ?level, fun n hn => ?cfg, fun k hk => ?ftw, fun k hk x hx => ?wave⟩
  case level =>
    obtain ⟨hoff, hal, r, hwrite, hread⟩ := writePin_level hn v u x hx
    obtain ⟨hpending, hld, hpins, hocts⟩ := (pinRegWrite_written hn r v u).answer p (0x2000 + 0x20 * n + x.1) true v .done
    refine ⟨answer p _ true v .done (pinRegWrite n r v u), ?_, ?_, hpending, hld, hpins, hocts, rfl⟩
    · rw [exec_registerWrite hp (addrJudge_pin hn hoff hal), regWrite_pin hn hoff, hwrite]
    · rw [regVal_pin hn hoff, readPin_answer, hread]
  case cfg =>
    have hoff : 0 < 0x20 := by decide
    obtain ⟨hpending, hld, -, -⟩ := pinRegWrite_written hn 0 v u
    have hkept := noteRange_chanKept (0x2000 + 0x20 * n) 0 (subsPin 0 (v &&& pinCfgMask)) (pinRegWrite n 0 v u)
    have hjudge : addrJudge (0x2000 + 0x20 * n) = .done := addrJudge_pin (off := 0) hn hoff rfl
    have hwrite : regWrite (0x2000 + 0x20 * n) v u = writePin n 0 v u := regWrite_pin (off := 0) hn hoff v u
    have hread (w : State) : regVal w (0x2000 + 0x20 * n) = (pinAt w n).cfg := regVal_pin (off := 0) hn hoff w
    refine ⟨answer p (0x2000 + 0x20 * n) true v .done
      (noteRange (0x2000 + 0x20 * n) 0 (subsPin 0 (v &&& pinCfgMask)) (pinRegWrite n 0 v u)), ?_, ?_, ?_, ?_⟩
    · rw [exec_registerWrite hp hjudge, hwrite, writePin_cfg]
    · rw [hread, pinAt_answer, hkept.pinField n PinCh.cfg, pinAt_pinRegWrite hn]
      rfl
    · rw [octAt_answer, hkept.octField (n / 8) OctCh.pending, hpending]
    · rw [pinAt_answer, hkept.pinField n PinCh.ld, hld]
  case ftw =>
    have haddr : 0x1000 + 0x40 * k + 0x08 = 0x1008 + 0x40 * k := by omega
    have hoff : 0x08 ∈ waveOffs := by decide
    have hjudge := haddr ▸ addrJudge_wave hk hoff
    have hwrite := haddr ▸ regWrite_wave hk hoff v u
    have hread (w : State) : regVal w (0x1008 + 0x40 * k) = (octAt w k).waveFtw := haddr ▸ regVal_wave hk hoff w
    obtain ⟨old, hoct⟩ := octAt_waveRegWrite hk 0 v u
    have hkept := noteRange_chanKept (0x1008 + 0x40 * k) 0 (subsOct 8 v) (waveRegWrite k 0 v u)
    refine ⟨answer p (0x1008 + 0x40 * k) true v .done
      (noteRange (0x1008 + 0x40 * k) 0 (subsOct 8 v) (waveRegWrite k 0 v u)), ?_, ?_, ?_, ?_⟩
    · rw [exec_registerWrite hp hjudge, hwrite, writeOct]
    · rw [hread, octAt_answer, hkept.octField k OctCh.waveFtw, hoct]
      rfl
    · rw [octAt_answer, hkept.octField k OctCh.pending, hoct]
      rfl
    · rw [octAt_answer, hkept.octField k OctCh.ldFtw, hoct]
      rfl
  case wave =>
    obtain ⟨hoff, r, hwrite, hread⟩ := writeOct_wave hk v u x hx
    obtain ⟨hpending, hloaded, hocts⟩ := (waveRegWrite_written hk r v u).answer p (0x1000 + 0x40 * k + x.1) true v .done
    refine ⟨answer p _ true v .done (waveRegWrite k r v u), ?_, ?_, hpending, congrArg (fun x => x.2.1) hloaded,
      congrArg (fun x => x.2.2) hloaded, congrArg (fun x => x.1) hloaded, hocts, rfl⟩
    · rw [exec_registerWrite hp (addrJudge_wave hk hoff), regWrite_wave hk hoff, hwrite]
    · rw [regVal_wave hk hoff, readOct_answer, hread]

end Sys2Proof.Machine
end

section
/-!
SUPPORT. Load strobes (06 R162 to R164): what a strobe loads into pins and what it leaves of the octet, by register and by timer: O11.
-/

set_option Elab.async false

namespace Sys2Proof.Machine

open Sys2Proof

/-! ### What a load leaves of an octet and of a pin -/

/-- The strobes an octet has counted, their latest source and instant, and OCT_LOAD_CTRL. -/
def OctCh.strobeCount (o : OctCh) : Nat × Nat × Instant × Word := (o.strobes, o.lastSrc, o.lastStrobe, o.loadCtrl)

theorem waveOut_strobeCount (o : OctCh) : (waveOut o).strobeCount = o.strobeCount := by
  unfold waveOut
  split <;> rfl

theorem loadWave_strobeCount (now : Instant) (dayEntry : Bool) (o : OctCh) : (loadWave now dayEntry o).strobeCount = o.strobeCount := by
  unfold loadWave
  dsimp only
  rw [waveOut_strobeCount]
  split <;> rfl

/-- A register not written in the cycle held at its start what it holds. -/
theorem atStart_of_not_fresh {now : Instant} {o : OctCh} (h : sameCycle o.freshAt now = false) (key : Nat) (cur : Word) :
    atStart now o key cur = cur := if_neg (by simp [h])

theorem loadPin_ld_of_not_fresh {now : Instant} {o : OctCh} (h : sameCycle o.freshAt now = false) (i : Nat) (p : PinCh) :
    (loadPin now o i p).ld = ⟨p.cfg, p.lvlDrv, p.lvlCmp, p.lvlTt⟩ := by
  simp only [loadPin, atStart_of_not_fresh h]

theorem pinAt_mapPins {n : Nat} (hn : n < 64) (mask : Nat) (f : Nat → PinCh → PinCh) (s : State) :
    pinAt (mapPins mask f s) n = if mask.testBit (n / 8) then f n (pinAt s n) else pinAt s n :=
  vget_vmap s.pins (fun n p => if mask.testBit (n / 8) then f n p else p) n {} hn

theorem pinAt_mapPins_oct {k i : Nat} (hk : k < 8) (hi : i < 8) (f : Nat → PinCh → PinCh) (s : State) :
    pinAt (mapPins (2 ^ k) f s) (8 * k + i) = f (8 * k + i) (pinAt s (8 * k + i)) := by
  have hoct : (8 * k + i) / 8 = k := by omega
  rw [pinAt_mapPins (by omega), hoct, if_pos (Nat.testBit_two_pow_self)]

theorem pinAt_mapPins_other {k n : Nat} (h : n / 8 ≠ k) (f : Nat → PinCh → PinCh) (s : State) :
    pinAt (mapPins (2 ^ k) f s) n = pinAt s n := by
  by_cases hn : n < 64
  · rw [pinAt_mapPins hn, Nat.testBit_two_pow_of_ne (Ne.symm h), if_neg Bool.false_ne_true]
  · rw [pinAt, pinAt, vget_ge _ _ _ (Nat.not_lt.mp hn), vget_ge _ _ _ (Nat.not_lt.mp hn)]

/-! ### A strobe -/

/-- An octet whose values have been loaded: the count and OCT_LOAD_CTRL stand, its own pins hold what they held at the start of the cycle,
and the pins of the other octets hold what they had loaded. -/
structure Loaded (k : Nat) (s w : State) : Prop where
  count : (octAt w k).strobeCount = (octAt s k).strobeCount
  own : sameCycle (octAt s k).freshAt s.now = false → ∀ i < 8, (pinAt w (8 * k + i)).ld =
    ⟨(pinAt s (8 * k + i)).cfg, (pinAt s (8 * k + i)).lvlDrv, (pinAt s (8 * k + i)).lvlCmp, (pinAt s (8 * k + i)).lvlTt⟩
  other : ∀ n, n / 8 ≠ k → (pinAt w n).ld = (pinAt s n).ld

theorem loadOct_loaded {k : Nat} (hk : k < 8) (dayEntry : Bool) (s : State) : Loaded k s (loadOct k dayEntry s) := by
  unfold loadOct
  extract_lets o o1 restart before load s1
  have hkept := clipEvents_chanKept k before (modOct k (fun _ => { o1 with pending := sameCycle o.freshAt s.now && !o.fresh.isEmpty }) s1)
  refine ⟨?_, fun hfresh i hi => ?_, fun n hn => ?_⟩
  · rw [hkept.octField k OctCh.strobeCount, octAt_modOct, if_pos ⟨rfl, hk⟩]
    exact loadWave_strobeCount _ _ _
  · rw [hkept.pinField _ PinCh.ld, pinAt_modOct, pinAt_mapPins_oct hk hi]
    exact loadPin_ld_of_not_fresh hfresh _ _
  · rw [hkept.pinField n PinCh.ld, pinAt_modOct, pinAt_mapPins_other hn]

/-- The unit with a strobe of octet `k` counted. -/
def strobeCounted (k src : Nat) (s : State) : State :=
  modOct k (fun o => { o with strobes := (o.strobes + 1) % 65536, lastSrc := src, lastStrobe := s.now }) s

/-- The octet is active with its pins powered, and no strobe has come in the cycle (R163). -/
def StrobeFree (k : Nat) (s : State) : Prop :=
  octOn s k = true ∧ pinsOn s = true ∧ ((octAt s k).lastSrc = 0 ∨ sameCycle (octAt s k).lastStrobe s.now = false)

theorem strobe_of_free {k : Nat} {s : State} (h : StrobeFree k s) (src : Nat) : strobe k src s = loadOct k false (strobeCounted k src s) := by
  obtain ⟨hon, hpins, hfirst⟩ := h
  have hnot : ¬ ((octAt s k).lastSrc ≠ 0 ∧ sameCycle (octAt s k).lastStrobe s.now = true) := by
    rintro ⟨hsrc, hsame⟩
    rcases hfirst with h | h
    · exact hsrc h
    · exact absurd (h.symm.trans hsame) Bool.false_ne_true
  exact (if_pos ⟨hon, hpins⟩).trans (if_neg hnot)

/-- A strobe of octet `k` from `src` has come: it is counted, and the octet's values are loaded. -/
def Strobed (k src : Nat) (s w : State) : Prop :=
  (octAt w k).strobes = ((octAt s k).strobes + 1) % 65536 ∧ (octAt w k).lastSrc = src ∧ (octAt w k).lastStrobe = s.now ∧
  (sameCycle (octAt s k).freshAt s.now = false → ∀ i < 8, (pinAt w (8 * k + i)).ld =
    ⟨(pinAt s (8 * k + i)).cfg, (pinAt s (8 * k + i)).lvlDrv, (pinAt s (8 * k + i)).lvlCmp, (pinAt s (8 * k + i)).lvlTt⟩) ∧
  (∀ n, n / 8 ≠ k → (pinAt w n).ld = (pinAt s n).ld)

theorem strobeOrDefer_strobed {k : Nat} (hk : k < 8) {s : State} (h : StrobeFree k s) (hwin : (octAt s k).win = none) (src : Nat) :
    Strobed k src s (strobeOrDefer k src s) ∧ (octAt (strobeOrDefer k src s) k).loadCtrl = (octAt s k).loadCtrl := by
  have hstrobe : strobeOrDefer k src s = loadOct k false (strobeCounted k src s) :=
    (if_neg (by simp [hwin])).trans (strobe_of_free h src)
  have hoct : octAt (strobeCounted k src s) k =
      { octAt s k with strobes := ((octAt s k).strobes + 1) % 65536, lastSrc := src, lastStrobe := s.now } := by
    rw [strobeCounted, octAt_modOct, if_pos ⟨rfl, hk⟩]
  obtain ⟨hcount, hown, hother⟩ := loadOct_loaded hk false (strobeCounted k src s)
  rw [hoct] at hcount hown
  rw [hstrobe]
  exact ⟨⟨congrArg (fun x => x.1) hcount, congrArg (fun x => x.2.1) hcount, congrArg (fun x => x.2.2.1) hcount, hown, hother⟩,
    congrArg (fun x => x.2.2.2) hcount⟩

/-- In a window the strobe by register is noted (13 R302). -/
theorem strobeOrDefer_deferred {k : Nat} (hk : k < 8) {s : State} (hwin : (octAt s k).win.isSome = true) :
    (octAt (strobeOrDefer k 1 s) k).defReg = true ∧ (octAt (strobeOrDefer k 1 s) k).strobes = (octAt s k).strobes ∧
    ∀ n, pinAt (strobeOrDefer k 1 s) n = pinAt s n := by
  have hnoted : strobeOrDefer k 1 s = modOct k (fun o => { o with defReg := true }) s := if_pos hwin
  rw [hnoted, octAt_modOct, if_pos ⟨rfl, hk⟩]
  exact ⟨rfl, rfl, fun _ => rfl⟩

/-! ### A write of OCT_LOAD_CTRL (06 R163) -/

/-- The unit with OCT_LOAD_CTRL of octet `k` written. -/
def loadCtrlSet (k : Nat) (v : Word) (s : State) : State := modOct k (fun o => { o with loadCtrl := v &&& 0x03FFFFFF }) s

theorem octAt_loadCtrlSet {k : Nat} (hk : k < 8) (v : Word) (s : State) :
    octAt (loadCtrlSet k v s) k = { octAt s k with loadCtrl := v &&& 0x03FFFFFF } := by
  rw [loadCtrlSet, octAt_modOct, if_pos ⟨rfl, hk⟩]

theorem loadCtrlWrite_load {k : Nat} {v : Word} (hv : v.getLsbD 31 = true) (s : State) :
    loadCtrlWrite k v s = (strobeOrDefer k 1 (noteRange (0x1000 + 0x40 * k) 0 (subsOct 0 (v &&& 0x03FFFFFF)) (loadCtrlSet k v s)), .done) :=
  congrArg (·, BusRes.done) (if_pos hv)

theorem loadCtrlWrite_keep {k : Nat} {v : Word} (hv : v.getLsbD 31 = false) (s : State) :
    loadCtrlWrite k v s = (noteRange (0x1000 + 0x40 * k) 0 (subsOct 0 (v &&& 0x03FFFFFF)) (loadCtrlSet k v s), .done) :=
  congrArg (·, BusRes.done) (if_neg (ne_true_of_eq_false hv))

/-- The bits above TMR_PERIOD that the register keeps do not count in it. -/
theorem fld_and_loadCtrl (v : Word) : fld (v &&& 0x03FFFFFF) 0 24 = fld v 0 24 := by
  have hmask : (0x03FFFFFF : Word).toNat % 2 ^ 24 = 2 ^ 24 - 1 := by decide
  simp only [fld, Nat.shiftRight_zero, BitVec.toNat_and, Nat.and_mod_two_pow, hmask, Nat.and_two_pow_sub_one_eq_mod, Nat.mod_mod]

/-- A period in range is watched without an event: no substituted field is left to note (17 R429). -/
theorem subsOct_of_period {v : Word} (h : 25 ≤ fld v 0 24) : subsOct 0 (v &&& 0x03FFFFFF) = [] := by
  rw [subsOct, fld_and_loadCtrl]
  exact if_neg (by simp [Nat.not_lt.mpr h])

theorem noteRange_nil (off sel : Nat) (s : State) : ∃ l f, noteRange off sel [] s = { s with r := { s.r with subst := l }, flt := f } :=
  ⟨_, _, rfl⟩

theorem Strobed.answer {k src : Nat} {s w : State} (h : Strobed k src s w) (p : Port) (a : Nat) (wr : Bool) (v : Word) (x : BusRes) :
    Strobed k src s (answer p a wr v x w) := h

/-- What a strobe does is told by the instant, the pins, and the count and the writes of its octet. -/
theorem Strobed.of_same {k src : Nat} {s u w : State} (h : Strobed k src s w) (hnow : s.now = u.now) (hpin : ∀ n, pinAt s n = pinAt u n)
    (hstrobes : (octAt s k).strobes = (octAt u k).strobes) (hfresh : (octAt s k).freshAt = (octAt u k).freshAt) :
    Strobed k src u w := by
  simpa only [Strobed, hnow, hpin, hstrobes, hfresh] using h

/-- The unit with OCT_LOAD_CTRL of octet `k` written by a port and its range watched. -/
def loadCtrlNoted (k : Nat) (v : Word) (s : State) : State :=
  noteRange (0x1000 + 0x40 * k) 0 (subsOct 0 (v &&& 0x03FFFFFF)) (loadCtrlSet k v (assureLapse s))

theorem loadCtrlNoted_eq {k : Nat} {v : Word} (h : 25 ≤ fld v 0 24) (s : State) : ∃ e l f,
    loadCtrlNoted k v s = { loadCtrlSet k v s with evPend := e, r := { s.r with subst := l }, flt := f } := by
  obtain ⟨l, f, hnote⟩ := noteRange_nil (0x1000 + 0x40 * k) 0 (loadCtrlSet k v (assureLapse s))
  refine ⟨(assureLapse s).evPend, l, f, ?_⟩
  rw [loadCtrlNoted, subsOct_of_period h, hnote, assureLapse_eq]
  rfl

theorem octAt_loadCtrlNoted {k : Nat} (hk : k < 8) {v : Word} (h : 25 ≤ fld v 0 24) (s : State) :
    octAt (loadCtrlNoted k v s) k = { octAt s k with loadCtrl := v &&& 0x03FFFFFF } := by
  obtain ⟨e, l, f, heq⟩ := loadCtrlNoted_eq (k := k) h s
  rw [heq, ← octAt_loadCtrlSet hk]
  rfl

theorem pinAt_loadCtrlNoted {k : Nat} {v : Word} (h : 25 ≤ fld v 0 24) (s : State) (n : Nat) :
    pinAt (loadCtrlNoted k v s) n = pinAt s n := by
  obtain ⟨e, l, f, heq⟩ := loadCtrlNoted_eq (k := k) h s
  rw [heq]
  rfl

theorem loadCtrlNoted_now {k : Nat} {v : Word} (h : 25 ≤ fld v 0 24) (s : State) : (loadCtrlNoted k v s).now = s.now := by
  obtain ⟨e, l, f, heq⟩ := loadCtrlNoted_eq (k := k) h s
  rw [heq]
  rfl

theorem loadCtrlNoted_free {k : Nat} (hk : k < 8) {v : Word} {s : State} (h : 25 ≤ fld v 0 24) (hfree : StrobeFree k s) :
    StrobeFree k (loadCtrlNoted k v s) := by
  obtain ⟨hon, hpins, hfirst⟩ := hfree
  obtain ⟨e, l, f, heq⟩ := loadCtrlNoted_eq (k := k) h s
  refine ⟨?_, ?_, ?_⟩
  · rw [heq]
    exact hon
  · rw [heq]
    exact hpins
  · rw [octAt_loadCtrlNoted hk h, loadCtrlNoted_now h]
    exact hfirst

/-- With LOAD 1, in no window (R163). -/
theorem loadCtrlNoted_strobed {k : Nat} (hk : k < 8) {v : Word} {s : State} (h : 25 ≤ fld v 0 24) (hfree : StrobeFree k s)
    (hwin : (octAt s k).win = none) : Strobed k 1 s (strobeOrDefer k 1 (loadCtrlNoted k v s)) ∧
      (octAt (strobeOrDefer k 1 (loadCtrlNoted k v s)) k).loadCtrl = v &&& 0x03FFFFFF := by
  have hoct := octAt_loadCtrlNoted hk h s
  obtain ⟨hstrobed, hctrl⟩ := strobeOrDefer_strobed hk (loadCtrlNoted_free hk h hfree) (by rw [hoct]; exact hwin) 1
  refine ⟨hstrobed.of_same (loadCtrlNoted_now h s) (pinAt_loadCtrlNoted h s) ?_ ?_, ?_⟩
  · rw [hoct]
  · rw [hoct]
  · rw [hctrl, hoct]

/-! ### The load timer (06 R164) -/

theorem timerDue_iff (s : State) (k : Nat) : timerDue s k = true ↔ (octAt s k).loadCtrl.getLsbD 25 = true ∧
    (octAt s k).lastStrobe + max 25 (fld (octAt s k).loadCtrl 0 24) * 20480 ≤ s.now := by
  rw [timerDue, Bool.and_eq_true, decide_eq_true_iff]
  rfl

/-! ### The statement -/

theorem exec_octLoadWrite_load {t : Instant} {p : Port} {v : Word} {s : State} (hp : portUp (advance t s) p = true)
    (hload : v.getLsbD 31 = true) (k : Fin 8) : exec (.octLoadWrite t p k v) s =
      .next (answer p (0x1000 + 0x40 * k.val) true v .done (strobeOrDefer k.val 1 (loadCtrlNoted k.val v (advance t s)))) := by
  have hw := portWrite_up (a := 0x1000 + 0x40 * k.val) (v := v) (f := loadCtrlWrite k.val v) hp
  rw [loadCtrlWrite_load hload] at hw
  exact congrArg Host.Outcome.next hw

theorem exec_octLoadWrite_keep {t : Instant} {p : Port} {v : Word} {s : State} (hp : portUp (advance t s) p = true)
    (hload : v.getLsbD 31 = false) (k : Fin 8) : exec (.octLoadWrite t p k v) s =
      .next (answer p (0x1000 + 0x40 * k.val) true v .done (loadCtrlNoted k.val v (advance t s))) := by
  have hw := portWrite_up (a := 0x1000 + 0x40 * k.val) (v := v) (f := loadCtrlWrite k.val v) hp
  rw [loadCtrlWrite_keep hload] at hw
  exact congrArg Host.Outcome.next hw

theorem exec_loadTimerExpiry (t : Instant) (k : Fin 8) (s : State) : exec (.loadTimerExpiry t k) s =
    .next (if timerDue (advance t s) k.val then strobeOrDefer k.val 3 (advance t s) else advance t s) := rfl

/-- Settles O11: the strobe by register by `loadCtrlNoted_strobed`, the one by timer by `strobeOrDefer_strobed`. -/
theorem loadStrobes : Obligations.LoadStrobes := by
  intro t p k v s u strobed free
  have hk := k.isLt
  refine ⟨fun hp hfree hwin hload hper => ?fires, fun hp hwin hload hper => ?noted, fun hp hload => ?keeps, fun hfree hwin hen hdue => ?timer,
    fun h => ?early⟩
  case fires =>
    obtain ⟨hstrobed, hctrl⟩ := loadCtrlNoted_strobed hk hper hfree hwin
    exact ⟨_, exec_octLoadWrite_load hp hload k, hctrl, hstrobed.answer p _ true v .done⟩
  case noted =>
    have hoct := octAt_loadCtrlNoted hk hper u
    obtain ⟨hdef, hstrobes, hpins⟩ := strobeOrDefer_deferred hk (s := loadCtrlNoted k.val v u) (by rw [hoct]; exact hwin)
    exact ⟨_, exec_octLoadWrite_load hp hload k, hdef, hstrobes.trans (by rw [hoct]),
      fun n => congrArg PinCh.ld ((hpins n).trans (pinAt_loadCtrlNoted hper u n))⟩
  case keeps =>
    have hkept : ChanKept (loadCtrlSet k.val v (assureLapse u)) (loadCtrlNoted k.val v u) := noteRange_chanKept _ _ _ _
    have hoct := octAt_loadCtrlSet hk v (assureLapse u)
    rw [octAt_assureLapse] at hoct
    refine ⟨_, exec_octLoadWrite_keep hp hload k, ?_, ?_, fun n => ?_⟩
    · rw [octAt_answer, hkept.octField k.val OctCh.loadCtrl, hoct]
    · rw [octAt_answer, hkept.octField k.val OctCh.strobes, hoct]
    · rw [pinAt_answer, hkept.pinField n PinCh.ld, loadCtrlSet, pinAt_modOct, pinAt_assureLapse]
  case timer =>
    have hfires : timerDue u k.val = true := (timerDue_iff u k.val).mpr ⟨hen, hdue⟩
    exact ⟨_, exec_loadTimerExpiry t k s, (if_pos hfires).symm ▸ (strobeOrDefer_strobed hk hfree hwin 3).1⟩
  case early =>
    have hnot : ¬ timerDue u k.val = true := fun hd => by
      obtain ⟨hen, hdue⟩ := (timerDue_iff u k.val).mp hd
      rcases h with h | h
      · exact absurd (h.symm.trans hen) Bool.false_ne_true
      · exact absurd hdue (Nat.not_le.mpr h)
    exact ⟨_, exec_loadTimerExpiry t k s, if_neg hnot⟩

end Sys2Proof.Machine
end

section
/-!
SUPPORT. The wave generator (06 R166, R167) and its table (R168): O12.
-/

set_option Elab.async false

namespace Sys2Proof.Machine

open Sys2Proof

/-! ### A tick of the generator (06 R166) -/

/-- An octet whose generator ticks. -/
def OctCh.ticked (o : OctCh) : OctCh := waveOut { o with acc := o.acc + o.ldFtw, waveAt := o.waveAt + 20480 }

theorem OctCh.ticked_eq {o : OctCh} (h : o.ldRun = true) : ∃ sat, o.ticked =
    { o with acc := o.acc + o.ldFtw, waveAt := o.waveAt + 20480, waveSat := sat
             code := (max 0 (min (waveRaw { o with acc := o.acc + o.ldFtw, waveAt := o.waveAt + 20480 }) 65535)).toNat } :=
  ⟨_, if_pos h⟩

/-- OFFSET + floor(AMP T / 32 768) for the entry `T` that the accumulator after the tick selects. -/
def OctCh.sample (o : OctCh) : Int :=
  (fld o.ldLvl 0 16 : Int) + (fld o.ldLvl 16 16 : Int) * waveEntry o (fld (o.acc + o.ldFtw) 22 10) / 32768

theorem OctCh.ticked_code {o : OctCh} (h : o.ldRun = true) : (o.ticked.code : Int) = max 0 (min 65535 o.sample) := by
  obtain ⟨sat, heq⟩ := o.ticked_eq h
  have hraw : waveRaw { o with acc := o.acc + o.ldFtw, waveAt := o.waveAt + 20480 } = o.sample := rfl
  rw [heq, hraw, Int.min_comm]
  exact Int.toNat_of_nonneg (Int.le_max_left _ _)

/-- What lets a tick come: Day, an active octet, RUN loaded as 1, and 80 ns since the last. -/
def TickDue (k : Nat) (s : State) : Prop :=
  inDay s = true ∧ octOn s k = true ∧ (octAt s k).ldRun = true ∧ (octAt s k).waveAt + 20480 ≤ s.now

theorem waveTick_due {k : Nat} {s : State} (h : TickDue k s) : ∃ sample, waveTick k s =
    clipEvents k (clipsOf s k) (modOct k (fun _ => (octAt s k).ticked) (mapPins (2 ^ k) sample s)) := ⟨_, if_pos h⟩

theorem waveTick_not_due {k : Nat} {s : State} (h : ¬ TickDue k s) : waveTick k s = s := if_neg h

/-- The generator's accumulator, the instant of its latest tick, and its output. -/
def OctCh.generator (o : OctCh) : Word × Instant × Nat := (o.acc, o.waveAt, o.code)

theorem waveTick_generator {k : Nat} (hk : k < 8) {s : State} (h : TickDue k s) :
    (octAt (waveTick k s) k).generator = (octAt s k).ticked.generator := by
  obtain ⟨sample, htick⟩ := waveTick_due h
  rw [htick, (clipEvents_chanKept _ _ _).octField k OctCh.generator, octAt_modOct, if_pos ⟨rfl, hk⟩]

/-! ### The wave tables (06 R168) -/

theorem regVal_waveTable (ix : Nat) (s : State) :
    regVal s (0x300000 + 4 * ix) = sget waveReset (octAt s (ix / 512)).wave (ix % 512) := by
  have hoct : (0x300000 + 4 * ix - 0x300000) / 0x800 = ix / 512 := by omega
  have hword : (0x300000 + 4 * ix - 0x300000) / 4 % 512 = ix % 512 := by omega
  rw [regVal, evReg_past_octets (by omega), readPlain, if_pos (by omega), hoct, hword]

theorem regVal_waveTable_congr {ix : Nat} {s w : State} (h : octAt w (ix / 512) = octAt s (ix / 512)) :
    regVal w (0x300000 + 4 * ix) = regVal s (0x300000 + 4 * ix) := by
  rw [regVal_waveTable, regVal_waveTable, h]

section Table

variable {ix : Nat} (hix : ix < 4096) {s : State}
include hix

/-- A write while RUN is loaded as 1 is refused. -/
theorem waveTabWrite_refused (hrun : (octAt s (ix / 512)).ldRun = true) (v : Word) : waveTabWrite ix v s = (s, .access) := by
  rw [waveTabWrite, if_neg (Nat.not_le.mpr hix), if_pos hrun]

theorem waveTabWrite_taken (hrun : (octAt s (ix / 512)).ldRun = false) (v : Word) : waveTabWrite ix v s =
    (modOct (ix / 512) (fun o => { o with wave := sset waveReset o.wave (ix % 512) v }) s, .done) := by
  rw [waveTabWrite, if_neg (Nat.not_le.mpr hix), if_neg (ne_true_of_eq_false hrun)]

/-- Reading any word of the tables after one of them is written. -/
theorem regVal_waveTable_written (hwf : swf waveReset (octAt s (ix / 512)).wave = true) (v : Word) (jx : Nat) :
    regVal (modOct (ix / 512) (fun o => { o with wave := sset waveReset o.wave (ix % 512) v }) s) (0x300000 + 4 * jx) =
      if jx = ix then v else regVal s (0x300000 + 4 * jx) := by
  rw [regVal_waveTable, regVal_waveTable, octAt_modOct]
  by_cases hoct : ix / 512 = jx / 512
  · rw [if_pos ⟨hoct, by omega⟩, ← hoct]
    dsimp only
    rw [sget_sset _ _ _ _ hwf]
    exact if_congr (by omega) rfl rfl
  · rw [if_neg fun h => hoct h.1, if_neg (by omega)]

end Table

/-! ### The statement -/

theorem exec_waveTick (t : Instant) (k : Fin 8) (s : State) : exec (.waveTick t k) s = .next (waveTick k.val (advance t s)) := rfl

theorem exec_waveTableWrite {t : Instant} {p : Port} {s : State} (hp : portUp (advance t s) p = true) (ix : Nat) (v : Word) :
    exec (.waveTableWrite t p ix v) s = .next (answer p (0x300000 + 4 * ix) true v
      (waveTabWrite ix v (assureLapse (advance t s))).2 (waveTabWrite ix v (assureLapse (advance t s))).1) :=
  congrArg Host.Outcome.next (portWrite_up hp)

/-- Settles O12: a tick by `waveTick_generator`, the table by `regVal_waveTable_written`, whose memories are canonical as `advance` keeps
them so. -/
theorem waveTickAndTable : Obligations.WaveTickAndTable := by
  intro t p k v s hcanon u o
  have hk := k.isLt
  refine ⟨fun hst hon hrun hdue => ?tick, fun h => ?waits, fun ix hix hp hrun => ?taken, fun ix hix hp hrun => ?refused⟩
  case tick =>
    have hgen := waveTick_generator hk ⟨(inDay_iff u).mpr hst, hon, hrun, hdue⟩
    obtain ⟨sat, heq⟩ := o.ticked_eq hrun
    have hacc : o.ticked.acc = o.acc + o.ldFtw := by rw [heq]
    have hat : o.ticked.waveAt = o.waveAt + 20480 := by rw [heq]
    have hcode : (octAt (waveTick k.val u) k.val).code = o.ticked.code := congrArg (fun x => x.2.2) hgen
    exact ⟨_, exec_waveTick t k s, (congrArg (fun x => x.1) hgen).trans hacc, (congrArg (fun x => x.2.1) hgen).trans hat,
      (congrArg Nat.cast hcode).trans (o.ticked_code hrun)⟩
  case waits =>
    refine ⟨_, exec_waveTick t k s, waveTick_not_due fun ⟨hday, hon, hrun, hdue⟩ => ?_⟩
    rcases h with h | h | h | h
    · exact h ((inDay_iff u).mp hday)
    · exact absurd (h.symm.trans hon) Bool.false_ne_true
    · exact absurd (h.symm.trans hrun) Bool.false_ne_true
    · exact absurd hdue (Nat.not_le.mpr h)
  case taken =>
    obtain ⟨-, -, -, -, -, hwaves⟩ := (advance_kept (.refl s) t).canon hcanon
    have hwf : swf waveReset (octAt (assureLapse u) (ix / 512)).wave = true := by
      rw [octAt_assureLapse]
      exact hwaves _ (by omega)
    have hwrite := waveTabWrite_taken hix (s := assureLapse u) (by rw [octAt_assureLapse]; exact hrun) v
    have hread (jx : Nat) : regVal (answer p (0x300000 + 4 * ix) true v (waveTabWrite ix v (assureLapse u)).2
        (waveTabWrite ix v (assureLapse u)).1) (0x300000 + 4 * jx) = if jx = ix then v else regVal u (0x300000 + 4 * jx) := by
      rw [regVal_waveTable_congr (octAt_answer ..), hwrite, regVal_waveTable_written hix hwf,
        regVal_waveTable_congr (octAt_assureLapse ..)]
    refine ⟨_, exec_waveTableWrite hp ix v, (hread ix).trans (if_pos rfl), fun jx _ hne => (hread jx).trans (if_neg hne), ?_⟩
    rw [hwrite]
    rfl
  case refused =>
    have hwrite := waveTabWrite_refused hix (s := assureLapse u) (by rw [octAt_assureLapse]; exact hrun) v
    refine ⟨_, exec_waveTableWrite hp ix v, ?_⟩
    rw [hwrite]
    rfl

end Sys2Proof.Machine
end

section
/-!
SUPPORT. The safe state of pins (06 R156, R157) and its release by software (R156; 08 R206): O13.
-/

set_option Elab.async false

namespace Sys2Proof.Machine

open Sys2Proof

/-! ### A driver trip (06 R157) -/

/-- Pin `n` as a driver trip leaves it. -/
structure PinTripped (n : Nat) (s : State) : Prop where
  safe : (pinAt s n).safe = true
  drv : (pinAt s n).drv = false
  term : (pinAt s n).term = false
  ovc : (pinAt s n).ovc = true

theorem PinTripped.of_pin {n : Nat} {s w : State} (h : PinTripped n s) (hpin : pinAt w n = pinAt s n) : PinTripped n w := by
  obtain ⟨hsafe, hdrv, hterm, hovc⟩ := h
  rw [← hpin] at hsafe hdrv hterm hovc
  exact ⟨hsafe, hdrv, hterm, hovc⟩

/-- An update that writes no pin. -/
theorem PinTripped.upd {n : Nat} {s w : State} (h : PinTripped n s) (hp : w.pins = s.pins := by rfl) : PinTripped n w :=
  h.of_pin (by rw [pinAt, hp, pinAt])

/-- No reaction to a fault event takes a pin out of the safe state. -/
theorem pinTripped_calmPins {n : Nat} (hn : n < 64) : CalmPins (PinTripped n) where
  evPend _ _ h := h.upd
  log _ _ _ h := h.upd
  pend _ _ h := h.upd
  safe s mask h := by
    have hpin := pinAt_safePins mask s hn
    split at hpin
    · exact ⟨by rw [hpin]; rfl, by rw [hpin]; rfl, by rw [hpin]; rfl, by rw [hpin]; exact h.ovc⟩
    · exact h.of_pin hpin
  octs _ _ _ h := h.upd
  acts _ _ h := h.upd
  slots _ _ h := h.upd
  evid _ _ h := h.upd
  cal _ _ h := h.upd
  flt _ _ h := h.upd
  subst _ _ h := h.upd

theorem overcurrent_trips {n : Nat} (hn : n < 64) {s : State} (hdrv : (pinAt s n).drv = true) (hon : pinsOn s = true) (ma : Nat) :
    PinTripped n (overcurrent n ma s) := by
  rw [overcurrent, if_pos ⟨hdrv, hon⟩]
  refine fault_calmPins (pinTripped_calmPins hn) ?_ _ _ _
  have hpin := pinAt_modPin s n n fun p => { p.toSafe s.now with ovc := true, ovcAt := s.now }
  rw [if_pos ⟨rfl, hn⟩] at hpin
  exact ⟨by rw [hpin]; rfl, by rw [hpin]; rfl, by rw [hpin]; rfl, by rw [hpin]⟩

theorem overcurrent_idle {n : Nat} {s : State} (h : (pinAt s n).drv = false ∨ pinsOn s = false) (ma : Nat) : overcurrent n ma s = s := by
  refine if_neg fun ⟨hdrv, hon⟩ => ?_
  rcases h with h | h
  · exact absurd (h.symm.trans hdrv) Bool.false_ne_true
  · exact absurd (h.symm.trans hon) Bool.false_ne_true

/-! ### A write of PIN_STATUS (06 R156) -/

/-- What lets a write of PIN_STATUS return a pin to idle. -/
def safeReleases (n : Nat) (v : Word) (s : State) : Bool :=
  bit v 15 && inDay s && octOn s (n / 8) && (pinAt s n).safe && !sameCycle (pinAt s n).safeAt s.now && (octAt s (n / 8)).win.isNone &&
    !(stoppedMask s).testBit (n / 8)

/-- A pin whose OVC may have been cleared (R8). -/
def PinCh.ovcCleared (clr : Bool) (p : PinCh) : PinCh := if clr then { p with ovc := false } else p

/-- The write may clear OVC, and does nothing else but release the pin. -/
theorem pinStatusWrite_eq (n : Nat) (v : Word) (s : State) : ∃ clr : Bool, pinStatusWrite n v s =
    (modPin n (fun p => if safeReleases n v s then (p.ovcCleared clr).toIdle else p.ovcCleared clr) s, .done) := ⟨_, rfl⟩

theorem PinCh.ovcCleared_toIdle (clr : Bool) (p : PinCh) : (p.ovcCleared clr).toIdle.safe = false ∧
    (p.ovcCleared clr).toIdle.drv = false ∧ (p.ovcCleared clr).toIdle.term = p.ld.cfg.getLsbD 4 := by
  cases clr
  · exact ⟨rfl, rfl, rfl⟩
  · exact ⟨rfl, rfl, rfl⟩

theorem PinCh.ovcCleared_keeps (clr : Bool) (p : PinCh) : (p.ovcCleared clr).safe = p.safe ∧ (p.ovcCleared clr).drv = p.drv ∧
    (p.ovcCleared clr).term = p.term := by
  cases clr
  · exact ⟨rfl, rfl, rfl⟩
  · exact ⟨rfl, rfl, rfl⟩

theorem pinStatusWrite_releases {n : Nat} (hn : n < 64) {v : Word} {s : State} (h : safeReleases n v s = true) :
    (pinAt (pinStatusWrite n v s).1 n).safe = false ∧ (pinAt (pinStatusWrite n v s).1 n).drv = false ∧
    (pinAt (pinStatusWrite n v s).1 n).term = (pinAt s n).ld.cfg.getLsbD 4 := by
  obtain ⟨clr, heq⟩ := pinStatusWrite_eq n v s
  rw [heq, pinAt_modPin, if_pos ⟨rfl, hn⟩, if_pos h]
  exact PinCh.ovcCleared_toIdle clr _

theorem pinStatusWrite_keeps {n : Nat} (hn : n < 64) {v : Word} {s : State} (h : safeReleases n v s = false) :
    (pinAt (pinStatusWrite n v s).1 n).safe = (pinAt s n).safe ∧ (pinAt (pinStatusWrite n v s).1 n).drv = (pinAt s n).drv ∧
    (pinAt (pinStatusWrite n v s).1 n).term = (pinAt s n).term := by
  obtain ⟨clr, heq⟩ := pinStatusWrite_eq n v s
  rw [heq, pinAt_modPin, if_pos ⟨rfl, hn⟩, if_neg (ne_true_of_eq_false h)]
  exact PinCh.ovcCleared_keeps clr _

theorem pinStatusWrite_other {m n : Nat} (h : m ≠ n) (v : Word) (s : State) : pinAt (pinStatusWrite n v s).1 m = pinAt s m := by
  obtain ⟨clr, heq⟩ := pinStatusWrite_eq n v s
  rw [heq, pinAt_modPin, if_neg fun hnm => h hnm.1.symm]

theorem pinStatusWrite_frame (n : Nat) (v : Word) (s : State) : ∃ x, pinStatusWrite n v s = ({ s with pins := x }, .done) := ⟨_, rfl⟩

theorem safeReleases_assureLapse (n : Nat) (v : Word) (s : State) : safeReleases n v (assureLapse s) = safeReleases n v s := by
  rw [assureLapse_eq]
  rfl

/-! ### The release of underrun holds (08 R206) -/

theorem pinAt_urReleaseAll {m : Nat} (hm : m < 64) (s : State) : pinAt (urReleaseAll s) m =
    if (pinAt s m).hold.isSome then (pinAt s m).toIdle else pinAt s m :=
  vget_vmap s.pins (fun _ p => if p.hold.isSome then p.toIdle else p) m {} hm

theorem segCtrlWrite_release {v : Word} (h : v.getLsbD 0 = true) (s : State) :
    segCtrlWrite v s = (urReleaseAll { s with r := { s.r with segCtrl := v &&& 0x100 } }, .done) :=
  congrArg (·, BusRes.done) (if_pos h)

theorem pinAt_segCtrlWrite_release {v : Word} (h : v.getLsbD 0 = true) (s : State) {m : Nat} (hm : m < 64) :
    pinAt (segCtrlWrite v s).1 m = if (pinAt s m).hold.isSome then (pinAt s m).toIdle else pinAt s m := by
  rw [segCtrlWrite_release h]
  exact pinAt_urReleaseAll hm _

theorem segCtrlWrite_store {v : Word} (h : v.getLsbD 0 = false) (s : State) :
    segCtrlWrite v s = ({ s with r := { s.r with segCtrl := v &&& 0x100 } }, .done) :=
  congrArg (·, BusRes.done) (if_neg (ne_true_of_eq_false h))

/-! ### The statement -/

theorem exec_driverOvercurrent (t : Instant) (n : Fin 64) (ma : Nat) (s : State) :
    exec (.driverOvercurrent t n ma) s = .next (overcurrent n.val ma (advance t s)) := rfl

theorem exec_safeReleaseWrite {t : Instant} {p : Port} {s : State} (hp : portUp (advance t s) p = true) (n : Fin 64) (v : Word) :
    exec (.safeReleaseWrite t p n v) s = .next (answer p (0x2010 + 0x20 * n.val) true v .done
      (pinStatusWrite n.val v (assureLapse (advance t s))).1) :=
  congrArg Host.Outcome.next (portWrite_up hp)

theorem exec_urRelease {t : Instant} {p : Port} {s : State} (hp : portUp (advance t s) p = true) (v : Word) :
    exec (.urRelease t p v) s = .next (answer p 0x3A8 true v (segCtrlWrite v (assureLapse (advance t s))).2
      (segCtrlWrite v (assureLapse (advance t s))).1) :=
  congrArg Host.Outcome.next (portWrite_up hp)

theorem assureLapse_r (s : State) : (assureLapse s).r = s.r := by rw [assureLapse_eq]

/-- Settles O13: the trip by `overcurrent_trips`, the release of a safe pin by `pinStatusWrite_releases`, that of underrun holds by
`pinAt_urReleaseAll`. -/
theorem safeStateAndRelease : Obligations.SafeStateAndRelease := by
  intro t p n ma v s u l q
  have hn := n.isLt
  refine ⟨fun hdrv hon => ?trips,
    fun h => ⟨_, exec_driverOvercurrent t n ma s, overcurrent_idle h ma⟩,
    fun hp hsafe hst hon hq hlate hwin hstop => ?released, fun hp h => ?stays, fun hp hv => ?held, fun hp hv => ?stored⟩
  case trips =>
    obtain ⟨hsafe, hoff, hopen, hovc⟩ := overcurrent_trips hn hdrv hon ma
    exact ⟨_, exec_driverOvercurrent t n ma s, hsafe, hoff, hopen, hovc⟩
  case released =>
    have hrel : safeReleases n.val v l = true := by
      have hbit : bit v 15 = true := hsafe
      rw [safeReleases_assureLapse, safeReleases, hbit, (inDay_iff u).mpr hst, hon, hq, hlate, hwin, hstop]
      rfl
    obtain ⟨hs, hd, hterm⟩ := pinStatusWrite_releases hn hrel
    obtain ⟨x, hframe⟩ := pinStatusWrite_frame n.val v l
    refine ⟨_, exec_safeReleaseWrite hp n v, hs, hd, ?_, fun m hm => ?_, ?_⟩
    · rw [pinAt_answer, hterm, pinAt_assureLapse]
    · rw [pinAt_answer, pinStatusWrite_other hm, pinAt_assureLapse]
    · rw [hframe]
      rfl
  case stays =>
    have hrel : safeReleases n.val v l = false := by
      rw [safeReleases_assureLapse, safeReleases]
      rcases h with h | h | h
      · have hbit : bit v 15 = false := h
        rw [hbit]
        rfl
      · rw [Bool.eq_false_iff.mpr fun hday => h ((inDay_iff u).mp hday)]
        simp
      · rw [h]
        simp
    obtain ⟨hs, hd, hterm⟩ := pinStatusWrite_keeps hn hrel
    rw [pinAt_assureLapse] at hs hd hterm
    exact ⟨_, exec_safeReleaseWrite hp n v, hs, hd, hterm⟩
  case held =>
    refine ⟨_, exec_urRelease hp v, fun m hm => ?_, ?_⟩
    · rw [pinAt_answer, pinAt_segCtrlWrite_release hv _ hm, pinAt_assureLapse]
      rfl
    · rw [segCtrlWrite_release hv, assureLapse_r]
      rfl
  case stored =>
    refine ⟨_, exec_urRelease hp v, ?_⟩
    rw [segCtrlWrite_store hv, assureLapse_r]
    rfl

end Sys2Proof.Machine
end

section
/-!
SUPPORT. The timing-set memory (07 R177) and a write of one of its words (R186): O14.
-/

set_option Elab.async false

namespace Sys2Proof.Machine

open Sys2Proof

theorem regVal_timingSet {ix : Nat} (h : ix < 16384) (s : State) : regVal s (0x100000 + 4 * ix) = rdWord s.seg.tset ix := by
  have hword : (0x100000 + 4 * ix - 0x100000) / 4 = ix := by omega
  rw [regVal, evReg_past_octets (by omega), readPlain, if_neg (by omega), if_neg (by omega), if_pos (by omega), hword]

section Table

variable {ix : Nat} (hix : ix < 16384) {s : State} (v : Word)
include hix

/-- A write to a set in use is refused and counted. -/
theorem tsetWrite_refused (h : (setsInUse s).testBit (ix / 512) = true) : tsetWrite ix v s = (bump rgTset 16 16 1 s, .access) := by
  rw [tsetWrite, if_neg (Nat.not_le.mpr hix), if_pos h]

/-- A write to a set not in use is taken, and noted until the cycle ends. -/
theorem tsetWrite_taken (h : (setsInUse s).testBit (ix / 512) = false) : ∃ l, tsetWrite ix v s =
    ({ s with seg := { s.seg with undo := l, undoAt := s.now, tset := wrWord s.seg.tset ix v } }, .done) :=
  ⟨_, by rw [tsetWrite, if_neg (Nat.not_le.mpr hix), if_neg (ne_true_of_eq_false h)]; rfl⟩

end Table

theorem assureLapse_now (s : State) : (assureLapse s).now = s.now := by rw [assureLapse_eq]

theorem assureLapse_seg (s : State) : (assureLapse s).seg = s.seg := by rw [assureLapse_eq]

theorem exec_timingSetWrite {t : Instant} {p : Port} {s : State} (hp : portUp (advance t s) p = true) (ix : Nat) (v : Word) :
    exec (.timingSetWrite t p ix v) s = .next (answer p (0x100000 + 4 * ix) true v
      (tsetWrite ix v (assureLapse (advance t s))).2 (tsetWrite ix v (assureLapse (advance t s))).1) :=
  congrArg Host.Outcome.next (portWrite_up hp)

/-- Settles O14: by `tsetWrite_taken` and `tsetWrite_refused`; the word reads back as `advance` keeps the memory canonical. -/
theorem timingSetWrites : Obligations.TimingSetWrites := by
  intro t p ix v s hcanon hix hp u
  refine ⟨fun hfree => ?taken, fun hused => ?refused⟩
  case taken =>
    obtain ⟨-, -, hwf, -⟩ := (advance_kept (.refl s) t).canon hcanon
    rw [← assureLapse_seg] at hwf
    obtain ⟨l, hwrite⟩ := tsetWrite_taken hix v hfree
    refine ⟨_, exec_timingSetWrite hp ix v, ?_⟩
    rw [hwrite]
    refine ⟨?_, fun jx hjx hne => ?_, rfl⟩
    · exact (regVal_timingSet hix _).trans ((rdWord_wrWord _ _ _ _ hwf).trans (if_pos rfl))
    · rw [regVal_timingSet hjx, regVal_timingSet hjx]
      exact (rdWord_wrWord _ _ _ _ hwf).trans (if_neg hne)
  case refused =>
    refine ⟨_, exec_timingSetWrite hp ix v, ?_⟩
    rw [tsetWrite_refused hix v hused]
    rfl

end Sys2Proof.Machine
end

section
/-!
SUPPORT. The timing probe (07 R185, R187): which failure a check of one set reports: O15.
-/

set_option Elab.async false

namespace Sys2Proof.Machine

open Sys2Proof

/-- A search through values in ascending order that finds something finds what the lowest value hit gives. -/
theorem findSome_lowest {α : Type} {f : Nat → Option α} {l : List Nat} (hl : l.Pairwise (· < ·)) {x : α} (h : l.findSome? f = some x) :
    ∃ a ∈ l, f a = some x ∧ ∀ n ∈ l, (f n).isSome = true → a ≤ n := by
  obtain ⟨l₁, a, l₂, rfl, hfa, hbefore⟩ := List.findSome?_eq_some_iff.mp h
  refine ⟨a, by simp, hfa, fun n hn hsome => ?_⟩
  rcases List.mem_append.mp hn with hn | hn
  · rw [hbefore n hn] at hsome
    exact absurd hsome Bool.false_ne_true
  · rcases List.mem_cons.mp hn with rfl | hn
    · exact Nat.le_refl _
    · exact Nat.le_of_lt ((List.pairwise_cons.mp (List.pairwise_append.mp hl).2.1).1 n hn)

theorem mem_pinsOf {mask n : Nat} : n ∈ pinsOf mask ↔ n < 64 ∧ mask.testBit (n / 8) = true := by
  rw [pinsOf, List.mem_filter, List.mem_range]

theorem pinsOf_ascending (mask : Nat) : (pinsOf mask).Pairwise (· < ·) := List.pairwise_lt_range.filter _

/-- Pin `n` of the octets of `mask` breaks a rule in set `st` at period `p`. -/
def PinFails (s : State) (st p mask n : Nat) : Prop :=
  n < 64 ∧ mask.testBit (n / 8) = true ∧ (entryCheck (tsetEntry s st n) p).isSome = true

theorem setCheck_none {s : State} {st p mask : Nat} (h : setCheck s st p (pinsOf mask) = none) (n : Nat) : ¬ PinFails s st p mask n := by
  rintro ⟨hn, hmask, hfail⟩
  have hpass := List.findSome?_eq_none_iff.mp h n (mem_pinsOf.mpr ⟨hn, hmask⟩)
  rw [Option.map_eq_none_iff] at hpass
  rw [hpass] at hfail
  exact Bool.false_ne_true hfail

/-- What a check of one set reports: the lowest pin that fails, with its first broken rule and the edge of it. -/
theorem setCheck_some {s : State} {st p mask : Nat} {f : TFail} (h : setCheck s st p (pinsOf mask) = some f) :
    PinFails s st p mask f.pin ∧ (∀ n, PinFails s st p mask n → f.pin ≤ n) ∧ f.set = st ∧
    entryCheck (tsetEntry s st f.pin) p = some (f.rule, f.edge) := by
  obtain ⟨a, hmem, hfa, hlow⟩ := findSome_lowest (pinsOf_ascending mask) h
  obtain ⟨⟨rule, edge⟩, hcheck, rfl⟩ := Option.map_eq_some_iff.mp hfa
  obtain ⟨ha, hmask⟩ := mem_pinsOf.mp hmem
  refine ⟨⟨ha, hmask, Option.isSome_of_eq_some hcheck⟩, fun n ⟨hn, hbit, hfail⟩ => hlow n (mem_pinsOf.mpr ⟨hn, hbit⟩) ?_, rfl, hcheck⟩
  rw [Option.isSome_map]
  exact hfail

/-- The report of a check of one set (R185, R187). -/
theorem setCheck_report (s : State) (st p mask slot : Nat) :
    let c := checkReport true slot (setCheck s st p (pinsOf mask))
    c.probe = true ∧ c.slot = slot ∧ (c.fail = true ↔ ∃ n, PinFails s st p mask n) ∧
    (c.fail = true → PinFails s st p mask c.pin ∧ (∀ n, PinFails s st p mask n → c.pin ≤ n) ∧ c.set = st ∧
      entryCheck (tsetEntry s st c.pin) p = some (c.rule, c.edge)) ∧
    (c.fail = false → c.rule = 0 ∧ c.edge = 0 ∧ c.pin = 0 ∧ c.set = 0) := by
  cases hcheck : setCheck s st p (pinsOf mask) with
  | none =>
    exact ⟨rfl, rfl, ⟨fun h => absurd h Bool.false_ne_true, fun ⟨n, hn⟩ => absurd hn (setCheck_none hcheck n)⟩,
      fun h => absurd h Bool.false_ne_true, fun _ => ⟨rfl, rfl, rfl, rfl⟩⟩
  | some f =>
    have hf := setCheck_some hcheck
    exact ⟨rfl, rfl, ⟨fun _ => ⟨_, hf.1⟩, fun _ => rfl⟩, fun _ => hf, fun h => absurd h.symm Bool.false_ne_true⟩

/-- With no octet selected the probe judges the pins of all eight. -/
theorem probeMask_testBit {octs n : Nat} (hn : n < 64) :
    (if octs = 0 then 0xFF else octs).testBit (n / 8) = true ↔ octs = 0 ∨ octs.testBit (n / 8) = true := by
  split
  next h =>
    have hall : ∀ k < 8, Nat.testBit 0xFF k = true := by decide
    simp [h, hall (n / 8) (by omega)]
  next h => simp [h]

theorem probeWrite_starts {s : State} (h : s.seg.probe = none) (v : Word) : probeWrite v s =
    ({ s with seg := { s.seg with probe := some ⟨fld v 0 5, fld v 8 8, max 320 s.r.tsetProbePer.toNat, s.now⟩ } }, .done) := by
  rw [probeWrite, h]

theorem probeWrite_busy {s : State} (h : s.seg.probe.isSome = true) (v : Word) : probeWrite v s = (s, .done) := by
  obtain ⟨b, hb⟩ := Option.isSome_iff_exists.mp h
  rw [probeWrite, hb]

theorem probeDone_eq {s : State} {b : Probe} (h : s.seg.probe = some b) : probeDone s = { s with seg := { s.seg with
    probe := none, tchk := checkReport true 0 (setCheck s b.set b.per (pinsOf (if b.octs = 0 then 0xFF else b.octs))) } } := by
  rw [probeDone, h]

theorem exec_tsetProbeWrite {t : Instant} {p : Port} {s : State} (hp : portUp (advance t s) p = true) (v : Word) :
    exec (.tsetProbeWrite t p v) s = .next (answer p 0x3D0 true v (probeWrite v (assureLapse (advance t s))).2
      (probeWrite v (assureLapse (advance t s))).1) :=
  congrArg Host.Outcome.next (portWrite_up hp)

/-- Settles O15: the write by `probeWrite_starts` and `probeWrite_busy`, the report by `setCheck_report`. -/
theorem timingProbe : Obligations.TimingProbe := by
  intro t p v s u l
  refine ⟨fun hp hnone => ?starts, fun hp hbusy => ?busy, fun b hb => ?done⟩
  case starts =>
    refine ⟨_, exec_tsetProbeWrite hp v, ?_⟩
    rw [probeWrite_starts (by rw [assureLapse_seg]; exact hnone), assureLapse_seg, assureLapse_r, assureLapse_now]
    rfl
  case busy =>
    refine ⟨_, exec_tsetProbeWrite hp v, ?_⟩
    rw [probeWrite_busy (by rw [assureLapse_seg]; exact hbusy)]
    rfl
  case done =>
    have hhit (n : Nat) : PinFails u b.set b.per (if b.octs = 0 then 0xFF else b.octs) n ↔
        n < 64 ∧ (b.octs = 0 ∨ b.octs.testBit (n / 8) = true) ∧ (entryCheck (tsetEntry u b.set n) b.per).isSome = true :=
      and_congr_right fun hn => and_congr_left fun _ => probeMask_testBit hn
    have hreport := setCheck_report u b.set b.per (if b.octs = 0 then 0xFF else b.octs) 0
    simp only [hhit] at hreport
    exact ⟨_, congrArg Host.Outcome.next (probeDone_eq hb), rfl, hreport⟩

end Sys2Proof.Machine
end

section
/-!
SUPPORT. The edge-ordering rules of a timing entry (07 R183): when the check finds none broken, in general and by formatter: O16.
-/

set_option Elab.async false

namespace Sys2Proof.Machine

open Sys2Proof

theorem ite_some_eq_none {α : Type} {c : Prop} [Decidable c] {a : α} {o : Option α} :
    (if c then some a else o) = none ↔ ¬ c ∧ o = none := by
  split <;> simp [*]

/-- The check finds no broken rule exactly when each of the rules of Table 7-6 is met. -/
theorem entryCheck_none_iff (e : TEntry) (p : Nat) : entryCheck e p = none ↔
    ¬ (e.fmt = 7 ∨ 16 ≤ e.mode ∨ e.w7 ≠ 0) ∧ (∀ x ∈ e.edges, x.2 < p) ∧ ¬ (e.usesD12 = true ∧ e.d2 < e.d1) ∧
    ¬ (e.usesD3 = true ∧ e.d3 < e.d2) ∧ sepBroken e.trans = none ∧ wrapSep e e p = none ∧ ¬ e.c2 < e.c1 + 64 ∧ ¬ e.c1 < e.d4 ∧
    ¬ (e.fmt ≠ 6 ∧ e.d4 + p < e.c2 + 64) := by
  have hedges : (e.edges.find? fun x => decide (p ≤ x.2)) = none ↔ ∀ x ∈ e.edges, x.2 < p := by simp
  rw [← hedges, entryCheck, ite_some_eq_none]
  refine and_congr_right fun _ => ?_
  cases e.edges.find? fun x => decide (p ≤ x.2) with
  | some x => simp
  | none =>
    simp only [ite_some_eq_none, true_and]
    refine and_congr_right fun _ => and_congr_right fun _ => ?_
    cases sepBroken e.trans with
    | some x => simp
    | none =>
      simp only [true_and]
      cases wrapSep e e p with
      | some x => simp
      | none => simp only [ite_some_eq_none, true_and, and_true]

section Entry

variable {e : TEntry} (p : Nat)

/-- The formatters with three drive edges: the edges judged, and the transitions in order. -/
theorem threeEdges (h : e.fmt = 2 ∨ e.fmt = 3 ∨ e.fmt = 4) :
    e.edges = [(0, e.d1), (1, e.d2), (2, e.d3), (3, e.d4), (4, e.c1), (5, e.c2)] ∧ e.trans = [(0, e.d1), (1, e.d2), (2, e.d3)] ∧
    e.usesD12 = true ∧ e.usesD3 = true := by
  rcases h with h | h | h <;> simp [TEntry.edges, TEntry.trans, TEntry.usesD12, TEntry.usesD3, h]

/-- The formatter that only compares judges D4, C1 and C2 and has no transition. -/
theorem compareOnly (h : e.fmt = 6) : e.edges = [(3, e.d4), (4, e.c1), (5, e.c2)] ∧ e.trans = [] ∧
    e.usesD12 = false ∧ e.usesD3 = false := by
  simp [TEntry.edges, TEntry.trans, TEntry.usesD12, TEntry.usesD3, h]

theorem sepBroken_three (d1 d2 d3 : Nat) : sepBroken [(0, d1), (1, d2), (2, d3)] = none ↔ d1 + 80 ≤ d2 ∧ d2 + 80 ≤ d3 := by
  simp [sepBroken, ite_some_eq_none]

theorem wrapSep_three (h : e.trans = [(0, e.d1), (1, e.d2), (2, e.d3)]) : wrapSep e e p = none ↔ e.d3 + 80 ≤ p + e.d1 := by
  simp only [wrapSep, h, List.getLast?_cons_cons, List.getLast?_singleton, List.head?_cons, ite_some_eq_none, and_true]
  omega

theorem entryCheck_three (h : e.fmt = 2 ∨ e.fmt = 3 ∨ e.fmt = 4) : entryCheck e p = none ↔
    e.mode < 16 ∧ e.w7 = 0 ∧ e.d1 < p ∧ e.d2 < p ∧ e.d3 < p ∧ e.d4 < p ∧ e.c1 < p ∧ e.c2 < p ∧
    e.d1 + 80 ≤ e.d2 ∧ e.d2 + 80 ≤ e.d3 ∧ e.d3 + 80 ≤ p + e.d1 ∧ e.c1 + 64 ≤ e.c2 ∧ e.d4 ≤ e.c1 ∧ e.c2 + 64 ≤ p + e.d4 := by
  obtain ⟨hedges, htrans, h12, h3⟩ := threeEdges h
  rw [entryCheck_none_iff, wrapSep_three p htrans, hedges, htrans, sepBroken_three, h12, h3]
  simp only [List.forall_mem_cons, List.not_mem_nil, IsEmpty.forall_iff, implies_true, true_and, and_true]
  omega

theorem entryCheck_compareOnly (h : e.fmt = 6) : entryCheck e p = none ↔
    e.mode < 16 ∧ e.w7 = 0 ∧ e.d4 < p ∧ e.c1 < p ∧ e.c2 < p ∧ e.c1 + 64 ≤ e.c2 ∧ e.d4 ≤ e.c1 := by
  obtain ⟨hedges, htrans, h12, h3⟩ := compareOnly h
  have hsep : sepBroken e.trans = none := by rw [htrans]; rfl
  have hwrap : wrapSep e e p = none := by rw [wrapSep, htrans]; rfl
  rw [entryCheck_none_iff, hedges, h12, h3]
  simp only [hsep, hwrap, List.forall_mem_cons, List.not_mem_nil, IsEmpty.forall_iff, implies_true, Bool.false_eq_true, false_and,
    not_false_eq_true, true_and, and_true]
  omega

end Entry

/-- Settles O16: RZ, R1 and SBC by `entryCheck_three`, the entry that only compares by `entryCheck_compareOnly`. -/
theorem edgeOrderRules : Obligations.EdgeOrderRules :=
  fun _ p => ⟨entryCheck_three p, entryCheck_compareOnly p⟩

end Sys2Proof.Machine
end

section
/-!
SUPPORT. What the happenings of a cycle leave of the jobs: a fault event may order stops and add unit records that wait, and no more of the
slots, the segment table, the timing sets and evidence memory. One lemma `f_jobsKept` for each operation, from the shared ones up.
-/

set_option Elab.async false

namespace Sys2Proof.Machine

open Sys2Proof

/-- A slot but for the stops ordered for it. -/
def Slot.unstopped (x : Slot) : Slot := { x with stops := [] }

/-- Evidence memory but for the unit records that wait. -/
def Evid.memory (e : Evid) : Evid := { e with unitQ := [], nextOrd := 0 }

/-- From `z` to `w` no job is touched but for stops ordered, the segment table and the timing sets stand, and evidence memory gains at most
unit records that wait. -/
structure JobsKept (z w : State) : Prop where
  slot : ∀ i, (slotAt w i).unstopped = (slotAt z i).unstopped
  seg : w.seg = z.seg
  memory : w.evid.memory = z.evid.memory

theorem JobsKept.refl (s : State) : JobsKept s s := ⟨fun _ => rfl, rfl, rfl⟩

/-- What is read of a slot but for its stops is as before. -/
theorem JobsKept.slotField {α : Type} {z w : State} (h : JobsKept z w) (i : Nat) (f : Slot → α)
    (hf : ∀ x : Slot, f x.unstopped = f x := by exact fun _ => rfl) : f (slotAt w i) = f (slotAt z i) := by
  rw [← hf, h.slot, hf]

/-- An update that writes none of these. -/
theorem JobsKept.upd {z s w : State} (h : JobsKept z s) (hslots : w.seqr.slots = s.seqr.slots := by rfl) (hseg : w.seg = s.seg := by rfl)
    (hevid : w.evid.memory = s.evid.memory := by rfl) : JobsKept z w where
  slot i := by rw [slotAt, hslots]; exact h.slot i
  seg := hseg.trans h.seg
  memory := hevid.trans h.memory

theorem JobsKept.pins {z s : State} (h : JobsKept z s) (x : Vector PinCh 64) : JobsKept z { s with pins := x } := h.upd

theorem JobsKept.octs {z s : State} (h : JobsKept z s) (x : Vector OctCh 8) : JobsKept z { s with octs := x } := h.upd

theorem JobsKept.cal {z s : State} (h : JobsKept z s) (x : Cal) : JobsKept z { s with cal := x } := h.upd

section JobsKept

variable {z s : State} (h : JobsKept z s)
include h

/-! ### The trouble log, requests and stops -/

theorem bump_jobsKept (reg lo width amt : Nat) : JobsKept z (bump reg lo width amt s) := h.upd

theorem modScope_jobsKept (src oct : Nat) (f : FltScope → FltScope) : JobsKept z (modScope src oct f s) := h.upd

theorem modOct_jobsKept (k : Nat) (f : OctCh → OctCh) : JobsKept z (modOct k f s) := h.upd

theorem mapPins_jobsKept (mask : Nat) (f : Nat → PinCh → PinCh) : JobsKept z (mapPins mask f s) := h.pins _

theorem modCap_jobsKept (k : Nat) (f : Cap → Cap) : JobsKept z (modCap k f s) := h.upd

theorem logWrite_jobsKept (es : List LogEntry) : JobsKept z (logWrite es s) := by
  unfold logWrite
  dsimp only
  split
  · exact h.upd
  · exact h.upd

theorem logPut_jobsKept (src code value : Nat) (ws : List Nat) : JobsKept z (logPut src code value ws s) := logWrite_jobsKept h _

/-- The request of a reaction (17 R399), which is made in Day alone. -/
theorem pwrRequest_evening_jobsKept (source cause : Nat) (hday : s.pwr.st = .day) : JobsKept z (pwrRequest .evening source cause s) := by
  have hgoal : nightOrEvening s .evening = .evening := nightOrEvening_of_ne (by decide)
  simp only [pwrRequest, hgoal, hday, reduceCtorEq, false_and, if_false]
  exact calm_ite h h.upd

theorem orderStop_jobsKept (gran : Bool) (code cause : Nat) (line : Bool) (i : Nat) : JobsKept z (orderStop gran code cause line i s) := by
  refine calm_ite ⟨fun j => ?_, h.seg, h.memory⟩ h
  rw [← h.slot j, slotAt_modSlot]
  split
  · rfl
  · rfl

theorem faultStop_jobsKept (mask src : Nat) : JobsKept z (faultStop mask src s) :=
  calm_foldl _ _ h fun _ _ hu => orderStop_jobsKept hu _ _ _ _ _

/-! ### Windows -/

theorem calRequest_jobsKept (mask : Nat) : JobsKept z (calRequest mask s) := calm_ite (h.octs _) (logPut_jobsKept (h.octs _) _ _ _ _)

omit h in
theorem unitRequest_jobsKept (l : List Nat) : ∀ {s : State}, JobsKept z s → JobsKept z (unitRequest l s) := by
  induction l with
  | nil => exact fun h => h.upd
  | cons j l ih =>
    exact fun h => calm_ite (calm_ite (ih (calRequest_jobsKept h _)) (calRequest_jobsKept h _).upd) (ih h)

theorem unitAdvance_jobsKept (k : Nat) : JobsKept z (unitAdvance k s) := calm_ite (unitRequest_jobsKept _ h) h

theorem calRec_jobsKept (sub mask pin : Nat) (valid : Bool) (quality : Nat) : JobsKept z (calRec sub mask pin valid quality s) :=
  calm_ite h h.upd

theorem strobeAfter_jobsKept (k : Nat) : JobsKept z (strobeAfter k s) := calm_ite h.upd h

theorem abandonWindow_jobsKept (k : Nat) : JobsKept z (abandonWindow k s) := by
  unfold abandonWindow
  split
  · exact h
  · refine unitAdvance_jobsKept (strobeAfter_jobsKept (calRec_jobsKept (bump_jobsKept ?_ _ _ _ _) _ _ _ _ _) _) _
    exact (modOct_jobsKept h k _).cal _

theorem returnXpt_jobsKept (mask : Nat) : JobsKept z (returnXpt mask s) :=
  calm_foldl (P := JobsKept z) _ _ (h.octs _) fun _ _ hu => hu.upd

theorem stopOctets_jobsKept (mask src : Nat) : JobsKept z (stopOctets mask src s) := by
  have hsafe : JobsKept z (if pinsOn s then safePins mask s else s) := calm_ite (mapPins_jobsKept h _ _) h
  exact faultStop_jobsKept (calm_foldl _ _ (returnXpt_jobsKept hsafe mask) fun _ _ hu => abandonWindow_jobsKept hu _) mask src

/-! ### Fault events -/

theorem react_jobsKept (src oct : Nat) (fresh : Bool) : JobsKept z (react src oct fresh s) := by
  unfold react
  split
  · exact calm_ite (stopOctets_jobsKept h _ _) h
  · exact faultStop_jobsKept h _ _
  · split
    next hday => exact pwrRequest_evening_jobsKept h _ _ hday.2
    · exact h
  · exact h

theorem unlog_jobsKept (e : LogEntry) : JobsKept z (unlog e s) := calm_ite h.upd h

theorem exitBack_jobsKept (src oct : Nat) : JobsKept z (exitBack src oct s) := by
  unfold exitBack
  split
  · exact h
  · have hback (f e) : JobsKept z (unlog e (modScope src oct f s)) := unlog_jobsKept (modScope_jobsKept h _ _ f) e
    exact calm_ite (react_jobsKept (calm_ite (hback _ _).upd (logPut_jobsKept (bump_jobsKept (hback _ _) _ _ _ _) _ _ _ _)) _ _ _) h

theorem logEvent_jobsKept (x : FltAt) (detail : Nat) (ws : List Nat) : JobsKept z (logEvent x detail ws s) :=
  calm_ite (modScope_jobsKept (logPut_jobsKept h _ _ _ _) _ _ _) (bump_jobsKept (modScope_jobsKept h _ _ _) _ _ _ _)

theorem goSevere_jobsKept (x : FltAt) : JobsKept z (goSevere x s) :=
  react_jobsKept (bump_jobsKept (logPut_jobsKept (modScope_jobsKept h _ _ _) _ _ _ _) _ _ _ _) _ _ _

theorem fault_jobsKept (x : FltAt) (detail : Nat) (ws : List Nat) : JobsKept z (fault x detail ws s) := by
  have hlog (f b) : JobsKept z (logEvent x detail ws (bump b 16 16 1 (modScope x.src x.oct f (exitBack x.src x.oct s)))) :=
    logEvent_jobsKept (bump_jobsKept (modScope_jobsKept (exitBack_jobsKept h _ _) _ _ _) _ _ _ _) _ _ _
  exact calm_ite (calm_ite (react_jobsKept (hlog _ _) _ _ _) (calm_ite (goSevere_jobsKept (hlog _ _) _) (hlog _ _))) h

/-! ### Records -/

theorem lossCloseAt_jobsKept (k : Nat) : JobsKept z (lossCloseAt k s) := by
  unfold lossCloseAt
  dsimp only
  split
  · exact h
  · have hclosed (f n) : JobsKept z (bumpMax (rgCapHw k) 16 13 n (modCap k f s)) := (modCap_jobsKept h k f).upd
    exact calm_ite (fault_jobsKept (hclosed _ _) _ _ _) h

theorem capIn_jobsKept (k : Nat) (q : QRec) (lo hi : Nat) : JobsKept z (capIn k q lo hi s) := by
  have hput (f n) : JobsKept z (bumpMax (rgCapHw k) 16 13 n (modCap k f (lossCloseAt k s))) :=
    (modCap_jobsKept (lossCloseAt_jobsKept h k) k f).upd
  exact calm_ite h (calm_ite (hput _ _) (bump_jobsKept (hput _ _) _ _ _ _))

theorem formAt_jobsKept (k : Nat) (q : QRec) (lo hi : Nat) : JobsKept z (formAt k q lo hi s) := calm_ite (capIn_jobsKept h _ _ _ _) h.upd

theorem closeRun_jobsKept (k : Nat) (at_ : Instant) : JobsKept z (closeRun k at_ s) := by
  unfold closeRun
  split
  · exact h
  · exact formAt_jobsKept (modCap_jobsKept h _ _) _ _ _ _

theorem openCycle_jobsKept (k : Nat) (a : CycAt) (m n : Nat) : JobsKept z (openCycle k a m n s) := by
  refine modCap_jobsKept ?_ k _
  split
  · exact calm_ite h (closeRun_jobsKept h _ _)
  · exact h

/-! ### Load strobes -/

theorem clipEvents_jobsKept (k : Nat) (before : List (BitVec 5)) : JobsKept z (clipEvents k before s) :=
  calm_foldl _ _ h fun _ _ hu => calm_ite hu (fault_jobsKept hu _ _ _)

theorem loadOct_jobsKept (k : Nat) (dayEntry : Bool) : JobsKept z (loadOct k dayEntry s) :=
  clipEvents_jobsKept (modOct_jobsKept (mapPins_jobsKept h _ _) _ _) _ _

theorem strobe_jobsKept (k src : Nat) : JobsKept z (strobe k src s) :=
  calm_ite (calm_ite (modOct_jobsKept h _ _) (loadOct_jobsKept (modOct_jobsKept h _ _) _ _)) h

theorem segStrobes_jobsKept (i e : Nat) : JobsKept z (segStrobes i e s) :=
  calm_ite (calm_foldl _ _ h fun _ _ hu => calm_ite (strobe_jobsKept hu _ _) hu) h

end JobsKept

end Sys2Proof.Machine
end

section
/-!
SUPPORT. How a running job ends (09 R225) and that its end outlives the decisions of the queue that follow it (R217); underrun (08 R204).
-/

set_option Elab.async false

namespace Sys2Proof.Machine

open Sys2Proof

/-! ### The decisions of the queue -/

/-- `P` outlives the decisions of the queue: the slots it holds are not queued, and of the segments it looks at nothing that a write taken
back restores. -/
structure CalmQueue (P : State → Prop) (held : Nat → Prop) : Prop extends CalmEnd P held where
  waits : ∀ s i, P s → held i → (slotAt s i).st ≠ .queued
  back : ∀ s l ts mm st ld, P s → P { s with seg := { s.seg with undo := l, tset := ts, mem := mm, stat := st, load := ld } }
  bus : ∀ s x, P s → P { s with bus := x }
  head : ∀ s x b, P s → P { s with seqr := { s.seqr with head := x, admitWait := b } }

section CalmQueue

variable {P : State → Prop} {held : Nat → Prop} (hP : CalmQueue P held) {s : State} (h : P s)
include hP h

theorem markDue_queue (i : Nat) : P (markDue i s) := by
  unfold markDue
  dsimp only
  split
  next hq =>
    have hi : ¬ held i := fun hh => hP.waits s i h hh hq.1
    split
    · exact h
    · exact calm_ite (hP.slot _ _ _ hi h) (hP.slot _ _ _ hi h)
  · exact h

theorem refuseBus_queue (addr : Nat) : P (refuseBus addr s) := by
  unfold refuseBus
  split
  · exact calm_ite (hP.bus _ _ h) h
  · exact h

theorem takeBack_queue (x : SegUndo) : P (takeBack x s) := by
  unfold takeBack
  split
  · exact refuseBus_queue hP (bump_calm hP.toCalm (hP.back s _ _ _ _ _ h) _ _ _ _) _
  · exact refuseBus_queue hP (bump_calm hP.toCalm (hP.back s _ _ _ _ _ h) _ _ _ _) _

theorem takeBackFor_queue (sets : Nat) (es : List Nat) : P (takeBackFor sets es s) :=
  calm_ite (calm_foldl _ _ (hP.back s _ _ _ _ _ h) fun _ _ hu => takeBack_queue hP hu _) h

theorem beginCheck_queue {i : Nat} (hi : ¬ held i) (st : Option Nat) (late : Bool) : P (beginCheck i st late s) :=
  hP.slot _ _ _ hi (hP.srings _ _ (takeBackFor_queue hP h _ _))

theorem atHead_queue {i : Nat} (hi : ¬ held i) (a : Admit) : P (atHead i a s) := hP.slot _ _ _ hi (hP.head _ _ _ h)

theorem decideOne_queue {i : Nat} (hi : ¬ held i) : P (decideOne i s).1 := by
  have hend (code : Nat) : P (endJob code 0 false i s) := endJob_calm hP.toCalmEnd h _ _ _ hi
  unfold decideOne
  dsimp only
  split
  · exact hend _
  · split
    · exact hend _
    · split
      · exact beginCheck_queue hP h hi _ _
      · exact atHead_queue hP h hi _
    · exact atHead_queue hP h hi _

omit h in
theorem decideDue_queue (l : List Nat) : ∀ {s : State}, P s → (∀ i ∈ l, ¬ held i) → P (decideDue l s) := by
  induction l with
  | nil => exact fun h _ => hP.head _ _ _ h
  | cons i l ih =>
    intro s h hl
    obtain ⟨hi, hrest⟩ := List.forall_mem_cons.mp hl
    have hone := decideOne_queue hP h hi
    exact calm_ite (ih hone hrest) hone

theorem jobDue_queue : P (jobDue s) := by
  have hmark : P ((List.range 16).foldl (fun s i => markDue i s) s) := calm_foldl _ _ h fun _ _ hu => markDue_queue hP hu _
  unfold jobDue
  exact calm_ite hmark (decideDue_queue hP _ hmark fun i hi hh => hP.waits _ i hmark hh (dueJobs_queued hi))

end CalmQueue

/-! ### The end of a running job -/

/-- The job of slot `i` is ending with a code and cause after `n` cycles. -/
def EndsAs (i code cause n : Nat) (s : State) : Prop :=
  (slotAt s i).st = .ending ∧ (slotAt s i).endCode = code ∧ (slotAt s i).cause = cause ∧ (slotAt s i).play.n = n

theorem calmQueue_endsAs (i code cause n : Nat) : CalmQueue (EndsAs i code cause n) (· = i) where
  toCalmEnd := calmEnd_slot i (Q := fun x => x.st = .ending ∧ x.endCode = code ∧ x.cause = cause ∧ x.play.n = n) fun _ _ _ h => h
  waits s j h hj hq := by
    rw [hj, h.1] at hq
    cases hq
  back _ _ _ _ _ _ h := h
  bus _ _ h := h
  head _ _ _ h := h

/-- The underrun mode in force (UR_MODE) is `m`. -/
theorem calmQueue_urMode (m : Nat) : CalmQueue (fun s => s.seg.urMode = m) fun _ => False where
  evPend _ _ h := h
  log _ _ _ h := h
  pend _ _ _ h := h
  pins _ _ h := h
  octs _ _ _ h := h
  acts _ _ h := h
  stop _ _ _ _ h := h
  caps _ _ h := h
  evid _ _ h := h
  cal _ _ _ h := h
  flt _ _ _ h := h
  slot _ _ _ _ h := h
  srings _ _ h := h
  stopCause _ _ h := h
  waits _ _ _ hf := hf.elim
  back _ _ _ _ _ _ h := h
  bus _ _ h := h
  head _ _ _ h := h

/-- A running job ends with the code and cause given, after the cycles it has played. -/
theorem endJob_endsAs {i : Nat} {s : State} (code cause : Nat) (line : Bool) (hi : i < 16) (hrun : (slotAt s i).st = .running) :
    EndsAs i code cause (slotAt s i).play.n (endJob code cause line i s) := by
  have hP : CalmEnd (fun u => (slotAt u i).play.n = (slotAt s i).play.n) (· = i) :=
    calmEnd_slot i (Q := fun x => x.play.n = (slotAt s i).play.n) fun _ _ _ h => h
  unfold endJob
  extract_lets x e1 p e2 ran s1 s2 s3 s4 s5 q s6
  split
  next h => exact nomatch hrun.symm.trans h
  next h => exact nomatch hrun.symm.trans h
  next h => exact nomatch hrun.symm.trans h
  · have h1 : (slotAt s1 i).play.n = x.play.n :=
      calm_ite (P := fun u => (slotAt u i).play.n = x.play.n) (closeOcts_calm hP.toCalm (dropActs_calm hP rfl _ _) _ _) rfl
    have h2 : (slotAt s2 i).play.n = x.play.n := calm_ite (P := fun u => (slotAt u i).play.n = x.play.n) h1 (resetRings_calm hP h1 _)
    have h3 : (slotAt s3 i).play.n = x.play.n := endPins_calm hP h2 _ _ _ _
    have h4 : EndsAs i code cause x.play.n s4 := by
      simp only [EndsAs, s4, slotAt_modSlot, hi, and_self, if_true, true_and]
      exact h3
    have h6 : EndsAs i code cause x.play.n s6 := calm_ite (P := EndsAs i code cause x.play.n) h4 h4
    exact endFault_calm (calmQueue_endsAs i code cause x.play.n).toCalmEnd h6 _ _ _

/-- The end of a running job, with the decisions that follow it. -/
theorem jobDue_endJob_endsAs {i : Nat} {s : State} (code cause : Nat) (line : Bool) (hi : i < 16) (hrun : (slotAt s i).st = .running) :
    EndsAs i code cause (slotAt s i).play.n (jobDue (endJob code cause line i s)) :=
  jobDue_queue (calmQueue_endsAs _ _ _ _) (endJob_endsAs code cause line hi hrun)

/-- The unit with the job of slot `i` ended by underrun, before the fault event: its pins under the mode of entry `e`, and the mode, the cause
and the slot noted (08 R204). -/
def underrunNoted (i e cause : Nat) (s : State) : State :=
  let w := mapPins (slotAt s i).desc.octMask (fun _ p => urPin s.now (segUr s e) p) (endJob 5 cause false i s)
  { w with seg := { w.seg with urMode := segUr s e, urCause := cause, urSlot := i } }

theorem underrun_eq (i e cause : Nat) (s : State) :
    ∃ src detail, underrun i e cause s = faultU src detail (underrunNoted i e cause s) := by
  by_cases h : cause = 1
  · exact ⟨_, _, if_pos h⟩
  · exact ⟨_, _, if_neg h⟩

theorem underrunNoted_endsAs {i : Nat} {s : State} (e cause : Nat) (hi : i < 16) (hrun : (slotAt s i).st = .running) :
    EndsAs i 5 cause (slotAt s i).play.n (underrunNoted i e cause s) := by
  unfold underrunNoted
  extract_lets w
  have hw : EndsAs i 5 cause (slotAt s i).play.n w :=
    mapPins_calm (calmQueue_endsAs i 5 cause (slotAt s i).play.n).toCalm (endJob_endsAs 5 cause false hi hrun) _ _
  clear_value w
  exact hw

/-- Underrun ends the job with code 5 and puts the mode of the entry in force. -/
theorem jobDue_underrun {i : Nat} {s : State} (e cause : Nat) (hi : i < 16) (hrun : (slotAt s i).st = .running) :
    EndsAs i 5 cause (slotAt s i).play.n (jobDue (underrun i e cause s)) ∧ (jobDue (underrun i e cause s)).seg.urMode = segUr s e := by
  have hE := calmQueue_endsAs i 5 cause (slotAt s i).play.n
  have hM := calmQueue_urMode (segUr s e)
  obtain ⟨src, detail, heq⟩ := underrun_eq i e cause s
  rw [heq]
  exact ⟨jobDue_queue hE (faultU_calm hE.toCalm (underrunNoted_endsAs e cause hi hrun) _ _), jobDue_queue hM (faultU_calm hM.toCalm rfl _ _)⟩

end Sys2Proof.Machine
end

section
/-!
SUPPORT. What the drive edges of one cycle leave of a pin (07 R175, R176), and the record of a cycle that passed with its way into the FIFO
(10 R234, R243, R250).
-/

set_option Elab.async false

namespace Sys2Proof.Machine

open Sys2Proof

/-! ### Drive edges -/

/-- The pin as the edges of a list leave it, when all have acted. -/
def PinCh.edges (p : PinCh) (l : List DrvEdge) : PinCh := l.foldl (fun p d => p.edge d) p

/-- In the safe state no edge acts. -/
theorem PinCh.edges_of_safe {p : PinCh} (h : p.safe = true) (l : List DrvEdge) : p.edges l = p := by
  induction l with
  | nil => rfl
  | cons d l ih =>
    have hd : p.edge d = p := if_pos h
    rw [edges, List.foldl_cons, hd]
    exact ih

/-- The level a formatter leaves at the end of a drive cycle of state `c` (Table 7-4). -/
def levelLeft (fmt c : Nat) : Bool :=
  match fmt with
  | 0 => decide (c = 3)
  | 2 => false
  | 3 => true
  | _ => decide (c = 2)

/-- A formatter that acts sets a level at D2, and the last level it sets is the one it leaves. -/
theorem fmtLevels_acts {fmt c : Nat} (hf : fmt < 6) (hc : c = 2 ∨ c = 3) :
    ∃ l1 l2 l3, fmtLevels fmt (c == 3) = (l1, some l2, l3) ∧ l3.getD l2 = levelLeft fmt c := by
  rcases hc with rfl | rfl <;> interval_cases fmt <;> exact ⟨_, _, _, rfl, rfl⟩

theorem fmtLevels_hold {fmt : Nat} (hf : 6 ≤ fmt) (d : Bool) : fmtLevels fmt d = (none, none, none) := by
  obtain ⟨k, rfl⟩ := Nat.exists_eq_add_of_le' hf
  rfl

section Edges

variable {p : PinCh} (hp : p.safe = false) {fmt c : Nat} (e : TEntry)

include hp in
/-- A drive cycle under a formatter that acts. -/
theorem PinCh.edges_drive (hf : fmt < 6) (hc : c = 2 ∨ c = 3) :
    (p.edges (edgesOf fmt c e)).drv = true ∧ (p.edges (edgesOf fmt c e)).term = false ∧
    (p.edges (edgesOf fmt c e)).lvl = levelLeft fmt c := by
  obtain ⟨l1, l2, l3, hlv, hleft⟩ := fmtLevels_acts hf hc
  have hdrives : stDrives c = true := by simpa [stDrives] using hc
  rw [← hleft, edgesOf, if_pos hdrives, hlv]
  cases l3 with
  | none => simp [PinCh.edges, PinCh.edge, hp]
  | some l => simp [PinCh.edges, PinCh.edge, hp]

/-- Under HOLD no edge of a drive cycle acts. -/
theorem edgesOf_hold (hf : 6 ≤ fmt) (hc : c = 2 ∨ c = 3) : edgesOf fmt c e = [] := by
  have hdrives : stDrives c = true := by simpa [stDrives] using hc
  rw [edgesOf, if_pos hdrives, fmtLevels_hold hf]

include hp in
/-- A cycle that does not drive: D4 turns the driver off. -/
theorem PinCh.edges_off (h2 : c ≠ 2) (h3 : c ≠ 3) :
    (p.edges (edgesOf fmt c e)).drv = false ∧ (p.edges (edgesOf fmt c e)).lvl = p.lvl ∧
    (p.edges (edgesOf fmt c e)).term = (decide (c = 1) || p.ld.cfg.getLsbD 4) := by
  have hdrives : stDrives c = false := by simp [stDrives, h2, h3]
  have hterm : ldTerm p = p.ld.cfg.getLsbD 4 := rfl
  rw [edgesOf, hdrives, ← hterm]
  simp [PinCh.edges, PinCh.edge, hp, beq_eq_decide]

end Edges

/-! ### The record of a cycle that passed -/

theorem recType_runRec (k : Nat) (r : Run) (at_ : Instant) (closed : Bool) : recType (runRec k r at_ closed).body = 1 := by
  have hflags : b2n r.rle ≤ 1 ∧ b2n r.spare ≤ 1 := by
    constructor
    · cases r.rle <;> decide
    · cases r.spare <;> decide
  simp only [recType, runRec, mkRec, fld, word, hRle, hSpare, BitVec.toNat_ofNat, Nat.shiftRight_zero]
  omega

/-- The last result of an octet's cycle, all passed, without run-length coding (R243). -/
theorem octResult_passed {k : Nat} {c : OctCyc} {r : PinRes} {s : State} (hcyc : (capAt s k).cyc = some c) (hleft : c.left ≤ 1)
    (hpass : ∀ y ∈ resPut r c.rs, y.fail = false) (hrle : c.a.pol.testBit 0 = false)
    (hlater : s.now < knownAt c.a (resPut r c.rs) + 50 * cNs) :
    ∃ q, octResult k r s = schedule ⟨q.at_, q.body.jobNo.toNat, .form k q c.a.cyc c.a.cyc⟩ (modCap k (fun x => { x with cyc := none }) s) ∧
      recType q.body = 1 ∧ q.at_ = knownAt c.a (resPut r c.rs) + 50 * cNs := by
  have hnone : ¬ (resPut r c.rs).any (·.fail) = true := by
    rw [List.any_eq_true]
    rintro ⟨y, hy, hfail⟩
    exact Bool.false_ne_true ((hpass y hy).symm.trans hfail)
  refine ⟨runRec k ⟨c.a.jobNo, c.a.cyc, 1, judgedMask (resPut r c.rs), c.a.org + (((resPut r c.rs).map (·.strobe)).headD 0),
    knownAt c.a (resPut r c.rs), (resPut r c.rs).any (·.spare), c.a.rle⟩ (knownAt c.a (resPut r c.rs) + 50 * cNs) false, ?_,
    recType_runRec k _ _ _, rfl⟩
  rw [← formAt_later hlater]
  have hcoding : ¬ c.a.rle = true := ne_true_of_eq_false hrle
  simp only [octResult, hcyc, if_neg (show ¬ 2 ≤ c.left by omega), if_neg hnone, passCycle, if_neg hcoding]

/-- A record is taken where the chain is not suspended, no loss is open and there is room (R250). -/
theorem capIn_taken {k : Nat} (hk : k < 8) {s : State} (hsus : s.evid.suspended = false) (hloss : (capAt s k).loss = none)
    (hroom : capFill s k < 4094) (q : QRec) (lo hi : Nat) : (capAt (capIn k q lo hi s) k).fifo = (capAt s k).fifo ++ [q] := by
  have hclose : lossCloseAt k s = s := by simp only [lossCloseAt, hloss]
  have hroom' : capFill s k < capRoom := hroom
  simp only [capIn, hsus, hclose, capOffer, if_pos hroom', Bool.false_eq_true, if_false, if_true]
  change (capAt (modCap k _ s) k).fifo = _
  rw [capAt_modCap, if_pos ⟨rfl, hk⟩]

end Sys2Proof.Machine
end

section
/-!
SUPPORT. VECTOR_CYCLE: the origin of a cycle and what is due there (08 R204; 09 R224, R230), and what the cycle it plays queues, opens and
leaves alone (07 R174; 10 R233): O38.
-/

set_option Elab.async false

namespace Sys2Proof.Machine

open Sys2Proof

/-! ### Happenings queued -/

theorem mem_actPut {a y : Act} {l : List Act} : y ∈ actPut a l ↔ y = a ∨ y ∈ l := by
  induction l with
  | nil => simp [actPut]
  | cons x l ih =>
    rw [actPut]
    split
    · exact List.mem_cons
    · rw [List.mem_cons, ih, List.mem_cons]
      exact or_left_comm

theorem mem_scheduleAll {y : Act} {l : List Act} {s : State} : y ∈ (scheduleAll l s).seqr.acts ↔ y ∈ l ∨ y ∈ s.seqr.acts := by
  have hfold : ∀ m : List Act, y ∈ l.foldl (fun m a => actPut a m) m ↔ y ∈ l ∨ y ∈ m := by
    induction l with
    | nil => simp
    | cons a l ih =>
      intro m
      rw [List.foldl_cons, ih, mem_actPut, List.mem_cons, or_left_comm, or_assoc]
  exact hfold _

theorem mem_inputActs {k : Instant} {obs : List PinObs} {o : PinObs} (ho : o ∈ obs) {y : InputStep} (hy : y ∈ o.steps) :
    ⟨k + y.at_, 0, .input o.pin.val y.u⟩ ∈ inputActs k obs :=
  List.mem_flatMap.mpr ⟨o, ho, List.mem_map.mpr ⟨y, hy, rfl⟩⟩

theorem scheduleAll_jobsKept {z s : State} (h : JobsKept z s) (l : List Act) : JobsKept z (scheduleAll l s) := h.upd

/-! ### The origin of a cycle -/

/-- A job whose cycle before has ended: nothing is left to consume, and after the last cycle of a naming the cache is free. -/
def Play.ended (p : Play) : Play :=
  { p with eats := none, lastOf := false, cacheG := if p.lastOf then 0 else p.cacheG, cacheV := if p.lastOf then [] else p.cacheV }

theorem cycleEnds_eq (i : Nat) (s : State) : ∃ q, cycleEnds i s =
    modSlot i (fun x => { x with play := x.play.ended }) { s with seqr := { s.seqr with srings := q } } ∧
      ((slotAt s i).play.eats = none → q = s.seqr.srings) := by
  unfold cycleEnds
  dsimp only
  cases h : (slotAt s i).play.eats with
  | none => exact ⟨s.seqr.srings, rfl, fun _ => rfl⟩
  | some r => exact ⟨_, rfl, fun hn => nomatch hn⟩

theorem allocCache_eq (i e : Nat) (s : State) : ∃ sl, allocCache i e s = { s with seqr := { s.seqr with slots := sl } } := by
  by_cases h : (slotAt s i).play.cyc = 0 ∧ (slotAt s i).play.play = 0
  · exact ⟨_, if_pos h⟩
  · exact ⟨s.seqr.slots, if_neg h⟩

/-- The unit at the origin of a cycle of entry `e`: the cycle before has ended, and the cache is allocated where a naming begins. -/
def cycleOpened (i e : Nat) (s : State) : State := allocCache i e (cycleEnds i s)

theorem cycleOpened_eq (i e : Nat) (s : State) : ∃ sl q, cycleOpened i e s = { s with seqr := { s.seqr with slots := sl, srings := q } } ∧
    ((slotAt s i).play.eats = none → q = s.seqr.srings) := by
  obtain ⟨q, hends, hq⟩ := cycleEnds_eq i s
  obtain ⟨sl, halloc⟩ := allocCache_eq i e (cycleEnds i s)
  refine ⟨sl, q, ?_, hq⟩
  rw [cycleOpened, halloc, hends]
  rfl

section Origin

variable {i : Nat} (hi : i < 16) (s : State)
include hi

theorem slotAt_cycleEnds : slotAt (cycleEnds i s) i = { slotAt s i with play := (slotAt s i).play.ended } := by
  obtain ⟨q, hends, -⟩ := cycleEnds_eq i s
  rw [hends, slotAt_modSlot, if_pos ⟨rfl, hi⟩]
  rfl

/-- The allocation of the cache writes nothing but its use, and that only in the first play of a naming. -/
theorem slotAt_allocCache (e : Nat) : ∃ g c, slotAt (allocCache i e s) i =
    { slotAt s i with play := { (slotAt s i).play with cacheG := g, cacheV := c } } ∧
      ((slotAt s i).play.play = 0 ∨ g = (slotAt s i).play.cacheG) := by
  by_cases h : (slotAt s i).play.cyc = 0 ∧ (slotAt s i).play.play = 0
  · rw [allocCache, if_pos h, slotAt_modSlot, if_pos ⟨rfl, hi⟩]
    exact ⟨_, _, rfl, .inl h.2⟩
  · rw [allocCache, if_neg h]
    exact ⟨_, _, rfl, .inr rfl⟩

/-- The slot at the origin of a cycle: but for the cache and what the cycle before had left to consume, as it was. -/
theorem slotAt_cycleOpened (e : Nat) : ∃ g c, slotAt (cycleOpened i e s) i =
    { slotAt s i with play := { (slotAt s i).play with eats := none, lastOf := false, cacheG := g, cacheV := c } } ∧
      ((slotAt s i).play.play = 0 ∨ (slotAt s i).play.cacheG = 0 → (slotAt s i).play.play = 0 ∨ g = 0) := by
  obtain ⟨g, c, hslot, hg⟩ := slotAt_allocCache hi (cycleEnds i s) e
  rw [slotAt_cycleEnds hi] at hslot hg
  refine ⟨g, c, hslot, fun hbuf => ?_⟩
  rcases hbuf with h | h
  · exact .inl h
  · refine hg.imp_right fun hcache => hcache.trans ?_
    rw [Play.ended, h]
    exact ite_self _

/-- The vector comes from the buffer in the first play of a naming and wherever no cache is in use. -/
theorem curVec_cycleOpened (e : Nat) (h : (slotAt s i).play.play = 0 ∨ (slotAt s i).play.cacheG = 0) :
    curVec (slotAt (cycleOpened i e s) i).play = (slotAt s i).play.buf.head? := by
  obtain ⟨g, c, hslot, hg⟩ := slotAt_cycleOpened hi s e
  rw [hslot]
  refine if_neg ?_
  rintro ⟨hplay, hcache⟩
  rcases hg h with h0 | h0
  · exact absurd h0 (Nat.ne_of_gt hplay)
  · exact hcache h0

theorem stopNow_cycleEnds : stopNow (cycleEnds i s) (slotAt (cycleEnds i s) i) = stopNow s (slotAt s i) := by
  obtain ⟨q, hends, -⟩ := cycleEnds_eq i s
  rw [slotAt_cycleEnds hi, hends]
  rfl

theorem nameAt_cycleEnds : nameAt (slotAt (cycleEnds i s) i) (slotAt (cycleEnds i s) i).play.name = nameAt (slotAt s i) (slotAt s i).play.name := by
  rw [slotAt_cycleEnds hi]
  rfl

variable {s} (obs : List PinObs)

/-- A stop by line loss comes before everything else (R224). -/
theorem vectorOrigin_line {p : Stop} (hstop : stopNow s (slotAt s i) = some p) (hline : p.line = true) :
    vectorOrigin i obs s = jobDue (endJob p.code p.cause true i (cycleEnds i s)) := by
  obtain ⟨gran, code, cause, at_, line⟩ := p
  cases hline
  simp only [vectorOrigin, stopNow_cycleEnds hi, hstop]

/-- Past its last naming the job has completed. -/
theorem vectorOrigin_completed (hstop : stopNow s (slotAt s i) = none) (hname : nameAt (slotAt s i) (slotAt s i).play.name = none) :
    vectorOrigin i obs s = jobDue (endJob 1 0 false i (cycleEnds i s)) := by
  simp only [vectorOrigin, stopNow_cycleEnds hi, hstop, nameAt_cycleEnds hi, hname]

variable {e : Nat} (hname : nameAt (slotAt s i) (slotAt s i).play.name = some e)
include hname

/-- With no stop and its vector there the cycle is played. -/
theorem vectorOrigin_plays {v : Vec192} (hstop : stopNow s (slotAt s i) = none)
    (hvec : curVec (slotAt (cycleOpened i e s) i).play = some v) :
    vectorOrigin i obs s = playCycle i e v obs (cycleOpened i e s) := by
  simp only [vectorOrigin, cycleOpened, stopNow_cycleEnds hi, hstop, nameAt_cycleEnds hi, hname] at hvec ⊢
  simp only [hvec]

/-- A vector that is missing is an underrun, but where a stop with a lower code is due (R225). -/
theorem vectorOrigin_missing (hstop : stopNow s (slotAt s i) = none ∨ ∃ p, stopNow s (slotAt s i) = some p ∧ p.line = false ∧ 5 ≤ p.code)
    (hvec : curVec (slotAt (cycleOpened i e s) i).play = none) :
    vectorOrigin i obs s = jobDue (underrun i e (missCause e (cycleOpened i e s)) (cycleOpened i e s)) := by
  simp only [cycleOpened] at hvec ⊢
  rcases hstop with hstop | ⟨⟨gran, code, cause, at_, line⟩, hstop, hline, hcode⟩
  · simp only [vectorOrigin, stopNow_cycleEnds hi, hstop, nameAt_cycleEnds hi, hname, hvec]
  · cases hline
    simp only [vectorOrigin, stopNow_cycleEnds hi, hstop, nameAt_cycleEnds hi, hname, hvec, if_neg (Nat.not_lt.mpr hcode)]

/-- A stop that is due takes effect where its code is below that of an underrun or the vector is there. -/
theorem vectorOrigin_stopped {p : Stop} (hstop : stopNow s (slotAt s i) = some p) (hline : p.line = false)
    (hvec : p.code < 5 ∨ ∃ v, curVec (slotAt (cycleOpened i e s) i).play = some v) :
    vectorOrigin i obs s = jobDue (endJob p.code p.cause false i (cycleEnds i s)) := by
  obtain ⟨gran, code, cause, at_, line⟩ := p
  cases hline
  simp only [cycleOpened] at hvec
  cases hcur : curVec (slotAt (allocCache i e (cycleEnds i s)) i).play with
  | some v => simp only [vectorOrigin, stopNow_cycleEnds hi, hstop, nameAt_cycleEnds hi, hname, hcur]
  | none =>
    have hcode : code < 5 := hvec.resolve_right fun ⟨v, hv⟩ => nomatch hcur.symm.trans hv
    simp only [vectorOrigin, stopNow_cycleEnds hi, hstop, nameAt_cycleEnds hi, hname, hcur, if_pos hcode]

end Origin

/-! ### What a cycle played opens, when it is played at its origin -/

/-- The octets of `mask` have come to a cycle: happenings are queued and their capture engines have opened it, and no more. -/
structure Opened (mask : Nat) (z w : State) : Prop where
  rest : ∃ l c, w = { z with seqr := { z.seqr with acts := l }, caps := c }
  acts : ∀ y ∈ z.seqr.acts, y ∈ w.seqr.acts
  caps : ∀ k, mask.testBit k = false → capAt w k = capAt z k

theorem Opened.refl (mask : Nat) (s : State) : Opened mask s s := ⟨⟨s.seqr.acts, s.caps, rfl⟩, fun _ h => h, fun _ _ => rfl⟩

section Opened

variable {mask : Nat} {z s : State} (h : Opened mask z s)
include h

theorem Opened.now : s.now = z.now := by
  obtain ⟨l, c, heq⟩ := h.rest
  rw [heq]

theorem Opened.pins : s.pins = z.pins := by
  obtain ⟨l, c, heq⟩ := h.rest
  rw [heq]

theorem schedule_opened (a : Act) : Opened mask z (schedule a s) where
  rest := by
    obtain ⟨l, c, heq⟩ := h.rest
    exact ⟨actPut a s.seqr.acts, c, by rw [heq]; rfl⟩
  acts y hy := mem_actPut.mpr (.inr (h.acts y hy))
  caps k hk := h.caps k hk

variable {k : Nat} (hk : mask.testBit k = true)
include hk

theorem modCap_opened (f : Cap → Cap) : Opened mask z (modCap k f s) where
  rest := by
    obtain ⟨l, c, heq⟩ := h.rest
    exact ⟨l, vmod s.caps k f, by rw [heq]; rfl⟩
  acts y hy := h.acts y hy
  caps j hj := by
    have hne : k ≠ j := by
      rintro rfl
      exact Bool.false_ne_true (hj.symm.trans hk)
    rw [capAt_modCap, if_neg fun hkj => hne hkj.1]
    exact h.caps j hj

theorem closeRun_opened {at_ : Instant} (hlater : s.now < at_) : Opened mask z (closeRun k at_ s) := by
  unfold closeRun
  split
  · exact h
  next r hr =>
    have hform : (runRec k r at_ false).at_ = at_ := rfl
    rw [formAt_later (by rw [hform]; exact hlater)]
    exact schedule_opened (modCap_opened h hk _) _

theorem openCycle_opened {a : CycAt} (hlater : s.now < a.korg + 50 * cNs) (m n : Nat) : Opened mask z (openCycle k a m n s) := by
  refine modCap_opened ?_ hk _
  split
  · exact calm_ite (P := Opened mask z) h (closeRun_opened h hk hlater)
  · exact h

end Opened

theorem octsOpen_opened {a : CycAt} {mask : Nat} {v : Vec192} {s : State} (hlater : s.now < a.korg + 50 * cNs) :
    Opened mask s ((bitsOf 8 mask).foldl (fun s k => octOpens a v k s) s) := by
  refine List.foldlRecOn _ _ (.refl mask s) fun u hu k hk => ?_
  exact openCycle_opened hu (List.mem_filter.mp hk).2 (by rw [hu.now]; exact hlater) _ _

/-! ### What a cycle played queues and leaves -/

/-- The happenings a cycle queues: the steps of the inputs within its period, and the edges, C1 and C2 of the pins of its octets (R174). -/
def cycleActs (a : CycAt) (mask : Nat) (v : Vec192) (per : Nat) (te : Nat → TEntry) (obs : List PinObs) : List Act :=
  inputActs a.korg (obs.map fun o => { o with steps := o.steps.filter fun x => decide (x.at_ < per) }) ++
    (pinsOf mask).flatMap fun n => pinActs a n (stateOf v n) (te n)

/-- A pin as a cycle opens the compare or capture of its state. -/
def pinOpens (a : CycAt) (v : Vec192) (te : Nat → TEntry) (n : Nat) (p : PinCh) : PinCh :=
  { p with win := winOf a (stateOf v n) (te n), wave := [] }

theorem mem_cycleActs_input {a : CycAt} {mask per : Nat} {v : Vec192} {te : Nat → TEntry} {obs : List PinObs} {o : PinObs} (ho : o ∈ obs)
    {y : InputStep} (hy : y ∈ o.steps) (hper : y.at_ < per) : ⟨a.korg + y.at_, 0, .input o.pin.val y.u⟩ ∈ cycleActs a mask v per te obs := by
  have ho' := List.mem_map_of_mem (f := fun o : PinObs => { o with steps := o.steps.filter fun x => decide (x.at_ < per) }) ho
  exact List.mem_append_left _ (mem_inputActs ho' (List.mem_filter.mpr ⟨hy, decide_eq_true hper⟩))

theorem mem_cycleActs_pin {a : CycAt} {mask per n : Nat} {v : Vec192} {te : Nat → TEntry} {obs : List PinObs} (hn : n < 64)
    (hm : mask.testBit (n / 8) = true) {y : Act} (hy : y ∈ pinActs a n (stateOf v n) (te n)) : y ∈ cycleActs a mask v per te obs :=
  List.mem_append_right _ (List.mem_flatMap.mpr ⟨n, mem_pinsOf.mpr ⟨hn, hm⟩, hy⟩)

/-- An entry that names no octet asks for no load strobe (R201). -/
theorem segStrobes_none {e : Nat} {s : State} (h : segLoadOct s e = 0) (i : Nat) : segStrobes i e s = s := by
  have hbits : bitsOf 8 (segLoadOct s e &&& (slotAt s i).desc.octMask) = [] := by
    rw [h, Nat.zero_and]
    rfl
  unfold segStrobes
  dsimp only
  rw [hbits]
  exact ite_self _

/-- The period, the load strobes and the timing entries that a segment entry selects stand in the segment table and the timing sets alone. -/
theorem entry_congr {s w : State} (h : w.seg = s.seg) (e : Nat) : segPer w e = segPer s e ∧ segLoadOct w e = segLoadOct s e ∧
    tsetEntry w (segTset w e) = tsetEntry s (segTset s e) := by
  have hword (n : Nat) : segWord w e n = segWord s e n := by rw [segWord, segWord, h]
  refine ⟨by rw [segPer, segPer, hword], by rw [segLoadOct, segLoadOct, hword], funext fun n => ?_⟩
  simp only [tsetEntry, tsetWord, segTset, hword, h]

/-- A cycle played at its origin, from an entry that asks for no load strobe. -/
theorem playCycle_quiet {i e : Nat} {s : State} (hload : segLoadOct s e = 0) (horg : (slotAt s i).play.org = s.tim.codes) (v : Vec192)
    (obs : List PinObs) :
    let x := slotAt s i
    let a : CycAt := ⟨x.jobNo, x.play.n, x.play.org, s.now, x.desc.policy⟩
    let te := tsetEntry s (segTset s e)
    ∃ z, Opened x.desc.octMask s z ∧ playCycle i e v obs s =
      modSlot i (fun y => { y with play := nextCycle e v s y.play })
        (scheduleAll (cycleActs a x.desc.octMask v (segPer s e) te obs) (mapPins x.desc.octMask (pinOpens a v te) z)) := by
  intro x a te
  have hkern : kernOf s x.play.org = s.now := by
    rw [horg]
    exact Nat.add_sub_cancel ..
  refine ⟨_, octsOpen_opened (a := a) (mask := x.desc.octMask) (v := v) (Nat.lt_add_of_pos_right (by decide)), ?_⟩
  unfold playCycle
  rw [segStrobes_none hload]
  dsimp only
  rw [hkern]
  rfl

theorem playCycle_eq (i e : Nat) (v : Vec192) (obs : List PinObs) (s : State) : ∃ z u, JobsKept s z ∧ JobsKept s u ∧
    playCycle i e v obs s = modSlot i (fun y => { y with play := nextCycle e v z y.play }) u := by
  have hstrobes := segStrobes_jobsKept (.refl s) i e
  unfold playCycle
  extract_lets z x a te s1 s2 s3
  have h1 : JobsKept s s1 := calm_foldl _ _ hstrobes fun _ _ hu => openCycle_jobsKept hu _ _ _ _
  exact ⟨z, s3, hstrobes, scheduleAll_jobsKept (mapPins_jobsKept h1 _ _) _, rfl⟩

theorem nextCycle_goesOn (e : Nat) (v : Vec192) (s : State) (p : Play) :
    (nextCycle e v s p).n = p.n + 1 ∧ (nextCycle e v s p).org = p.org + segPer s e := by
  unfold nextCycle
  dsimp only
  split
  · exact ⟨rfl, rfl⟩
  · split
    · exact ⟨rfl, rfl⟩
    · exact ⟨rfl, rfl⟩

/-- Whatever a cycle does besides, the job goes on to the next cycle one period later (R200), and nothing is chained. -/
theorem playCycle_goesOn {i : Nat} (hi : i < 16) (e : Nat) (v : Vec192) (obs : List PinObs) (s : State) :
    let w := playCycle i e v obs s
    (slotAt w i).st = (slotAt s i).st ∧ (slotAt w i).play.n = (slotAt s i).play.n + 1 ∧
    (slotAt w i).play.org = (slotAt s i).play.org + segPer s e ∧ w.evid.count = s.evid.count := by
  obtain ⟨z, u, hz, hu, heq⟩ := playCycle_eq i e v obs s
  have hst : (slotAt u i).st = (slotAt s i).st := hu.slotField i Slot.st
  have hplay : (slotAt u i).play = (slotAt s i).play := hu.slotField i Slot.play
  have hcount : u.evid.count = s.evid.count := (congrArg Evid.count hu.memory :)
  have hper : segPer z e = segPer s e := (entry_congr hz.seg e).1
  obtain ⟨hn, horg⟩ := nextCycle_goesOn e v z (slotAt s i).play
  dsimp only
  rw [heq, slotAt_modSlot, if_pos ⟨rfl, hi⟩, hplay]
  exact ⟨hst, hn, by rw [← hper]; exact horg, hcount⟩

theorem mapPins_seqr (mask : Nat) (f : Nat → PinCh → PinCh) (s : State) : (mapPins mask f s).seqr = s.seqr := by rw [mapPins]

theorem mapPins_caps (mask : Nat) (f : Nat → PinCh → PinCh) (s : State) : (mapPins mask f s).caps = s.caps := by rw [mapPins]

/-- Happenings queued and a change of a slot: the happenings alone are new, of the queue, the pins and the octets' capture. -/
theorem scheduled_leaves (i : Nat) (f : Slot → Slot) (l : List Act) (s : State) :
    (modSlot i f (scheduleAll l s)).seqr.acts = (scheduleAll l s).seqr.acts ∧ (modSlot i f (scheduleAll l s)).pins = s.pins ∧
    (modSlot i f (scheduleAll l s)).caps = s.caps := ⟨rfl, rfl, rfl⟩

/-- A cycle played at its origin, from an entry that asks for no load strobe: what it queues and opens, and that it leaves the rest. -/
theorem playCycle_opens {i e : Nat} {s : State} (hload : segLoadOct s e = 0) (horg : (slotAt s i).play.org = s.tim.codes)
    (v : Vec192) (obs : List PinObs) :
    let x := slotAt s i
    let a : CycAt := ⟨x.jobNo, x.play.n, x.play.org, s.now, x.desc.policy⟩
    let te := tsetEntry s (segTset s e)
    let w := playCycle i e v obs s
    (∀ y, y ∈ cycleActs a x.desc.octMask v (segPer s e) te obs ∨ y ∈ s.seqr.acts → y ∈ w.seqr.acts) ∧
    (∀ n < 64, pinAt w n = if x.desc.octMask.testBit (n / 8) then pinOpens a v te n (pinAt s n) else pinAt s n) ∧
    (∀ k, x.desc.octMask.testBit k = false → capAt w k = capAt s k) := by
  intro x a te w
  obtain ⟨z, hz, hplay⟩ := playCycle_quiet hload horg v obs
  obtain ⟨hacts, hpins, hcaps⟩ := scheduled_leaves i (fun y => { y with play := nextCycle e v s y.play })
    (cycleActs a x.desc.octMask v (segPer s e) te obs) (mapPins x.desc.octMask (pinOpens a v te) z)
  rw [← hplay] at hacts hpins hcaps
  refine ⟨fun y hy => ?_, fun n hn => ?_, fun k hk => ?_⟩
  · rw [hacts, mem_scheduleAll, mapPins_seqr]
    exact hy.imp_right (hz.acts y)
  · rw [pinAt, hpins, ← pinAt, pinAt_mapPins hn, pinAt, hz.pins, ← pinAt]
  · rw [capAt, hcaps, mapPins_caps]
    exact hz.caps k hk

/-- What the origin of a cycle leaves of what the cycle looks at. -/
theorem cycleOpened_leaves (i e : Nat) (s : State) :
    (cycleOpened i e s).now = s.now ∧ (cycleOpened i e s).tim = s.tim ∧ (cycleOpened i e s).seg = s.seg ∧
    (cycleOpened i e s).pins = s.pins ∧ (cycleOpened i e s).caps = s.caps ∧ (cycleOpened i e s).evid = s.evid ∧
    (cycleOpened i e s).seqr.acts = s.seqr.acts := by
  obtain ⟨sl, q, heq, -⟩ := cycleOpened_eq i e s
  rw [heq]
  exact ⟨rfl, rfl, rfl, rfl, rfl, rfl, rfl⟩

/-! ### Ends -/

theorem stopNow_none {x : Slot} (h : x.stops = []) (s : State) : stopNow s x = none := by
  rw [stopNow, h]
  rfl

/-- The one stop ordered is due: ordered in an earlier cycle, at a granule boundary where it asks for one. -/
theorem stopNow_single {x : Slot} {s : State} {p : Stop} (h : x.stops = [p]) (hat : cycleOf p.at_ < cycleOf (kernOf s x.play.org))
    (hgran : p.gran = false ∨ x.play.n % 64 = 0) : stopNow s x = some p := by
  have hdue : (decide (cycleOf p.at_ < cycleOf (kernOf s x.play.org)) && (!p.gran || x.play.n % 64 == 0)) = true := by
    rw [Bool.and_eq_true, Bool.or_eq_true, decide_eq_true_eq, Bool.not_eq_true', beq_iff_eq]
    exact ⟨hat, hgran⟩
  rw [stopNow, h, List.filter_cons, if_pos hdue]
  rfl

section Ends

variable {i : Nat} (hi : i < 16) {s : State} (hrun : (slotAt s i).st = .running)
include hi hrun

theorem cycleEnds_endsAs (code cause : Nat) (line : Bool) :
    EndsAs i code cause (slotAt s i).play.n (jobDue (endJob code cause line i (cycleEnds i s))) := by
  have hslot := slotAt_cycleEnds hi s
  have hends := jobDue_endJob_endsAs (s := cycleEnds i s) code cause line hi (by rw [hslot]; exact hrun)
  rw [hslot] at hends
  exact hends

theorem cycleOpened_underrun (e cause : Nat) :
    EndsAs i 5 cause (slotAt s i).play.n (jobDue (underrun i e cause (cycleOpened i e s))) ∧
      (jobDue (underrun i e cause (cycleOpened i e s))).seg.urMode = segUr s e := by
  obtain ⟨g, c, hslot, -⟩ := slotAt_cycleOpened hi s e
  obtain ⟨sl, q, heq, -⟩ := cycleOpened_eq i e s
  have hur : segUr (cycleOpened i e s) e = segUr s e := by rw [heq]; rfl
  have hends := jobDue_underrun (s := cycleOpened i e s) e cause hi (by rw [hslot]; exact hrun)
  rw [hslot, hur] at hends
  exact hends

end Ends

/-- With no piece just eaten, why a vector is missing is seen before the cycle (R230). -/
theorem missCause_cycleOpened {i e : Nat} {s : State} (h : (slotAt s i).play.eats = none) :
    missCause e (cycleOpened i e s) = missCause e s := by
  obtain ⟨sl, q, heq, hq⟩ := cycleOpened_eq i e s
  rw [heq, hq h]
  rfl

/-! ### The statement -/

theorem exec_vectorCycle_due {t : Instant} {i : Fin 16} {s : State}
    (hdue : (slotAt (advance t s) i.val).st = .running ∧ (slotAt (advance t s) i.val).play.org ≤ (advance t s).tim.codes)
    (obs : List PinObs) : exec (.vectorCycle t i obs) s = .next (vectorOrigin i.val obs (advance t s)) :=
  congrArg Host.Outcome.next (if_pos hdue)

/-- Settles O38: a cycle played by `playCycle_goesOn` and `playCycle_opens`, its edges by `PinCh.edges_drive` and `PinCh.edges_off`, its
record by `octResult_passed` and `capIn_taken`, the ends by `cycleEnds_endsAs` and `cycleOpened_underrun`. -/
theorem vectorCycle_spec : Obligations.VectorCycle := by
  intro t i obs v e s u x a te after ends rings due fromBuf
  have hi := i.isLt
  refine ⟨fun hdue hstops hname hbuf hvec => ?plays, fun n hn => ?edges, fun k c r hk hcyc hleft hpass hrle hlater => ?passed,
    fun k q lo hi hk hsus hloss hroom => capIn_taken hk hsus hloss hroom q lo hi,
    fun hdue hstops hname hbuf hvec => ?missing, fun hdue hstops hname => ?completed, fun p hdue hstops hat hgran => ?stopped,
    fun hdue => ?early⟩
  case plays =>
    have hcur := (curVec_cycleOpened hi u e hbuf).trans hvec
    have horigin := vectorOrigin_plays hi obs hname (stopNow_none hstops u) hcur
    obtain ⟨g, c, hslot, -⟩ := slotAt_cycleOpened hi u e
    obtain ⟨hnow, htim, hseg, hpins, hcaps, hevid, hacts⟩ := cycleOpened_leaves i.val e u
    obtain ⟨hper, hloads, hentry⟩ := entry_congr hseg e
    obtain ⟨hst, hn, horg, hcount⟩ := playCycle_goesOn hi e v obs (cycleOpened i.val e u)
    rw [hslot] at hst hn horg
    rw [hper] at horg
    refine ⟨_, (exec_vectorCycle_due hdue obs).trans (congrArg Host.Outcome.next horigin), hst.trans hdue.1, hn, horg,
      hcount.trans (congrArg Evid.count hevid), fun hload hstart => ?_⟩
    have hopens := playCycle_opens (hloads.trans hload) (by rw [hslot, htim]; exact hstart) v obs
    dsimp only at hopens
    rw [hslot, hper, hentry, hnow, hacts] at hopens
    obtain ⟨hqueued, hpin, hcap⟩ := hopens
    refine ⟨fun y hy => hqueued y (.inr hy), fun o ho y hy hlt => hqueued _ (.inl (mem_cycleActs_input ho hy hlt)),
      fun n hn hm => ⟨fun y hy => hqueued y (.inl (mem_cycleActs_pin hn hm hy)), ?_⟩, fun n hn hm => ?_, fun k _ hk => ?_⟩
    · rw [hpin n hn, if_pos hm, pinAt, hpins]
      rfl
    · rw [hpin n hn, if_neg (ne_true_of_eq_false hm), pinAt, hpins, pinAt]
    · rw [hcap k hk, capAt, hcaps, capAt]
  case edges =>
    intro p q same
    refine ⟨fun hsafe => ?_, fun hsafe hdrive => ⟨fun hf => PinCh.edges_drive hsafe _ hf hdrive, fun hf => ?_⟩,
      fun hsafe h2 h3 => PinCh.edges_off hsafe _ h2 h3⟩
    · have hq : q = p := PinCh.edges_of_safe hsafe _
      exact ⟨congrArg PinCh.drv hq, congrArg PinCh.lvl hq, congrArg PinCh.term hq⟩
    · have hq : q = p := congrArg (PinCh.edges p) (edgesOf_hold (te n) hf hdrive)
      exact ⟨congrArg PinCh.drv hq, congrArg PinCh.lvl hq, congrArg PinCh.term hq⟩
  case passed =>
    obtain ⟨q, hres, htype, hat⟩ := octResult_passed hcyc hleft hpass hrle hlater
    refine ⟨q, congrArg (fun w => w.seqr.acts) hres, htype, hat, ?_⟩
    rw [hres]
    change (capAt (modCap k _ u) k).cyc = none
    rw [capAt_modCap, if_pos ⟨rfl, hk⟩]
  case missing =>
    have hcur := (curVec_cycleOpened hi u e hbuf).trans (by rw [hvec, List.head?_nil])
    have horigin := vectorOrigin_missing hi obs hname (.inl (stopNow_none hstops u)) hcur
    obtain ⟨⟨hst, hcode, hcause, hn⟩, hmode⟩ := cycleOpened_underrun hi hdue.1 e (missCause e (cycleOpened i.val e u))
    exact ⟨_, (exec_vectorCycle_due hdue obs).trans (congrArg Host.Outcome.next horigin), ⟨hst, hcode, hn⟩, hmode,
      fun heats => hcause.trans (missCause_cycleOpened heats)⟩
  case completed =>
    have horigin := vectorOrigin_completed hi obs (stopNow_none hstops u) hname
    obtain ⟨hst, hcode, hcause, hn⟩ := cycleEnds_endsAs hi hdue.1 1 0 false
    exact ⟨_, (exec_vectorCycle_due hdue obs).trans (congrArg Host.Outcome.next horigin), ⟨hst, hcode, hn⟩, hcause⟩
  case stopped =>
    have hstop := stopNow_single hstops hat hgran
    refine ⟨fun h => ?takes, fun hline hname hcode hbuf hvec => ?missed⟩
    case takes =>
      have horigin : ∃ line, vectorOrigin i.val obs u = jobDue (endJob p.code p.cause line i.val (cycleEnds i.val u)) := by
        cases hline : p.line with
        | true => exact ⟨_, vectorOrigin_line hi obs hstop hline⟩
        | false =>
          obtain ⟨hname, hvec⟩ := h.resolve_left (ne_true_of_eq_false hline)
          refine ⟨_, vectorOrigin_stopped hi obs hname hstop hline (hvec.imp_right fun ⟨hbuf, hne⟩ => ?_)⟩
          exact ⟨x.play.buf.head hne, (curVec_cycleOpened hi u e hbuf).trans (List.head?_eq_some_head hne)⟩
      obtain ⟨line, horigin⟩ := horigin
      obtain ⟨hst, hcode, hcause, hn⟩ := cycleEnds_endsAs hi hdue.1 p.code p.cause line
      exact ⟨_, (exec_vectorCycle_due hdue obs).trans (congrArg Host.Outcome.next horigin), ⟨hst, hcode, hn⟩, hcause⟩
    case missed =>
      have hcur := (curVec_cycleOpened hi u e hbuf).trans (by rw [hvec, List.head?_nil])
      have horigin := vectorOrigin_missing hi obs hname (.inr ⟨p, hstop, hline, hcode⟩) hcur
      obtain ⟨⟨hst, hcode, -, hn⟩, -⟩ := cycleOpened_underrun hi hdue.1 e (missCause e (cycleOpened i.val e u))
      exact ⟨_, (exec_vectorCycle_due hdue obs).trans (congrArg Host.Outcome.next horigin), hst, hcode, hn⟩
  case early =>
    refine ⟨_, congrArg Host.Outcome.next (if_neg hdue), rfl, fun y hy => mem_scheduleAll.mpr (.inr hy),
      fun o ho y hy => mem_scheduleAll.mpr (.inl (mem_inputActs ho hy)), ?_⟩
    rintro rfl
    rfl

end Sys2Proof.Machine
end

section
/-!
SUPPORT. What the passing of time leaves of the jobs and of the segment table, with all that cycles being played have due (00 R428): the
rest of the `f_jobsKept` lemmas, up to `advance`.
-/

set_option Elab.async false

namespace Sys2Proof.Machine

open Sys2Proof

section JobsKept

variable {z s : State} (h : JobsKept z s)
include h

/-! ### Results and records of a cycle (10 R239 to R249) -/

theorem modPin_jobsKept (n : Nat) (f : PinCh → PinCh) : JobsKept z (modPin n f s) := h.pins _

theorem closeGrp_jobsKept (k : Nat) (at_ : Instant) : JobsKept z (closeGrp k at_ s) := by
  unfold closeGrp
  split
  · exact h
  · exact calm_ite (formAt_jobsKept (modCap_jobsKept h _ _) _ _ _ _) (modCap_jobsKept h _ _)

theorem passCycle_jobsKept (k : Nat) (a : CycAt) (rs : List PinRes) : JobsKept z (passCycle k a rs s) :=
  calm_ite (calm_ite (formAt_jobsKept (modCap_jobsKept h _ _) _ _ _ _) (modCap_jobsKept h _ _)) (formAt_jobsKept h _ _ _ _)

theorem failCycle_jobsKept (k : Nat) (a : CycAt) (rs : List PinRes) : JobsKept z (failCycle k a rs s) := by
  have hput {u : State} (hu : JobsKept z u) : JobsKept z ((failRecs k a rs).foldl (fun s f => formAt k f.1 a.cyc a.cyc s) u) :=
    calm_foldl _ _ hu fun _ _ hv => formAt_jobsKept hv _ _ _ _
  have hrun := closeRun_jobsKept h k (endsAt a rs)
  unfold failCycle
  dsimp only
  split
  · split
    · exact calm_ite (modCap_jobsKept hrun _ _) (hput (modCap_jobsKept (closeGrp_jobsKept hrun _ _) _ _))
    · exact hput (modCap_jobsKept hrun _ _)
  · exact hput hrun

theorem octResult_jobsKept (k : Nat) (r : PinRes) : JobsKept z (octResult k r s) := by
  unfold octResult
  split
  · exact h
  · exact calm_ite (modCap_jobsKept h _ _)
      (calm_ite (failCycle_jobsKept (modCap_jobsKept h _ _) _ _ _) (passCycle_jobsKept (modCap_jobsKept h _ _) _ _ _))

/-! ### What falls due -/

theorem pinC1_jobsKept (n : Nat) : JobsKept z (pinC1 n s) := by
  unfold pinC1
  dsimp only
  split
  · exact h
  · exact calm_ite (octResult_jobsKept (modPin_jobsKept h _ _) _ _) (modPin_jobsKept h _ _)

theorem pinC2_jobsKept (n : Nat) : JobsKept z (pinC2 n s) := by
  unfold pinC2
  dsimp only
  split
  · exact h
  · exact calm_ite (octResult_jobsKept (modPin_jobsKept h _ _) _ _) (formAt_jobsKept (modPin_jobsKept h _ _) _ _ _ _)

theorem fireDeferred_jobsKept (k : Nat) : JobsKept z (fireDeferred k s) := calm_ite (strobe_jobsKept (modOct_jobsKept h _ _) _ _) h

theorem runAct_jobsKept (a : Act) : JobsKept z (runAct a s) := by
  unfold runAct
  split
  · exact modPin_jobsKept h _ _
  · exact modPin_jobsKept h _ _
  · exact pinC1_jobsKept h _
  · exact pinC2_jobsKept h _
  · exact capIn_jobsKept h _ _ _ _
  · exact fireDeferred_jobsKept h _

theorem pass_jobsKept (t : Instant) : JobsKept z (pass t s) :=
  h.upd (congrArg Seqr.slots (pass_seqr s t)) (pass_seg s t) (congrArg Evid.memory (pass_evid s t))

omit h in
theorem runActs_jobsKept (f : Nat) (t : Instant) : ∀ {s : State}, JobsKept z s → JobsKept z (runActs f t s) := by
  induction f with
  | zero => exact id
  | succ f ih =>
    intro s h
    unfold runActs
    split
    · exact h
    · exact calm_ite (ih (runAct_jobsKept (pass_jobsKept h.upd _) _)) h

end JobsKept

theorem advance_jobsKept (t : Instant) (s : State) : JobsKept s (advance t s) := pass_jobsKept (runActs_jobsKept _ _ (.refl s)) t

theorem advance_seg (t : Instant) (s : State) : (advance t s).seg = s.seg := (advance_jobsKept t s).seg

end Sys2Proof.Machine
end

section
/-!
SUPPORT. The segment table on the register bus, a write of one of its words, and loads (08 R194 to R199): O17, O18.
-/

set_option Elab.async false

namespace Sys2Proof.Machine

open Sys2Proof

/-! ### Words of the table (08 Table 8-2) -/

theorem regVal_segEntry {ix : Nat} (h : ix < 32768) (s : State) : regVal s (0x200000 + 4 * ix) = segRead s ix := by
  have hword : (0x200000 + 4 * ix - 0x200000) / 4 = ix := by omega
  rw [regVal, evReg_past_octets (by omega), readPlain, if_neg (by omega), if_pos (by omega), hword]

theorem segRead_word {ix : Nat} (h : ix % 8 ≠ 7) (s : State) : segRead s ix = rdWord s.seg.mem ix := if_neg h

theorem segRead_status {ix : Nat} (h : ix % 8 = 7) (s : State) :
    segRead s ix = word ((segStat s (ix / 8)).1 + 16 * (segStat s (ix / 8)).2) := if_pos h

/-- What an entry's load check finds depends on the words of the table alone. -/
theorem loadCheck_congr {s w : State} (h : w.seg.mem = s.seg.mem) (e : Nat) : loadCheck w e = loadCheck s e := by
  unfold loadCheck segStream segRing segStart segLoop segLenG segPer segWord
  rw [h]

/-- The states of the entries are canonical. -/
def StatOk (s : State) : Prop := swf (fun _ => ((0, 0) : Nat × Nat)) s.seg.stat = true

/-! ### A write of a word (08 R195, R198, R199) -/

section Write

variable {ix : Nat} (hix : ix < 32768) {s : State} (v : Word)
include hix

/-- Word 7 takes no write, and is not refused. -/
theorem segWrite_status (h : ix % 8 = 7) : segWrite ix v s = (s, .done) := by
  rw [segWrite, if_neg (Nat.not_le.mpr hix), if_pos h]

variable (hw : ix % 8 ≠ 7)
include hw

/-- A write to an entry in use is refused and counted. -/
theorem segWrite_refused (h : entryInUse s (ix / 8) = true) : segWrite ix v s = (bump rgSeg 0 16 1 s, .access) := by
  rw [segWrite, if_neg (Nat.not_le.mpr hix), if_neg hw, if_pos h]

end Write

/-- A load notes writes in itself and nowhere else. -/
theorem noteDirty_eq (e : Nat) (s : State) : noteDirty e s = { s with seg := { s.seg with load := (noteDirty e s).seg.load } } := by
  unfold noteDirty
  split
  · rfl
  · split
    · rfl
    · rfl

/-- The table after a write that is taken: the word holds `v` and its entry is unloaded; `load` is the running load and `undo` lists the
writes of the cycle, that of `now`, with what they replaced. -/
def Seg.written (g : Seg) (ix : Nat) (v : Word) (load : Option SegLoad) (undo : List SegUndo) (now : Instant) : Seg :=
  { g with undo := undo, undoAt := now, load := load, mem := wrWord g.mem ix v
           stat := sset (fun _ => (0, 0)) g.stat (ix / 8) (0, 0) }

/-- A write to an entry not in use is taken. -/
theorem segWrite_taken {ix : Nat} (hix : ix < 32768) {s : State} (v : Word) (hw : ix % 8 ≠ 7) (h : entryInUse s (ix / 8) = false) :
    ∃ l, segWrite ix v s = ({ s with seg := s.seg.written ix v (noteDirty (ix / 8) s).seg.load l s.now }, .done) := by
  rw [segWrite, if_neg (Nat.not_le.mpr hix), if_neg hw, if_neg (ne_true_of_eq_false h), noteDirty_eq]
  exact ⟨_, rfl⟩

section Written

variable {g : Seg} {ix : Nat} {v : Word} {load : Option SegLoad} {undo : List SegUndo} {now : Instant}

theorem rdWord_written (h : swf (fun _ => (0 : Word)) g.mem = true) (jx : Nat) :
    rdWord (g.written ix v load undo now).mem jx = if jx = ix then v else rdWord g.mem jx := rdWord_wrWord _ _ _ _ h

/-- States of entries in a table just written, whatever else there is of the unit. -/
theorem segStat_written {s w : State} (hs : StatOk s) (hw : w.seg = s.seg.written ix v load undo now) (e : Nat) :
    segStat w e = if e = ix / 8 then (0, 0) else segStat s e := by
  rw [segStat, hw]
  exact sget_sset _ _ _ _ hs

end Written

/-- No write has reached entry `e` since its check. -/
def Unwritten (dirty : List (Nat × Nat)) (e : Nat) : Prop := dirty.any (fun d => d.1 == e) = false

theorem not_unwritten_noted (e c : Nat) (dirty : List (Nat × Nat)) : ¬ Unwritten ((e, c) :: dirty) e := by simp [Unwritten]

/-- A write in a cycle before the one of its entry's check is not noted: the check will see it. -/
theorem noteDirty_before {e : Nat} {s : State} {d : SegLoad} (hd : s.seg.load = some d)
    (h : cycleOf s.now < cycleOf (d.begun + (e - d.first) * segCheckTime)) : noteDirty e s = s := by
  rw [noteDirty, hd]
  exact if_neg fun ⟨_, _, hlate, _⟩ => Nat.not_le.mpr h hlate

/-- The first write in the cycle of its entry's check or later is noted. -/
theorem noteDirty_late {e : Nat} {s : State} {d : SegLoad} (hd : s.seg.load = some d) (hlo : d.first ≤ e) (hhi : e < d.first + d.count)
    (hclean : Unwritten d.dirty e) (h : cycleOf (d.begun + (e - d.first) * segCheckTime) ≤ cycleOf s.now) :
    (noteDirty e s).seg.load = some { d with dirty := (e, loadCheck s e) :: d.dirty } := by
  rw [noteDirty, hd]
  dsimp only
  exact congrArg (fun u : State => u.seg.load) (if_pos ⟨hlo, hhi, h, by rw [hclean]; rfl⟩)

/-! ### A load begins (08 R196) -/

theorem segLoadWrite_starts {s : State} (h : s.seg.load = none) (v : Word) : segLoadWrite v s = ({ s with seg := { s.seg with
    load := some ⟨fld v 0 12, min (fld v 16 12 + 1) (4096 - fld v 0 12), decide (4096 < fld v 0 12 + fld v 16 12 + 1), s.now, []⟩ } },
    .done) := by
  rw [segLoadWrite, h]
  rfl

theorem segLoadWrite_busy {s : State} (h : s.seg.load.isSome = true) (v : Word) : segLoadWrite v s = (s, .access) := by
  obtain ⟨d, hd⟩ := Option.isSome_iff_exists.mp h
  rw [segLoadWrite, hd]

/-! ### A load marks its entries (08 R196, R199) -/

/-- STATE and CODE that an entry's words earn it (Table 8-2 word 7). -/
def loadVerdict (s : State) (e : Nat) : Nat × Nat := if loadCheck s e = 0 then (1, 0) else (2, loadCheck s e)

/-- Entries as a load that completes leaves them, one after the other. -/
def loadEntries (dirty : List (Nat × Nat)) (es : List Nat) (s : State) : State := es.foldl (fun s e => loadEntry dirty e s) s

theorem loadEntry_unwritten {dirty : List (Nat × Nat)} {e : Nat} (h : Unwritten dirty e) (s : State) :
    loadEntry dirty e s = setStat e (loadVerdict s e) s := if_neg (ne_true_of_eq_false h)

theorem loadEntry_written {dirty : List (Nat × Nat)} {e : Nat} (h : ¬ Unwritten dirty e) (s : State) : loadEntry dirty e s = s :=
  if_pos (Bool.eq_true_of_not_eq_false h)

theorem segStat_setStat {s : State} (hs : StatOk s) (e f : Nat) (x : Nat × Nat) :
    segStat (setStat e x s) f = if f = e then x else segStat s f := sget_sset _ _ _ _ hs

theorem loadEntry_frame (dirty : List (Nat × Nat)) (e : Nat) (s : State) :
    ∃ m, loadEntry dirty e s = { s with seg := { s.seg with stat := m } } ∧ (StatOk s → StatOk (loadEntry dirty e s)) := by
  by_cases h : Unwritten dirty e
  · rw [loadEntry_unwritten h]
    exact ⟨_, rfl, swf_sset _ _ _⟩
  · rw [loadEntry_written h]
    exact ⟨_, rfl, id⟩

theorem loadVerdict_loadEntry (dirty : List (Nat × Nat)) (a e : Nat) (s : State) :
    loadVerdict (loadEntry dirty a s) e = loadVerdict s e := by
  obtain ⟨m, hm, -⟩ := loadEntry_frame dirty a s
  rw [loadVerdict, loadCheck_congr (s := s) (by rw [hm]), loadVerdict]

theorem segStat_loadEntry_same {dirty : List (Nat × Nat)} {e : Nat} {s : State} (hs : StatOk s) (h : Unwritten dirty e) :
    segStat (loadEntry dirty e s) e = loadVerdict s e := by
  rw [loadEntry_unwritten h, segStat_setStat hs, if_pos rfl]

theorem segStat_loadEntry_other {dirty : List (Nat × Nat)} {a e : Nat} {s : State} (hs : StatOk s) (h : ¬ (e = a ∧ Unwritten dirty e)) :
    segStat (loadEntry dirty a s) e = segStat s e := by
  by_cases hfree : Unwritten dirty a
  · rw [loadEntry_unwritten hfree, segStat_setStat hs, if_neg fun he => h ⟨he, he ▸ hfree⟩]
  · rw [loadEntry_written hfree]

theorem loadEntries_frame (dirty : List (Nat × Nat)) (es : List Nat) (s : State) :
    ∃ m, loadEntries dirty es s = { s with seg := { s.seg with stat := m } } := by
  induction es generalizing s with
  | nil => exact ⟨_, rfl⟩
  | cons e es ih =>
    obtain ⟨m, hm, -⟩ := loadEntry_frame dirty e s
    obtain ⟨m', hm'⟩ := ih (loadEntry dirty e s)
    exact ⟨m', hm'.trans (by rw [hm])⟩

/-- A load marks the entries of its range that no write has reached since their checks, by the words they hold, and no others. -/
theorem segStat_loadEntries (dirty : List (Nat × Nat)) (es : List Nat) {s : State} (hs : StatOk s) (e : Nat) :
    (e ∈ es ∧ Unwritten dirty e → segStat (loadEntries dirty es s) e = loadVerdict s e) ∧
    (¬ (e ∈ es ∧ Unwritten dirty e) → segStat (loadEntries dirty es s) e = segStat s e) := by
  induction es generalizing s with
  | nil => exact ⟨fun h => absurd h.1 List.not_mem_nil, fun _ => rfl⟩
  | cons a es ih =>
    obtain ⟨m, -, hok⟩ := loadEntry_frame dirty a s
    obtain ⟨hmarks, hleaves⟩ := ih (hok hs)
    rw [loadVerdict_loadEntry] at hmarks
    by_cases hmem : e ∈ es ∧ Unwritten dirty e
    · exact ⟨fun _ => hmarks hmem, fun hno => absurd ⟨List.mem_cons_of_mem _ hmem.1, hmem.2⟩ hno⟩
    · refine ⟨fun ⟨hin, hfree⟩ => (hleaves hmem).trans ?_,
        fun hno => (hleaves hmem).trans (segStat_loadEntry_other hs fun ⟨he, hfree⟩ => ?_)⟩
      · obtain rfl : e = a := (List.mem_cons.mp hin).resolve_right fun hes => hmem ⟨hes, hfree⟩
        exact segStat_loadEntry_same hs hfree
      · exact hno ⟨he ▸ List.mem_cons_self, hfree⟩

/-! ### The report of a load (08 R196) -/

/-- What a load that completes writes in G_SEG_CHECK, by the codes its checks found. -/
def loadReport (trunc : Bool) (codes : List (Nat × Nat)) : SegChk :=
  let bad := codes.filter fun x => x.2 != 0
  { trunc := trunc, fail := !bad.isEmpty, code := (bad.headD (0, 0)).2, entry := (bad.headD (0, 0)).1, refused := bad.length }

theorem loadReport_fail (trunc : Bool) (codes : List (Nat × Nat)) :
    (loadReport trunc codes).fail = decide (0 < (loadReport trunc codes).refused) := by
  rw [Bool.eq_iff_iff, decide_eq_true_iff]
  dsimp only [loadReport]
  rw [Bool.not_eq_true', List.isEmpty_eq_false_iff, List.length_pos_iff]

/-- Of codes in the order of their entries the report names the lowest entry refused. -/
theorem loadReport_lowest (trunc : Bool) {codes : List (Nat × Nat)} (h : codes.Pairwise fun x y => x.1 < y.1)
    (hfail : (loadReport trunc codes).fail = true) :
    ((loadReport trunc codes).entry, (loadReport trunc codes).code) ∈ codes ∧ (loadReport trunc codes).code ≠ 0 ∧
    ∀ x ∈ codes, x.2 ≠ 0 → (loadReport trunc codes).entry ≤ x.1 := by
  have hbad (x : Nat × Nat) : x ∈ codes.filter (fun x => x.2 != 0) ↔ x ∈ codes ∧ x.2 ≠ 0 := by rw [List.mem_filter, bne_iff_ne]
  have hsorted := h.filter fun x => x.2 != 0
  revert hfail
  dsimp only [loadReport]
  cases hl : codes.filter fun x => x.2 != 0 with
  | nil => exact fun hfail => absurd hfail Bool.false_ne_true
  | cons b l =>
    intro _
    rw [hl] at hbad hsorted
    obtain ⟨hmem, hcode⟩ := (hbad b).mp List.mem_cons_self
    refine ⟨hmem, hcode, fun x hx hne => ?_⟩
    rcases List.mem_cons.mp ((hbad x).mpr ⟨hx, hne⟩) with rfl | hxl
    · exact Nat.le_refl _
    · exact Nat.le_of_lt ((List.pairwise_cons.mp hsorted).1 x hxl)

/-- The code of each entry is the one its check found: that of the words a later write replaced, else of the words it holds. -/
theorem loadCodes_eq (s : State) (d : SegLoad) : loadCodes s d = (List.range d.count).map fun j =>
    (d.first + j, ((d.dirty.find? fun x => x.1 == d.first + j).map Prod.snd).getD (loadCheck s (d.first + j))) := by
  refine List.map_congr_left fun j _ => ?_
  dsimp only
  cases d.dirty.find? fun x => x.1 == d.first + j with
  | none => rfl
  | some x => rfl

/-- A load checks its entries in ascending order. -/
theorem loadCodes_ascending (s : State) (d : SegLoad) : (loadCodes s d).Pairwise fun x y => x.1 < y.1 := by
  rw [loadCodes_eq]
  exact List.pairwise_map.mpr (List.pairwise_lt_range.imp fun hij => Nat.add_lt_add_left hij _)

/-! ### A load completes (08 R196) -/

theorem segLoadDone_due {s : State} {d : SegLoad} (hd : s.seg.load = some d) (hdue : d.begun + d.count * segCheckTime ≤ s.now) :
    segLoadDone s = { s with seg := { s.seg with
      load := none, stat := (loadEntries d.dirty (List.range' d.first d.count) s).seg.stat
      chk := loadReport d.trunc (loadCodes s d) } } := by
  obtain ⟨m, hm⟩ := loadEntries_frame d.dirty (List.range' d.first d.count) s
  rw [hm]
  rw [List.range'_eq_map_range, loadEntries, List.foldl_map] at hm
  rw [segLoadDone, hd]
  dsimp only
  rw [if_pos hdue, hm]
  rfl

theorem segLoadDone_early {s : State} {d : SegLoad} (hd : s.seg.load = some d) (h : s.now < d.begun + d.count * segCheckTime) :
    segLoadDone s = s := by
  rw [segLoadDone, hd]
  exact if_neg (Nat.not_le.mpr h)

section Done

variable {s : State} {d : SegLoad} (hd : s.seg.load = some d) (hdue : d.begun + d.count * segCheckTime ≤ s.now)
include hd hdue

theorem segStat_segLoadDone (e : Nat) :
    segStat (segLoadDone s) e = segStat (loadEntries d.dirty (List.range' d.first d.count) s) e := by
  rw [segLoadDone_due hd hdue]
  rfl

variable (hs : StatOk s) {e : Nat}
include hs

/-- An entry of the range that no write has reached since its check is loaded or refused by its words. -/
theorem segLoadDone_marks (hlo : d.first ≤ e) (hhi : e < d.first + d.count) (hfree : Unwritten d.dirty e) :
    segStat (segLoadDone s) e = loadVerdict s e :=
  (segStat_segLoadDone hd hdue e).trans ((segStat_loadEntries _ _ hs e).1 ⟨List.mem_range'_1.mpr ⟨hlo, hhi⟩, hfree⟩)

/-- Every other entry keeps its state. -/
theorem segLoadDone_leaves (h : e < d.first ∨ d.first + d.count ≤ e ∨ ¬ Unwritten d.dirty e) :
    segStat (segLoadDone s) e = segStat s e := by
  refine (segStat_segLoadDone hd hdue e).trans ((segStat_loadEntries _ _ hs e).2 fun ⟨hin, hfree⟩ => ?_)
  obtain ⟨hlo, hhi⟩ := List.mem_range'_1.mp hin
  rcases h with h | h | h
  · omega
  · omega
  · exact h hfree

end Done

/-! ### The statements -/

theorem entryInUse_assureLapse (s : State) (e : Nat) : entryInUse (assureLapse s) e = entryInUse s e := by
  rw [assureLapse_eq]
  rfl

theorem noteDirty_assureLapse (e : Nat) (s : State) : (noteDirty e (assureLapse s)).seg.load = (noteDirty e s).seg.load := by
  rw [assureLapse_eq]
  unfold noteDirty
  dsimp only
  split
  · rfl
  · split
    · rfl
    · rfl

theorem exec_segmentEntryWrite {t : Instant} {p : Port} {s : State} (hp : portUp (advance t s) p = true) (ix : Nat) (v : Word) :
    exec (.segmentEntryWrite t p ix v) s = .next (answer p (0x200000 + 4 * ix) true v
      (segWrite ix v (assureLapse (advance t s))).2 (segWrite ix v (assureLapse (advance t s))).1) :=
  congrArg Host.Outcome.next (portWrite_up hp)

/-- The unit after a write that is taken. -/
theorem exec_segmentEntryWrite_taken {t : Instant} {p : Port} {s : State} (hp : portUp (advance t s) p = true) {ix : Nat} (hix : ix < 32768)
    (hw : ix % 8 ≠ 7) (h : entryInUse (advance t s) (ix / 8) = false) (v : Word) :
    let u := advance t s
    ∃ l, exec (.segmentEntryWrite t p ix v) s = .next { assureLapse u with
      seg := u.seg.written ix v (noteDirty (ix / 8) u).seg.load l u.now, bus := some (carried p (0x200000 + 4 * ix) true v) } := by
  obtain ⟨l, hwrite⟩ := segWrite_taken hix v hw ((entryInUse_assureLapse _ _).trans h)
  refine ⟨l, (exec_segmentEntryWrite hp ix v).trans ?_⟩
  rw [hwrite, noteDirty_assureLapse, ← assureLapse_seg (advance t s), ← assureLapse_now (advance t s)]
  rfl

theorem exec_segLoadWrite {t : Instant} {p : Port} {s : State} (hp : portUp (advance t s) p = true) (v : Word) :
    exec (.segLoadWrite t p v) s = .next (answer p 0x3A0 true v
      (segLoadWrite v (assureLapse (advance t s))).2 (segLoadWrite v (assureLapse (advance t s))).1) :=
  congrArg Host.Outcome.next (portWrite_up hp)

theorem exec_segLoadDone (t : Instant) (s : State) : exec (.segLoadDone t) s = .next (segLoadDone (advance t s)) := rfl

/-- Settles O17: a write by `segWrite_taken`, `segWrite_status` and `segWrite_refused`, the beginning of a load by `segLoadWrite_starts` and
`segLoadWrite_busy`, its completion by `segLoadDone_marks`, `segLoadDone_leaves` and `loadReport_lowest`. -/
theorem segmentTable : Obligations.SegmentTable := by
  intro t p ix v s hcanon u l
  obtain ⟨-, -, -, hmem, hstat, -⟩ := (advance_kept (.refl s) t).canon hcanon
  refine ⟨fun hix hp => ⟨fun hw hfree => ?taken, fun hw => ?status, fun hw hused => ?refused⟩, fun hp hnone => ?starts,
    fun hp hbusy => ?busy, fun d hd hdue => ?done, fun d hd hearly => ?early⟩
  case taken =>
    obtain ⟨n, hexec⟩ := exec_segmentEntryWrite_taken hp hix hw hfree v
    refine ⟨_, hexec, ?reads, (segStat_written hstat rfl _).trans (if_pos rfl), fun jx hjx hne hother => ?others, rfl⟩
    case reads =>
      rw [regVal_segEntry hix, segRead_word hw]
      exact (rdWord_written hmem ix).trans (if_pos rfl)
    case others =>
      rw [regVal_segEntry hjx, regVal_segEntry hjx]
      by_cases hj : jx % 8 = 7
      · have hentry : jx / 8 ≠ ix / 8 := hother.resolve_right fun hno => hno hj
        rw [segRead_status hj, segRead_status hj, segStat_written hstat rfl, if_neg hentry]
      · rw [segRead_word hj, segRead_word hj]
        exact (rdWord_written hmem jx).trans (if_neg hne)
  case status =>
    refine ⟨_, exec_segmentEntryWrite hp ix v, ?_⟩
    rw [segWrite_status hix v hw]
    rfl
  case refused =>
    refine ⟨_, exec_segmentEntryWrite hp ix v, ?_⟩
    rw [segWrite_refused hix v hw ((entryInUse_assureLapse u _).trans hused)]
    rfl
  case starts =>
    refine ⟨_, exec_segLoadWrite hp v, ?_⟩
    rw [segLoadWrite_starts (by rw [assureLapse_seg]; exact hnone), assureLapse_seg, assureLapse_now]
    rfl
  case busy =>
    refine ⟨_, exec_segLoadWrite hp v, ?_⟩
    rw [segLoadWrite_busy (by rw [assureLapse_seg]; exact hbusy)]
    rfl
  case done =>
    have hdone := segLoadDone_due hd hdue
    have hview (e : Nat) := congrArg (segStat · e) hdone
    exact ⟨_, (exec_segLoadDone t s).trans (congrArg Host.Outcome.next hdone), rfl,
      fun e hlo hhi hfree => (hview e).symm.trans (segLoadDone_marks hd hdue hstat hlo hhi hfree),
      fun e h => (hview e).symm.trans (segLoadDone_leaves hd hdue hstat (h.imp_right (Or.imp_right ne_false_of_eq_true))),
      rfl, loadReport_fail _ _, loadReport_lowest _ (loadCodes_ascending u d)⟩
  case early => exact ⟨_, exec_segLoadDone t s, segLoadDone_early hd hearly⟩

/-- Settles O18: a write before the cycle of its entry's check is not noted (`noteDirty_before`), one in it or later is (`noteDirty_late`).
The load judges the words left by the first (`segLoadDone_marks`) and leaves the entry of the second as the write did
(`segLoadDone_leaves`); nothing that falls due in between reaches the table (`advance_seg`). -/
theorem writeDuringLoad : Obligations.WriteDuringLoad := by
  intro t t' p ix v s w d u e hcanon hix hw hp hfree hd hlo hhi hclean hdue hexec
  obtain ⟨w', hw', hkept⟩ := exec_kept (.segmentEntryWrite t p ix v) s
  obtain rfl := Host.Outcome.next.inj (hexec.symm.trans hw')
  obtain ⟨-, -, -, -, hstat, -⟩ := (advance_kept (.refl s) t).canon hcanon
  obtain ⟨-, -, -, -, hstat', -⟩ := (advance_kept hkept t').canon hcanon
  obtain ⟨l, htaken⟩ := exec_segmentEntryWrite_taken hp hix hw hfree v
  have hunit := Host.Outcome.next.inj (hexec.symm.trans htaken)
  have hseg : w.seg = u.seg.written ix v (noteDirty e u).seg.load l u.now := congrArg State.seg hunit
  have hnow : w.now = u.now := (congrArg State.now hunit).trans (assureLapse_now u)
  have hload : (advance t' w).seg.load = (noteDirty e u).seg.load := by rw [advance_seg, hseg]; rfl
  have hends : d.begun + d.count * segCheckTime ≤ (advance t' w).now := by rw [advance_now, hnow]; exact hdue
  refine ⟨_, exec_segLoadDone t' w, fun hbefore => ?before, fun hlate => ?late⟩
  case before =>
    rw [noteDirty_before hd hbefore] at hload
    rw [segLoadDone_marks (hload.trans hd) hends hstat' hlo hhi hclean, loadVerdict,
      loadCheck_congr (congrArg Seg.mem (advance_seg t' w))]
  case late =>
    rw [noteDirty_late hd hlo hhi hclean hlate] at hload
    rw [segLoadDone_leaves hload hends hstat' (.inr (.inr (not_unwritten_noted _ _ _))), segStat, advance_seg]
    exact (segStat_written hstat hseg e).trans (if_pos rfl)

end Sys2Proof.Machine
end

section
/-!
SUPPORT. Resets of stream rings by the host (09 R231): O19.
-/

set_option Elab.async false

namespace Sys2Proof.Machine

open Sys2Proof

/-! ### Masks -/

theorem testBit_fld (w : Word) (lo n i : Nat) : (fld w lo n).testBit i = (decide (i < n) && w.getLsbD (lo + i)) := by
  rw [fld, Nat.testBit_mod_two_pow, Nat.testBit_shiftRight, BitVec.getLsbD]

/-- What is left of a mask without the bits of another. -/
theorem testBit_sub_and (m b i : Nat) : (m - (m &&& b)).testBit i = (m.testBit i && !b.testBit i) := by
  have hle : m &&& b ≤ m := Nat.and_le_left
  have hlow := @Nat.and_mod_two_eq_one m b
  induction i generalizing m b with
  | zero =>
    rw [Nat.testBit_zero, Nat.testBit_zero, Nat.testBit_zero, Bool.eq_iff_iff]
    simp only [decide_eq_true_eq, Bool.and_eq_true, Bool.not_eq_true', decide_eq_false_iff_not]
    omega
  | succ i ih =>
    have hhalf : (m - (m &&& b)) / 2 = m / 2 - (m / 2 &&& b / 2) := by
      rw [← Nat.and_div_two]
      omega
    rw [Nat.testBit_add_one, Nat.testBit_add_one, Nat.testBit_add_one, hhalf]
    exact ih _ _ Nat.and_le_left Nat.and_mod_two_eq_one

/-! ### Rings reset -/

/-- RESETS counts one. -/
def ringResetEvent : EvBump := ⟨rgSring, 0, 8, .add, 1⟩

/-- The rings of a list empty. -/
def ringsCleared (l : List Nat) (v : Vector SRing 4) : Vector SRing 4 := l.foldl (fun v r => vmod v r fun _ => {}) v

theorem vget_ringsCleared (l : List Nat) (v : Vector SRing 4) {r : Nat} (hr : r < 4) :
    vget (ringsCleared l v) r {} = if r ∈ l then {} else vget v r {} := by
  induction l generalizing v with
  | nil => rfl
  | cons a l ih =>
    rw [ringsCleared, List.foldl_cons, ← ringsCleared, ih, vget_vmod]
    by_cases hl : r ∈ l
    · rw [if_pos hl, if_pos (List.mem_cons_of_mem _ hl)]
    · by_cases ha : a = r
      · subst ha
        rw [if_neg hl, if_pos ⟨rfl, hr⟩, if_pos List.mem_cons_self]
      · rw [if_neg hl, if_neg fun h => ha h.1, if_neg fun h => (List.mem_cons.mp h).elim (fun h => ha h.symm) hl]

/-- Each ring of the mask is emptied, and each counts. -/
theorem resetRings_cleared (mask : Nat) (s : State) : resetRings mask s =
    { s with seqr := { s.seqr with srings := ringsCleared (bitsOf 4 mask) s.seqr.srings }
             evPend := (bitsOf 4 mask).reverse.map (fun _ => ringResetEvent) ++ s.evPend } := by
  have hfold (l : List Nat) (u : State) : l.foldl (fun s r => resetRing r s) u =
      { u with seqr := { u.seqr with srings := ringsCleared l u.seqr.srings }
               evPend := l.reverse.map (fun _ => ringResetEvent) ++ u.evPend } := by
    induction l generalizing u with
    | nil => rfl
    | cons a l ih =>
      rw [List.foldl_cons, ih, List.reverse_cons, List.map_append, List.append_assoc]
      rfl
  exact hfold _ _

/-- The rings a write of G_SRING_RESET names that no job uses. -/
def ringsFreed (v : Word) (s : State) : List Nat := (List.range 4).filter fun r => v.getLsbD r && !(ringsBusy s).testBit r

/-- The free rings named are reset, and the write is refused where a ring named is in use. -/
theorem sringResetWrite_eq (v : Word) (s : State) : sringResetWrite v s =
    ({ s with seqr := { s.seqr with srings := ringsCleared (ringsFreed v s) s.seqr.srings }
              evPend := (ringsFreed v s).reverse.map (fun _ => ringResetEvent) ++ s.evPend },
     if fld v 0 4 &&& ringsBusy s = 0 then .done else .access) := by
  have hfreed : bitsOf 4 (fld v 0 4 - (fld v 0 4 &&& ringsBusy s)) = ringsFreed v s := by
    refine List.filter_congr fun r hr => ?_
    rw [testBit_sub_and, testBit_fld, decide_eq_true (List.mem_range.mp hr), Bool.true_and, Nat.zero_add]
  rw [← hfreed, ← resetRings_cleared]
  unfold sringResetWrite
  by_cases h : fld v 0 4 &&& ringsBusy s = 0
  · simp [h]
  · simp [h]

/-- Settles O19: by `sringResetWrite_eq`, ring by ring. -/
theorem streamRingReset : Obligations.StreamRingReset := by
  intro t p v s hp u busy
  refine ⟨_, congrArg Host.Outcome.next (portWrite_up hp), ?_⟩
  rw [sringResetWrite_eq]
  refine ⟨fun r hr => ?_, rfl, rfl, rfl⟩
  refine (vget_ringsCleared _ _ hr).trans (if_congr ?_ rfl rfl)
  exact List.mem_filter.trans (and_iff_right (List.mem_range.mpr hr))

end Sys2Proof.Machine
end

section
/-!
SUPPORT. What the end of a job that does not run (09 R225) and the decisions of the queue (09 R217) leave: of the unit, and of each slot.
-/

set_option Elab.async false

namespace Sys2Proof.Machine

open Sys2Proof

/-! ### Slots left as they are -/

theorem vmod_id {α : Type} {n : Nat} (v : Vector α n) (i : Nat) : vmod v i (fun x => x) = v := by simp [vmod]

theorem modSlot_id (i : Nat) (s : State) : modSlot i (fun x => x) s = s :=
  congrArg (fun v : Vector Slot 16 => { s with seqr := { s.seqr with slots := v } }) (vmod_id _ i)

theorem slotAt_congr {s w : State} (h : w.seqr.slots = s.seqr.slots) (i : Nat) : slotAt w i = slotAt s i := by rw [slotAt, slotAt, h]

/-! ### The end of a job that does not run (09 R225) -/

/-- The job is queued, checked or armed. -/
def Slot.Waits (x : Slot) : Prop := x.st = .queued ∨ x.st = .checking ∨ x.st = .armed

/-- A slot as an end leaves it: nothing more is played, and its JOB_END record is pending. -/
def Slot.over (code cause : Nat) (line : Bool) (now : Instant) (tam : Nat) (x : Slot) : Slot :=
  { x with
    st := .ending, endCode := code, cause := cause, endLine := line, endAt := now, endTam := tam, endSt := 1, stops := []
    play := { x.play with buf := [], cacheG := 0, cacheV := [], lastOf := false, eats := none } }

theorem endPins_eq (code mask : Nat) (act ran : Bool) (s : State) : ∃ p, endPins code mask act ran s = { s with pins := p } := by
  unfold endPins
  split
  · split
    · exact ⟨_, rfl⟩
    · split
      · exact ⟨_, rfl⟩
      · exact ⟨s.pins, rfl⟩
  · exact ⟨s.pins, rfl⟩

/-- The end of a job that does not run moves its slot, the stream rings it names, its pins, the events that wait and the cause of a stop,
and then counts as a fault event where its code is one. -/
theorem endJob_waits_eq {i : Nat} {s : State} (code cause : Nat) (line : Bool) (hw : (slotAt s i).Waits) :
    ∃ r e p c, endJob code cause line i s = endFault i code cause (modSlot i (Slot.over code cause line s.now (tamNow s))
      { s with seqr := { s.seqr with srings := r }, evPend := e, pins := p, pwr := { s.pwr with stopCause := c } }) := by
  have hrun : ((slotAt s i).st == .running) = false := by rcases hw with h | h | h <;> rw [h] <;> rfl
  unfold endJob
  extract_lets x e1 p e2 ran s1 s2 s3 s4 s5 q s6
  split
  case h_1 h => rcases hw with hw | hw | hw <;> cases hw.symm.trans h
  case h_2 h => rcases hw with hw | hw | hw <;> cases hw.symm.trans h
  case h_3 h => rcases hw with hw | hw | hw <;> cases hw.symm.trans h
  case h_4 =>
    have h1 : s1 = s := if_neg (ne_true_of_eq_false hrun)
    have h2 : ∃ r e, s2 = { s with seqr := { s.seqr with srings := r }, evPend := e } := by
      refine calm_ite (P := fun w => ∃ r e, w = { s with seqr := { s.seqr with srings := r }, evPend := e }) ?_ ?_
      · exact ⟨s.seqr.srings, s.evPend, h1⟩
      · obtain ⟨r, e, h⟩ := resetRings_eq (jobRings s1 x.desc) s1
        exact ⟨r, e, h.trans (by rw [h1])⟩
    obtain ⟨r, e, h2⟩ := h2
    obtain ⟨n, h3⟩ := endPins_eq code x.desc.octMask x.st.active ran s2
    have h5 : s5 = modSlot i (Slot.over code cause line s.now (tamNow s))
        { s with seqr := { s.seqr with srings := r }, evPend := addEnd code cause e, pins := n } := by
      simp only [s5, s4, s3, h3, h2]
      rfl
    have h6 : s6 = if code = 7 then { s5 with pwr := { s5.pwr with stopCause := cause } } else s5 := rfl
    rw [h6, h5]
    by_cases hc : code = 7
    · rw [if_pos hc]
      exact ⟨r, addEnd code cause e, n, cause, rfl⟩
    · rw [if_neg hc]
      exact ⟨r, addEnd code cause e, n, s.pwr.stopCause, rfl⟩

/-- An end that is no fault event. -/
theorem endJob_quiet_eq {i : Nat} {s : State} {code : Nat} (cause : Nat) (line : Bool) (hw : (slotAt s i).Waits)
    (hcode : code ≠ 7 ∧ code ≠ 8) :
    ∃ r e p c, endJob code cause line i s = modSlot i (Slot.over code cause line s.now (tamNow s))
      { s with seqr := { s.seqr with srings := r }, evPend := e, pins := p, pwr := { s.pwr with stopCause := c } } := by
  obtain ⟨r, e, p, c, h⟩ := endJob_waits_eq code cause line hw
  refine ⟨r, e, p, c, h.trans ?_⟩
  unfold endFault
  split
  next h7 => exact absurd rfl hcode.1
  next h8 => exact absurd rfl hcode.2
  · rfl

/-- The job of slot `i` has ended with a code and a cause at a Tamong time. -/
def EndedAt (i code cause tam : Nat) (s : State) : Prop :=
  (slotAt s i).st = .ending ∧ (slotAt s i).endCode = code ∧ (slotAt s i).cause = cause ∧ (slotAt s i).endTam = tam

theorem calmEnd_endedAt (i code cause tam : Nat) : CalmEnd (EndedAt i code cause tam) (· = i) :=
  calmEnd_slot i (Q := fun x => x.st = .ending ∧ x.endCode = code ∧ x.cause = cause ∧ x.endTam = tam) fun _ _ _ h => h

/-- A job that does not run ends now with the code and the cause given. -/
theorem endJob_endedAt {i : Nat} {s : State} (code cause : Nat) (line : Bool) (hi : i < 16) (hw : (slotAt s i).Waits) :
    EndedAt i code cause (tamNow s) (endJob code cause line i s) := by
  obtain ⟨r, e, p, c, h⟩ := endJob_waits_eq code cause line hw
  rw [h]
  refine endFault_calm (calmEnd_endedAt i code cause (tamNow s)) ?_ i code cause
  rw [EndedAt, slotAt_modSlot, if_pos ⟨rfl, hi⟩]
  exact ⟨rfl, rfl, rfl, rfl⟩

/-! ### What the decisions of the queue make of a slot (09 R217) -/

/-- The job ended in this cycle, and a cause with a lower code may still take the end over (09 R225). -/
def Slot.JustEnded (now : Instant) (x : Slot) : Prop :=
  x.st = .ending ∧ x.endSt = 1 ∧ x.endLine = false ∧ 2 < x.endCode ∧ sameCycle x.endAt now = true

/-- The decisions of the queue leave a slot as it is, unless its job is queued: that one stays queued, is checked, or ends. -/
def Decision (now : Instant) (x y : Slot) : Prop :=
  y = x ∨ x.st = .queued ∧ y.play.n ≤ x.play.n ∧ (y.st = .queued ∨ y.st = .checking ∨ y.JustEnded now)

theorem Decision.eq_of_not_queued {now : Instant} {x y : Slot} (h : Decision now x y) (hx : x.st ≠ .queued) : y = x :=
  h.resolve_right fun hq => hx hq.1

theorem Decision.trans {now : Instant} {x y z : Slot} (h : Decision now x y) (g : Decision now y z) : Decision now x z := by
  rcases h with rfl | ⟨hx, hn, hy⟩
  · exact g
  · rcases g with rfl | ⟨-, hn', hz⟩
    · exact .inr ⟨hx, hn, hy⟩
    · exact .inr ⟨hx, Nat.le_trans hn' hn, hz⟩

theorem sameCycle_self (k : Instant) : sameCycle k k = true := beq_self_eq_true _

theorem decision_over {now : Instant} {x : Slot} {code : Nat} (cause tam : Nat) (hx : x.st = .queued) (hcode : 2 < code) :
    Decision now x (x.over code cause false now tam) :=
  .inr ⟨hx, Nat.le_refl _, .inr (.inr ⟨rfl, rfl, rfl, hcode, sameCycle_self now⟩)⟩

/-- From `s` to `w` the job of slot `i` is decided: no other slot, no start and no instant moves. -/
structure Decided (i : Nat) (s w : State) : Prop where
  now : w.now = s.now
  tam : tamNow w = tamNow s
  starts : w.seqr.starts = s.seqr.starts
  slot : Decision s.now (slotAt s i) (slotAt w i)
  other : ∀ j, j ≠ i → slotAt w j = slotAt s j

theorem Decided.refl (i : Nat) (s : State) : Decided i s s := ⟨rfl, rfl, rfl, .inl rfl, fun _ _ => rfl⟩

/-- A change of the slot alone, beside updates of nothing that `Decided` speaks of. -/
theorem decided_modSlot {i : Nat} {s u : State} (f : Slot → Slot) (hf : Decision s.now (slotAt s i) (f (slotAt s i)))
    (hslots : u.seqr.slots = s.seqr.slots := by rfl) (hstarts : u.seqr.starts = s.seqr.starts := by rfl)
    (hnow : u.now = s.now := by rfl) (htam : tamNow u = tamNow s := by rfl) : Decided i s (modSlot i f u) where
  now := hnow
  tam := htam
  starts := hstarts
  slot := by
    have hslot : slotAt u i = slotAt s i := slotAt_congr hslots i
    rw [slotAt_modSlot, hslot]
    split
    · exact hf
    · exact .inl rfl
  other j hj := by
    rw [slotAt_modSlot, if_neg fun h => hj h.1.symm]
    exact slotAt_congr hslots j

/-- From `s` to `w` what is done to other slots, and to the queue as a whole, leaves slot `j` but for the decisions of the queue, and of the
starts noted those of slot `j`. -/
structure Spared (j : Nat) (s w : State) : Prop where
  now : w.now = s.now
  tam : tamNow w = tamNow s
  slot : Decision s.now (slotAt s j) (slotAt w j)
  starts : ∃ p : StartUndo → Bool, (∀ y, y.slot = j → p y = true) ∧ w.seqr.starts = s.seqr.starts.filter p

theorem Decided.spared {i : Nat} {s w : State} (h : Decided i s w) (j : Nat) : Spared j s w where
  now := h.now
  tam := h.tam
  slot := by
    by_cases hj : j = i
    · exact hj ▸ h.slot
    · exact .inl (h.other j hj)
  starts := ⟨fun _ => true, fun _ _ => rfl, h.starts.trans (List.filter_true _).symm⟩

theorem Spared.refl (j : Nat) (s : State) : Spared j s s := (Decided.refl j s).spared j

theorem Spared.trans {j : Nat} {a b c : State} (h : Spared j a b) (g : Spared j b c) : Spared j a c where
  now := g.now.trans h.now
  tam := g.tam.trans h.tam
  slot := h.slot.trans (h.now ▸ g.slot)
  starts := by
    obtain ⟨p, hp, hb⟩ := h.starts
    obtain ⟨q, hq, hc⟩ := g.starts
    refine ⟨fun y => p y && q y, fun y hy => Bool.and_eq_true_iff.mpr ⟨hp y hy, hq y hy⟩, ?_⟩
    rw [hc, hb, List.filter_filter]
    exact List.filter_congr fun y _ => Bool.and_comm _ _

theorem Spared.slot_eq {j : Nat} {s w : State} (h : Spared j s w) (hj : (slotAt s j).st ≠ .queued) : slotAt w j = slotAt s j :=
  h.slot.eq_of_not_queued hj

/-- An update of nothing that `Spared` speaks of. -/
theorem Spared.upd {j : Nat} {z s w : State} (h : Spared j z s) (hslots : w.seqr.slots = s.seqr.slots := by rfl)
    (hstarts : w.seqr.starts = s.seqr.starts := by rfl) (hnow : w.now = s.now := by rfl) (htam : tamNow w = tamNow s := by rfl) :
    Spared j z w :=
  h.trans ⟨hnow, htam, .inl (slotAt_congr hslots j), fun _ => true, fun _ _ => rfl, hstarts.trans (List.filter_true _).symm⟩

theorem Spared.foldl {α : Type} {j : Nat} {z s : State} (f : State → α → State) (l : List α) (h : Spared j z s)
    (hf : ∀ u a, a ∈ l → Spared j u (f u a)) : Spared j z (l.foldl f s) :=
  List.foldlRecOn l f h fun u hu a ha => hu.trans (hf u a ha)

/-! ### A job becomes due (09 Table 9-2) -/

/-- A queued job that is not due may be given S and the instant at which it becomes due; any other is left. -/
theorem markDue_cases (i : Nat) (s : State) : markDue i s = s ∨ ((slotAt s i).st = .queued ∧ (slotAt s i).dueAt = none ∧
    ∃ f : Slot → Slot, markDue i s = modSlot i f s ∧ ∀ x, ∃ c d, f x = { x with start := c, dueAt := d }) := by
  unfold markDue
  dsimp only
  split
  next h =>
    split
    · exact .inl rfl
    · split
      · exact .inr ⟨h.1, h.2, _, rfl, fun _ => ⟨_, _, rfl⟩⟩
      · exact .inr ⟨h.1, h.2, _, rfl, fun x => ⟨_, x.dueAt, rfl⟩⟩
  · exact .inl rfl

theorem markDue_decided (i : Nat) (s : State) : Decided i s (markDue i s) := by
  obtain h | ⟨hq, -, f, h, hf⟩ := markDue_cases i s
  · rw [h]
    exact .refl i s
  · rw [h]
    obtain ⟨c, d, hx⟩ := hf (slotAt s i)
    refine decided_modSlot f (.inr ?_)
    rw [hx]
    exact ⟨hq, Nat.le_refl _, .inl hq⟩

/-- The queued jobs whose instant has come are due. -/
def queueMarked (s : State) : State := (List.range 16).foldl (fun s i => markDue i s) s

theorem jobDue_eq (s : State) : jobDue s =
    if seqClosed (queueMarked s) then queueMarked s else decideDue (dueJobs (queueMarked s)) (queueMarked s) := rfl

theorem queueMarked_spared (j : Nat) (s : State) : Spared j s (queueMarked s) :=
  .foldl _ _ (.refl j s) fun u i _ => (markDue_decided i u).spared j

/-- Marking what is due moves no slot from state to state, and nothing but slots. -/
theorem queueMarked_eq (s : State) : ∃ v, queueMarked s = { s with seqr := { s.seqr with slots := v } } ∧
    ∀ j, (vget v j {}).st = (slotAt s j).st := by
  refine List.foldlRecOn (motive := fun u : State => ∃ v, u = { s with seqr := { s.seqr with slots := v } } ∧
    ∀ j, (vget v j {}).st = (slotAt s j).st) _ _ ⟨s.seqr.slots, rfl, fun _ => rfl⟩ ?_
  rintro - ⟨v, rfl, hv⟩ i -
  obtain h | ⟨-, -, f, h, hf⟩ := markDue_cases i { s with seqr := { s.seqr with slots := v } }
  · exact ⟨v, h, hv⟩
  · refine ⟨vmod v i f, h, fun j => ?_⟩
    rw [vget_vmod, ← hv j]
    split
    · obtain ⟨c, d, hx⟩ := hf (vget v j {})
      rw [hx]
    · rfl

/-- Where every queued job is due already, none is marked. -/
theorem queueMarked_of_due {s : State} (h : ∀ j < 16, (slotAt s j).st = .queued → (slotAt s j).dueAt ≠ none) : queueMarked s = s := by
  refine List.foldlRecOn (motive := fun u : State => u = s) _ _ rfl ?_
  rintro u rfl j hj
  exact (markDue_cases j _).resolve_right fun ⟨hq, hdue, _⟩ => h j (List.mem_range.mp hj) hq hdue

/-! ### A job is decided (09 R71, R217, R218) -/

theorem refuseBus_eq (addr : Nat) (s : State) : ∃ b, refuseBus addr s = { s with bus := b } := by
  unfold refuseBus
  split
  · exact calm_ite (P := fun w => ∃ b, w = { s with bus := b }) ⟨_, rfl⟩ ⟨s.bus, rfl⟩
  · exact ⟨s.bus, rfl⟩

/-- Writes of the cycle taken back move the segment table and the timing sets, the events that wait, and the latest answer. -/
theorem takeBackFor_eq (sets : Nat) (es : List Nat) (s : State) :
    ∃ b e g, takeBackFor sets es s = { s with bus := b, evPend := e, seg := g } := by
  refine calm_ite (P := fun w => ∃ b e g, w = { s with bus := b, evPend := e, seg := g }) ?_ ⟨s.bus, s.evPend, s.seg, rfl⟩
  refine calm_foldl (P := fun w => ∃ b e g, w = { s with bus := b, evPend := e, seg := g }) _ _ ⟨s.bus, s.evPend, _, rfl⟩ ?_
  rintro - y ⟨b, e, g, rfl⟩
  unfold takeBack
  split
  · obtain ⟨b', h⟩ := refuseBus_eq (0x100000 + 4 * y.ix) (bump rgTset 16 16 1
      { s with bus := b, evPend := e, seg := { g with tset := wrWord g.tset y.ix y.old } })
    exact ⟨b', _, _, h⟩
  · obtain ⟨b', h⟩ := refuseBus_eq (0x200000 + 4 * y.ix) (bump rgSeg 0 16 1 (setStat (y.ix / 8) y.stat
      { s with bus := b, evPend := e, seg := { g with
          mem := wrWord g.mem y.ix y.old, load := g.load.map fun l => { l with dirty := l.dirty.filter fun d => d.1 != y.ix / 8 } } }))
    exact ⟨b', _, _, h⟩

/-- A slot whose job begins its start check at `now`, with the start instant and lateness decided. -/
def Slot.checked (st : Option Nat) (late : Bool) (now : Instant) (x : Slot) : Slot :=
  { x with st := .checking, readySeen := true, lateDue := late, checkAt := now, start := st, judged := true, headSince := none, play := {} }

theorem beginCheck_eq (i : Nat) (st : Option Nat) (late : Bool) (s : State) : ∃ b e g r, beginCheck i st late s =
    modSlot i (Slot.checked st late s.now) { s with bus := b, evPend := e, seg := g, seqr := { s.seqr with srings := r } } := by
  unfold beginCheck
  extract_lets d s0 s1
  obtain ⟨b, e, g, h⟩ : ∃ b e g, s0 = { s with bus := b, evPend := e, seg := g } := takeBackFor_eq _ _ s
  have h1 : s1 = { s with bus := b, evPend := e, seg := g, seqr := { s.seqr with srings := s1.seqr.srings } } := by
    simp only [s1, ringsFromRd, h]
  rw [h1]
  exact ⟨b, e, g, _, rfl⟩

theorem atHead_eq (i : Nat) (a : Admit) (s : State) : ∃ (f : Slot → Slot) (b : Bool), atHead i a s =
    modSlot i f { s with seqr := { s.seqr with head := if h : i < 16 then some ⟨i, h⟩ else none, admitWait := b } } ∧
      ∀ x, ∃ k, f x = { x with headSince := k } := ⟨_, _, rfl, fun _ => ⟨_, rfl⟩⟩

theorem beginCheck_decided {i : Nat} {s : State} (st : Option Nat) (late : Bool) (hq : (slotAt s i).st = .queued) :
    Decided i s (beginCheck i st late s) := by
  obtain ⟨b, e, g, r, h⟩ := beginCheck_eq i st late s
  rw [h]
  exact decided_modSlot _ (.inr ⟨hq, Nat.zero_le _, .inr (.inl rfl)⟩)

theorem atHead_decided {i : Nat} {s : State} (a : Admit) (hq : (slotAt s i).st = .queued) : Decided i s (atHead i a s) := by
  obtain ⟨f, b, h, hf⟩ := atHead_eq i a s
  rw [h]
  obtain ⟨k, hx⟩ := hf (slotAt s i)
  refine decided_modSlot f (.inr ?_)
  rw [hx]
  exact ⟨hq, Nat.le_refl _, .inl hq⟩

/-- A queued job ended by a decision: EVIDENCE_FULL, or refused for energy. -/
theorem endJob_decided {i code : Nat} {s : State} (hq : (slotAt s i).st = .queued) (hcode : code ≠ 7 ∧ code ≠ 8) (hlow : 2 < code) :
    Decided i s (endJob code 0 false i s) := by
  obtain ⟨r, e, p, c, h⟩ := endJob_quiet_eq 0 false (.inl hq) hcode
  rw [h]
  exact decided_modSlot _ (decision_over 0 _ hq hlow)

section DecideOne

variable {i : Nat} {s : State}

theorem decideOne_full (hfull : s.evid.full = true) : decideOne i s = (endJob 6 0 false i s, true) := by
  simp [decideOne, hfull]

theorem decideOne_refused (hfull : s.evid.full = false)
    (ha : admission s (classMw (slotAt s i).desc.cls) (slotAt s i).desc.tUs = .refused) :
    decideOne i s = (endJob 12 0 false i s, true) := by
  simp [decideOne, hfull, ha]

theorem decideOne_begins (hfull : s.evid.full = false)
    (ha : admission s (classMw (slotAt s i).desc.cls) (slotAt s i).desc.tUs = .yes) {st : Option Nat × Bool}
    (hst : startFor s (slotAt s i) = some st) (hr : ready s (slotAt s i).desc = true) :
    decideOne i s = (beginCheck i st.1 st.2 s, true) := by
  simp [decideOne, hfull, ha, hst, hr]

/-- A due job that is not refused, and not both admitted and ready, is the head. -/
theorem decideOne_waits (hfull : s.evid.full = false)
    (ha : admission s (classMw (slotAt s i).desc.cls) (slotAt s i).desc.tUs ≠ .refused)
    (hno : admission s (classMw (slotAt s i).desc.cls) (slotAt s i).desc.tUs ≠ .yes ∨ ready s (slotAt s i).desc = false) :
    decideOne i s = (atHead i (admission s (classMw (slotAt s i).desc.cls) (slotAt s i).desc.tUs) s, false) := by
  unfold decideOne
  dsimp only
  rw [if_neg (ne_true_of_eq_false hfull)]
  split
  next h => exact absurd h ha
  next h _ => rw [h, if_neg (ne_true_of_eq_false (hno.resolve_left fun hyes => hyes h))]
  · rfl

theorem decideOne_decided (hq : (slotAt s i).st = .queued) : Decided i s (decideOne i s).1 := by
  unfold decideOne
  dsimp only
  split
  · exact endJob_decided hq (by decide) (by decide)
  · split
    · exact endJob_decided hq (by decide) (by decide)
    · split
      · exact beginCheck_decided _ _ hq
      · exact atHead_decided _ hq
    · exact atHead_decided _ hq

end DecideOne

/-! ### The queue is decided -/

/-- Jobs queued, no two in one slot: each that is decided leaves the others to their turn. -/
theorem decideDue_spared (j : Nat) (l : List Nat) : ∀ s : State, l.Nodup → (∀ i ∈ l, (slotAt s i).st = .queued) →
    Spared j s (decideDue l s) := by
  induction l with
  | nil => exact fun s _ _ => (Spared.refl j s).upd
  | cons i l ih =>
    intro s hnd hq
    obtain ⟨hil, hnd⟩ := List.nodup_cons.mp hnd
    obtain ⟨hi, hl⟩ := List.forall_mem_cons.mp hq
    have hone := decideOne_decided hi
    refine calm_ite ((hone.spared j).trans (ih _ hnd fun k hk => ?_)) (hone.spared j)
    rw [hone.other k fun hki => hil (hki ▸ hk)]
    exact hl k hk

theorem mem_dueJobs {s : State} {i : Nat} : i ∈ dueJobs s ↔
    i < 16 ∧ (slotAt s i).st = .queued ∧ ∃ k, (slotAt s i).dueAt = some k ∧ cycleOf k ≤ cycleOf s.now := by
  simp only [dueJobs, List.mem_mergeSort, List.mem_filter, mem_slotsIn, beq_iff_eq, and_assoc]
  cases (slotAt s i).dueAt with
  | none => simp
  | some k => simp

theorem dueJobs_nodup (s : State) : (dueJobs s).Nodup :=
  (List.mergeSort_perm _ _).nodup_iff.mpr ((slotsIn_nodup s _).filter _)

theorem jobDue_spared (j : Nat) (s : State) : Spared j s (jobDue s) := by
  have hmark := queueMarked_spared j s
  rw [jobDue_eq]
  exact calm_ite hmark (hmark.trans (decideDue_spared j _ _ (dueJobs_nodup _) fun i hi => (mem_dueJobs.mp hi).2.1))

/-- An end that is followed by the decisions of the queue. -/
theorem jobDue_endJob_endedAt {i : Nat} {s : State} (code cause : Nat) (line : Bool) (hi : i < 16) (hw : (slotAt s i).Waits) :
    EndedAt i code cause (tamNow s) (jobDue (endJob code cause line i s)) := by
  have hend := endJob_endedAt code cause line hi hw
  rw [EndedAt, (jobDue_spared i _).slot_eq (by rw [hend.1]; decide)]
  exact hend

end Sys2Proof.Machine
end

section
/-!
SUPPORT. The decision of one due job, its start check and its judgement (04 R111; 09 R71, R217, R219; 10 R254): O36.
-/

set_option Elab.async false

namespace Sys2Proof.Machine

open Sys2Proof

/-! ### One due job alone in the queue -/

/-- Admission is open, and the job of slot `i` is queued, alone, and due. -/
structure LoneDue (i : Nat) (s : State) : Prop where
  opened : seqClosed s = false
  queued : (slotAt s i).st = .queued
  alone : ∀ j < 16, j ≠ i → (slotAt s j).st ≠ .queued
  due : ∃ k, (slotAt s i).dueAt = some k ∧ cycleOf k ≤ cycleOf s.now

/-- The unit with no job at the head of its queue. -/
def headless (s : State) : State := { s with seqr := { s.seqr with head := none, admitWait := false } }

section LoneDue

variable {i : Nat} {s : State} (hi : i < 16) (h : LoneDue i s)
include hi h

theorem dueJobs_lone : dueJobs s = [i] := by
  refine List.perm_singleton.mp ((List.perm_ext_iff_of_nodup (dueJobs_nodup s) (List.nodup_singleton i)).mpr fun j => ?_)
  rw [mem_dueJobs, List.mem_singleton]
  constructor
  · rintro ⟨hj, hq, -⟩
    by_contra hne
    exact h.alone j hj hne hq
  · rintro rfl
    exact ⟨hi, h.queued, h.due⟩

theorem jobDue_lone : jobDue s = if (decideOne i s).2 then headless (decideOne i s).1 else (decideOne i s).1 := by
  have hmark : queueMarked s = s := by
    refine queueMarked_of_due fun j hj hq => ?_
    obtain ⟨k, hk, -⟩ := h.due
    obtain rfl : j = i := by
      by_contra hne
      exact h.alone j hj hne hq
    rw [hk]
    exact Option.some_ne_none k
  rw [jobDue_eq, hmark, if_neg (ne_true_of_eq_false h.opened), dueJobs_lone hi h]
  rfl

/-- The decision of the one due job leaves every other slot as it is. -/
theorem jobDue_lone_others (j : Nat) (hj : j ≠ i) : slotAt (jobDue s) j = slotAt s j := by
  have hother := (decideOne_decided h.queued).other j hj
  rw [jobDue_lone hi h]
  exact calm_ite (P := fun w => slotAt w j = slotAt s j) hother hother

theorem jobDue_lone_ends {code : Nat} (hone : decideOne i s = (endJob code 0 false i s, true)) :
    EndedAt i code 0 (tamNow s) (jobDue s) := by
  rw [jobDue_lone hi h, hone]
  exact endJob_endedAt code 0 false hi (.inl h.queued)

theorem jobDue_lone_checks {st : Option Nat × Bool} (hone : decideOne i s = (beginCheck i st.1 st.2 s, true)) :
    slotAt (jobDue s) i = (slotAt s i).checked st.1 st.2 s.now ∧ (jobDue s).seqr.head = none := by
  obtain ⟨b, e, g, r, hbegin⟩ := beginCheck_eq i st.1 st.2 s
  rw [jobDue_lone hi h, hone, hbegin]
  exact ⟨(slotAt_modSlot _ _ _ _).trans (if_pos ⟨rfl, hi⟩), rfl⟩

theorem jobDue_lone_waits {a : Admit} (hone : decideOne i s = (atHead i a s, false)) :
    (slotAt (jobDue s) i).st = .queued ∧ (jobDue s).seqr.head = some ⟨i, hi⟩ := by
  obtain ⟨f, b, hhead, hf⟩ := atHead_eq i a s
  obtain ⟨k, hk⟩ := hf (slotAt s i)
  rw [jobDue_lone hi h, hone, hhead]
  refine ⟨?_, dif_pos hi⟩
  have hslot : slotAt (modSlot i f s) i = { slotAt s i with headSince := k } :=
    (slotAt_modSlot s i i f).trans ((if_pos ⟨rfl, hi⟩).trans hk)
  exact (congrArg Slot.st hslot).trans h.queued

end LoneDue

/-- Jobs of kinds 0 and 3 start when they are ready, kind 0 10 µs from the decision. -/
theorem startFor_untimed {s : State} {x : Slot} (h : x.desc.kind = 0 ∨ x.desc.kind = 3) :
    startFor s x = some (if x.desc.kind = 0 then some (tamOf s (10 * cUs + s.now)) else none, false) := by
  rcases h with h | h <;> simp [startFor, timed, h]

/-! ### Admission closed -/

theorem seqClosed_queueMarked (s : State) : seqClosed (queueMarked s) = seqClosed s := by
  obtain ⟨v, h, -⟩ := queueMarked_eq s
  rw [h]
  rfl

theorem jobDue_closed {s : State} (h : seqClosed s = true) : jobDue s = queueMarked s := by
  rw [jobDue_eq, seqClosed_queueMarked, if_pos h]

/-! ### The start check completes (07 R185, 08 R198, 09 R219) -/

/-- The unit with the outcome of the edge-order check of slot `i` in G_TSET_CHECK. -/
def edgesReported (i : Nat) (f : Option TFail) (s : State) : State := { s with seg := { s.seg with tchk := checkReport false i f } }

section StartCheck

variable {i : Nat} {s : State}

theorem startCheckDone_other (h : (slotAt s i).st ≠ .checking) : startCheckDone i s = s := if_neg h

theorem startCheckDone_edges (h : (slotAt s i).st = .checking) {f : TFail} (hf : jobEdgeCheck s (slotAt s i).desc = some f) :
    startCheckDone i s = jobDue (endJob 10 f.rule false i (edgesReported i (some f) s)) := by
  simp only [startCheckDone, h, hf, if_true]
  rfl

theorem startCheckDone_unloaded (h : (slotAt s i).st = .checking) (hf : jobEdgeCheck s (slotAt s i).desc = none)
    (he : ∃ e ∈ (slotAt s i).desc.list, (segStat s e).1 ≠ 1) :
    startCheckDone i s = jobDue (endJob 11 0 false i (edgesReported i none s)) := by
  have hany : ((slotAt s i).desc.list.any fun e => (segStat s e).1 != 1) = true := by simpa using he
  simp only [startCheckDone, h, hf, if_true, hany]
  rfl

theorem startCheckDone_arms (h : (slotAt s i).st = .checking) (hf : jobEdgeCheck s (slotAt s i).desc = none)
    (he : ∀ e ∈ (slotAt s i).desc.list, (segStat s e).1 = 1) :
    startCheckDone i s = modSlot i (fun x => { x with st := .armed }) (edgesReported i none s) := by
  have hany : ((slotAt s i).desc.list.any fun e => (segStat s e).1 != 1) = false := by simpa using he
  simp only [startCheckDone, h, hf, if_true, hany, Bool.false_eq_true, if_false]
  rfl

end StartCheck

/-! ### Judgement (04 R111) -/

section Judge

variable {i c : Nat} {s : State}

/-- A timed job still queued once it is due, not yet judged, at S - 10 µs. -/
def ToJudge (i c : Nat) (s : State) : Prop :=
  (slotAt s i).st = .queued ∧ timed (slotAt s i).desc = true ∧ (slotAt s i).start = some c ∧ (slotAt s i).dueAt ≠ none ∧
  judgeAt s c ≤ s.now ∧ (slotAt s i).judged = false

theorem judge_due (h : ToJudge i c s) : judge i s =
    if (slotAt s i).desc.tolUs = 0 then endJob 8 0 false i s else modSlot i (fun x => { x with judged := true }) s := by
  obtain ⟨hq, htimed, hstart, hdue, hat, hjudged⟩ := h
  unfold judge
  dsimp only
  rw [hstart]
  dsimp only
  rw [if_pos ⟨htimed, by rw [undecided, hq]; rfl, Option.isSome_iff_ne_none.mpr hdue, hat, by rw [hjudged]; rfl⟩]

/-- A job that is checked already has been decided. -/
theorem judge_checking (h : (slotAt s i).st = .checking) : judge i s = s := by
  have hund : undecided s (slotAt s i) = false := by rw [undecided, h]; rfl
  unfold judge
  dsimp only
  split
  · rfl
  · rw [hund]
    exact if_neg fun h => Bool.false_ne_true h.2.1

end Judge

/-! ### The statement -/

theorem exec_jobDue (t : Instant) (s : State) : exec (.jobDue t) s = .next (jobDue (advance t s)) := rfl

theorem exec_startCheckDone (t : Instant) (i : Fin 16) (s : State) :
    exec (.startCheckDone t i) s = .next (startCheckDone i (advance t s)) := rfl

theorem exec_jobJudgement (t : Instant) (i : Fin 16) (s : State) :
    exec (.jobJudgement t i) s = .next (judge i (jobDue (advance t s))) := rfl

/-- Settles O36: a lone due job by `jobDue_lone_ends`, `jobDue_lone_checks` and `jobDue_lone_waits`, its start check by the lemmas of
`startCheckDone`, its judgement by `judge_due` and `judge_checking`. -/
theorem jobDecisions : Obligations.JobDecisions := by
  intro t i s u x others ends
  have hi := i.isLt
  refine ⟨fun hclosed => ?closed, fun k hopen hq halone hkind hdue hk => ?lone, fun hcheck => ?check,
    fun hcheck => ⟨_, exec_startCheckDone t i s, startCheckDone_other hcheck⟩, fun v hv => ?judged⟩
  case closed =>
    obtain ⟨v, hmark, hst⟩ := queueMarked_eq u
    refine ⟨_, exec_jobDue t s, ?_⟩
    rw [jobDue_closed hclosed, hmark]
    exact ⟨fun j _ => hst j, rfl⟩
  case lone =>
    have hlone : LoneDue i (advance t s) := ⟨hopen, hq, halone, k, hdue, hk⟩
    have hexec := exec_jobDue t s
    have hothers : others (jobDue u) := fun j _ hj => jobDue_lone_others hi hlone j hj
    have hends {code : Nat} (hone : decideOne i u = (endJob code 0 false i u, true)) : ends (jobDue u) code := by
      obtain ⟨hst, hcode, -, htam⟩ := jobDue_lone_ends hi hlone hone
      exact ⟨hst, hcode, htam⟩
    refine ⟨fun hfull => ⟨_, hexec, hends (decideOne_full hfull), hothers⟩,
      fun hfull ha => ⟨_, hexec, hends (decideOne_refused hfull ha), hothers⟩, fun hfull ha hready => ⟨_, hexec, ?_⟩,
      fun hfull ha hno => ⟨_, hexec, ?_⟩⟩
    · obtain ⟨hslot, hhead⟩ := jobDue_lone_checks hi hlone (decideOne_begins hfull ha (startFor_untimed hkind) hready)
      exact ⟨congrArg Slot.st hslot, congrArg Slot.readySeen hslot, congrArg Slot.lateDue hslot, hothers, hhead, congrArg Slot.start hslot⟩
    · obtain ⟨hst, hhead⟩ := jobDue_lone_waits hi hlone (decideOne_waits hfull ha hno)
      exact ⟨hst, hhead, hothers⟩
  case check =>
    have hends (code cause : Nat) (f : Option TFail) :
        EndedAt i code cause (tamNow u) (jobDue (endJob code cause false i (edgesReported i f u))) :=
      jobDue_endJob_endedAt (s := edgesReported i f u) code cause false hi (.inr (.inl hcheck))
    have hexec := exec_startCheckDone t i s
    refine ⟨fun f hf => ⟨_, hexec, ?_⟩, fun hf he => ⟨_, hexec, ?_⟩, fun hf he => ⟨_, hexec, ?_⟩⟩
    · obtain ⟨hst, hcode, hcause, htam⟩ := hends 10 f.rule (some f)
      rw [startCheckDone_edges hcheck hf]
      exact ⟨⟨hst, hcode, htam⟩, hcause⟩
    · obtain ⟨hst, hcode, -, htam⟩ := hends 11 0 none
      rw [startCheckDone_unloaded hcheck hf he]
      exact ⟨hst, hcode, htam⟩
    · rw [startCheckDone_arms hcheck hf he]
      refine ⟨(slotAt_modSlot _ _ _ _).trans (if_pos ⟨rfl, hi⟩), fun j _ hj => ?_, rfl⟩
      exact (slotAt_modSlot _ _ _ _).trans (if_neg fun h => hj h.1.symm)
  case judged =>
    obtain rfl : jobDue u = v := Host.Outcome.next.inj hv
    have hexec := exec_jobJudgement t i s
    refine ⟨fun c hq htimed hstart hdue hat hjudged => ?_, fun hcheck => ⟨_, hexec, judge_checking hcheck⟩⟩
    have hjudge := judge_due (c := c) ⟨hq, htimed, hstart, hdue, hat, hjudged⟩
    refine ⟨fun htol => ⟨_, hexec, ?_⟩, fun htol => ⟨_, hexec, ?_⟩⟩
    · obtain ⟨hst, hcode, -, htam⟩ := endJob_endedAt 8 0 false hi (.inl hq)
      rw [hjudge, if_pos htol]
      exact ⟨hst, hcode, htam.trans (jobDue_spared i u).tam⟩
    · rw [hjudge, if_neg htol]
      exact ⟨(slotAt_modSlot _ _ _ _).trans (if_pos ⟨rfl, hi⟩), rfl⟩

end Sys2Proof.Machine
end

section
/-!
SUPPORT. The start of an armed job (06 R156; 09 R219; 17 R400) and the limits of a job that waits (04 R111, R112; 09 R221, R226).
-/

set_option Elab.async false

namespace Sys2Proof.Machine

open Sys2Proof

/-! ### The start (09 R219) -/

/-- Octets stopped are told by the settings of the sources, their scopes and OCT_ACTIVE. -/
theorem stoppedMask_congr {s w : State} (hr : w.r = s.r) (hf : w.flt = s.flt) (hp : w.pwr = s.pwr) : stoppedMask w = stoppedMask s := by
  unfold stoppedMask fltReact scopeAt covered
  rw [hr, hf, hp]

/-- A slot whose job runs from cycle 0 at Tamong time `c`. -/
def Slot.started (c : Nat) (cache : Bool) (x : Slot) : Slot :=
  { x with st := .running, late := x.lateDue, play := { x.play with name := 0, play := 0, cyc := 0, n := 0, org := c, cacheEn := cache } }

/-- The unit with the job of slot `i` running from `c`, its pins as a start leaves them, before its JOB_START record. -/
def jobRunning (i c : Nat) (s : State) : State :=
  startPins (slotAt s i).desc.octMask (modSlot i (Slot.started c (bit s.r.segCtrl 8)) (noteStart i s))

/-- The unit with the job of slot `i` started at `c` and its JOB_START record formed. -/
def jobStarted (i c : Nat) (s : State) : State := pushUnit (jobStartRec i (slotAt s i) c) s.now (jobRunning i c s)

theorem pushUnit_eq (r : Rec) (k : Instant) (s : State) : ∃ e, pushUnit r k s = { s with evid := e } :=
  calm_ite (P := fun w => ∃ e, w = { s with evid := e }) ⟨s.evid, rfl⟩ ⟨_, rfl⟩

theorem pushUnit_unitQ {s : State} (h : s.evid.suspended = false) (r : Rec) (k : Instant) :
    (pushUnit r k s).evid.unitQ = s.evid.unitQ ++ [⟨r, k, false, s.evid.nextOrd, none, none⟩] := by
  rw [pushUnit, if_neg (ne_true_of_eq_false h)]

theorem orderStop_running {i : Nat} {s : State} (h : (slotAt s i).st = .running) (gran : Bool) (code cause : Nat) (line : Bool) :
    orderStop gran code cause line i s = modSlot i (fun x => { x with stops := ⟨gran, code, cause, s.now, line⟩ :: x.stops }) s := if_pos h

theorem recType_jobStartRec (i : Nat) (x : Slot) (c : Nat) : recType (jobStartRec i x c) = 0x10 := by
  have hhead : recType (jobStartRec i x c) = fld (word (0x10 + 2 ^ 8 * 0 + 2 ^ 16 * 0 + b2n (x.desc.policy.testBit 11) * hNotify)) 0 8 := rfl
  rw [hhead]
  cases x.desc.policy.testBit 11
  · decide
  · decide

section Start

variable {i c : Nat} (s : State)

theorem slotAt_jobStarted (hi : i < 16) : slotAt (jobStarted i c s) i = (slotAt s i).started c (bit s.r.segCtrl 8) := by
  obtain ⟨e, h⟩ := pushUnit_eq (jobStartRec i (slotAt s i) c) s.now (jobRunning i c s)
  have hrun : slotAt { jobRunning i c s with evid := e } i = slotAt (modSlot i (Slot.started c (bit s.r.segCtrl 8)) (noteStart i s)) i := by
    refine slotAt_congr ?_ i
    rfl
  rw [jobStarted, h, hrun, slotAt_modSlot, if_pos ⟨rfl, hi⟩]
  rfl

/-- Pins of the job's octets are idle, but safe where their octet is stopped; other pins stay. -/
theorem pinAt_jobStarted {n : Nat} (hn : n < 64) : pinAt (jobStarted i c s) n =
    if (slotAt s i).desc.octMask.testBit (n / 8) then
      (if (stoppedMask s).testBit (n / 8) then (pinAt s n).toSafe s.now else (pinAt s n).toIdle)
    else pinAt s n := by
  have hstop : stoppedMask (modSlot i (Slot.started c (bit s.r.segCtrl 8)) (noteStart i s)) = stoppedMask s := stoppedMask_congr rfl rfl rfl
  obtain ⟨e, h⟩ := pushUnit_eq (jobStartRec i (slotAt s i) c) s.now (jobRunning i c s)
  have hpins : pinAt (jobStarted i c s) n = pinAt (jobRunning i c s) n := by
    rw [jobStarted, h]
    rfl
  rw [hpins, jobRunning, startPins, pinAt_mapPins hn, hstop]
  rfl

theorem unitQ_jobStarted (h : s.evid.suspended = false) : (jobStarted i c s).evid.unitQ =
    s.evid.unitQ ++ [⟨jobStartRec i (slotAt s i) c, s.now, false, s.evid.nextOrd, none, none⟩] :=
  pushUnit_unitQ (s := jobRunning i c s) h _ _

end Start

/-- An armed job whose S has come starts, and where one of its octets is stopped a stop with FAULT_STOP is ordered. -/
theorem jobStart_due {i c : Nat} {s : State} (hi : i < 16) (harmed : (slotAt s i).st = .armed) (hstart : (slotAt s i).start = some c)
    (hc : c ≤ s.tim.codes) : ∃ l, jobStart i s = modSlot i (fun x => { x with stops := l ++ x.stops }) (jobStarted i c s) ∧
      ((slotAt s i).desc.octMask &&& stoppedMask s ≠ 0 → ∃ p ∈ l, p.code = 14 ∧ p.gran = false) := by
  have hrun : (slotAt (jobStarted i c s) i).st = .running := by rw [slotAt_jobStarted s hi, Slot.started]
  have heq : jobStart i s = if (slotAt s i).desc.octMask &&& stoppedMask s ≠ 0 then
      orderStop false 14 (stopCauseOf s (slotAt s i).desc.octMask) false i (jobStarted i c s) else jobStarted i c s := by
    unfold jobStart
    dsimp only
    rw [hstart]
    exact if_pos ⟨harmed, hc⟩
  by_cases hstop : (slotAt s i).desc.octMask &&& stoppedMask s ≠ 0
  · rw [heq, if_pos hstop, orderStop_running hrun]
    exact ⟨[_], rfl, fun _ => ⟨_, List.mem_singleton_self _, rfl, rfl⟩⟩
  · rw [heq, if_neg hstop]
    exact ⟨[], (modSlot_id i _).symm, fun h => absurd h hstop⟩

/-- A job not armed, or whose S has not come, does not start. -/
theorem jobStart_not_due {i : Nat} {s : State} (h : ∀ c, (slotAt s i).start = some c → ¬ ((slotAt s i).st = .armed ∧ c ≤ s.tim.codes)) :
    jobStart i s = s := by
  unfold jobStart
  dsimp only
  split
  · rfl
  next c hc => exact if_neg (h c hc)

/-! ### Limits (04 R111, R112; 09 R221) -/

/-- The job of slot `i` ends with a code, and the queue is decided. -/
def endsNow (code i : Nat) (s : State) : State := jobDue (endJob code 0 false i s)

theorem lateExpiry_timed {i c : Nat} {s : State} (hq : (slotAt s i).st = .queued) (htimed : timed (slotAt s i).desc = true)
    (hstart : (slotAt s i).start = some c) (hvalid : (slotAt s i).desc.kind = 2 ∨ s.tim.valid = true) :
    lateExpiry i s = if kernOf s c + cUs * (slotAt s i).desc.tolUs ≤ s.now then endsNow 8 i s else s := by
  unfold lateExpiry
  dsimp only
  rw [hstart]
  simp only [htimed, hq, hvalid, true_and]
  rfl

theorem lateExpiry_other {i : Nat} {s : State} (h : (slotAt s i).st ≠ .queued ∨ timed (slotAt s i).desc = false) : lateExpiry i s = s := by
  unfold lateExpiry
  dsimp only
  split
  · rfl
  · refine if_neg fun ⟨htimed, hq, _⟩ => ?_
    rcases h with h | h
    · exact h hq
    · exact Bool.false_ne_true (h.symm.trans htimed)

/-- The job is held: its time is not known, or no PPS edge has come for it. -/
def HeldBack (x : Slot) (s : State) : Prop :=
  (x.st = .queued ∧ x.dueAt = none ∧ (x.desc.kind = 1 ∨ x.desc.kind = 4) ∧ s.tim.valid = false) ∨
  (x.desc.kind = 3 ∧ (x.st = .queued ∨ x.st = .checking ∨ (x.st = .armed ∧ x.start = none)))

theorem HeldBack.waits {x : Slot} {s : State} (h : HeldBack x s) : x.Waits := by
  rcases h with ⟨hq, -⟩ | ⟨-, hq | hc | ⟨ha, -⟩⟩
  · exact .inl hq
  · exact .inl hq
  · exact .inr (.inl hc)
  · exact .inr (.inr ha)

theorem holdExpiry_held {i : Nat} {s : State} (h : HeldBack (slotAt s i) s) :
    holdExpiry i s = if (slotAt s i).placedAt + holdMax s ≤ s.now then endsNow 8 i s else s := by
  unfold holdExpiry
  extract_lets x held
  have hheld : held = true := by
    rcases h with ⟨hq, hdue, hkind | hkind, hvalid⟩ | ⟨hkind, hq | hc | ⟨ha, hs⟩⟩
    · simp [held, x, hq, hdue, hkind, hvalid]
    · simp [held, x, hq, hdue, hkind, hvalid]
    · simp [held, x, hkind, hq]
    · simp [held, x, hkind, hc]
    · simp [held, x, hkind, ha, hs]
  rw [hheld]
  simp only [true_and]
  rfl

theorem admitExpiry_head {i : Nat} {k : Instant} {s : State} (hq : (slotAt s i).st = .queued) (hhead : (slotAt s i).headSince = some k) :
    admitExpiry i s = if k + admitMax s ≤ s.now then endsNow 13 i s else s := by
  unfold admitExpiry
  dsimp only
  rw [hhead]
  simp only [hq, true_and]
  rfl

theorem admitExpiry_other {i : Nat} {s : State} (h : (slotAt s i).headSince = none) : admitExpiry i s = s := by
  unfold admitExpiry
  dsimp only
  rw [h]

/-! ### The end record is chained (09 R226) -/

theorem jobEndChained_done {i : Nat} {s : State} (hi : i < 16) (hst : (slotAt s i).st = .ending) (hend : (slotAt s i).endSt = 3) :
    slotAt (jobEndChained i s) i = { slotAt s i with st := .ended } := by
  have heq : jobEndChained i s = jobDue (modSlot i (fun x => { x with st := .ended }) s) := if_pos ⟨hst, hend⟩
  have hslot : slotAt (modSlot i (fun x => { x with st := .ended }) s) i = { slotAt s i with st := .ended } :=
    (slotAt_modSlot _ _ _ _).trans (if_pos ⟨rfl, hi⟩)
  rw [heq, (jobDue_spared i _).slot_eq (by rw [hslot]; exact nofun), hslot]

theorem jobEndChained_other {i : Nat} {s : State} (h : (slotAt s i).st ≠ .ending ∨ (slotAt s i).endSt ≠ 3) : jobEndChained i s = s :=
  if_neg fun ⟨hst, hend⟩ => h.elim (fun h => h hst) fun h => h hend

end Sys2Proof.Machine
end

section
/-!
SUPPORT. What a cancel does to its own slot and leaves of the others (09 R222, R223, R225).
-/

set_option Elab.async false

namespace Sys2Proof.Machine

open Sys2Proof

/-! ### A change of another slot -/

theorem Spared.modSlot {j i : Nat} {z s : State} (h : Spared j z s) (hj : j ≠ i) (f : Slot → Slot) : Spared j z (modSlot i f s) :=
  h.trans ⟨rfl, rfl, .inl ((slotAt_modSlot s i j f).trans (if_neg fun hij => hj hij.1.symm)), fun _ => true, fun _ _ => rfl,
    (List.filter_true _).symm⟩

theorem orderStop_spared {j i : Nat} {z s : State} (h : Spared j z s) (hj : j ≠ i) (gran : Bool) (code cause : Nat) (line : Bool) :
    Spared j z (orderStop gran code cause line i s) := calm_ite (h.modSlot hj _) h

/-- An end of this cycle is taken over by a cause with a lower code (09 R225). -/
theorem endJob_takesOver {i code cause : Nat} {s : State} (hst : (slotAt s i).st = .ending) (hcode : code ≠ 7)
    (h : sameCycle (slotAt s i).endAt s.now = true ∧ (slotAt s i).endSt = 1 ∧ (slotAt s i).endLine = false ∧ code < (slotAt s i).endCode) :
    ∃ e p, endJob code cause false i s =
      modSlot i (fun x => { x with endCode := code, cause := cause, endLine := false }) { s with evPend := e, pins := p } := by
  obtain ⟨hnow, hpend, hline, hlow⟩ := h
  unfold endJob
  dsimp only
  rw [hst]
  dsimp only
  rw [if_pos ⟨hnow, hpend, by rw [hline]; rfl, .inr hlow⟩, if_neg hcode]
  obtain ⟨p, hp⟩ := endPins_eq code (slotAt s i).desc.octMask (slotAt s i).readySeen false
    (modSlot i (fun x => { x with endCode := code, cause := cause, endLine := false })
      { s with evPend := addEnd code cause (dropEnd (slotAt s i).endCode (slotAt s i).cause s.evPend) })
  exact ⟨_, p, hp⟩

/-! ### A start taken back (09 R223) -/

/-- The start of slot `i` in the present cycle. -/
def startOf (i : Nat) (s : State) : Option StartUndo := s.seqr.starts.find? fun y => y.slot == i && sameCycle y.at_ s.now

theorem startOf_eq_none {i : Nat} {s : State} (h : ∀ y ∈ s.seqr.starts, y.slot = i → sameCycle y.at_ s.now = false) : startOf i s = none := by
  refine List.find?_eq_none.mpr fun y hy hboth => ?_
  obtain ⟨hslot, hnow⟩ := Bool.and_eq_true_iff.mp hboth
  exact Bool.false_ne_true ((h y hy (beq_iff_eq.mp hslot)).symm.trans hnow)

theorem startOf_head {y : StartUndo} {l : List StartUndo} {s : State} (hl : s.seqr.starts = y :: l) (hy : sameCycle y.at_ s.now = true) :
    startOf y.slot s = some y := by
  rw [startOf, hl]
  exact List.find?_cons_of_pos (Bool.and_eq_true_iff.mpr ⟨beq_self_eq_true _, hy⟩)

theorem Spared.startOf_eq {j : Nat} {s w : State} (h : Spared j s w) : startOf j w = startOf j s := by
  obtain ⟨p, hp, hstarts⟩ := h.starts
  rw [startOf, startOf, hstarts, h.now, List.find?_filter]
  congr 1
  funext y
  by_cases hy : y.slot = j
  · simp [hp y hy, hy]
  · simp [hy]

/-- The slot's job runs, or has ended with its JOB_END record pending and not by line loss: a start of the cycle can be taken back. -/
def Slot.Unstartable (x : Slot) : Prop := x.st = .running ∨ (x.st = .ending ∧ x.endSt = 1 ∧ !x.endLine)

theorem tamNow_congr {s w : State} (htim : w.tim = s.tim) (hhap : w.hap = s.hap) (hnow : w.now = s.now) : tamNow w = tamNow s := by
  rw [tamNow, tamNow, tamOf, tamOf, htim, hhap, hnow]

/-- A start taken back puts the slot back as it stood and is no longer noted; no other slot and no instant moves. -/
theorem unstart_taken {i : Nat} {s : State} {y : StartUndo} (hy : startOf i s = some y) (hx : (slotAt s i).Unstartable) :
    (unstart i s).now = s.now ∧ tamNow (unstart i s) = tamNow s ∧ (unstart i s).seqr.slots = vmod s.seqr.slots i (fun _ => y.x) ∧
      (unstart i s).seqr.starts = s.seqr.starts.filter fun v => v.slot != i := by
  unfold startOf at hy
  unfold Slot.Unstartable at hx
  unfold unstart dropActs
  rw [hy]
  dsimp only
  rw [if_pos hx]
  split
  · exact ⟨rfl, tamNow_congr rfl rfl rfl, rfl, rfl⟩
  · exact ⟨rfl, tamNow_congr rfl rfl rfl, rfl, rfl⟩

theorem unstart_of_none {i : Nat} {s : State} (h : startOf i s = none) : unstart i s = s := by
  unfold startOf at h
  rw [unstart, h]

theorem unstart_of_not {i : Nat} {s : State} (h : ¬ (slotAt s i).Unstartable) : unstart i s = s := by
  unfold unstart
  split
  · rfl
  · exact if_neg h

theorem unstart_spared {j i : Nat} (hj : j ≠ i) (s : State) : Spared j s (unstart i s) := by
  cases hy : startOf i s with
  | none =>
    rw [unstart_of_none hy]
    exact .refl j s
  | some y =>
    by_cases hx : (slotAt s i).Unstartable
    · obtain ⟨hnow, htam, hslots, hstarts⟩ := unstart_taken hy hx
      refine ⟨hnow, htam, .inl ?_, _, fun v hv => ?_, hstarts⟩
      · rw [slotAt, hslots]
        exact vget_vmod_ne _ _ _ _ _ hj.symm
      · rw [hv, bne_iff_ne]
        exact hj
    · rw [unstart_of_not hx]
      exact .refl j s

/-! ### A cancel and its own slot -/

/-- The unit as a cancel of slot `i` finds it: the queue decided where the job is queued, and a start of the cycle taken back. -/
def cancelFinds (i : Nat) (s : State) : State := unstart i (if (slotAt s i).st = .queued then jobDue s else s)

/-- The cancel noted for the slot's JOB_END record. -/
def cancelNoted (i : Nat) (s : State) : State := modSlot i (fun x => { x with cancelSeen := true }) s

theorem slotAt_cancelNoted {i : Nat} (hi : i < 16) (s : State) : slotAt (cancelNoted i s) i = { slotAt s i with cancelSeen := true } :=
  (slotAt_modSlot _ _ _ _).trans (if_pos ⟨rfl, hi⟩)

section CancelSlot

variable {i : Nat} {s : State}

theorem cancelSlot_waits (h : (slotAt (cancelFinds i s) i).Waits) : cancelSlot i s = endJob 2 0 false i (cancelNoted i (cancelFinds i s)) := by
  unfold cancelFinds at h
  rcases h with h | h | h
  · simp only [cancelSlot, h]
    rfl
  · simp only [cancelSlot, h]
    rfl
  · simp only [cancelSlot, h]
    rfl

theorem cancelSlot_running (h : (slotAt (cancelFinds i s) i).st = .running) :
    cancelSlot i s = orderStop true 3 0 false i (cancelNoted i (cancelFinds i s)) := by
  unfold cancelFinds at h
  simp only [cancelSlot, h]
  rfl

theorem cancelSlot_over (h : (slotAt (cancelFinds i s) i).st = .free ∨ (slotAt (cancelFinds i s) i).st = .ended) :
    cancelSlot i s = cancelFinds i s := by
  unfold cancelFinds at h
  rcases h with h | h
  · simp only [cancelSlot, h]
    rfl
  · simp only [cancelSlot, h]
    rfl

theorem cancelSlot_ending (h : (slotAt (cancelFinds i s) i).st = .ending) : cancelSlot i s =
    let u := cancelFinds i s
    if sameCycle (slotAt u i).endAt u.now ∧ (slotAt u i).endSt = 1 ∧ !(slotAt u i).endLine ∧ (slotAt u i).play.n = 0 ∧
      2 < (slotAt u i).endCode then endJob 2 0 false i (cancelNoted i u) else u := by
  unfold cancelFinds at h
  simp only [cancelSlot, h]
  rfl

/-- The job has ended with CANCELLED and the cancel noted; of `p`, what it had played, the buffers are gone. -/
def Cancelled (x : Slot) (p : Play) : Prop :=
  x.st = .ending ∧ x.endCode = 2 ∧ x.cancelSeen = true ∧ x.play = { p with buf := [], cacheG := 0, cacheV := [], lastOf := false, eats := none }

/-- A job that waits is cancelled at once. -/
theorem cancelSlot_waits_cancelled (hi : i < 16) (h : (slotAt (cancelFinds i s) i).Waits) :
    Cancelled (slotAt (cancelSlot i s) i) (slotAt (cancelFinds i s) i).play := by
  have hnoted := slotAt_cancelNoted hi (cancelFinds i s)
  have hwaits : (slotAt (cancelNoted i (cancelFinds i s)) i).Waits := by rwa [hnoted]
  obtain ⟨r, e, p, c, hend⟩ := endJob_quiet_eq (code := 2) 0 false hwaits (by decide)
  rw [cancelSlot_waits h, hend, slotAt_modSlot, if_pos ⟨rfl, hi⟩]
  have hslot : ∀ q pw, slotAt { cancelNoted i (cancelFinds i s) with seqr := q, evPend := e, pins := p, pwr := pw } i = vget q.slots i {} :=
    fun _ _ => rfl
  rw [hslot]
  change Cancelled (Slot.over 2 0 false _ _ (slotAt (cancelNoted i (cancelFinds i s)) i)) _
  rw [hnoted]
  exact ⟨rfl, rfl, rfl, rfl⟩

/-- A job that has not started, or that a decision of the cycle has ended, can be cancelled at once. -/
def Slot.Cancellable (now : Instant) (x : Slot) : Prop := x.play.n = 0 ∧ (x.Waits ∨ x.JustEnded now)

theorem Decision.cancellable {now : Instant} {x y : Slot} (h : Decision now x y) (hx : x.Cancellable now) : y.Cancellable now := by
  rcases h with rfl | ⟨-, hn, hy⟩
  · exact hx
  · refine ⟨Nat.le_zero.mp (hx.1 ▸ hn), ?_⟩
    rcases hy with hq | hc | he
    · exact .inl (.inl hq)
    · exact .inl (.inr (.inl hc))
    · exact .inr he

/-- With no start of the cycle to take back, a cancel finds what the decisions of the queue left. -/
theorem cancelFinds_spared (h : startOf i s = none) : Spared i s (cancelFinds i s) := by
  have hdecided : Spared i s (if (slotAt s i).st = .queued then jobDue s else s) := calm_ite (jobDue_spared i s) (.refl i s)
  rw [cancelFinds, unstart_of_none (hdecided.startOf_eq.trans h)]
  exact hdecided

/-- A queued, checked or armed job ends with CANCELLED, whatever the decisions of the cycle make of it. -/
theorem cancelSlot_cancels (hi : i < 16) (hnone : startOf i s = none) (h : (slotAt s i).Cancellable s.now) :
    (slotAt (cancelSlot i s) i).st = .ending ∧ (slotAt (cancelSlot i s) i).endCode = 2 ∧ (slotAt (cancelSlot i s) i).cancelSeen = true := by
  have hspared := cancelFinds_spared hnone
  obtain ⟨hn, hwaits | hended⟩ := hspared.slot.cancellable h
  · obtain ⟨hst, hcode, hseen, -⟩ := cancelSlot_waits_cancelled hi hwaits
    exact ⟨hst, hcode, hseen⟩
  · rw [← hspared.now] at hended
    obtain ⟨hst, hpend, hline, hlow, hnow⟩ := hended
    have hnoted := slotAt_cancelNoted hi (cancelFinds i s)
    obtain ⟨e, p, hend⟩ := endJob_takesOver (i := i) (code := 2) (cause := 0) (s := cancelNoted i (cancelFinds i s))
      (by rw [hnoted]; exact hst) (by decide) (by rw [hnoted]; exact ⟨hnow, hpend, hline, hlow⟩)
    have hslot : slotAt { cancelNoted i (cancelFinds i s) with evPend := e, pins := p } i = { slotAt (cancelFinds i s) i with cancelSeen := true } :=
      (slotAt_congr rfl i).trans hnoted
    rw [cancelSlot_ending hst]
    dsimp only
    rw [if_pos ⟨hnow, hpend, by rw [hline]; rfl, hn, hlow⟩, hend, slotAt_modSlot, if_pos ⟨rfl, hi⟩, hslot]
    exact ⟨hst, rfl, rfl⟩

/-- A running job is to stop at a granule boundary with ABORTED. -/
theorem cancelSlot_stops (hi : i < 16) (hnone : startOf i s = none) (h : (slotAt s i).st = .running) :
    (slotAt (cancelSlot i s) i).st = .running ∧
    ∃ p ∈ (slotAt (cancelSlot i s) i).stops, p.gran = true ∧ p.code = 3 ∧ p.at_ = s.now := by
  have hfinds : cancelFinds i s = s := by
    rw [cancelFinds, if_neg (by rw [h]; exact nofun), unstart_of_none hnone]
  have hnoted := slotAt_cancelNoted hi s
  rw [cancelSlot_running (by rw [hfinds]; exact h), hfinds, orderStop_running (by rw [hnoted]; exact h), slotAt_modSlot, if_pos ⟨rfl, hi⟩,
    hnoted]
  exact ⟨h, _, List.mem_cons_self, rfl, rfl, rfl⟩

/-- A job whose start is of this cycle is cancelled as if it had never started. -/
theorem cancelSlot_unstarts (hi : i < 16) {y : StartUndo} (hy : startOf i s = some y) (harmed : y.x.st = .armed)
    (h : (slotAt s i).st = .running) : Cancelled (slotAt (cancelSlot i s) i) y.x.play := by
  obtain ⟨-, -, hslots, -⟩ := unstart_taken hy (.inl h)
  have hslot : slotAt (cancelFinds i s) i = y.x := by
    rw [cancelFinds, if_neg (by rw [h]; exact nofun), slotAt, hslots]
    exact vget_vmod_same _ _ _ _ hi
  have hcancelled := cancelSlot_waits_cancelled (s := s) hi (by rw [hslot]; exact .inr (.inr harmed))
  rwa [hslot] at hcancelled

/-- A slot free or ended, or ending since an earlier cycle with no start in this one, is left. -/
theorem cancelSlot_leaves (h : (slotAt s i).st = .free ∨ (slotAt s i).st = .ended ∨
    ((slotAt s i).st = .ending ∧ sameCycle (slotAt s i).endAt s.now = false ∧ startOf i s = none)) : cancelSlot i s = s := by
  have hnot (hst : (slotAt s i).st ≠ .queued) (hun : unstart i s = s) : cancelFinds i s = s := by rw [cancelFinds, if_neg hst, hun]
  have hover (hst : (slotAt s i).st = .free ∨ (slotAt s i).st = .ended) : cancelSlot i s = s := by
    have hfinds : cancelFinds i s = s := by
      refine hnot (by rcases hst with hst | hst <;> simp [hst]) (unstart_of_not ?_)
      rcases hst with hst | hst <;> simp [Slot.Unstartable, hst]
    rw [cancelSlot_over (by rwa [hfinds]), hfinds]
  rcases h with hst | hst | ⟨hst, hearlier, hnone⟩
  · exact hover (.inl hst)
  · exact hover (.inr hst)
  · have hfinds : cancelFinds i s = s := hnot (by rw [hst]; exact nofun) (unstart_of_none hnone)
    rw [cancelSlot_ending (by rwa [hfinds]), hfinds]
    exact if_neg fun h => Bool.false_ne_true (hearlier.symm.trans h.1)

end CancelSlot

/-! ### A cancel and the other slots -/

theorem cancelSlot_spared {j i : Nat} (hi : i < 16) (hj : j ≠ i) (s : State) : Spared j s (cancelSlot i s) := by
  have hfinds : Spared j s (cancelFinds i s) :=
    (calm_ite (P := Spared j s) (jobDue_spared j s) (.refl j s)).trans (unstart_spared hj _)
  have hnoted : Spared j s (cancelNoted i (cancelFinds i s)) := hfinds.modSlot hj _
  have hslot := slotAt_cancelNoted hi (cancelFinds i s)
  have hwaits (h : (slotAt (cancelFinds i s) i).Waits) : Spared j s (cancelSlot i s) := by
    obtain ⟨r, e, p, c, hend⟩ := endJob_quiet_eq (s := cancelNoted i (cancelFinds i s)) (code := 2) 0 false (by rwa [hslot]) (by decide)
    rw [cancelSlot_waits h, hend]
    exact hnoted.upd.modSlot hj _
  cases hst : (slotAt (cancelFinds i s) i).st with
  | queued => exact hwaits (.inl hst)
  | checking => exact hwaits (.inr (.inl hst))
  | armed => exact hwaits (.inr (.inr hst))
  | running =>
    rw [cancelSlot_running hst]
    exact orderStop_spared hnoted hj _ _ _ _
  | ending =>
    rw [cancelSlot_ending hst]
    dsimp only
    split
    next h =>
      obtain ⟨hnow, hpend, hline, -, hlow⟩ := h
      obtain ⟨e, p, hend⟩ := endJob_takesOver (i := i) (code := 2) (cause := 0) (s := cancelNoted i (cancelFinds i s))
        (by rw [hslot]; exact hst) (by decide) (by rw [hslot]; exact ⟨hnow, hpend, Bool.not_eq_true' _ ▸ hline, hlow⟩)
      rw [hend]
      exact hnoted.upd.modSlot hj _
    · exact hfinds
  | free =>
    rw [cancelSlot_over (.inl hst)]
    exact hfinds
  | ended =>
    rw [cancelSlot_over (.inr hst)]
    exact hfinds

/-! ### Cancels of a mask -/

theorem mem_bitsOf {n m i : Nat} : i ∈ bitsOf n m ↔ i < n ∧ m.testBit i = true := by rw [bitsOf, List.mem_filter, List.mem_range]

theorem foldl_cancelSlot_spared {j : Nat} (l : List Nat) (h : ∀ i ∈ l, i < 16 ∧ j ≠ i) (s : State) :
    Spared j s (l.foldl (fun s i => cancelSlot i s) s) :=
  .foldl _ _ (.refl j s) fun u i hi => cancelSlot_spared (h i hi).1 (h i hi).2 u

/-- A slot not named is left to the decisions of the queue. -/
theorem cancelMask_spared {mask j : Nat} (hm : mask.testBit j = false) (s : State) : Spared j s (cancelMask mask s) := by
  refine foldl_cancelSlot_spared _ (fun i hi => ?_) s
  obtain ⟨hlt, hbit⟩ := mem_bitsOf.mp hi
  refine ⟨hlt, ?_⟩
  rintro rfl
  exact Bool.false_ne_true (hm.symm.trans hbit)

/-- A slot named is cancelled once, between cancels of other slots. -/
theorem cancelMask_split {mask j : Nat} (hj : j < 16) (hm : mask.testBit j = true) (s : State) :
    ∃ u, Spared j s u ∧ Spared j (cancelSlot j u) (cancelMask mask s) := by
  obtain ⟨l, r, hl⟩ := List.append_of_mem (mem_bitsOf.mpr ⟨hj, hm⟩)
  have hnd : (l ++ j :: r).Nodup := hl ▸ List.nodup_range.filter _
  have hlt (i : Nat) (hi : i ∈ l ++ j :: r) : i < 16 := (mem_bitsOf.mp (hl ▸ hi)).1
  obtain ⟨-, hr, hdisj⟩ := List.nodup_append.mp hnd
  refine ⟨l.foldl (fun s i => cancelSlot i s) s, foldl_cancelSlot_spared l (fun i hi => ?_) s, ?_⟩
  · exact ⟨hlt i (List.mem_append_left _ hi), (hdisj i hi j List.mem_cons_self).symm⟩
  · rw [cancelMask, hl, List.foldl_append, List.foldl_cons]
    refine foldl_cancelSlot_spared r (fun i hi => ⟨hlt i (List.mem_append_right _ (List.mem_cons_of_mem _ hi)), ?_⟩) _
    rintro rfl
    exact (List.nodup_cons.mp hr).1 hi

end Sys2Proof.Machine
end

section
/-!
SUPPORT. The life of a job from its start to its chained end (09 R219 to R226; 04 R111, R112): O37.
-/

set_option Elab.async false

namespace Sys2Proof.Machine

open Sys2Proof

theorem exec_jobStartInstant (t : Instant) (i : Fin 16) (s : State) :
    exec (.jobStartInstant t i) s = .next (jobStart i (advance t s)) := rfl

theorem exec_lateStartExpiry (t : Instant) (i : Fin 16) (s : State) :
    exec (.lateStartExpiry t i) s = .next (lateExpiry i (advance t s)) := rfl

theorem exec_holdLimitExpiry (t : Instant) (i : Fin 16) (s : State) :
    exec (.holdLimitExpiry t i) s = .next (holdExpiry i (advance t s)) := rfl

theorem exec_admitTimeoutExpiry (t : Instant) (i : Fin 16) (s : State) :
    exec (.admitTimeoutExpiry t i) s = .next (admitExpiry i (advance t s)) := rfl

theorem exec_jobEndChained (t : Instant) (i : Fin 16) (s : State) :
    exec (.jobEndChained t i) s = .next (jobEndChained i (advance t s)) := rfl

/-- The unit after a write of G_JOB_CANCEL. -/
def cancelWritten (p : Port) (v : Word) (s : State) : State := answer p 0x314 true v .done (cancelMask (fld v 0 16) (assureLapse s))

theorem exec_jobCancelWrite {t : Instant} {p : Port} {s : State} (hp : portUp (advance t s) p = true) (v : Word) :
    exec (.jobCancelWrite t p v) s = .next (cancelWritten p v (advance t s)) :=
  congrArg Host.Outcome.next (portWrite_up hp)

/-! ### The start -/

/-- What a start leaves: the slot running from `c` but for stops ordered, the record formed, the pins, and a stop for a stopped octet. -/
structure Starts (i c : Nat) (s w : State) : Prop where
  st : (slotAt w i).st = .running
  play : (slotAt w i).play.org = c ∧ (slotAt w i).play.n = 0
  jobNo : (slotAt w i).jobNo = (slotAt s i).jobNo
  unitQ : s.evid.suspended = false → ∃ q, w.evid.unitQ = s.evid.unitQ ++ [q] ∧ recType q.body = 0x10 ∧
    q.body.jobNo = word (slotAt s i).jobNo ∧ q.at_ = s.now
  others : ∀ n < 64, (slotAt s i).desc.octMask.testBit (n / 8) = false → pinAt w n = pinAt s n
  pins : ∀ n < 64, (slotAt s i).desc.octMask.testBit (n / 8) = true → (pinAt w n).drv = false ∧ (pinAt w n).hold = none ∧
    (pinAt w n).safe = (stoppedMask s).testBit (n / 8)
  stops : (slotAt s i).desc.octMask &&& stoppedMask s ≠ 0 → ∃ p ∈ (slotAt w i).stops, p.code = 14 ∧ p.gran = false

theorem jobStart_starts {i c : Nat} {s : State} (hi : i < 16) (harmed : (slotAt s i).st = .armed) (hstart : (slotAt s i).start = some c)
    (hc : c ≤ s.tim.codes) : Starts i c s (jobStart i s) := by
  obtain ⟨l, heq, hl⟩ := jobStart_due hi harmed hstart hc
  have hstarted : slotAt (jobStarted i c s) i = (slotAt s i).started c (bit s.r.segCtrl 8) := slotAt_jobStarted s hi
  have hslot : slotAt (jobStart i s) i =
      { (slotAt s i).started c (bit s.r.segCtrl 8) with stops := l ++ (slotAt (jobStarted i c s) i).stops } := by
    rw [heq, slotAt_modSlot, if_pos ⟨rfl, hi⟩, ← hstarted]
  have hpin (n : Nat) : pinAt (jobStart i s) n = pinAt (jobStarted i c s) n := by
    rw [heq]
    rfl
  refine ⟨?_, ⟨?_, ?_⟩, ?_, fun hsus => ?_, fun n hn hout => ?_, fun n hn hin => ?_, fun hstop => ?_⟩
  · rw [hslot]
    rfl
  · rw [hslot]
    rfl
  · rw [hslot]
    rfl
  · rw [hslot]
    rfl
  · rw [heq]
    exact ⟨_, unitQ_jobStarted s hsus, recType_jobStartRec i (slotAt s i) c, rfl, rfl⟩
  · rw [hpin, pinAt_jobStarted s hn, hout, if_neg Bool.false_ne_true]
  · rw [hpin, pinAt_jobStarted s hn, if_pos hin]
    cases (stoppedMask s).testBit (n / 8)
    · exact ⟨rfl, rfl, rfl⟩
    · exact ⟨rfl, rfl, rfl⟩
  · obtain ⟨p, hp, hcode⟩ := hl hstop
    rw [hslot]
    exact ⟨p, List.mem_append_left _ hp, hcode⟩

/-! ### Ends -/

/-- The end a command brings once it is due, with the decisions of the queue. -/
theorem endsNow_endedAt {i : Nat} {s : State} (code : Nat) (hi : i < 16) (hw : (slotAt s i).Waits) :
    EndedAt i code 0 (tamNow s) (endsNow code i s) := jobDue_endJob_endedAt code 0 false hi hw

/-! ### A write of G_JOB_CANCEL (09 R222, R223) -/

theorem assureLapse_spared (j : Nat) (s : State) : Spared j s (assureLapse s) := by
  rw [assureLapse_eq]
  exact (Spared.refl j s).upd

theorem cancelWritten_spared {v : Word} {j : Nat} (hm : (fld v 0 16).testBit j = false) (p : Port) (s : State) :
    Spared j s (cancelWritten p v s) := ((assureLapse_spared j s).trans (cancelMask_spared hm _)).upd

/-- A slot named is cancelled once; what comes before and after in the write leaves it to the decisions of the queue. -/
theorem cancelWritten_split {v : Word} {j : Nat} (hj : j < 16) (hm : (fld v 0 16).testBit j = true) (p : Port) (s : State) :
    ∃ u, Spared j s u ∧ Spared j (cancelSlot j u) (cancelWritten p v s) := by
  obtain ⟨u, hbefore, hafter⟩ := cancelMask_split hj hm (assureLapse s)
  exact ⟨u, (assureLapse_spared j s).trans hbefore, hafter.upd⟩

section CancelWrite

variable {v : Word} {j : Nat} (hj : j < 16) (hm : (fld v 0 16).testBit j = true) (p : Port) {s : State}
include hj hm

theorem cancelWritten_cancels (hst : (slotAt s j).Waits) (hn : (slotAt s j).play.n = 0) (hnone : startOf j s = none) :
    (slotAt (cancelWritten p v s) j).st = .ending ∧ (slotAt (cancelWritten p v s) j).endCode = 2 ∧
      (slotAt (cancelWritten p v s) j).cancelSeen = true := by
  obtain ⟨u, hbefore, hafter⟩ := cancelWritten_split hj hm p s
  have hcan : (slotAt u j).Cancellable u.now := hbefore.now.symm ▸ hbefore.slot.cancellable ⟨hn, .inl hst⟩
  have hcancelled := cancelSlot_cancels hj (hbefore.startOf_eq.trans hnone) hcan
  rwa [hafter.slot_eq (by rw [hcancelled.1]; exact nofun)]

theorem cancelWritten_stops (hst : (slotAt s j).st = .running) (hnone : startOf j s = none) :
    (slotAt (cancelWritten p v s) j).st = .running ∧
    ∃ q ∈ (slotAt (cancelWritten p v s) j).stops, q.gran = true ∧ q.code = 3 ∧ q.at_ = s.now := by
  obtain ⟨u, hbefore, hafter⟩ := cancelWritten_split hj hm p s
  have hrun : (slotAt u j).st = .running := by rwa [hbefore.slot_eq (by rw [hst]; exact nofun)]
  have hstops := cancelSlot_stops hj (hbefore.startOf_eq.trans hnone) hrun
  rw [hbefore.now] at hstops
  rwa [hafter.slot_eq (by rw [hstops.1]; exact nofun)]

theorem cancelWritten_unstarts (hst : (slotAt s j).st = .running) {y : StartUndo} (hy : startOf j s = some y) (harmed : y.x.st = .armed) :
    Cancelled (slotAt (cancelWritten p v s) j) y.x.play := by
  obtain ⟨u, hbefore, hafter⟩ := cancelWritten_split hj hm p s
  have hrun : (slotAt u j).st = .running := by rwa [hbefore.slot_eq (by rw [hst]; exact nofun)]
  have hcancelled := cancelSlot_unstarts hj (hbefore.startOf_eq.trans hy) harmed hrun
  rwa [hafter.slot_eq (by rw [hcancelled.1]; exact nofun)]

theorem cancelWritten_leaves (h : (slotAt s j).st = .free ∨ (slotAt s j).st = .ended ∨
    ((slotAt s j).st = .ending ∧ sameCycle (slotAt s j).endAt s.now = false ∧ startOf j s = none)) :
    slotAt (cancelWritten p v s) j = slotAt s j := by
  have hnot : (slotAt s j).st ≠ .queued := by rcases h with h | h | ⟨h, -⟩ <;> simp [h]
  obtain ⟨u, hbefore, hafter⟩ := cancelWritten_split hj hm p s
  have hslot := hbefore.slot_eq hnot
  rw [cancelSlot_leaves (by rw [hslot, hbefore.now, hbefore.startOf_eq]; exact h)] at hafter
  rw [hafter.slot_eq (by rwa [hslot]), hslot]

end CancelWrite

/-! ### The statement -/

/-- Settles O37: starts by `jobStart_starts`, limits by the lemmas of the expiries with `endsNow_endedAt`, cancels by those of
`cancelWritten`, and the chained end by `jobEndChained_done`. -/
theorem jobLifetime : Obligations.JobLifetime := by
  intro t i port val s u x ends
  have hi := i.isLt
  have hends {code : Nat} (hw : (slotAt (advance t s) i).Waits) : ends (endsNow code i (advance t s)) code := by
    obtain ⟨hst, hcode, -, htam⟩ := endsNow_endedAt code hi hw
    exact ⟨hst, hcode, htam⟩
  refine ⟨fun c harmed hstart hc => ?starts, fun h => ?unarmed, fun c hstart hc => ?early, fun c hq htimed hstart hvalid => ?late,
    fun h => ⟨_, exec_lateStartExpiry t i s, lateExpiry_other h⟩, fun h => ?held, fun k hq hhead => ?atHead,
    fun h => ⟨_, exec_admitTimeoutExpiry t i s, admitExpiry_other h⟩, fun hp => ?cancel, fun hst hend => ?chained,
    fun h => ⟨_, exec_jobEndChained t i s, jobEndChained_other h⟩⟩
  case starts =>
    obtain ⟨hst, ⟨horg, hn⟩, hno, hq, hothers, hpins, hstops⟩ := jobStart_starts hi harmed hstart hc
    exact ⟨_, exec_jobStartInstant t i s, hst, horg, hn, hno, hq, hothers, hpins, hstops⟩
  case unarmed =>
    refine ⟨_, exec_jobStartInstant t i s, jobStart_not_due fun c hc ⟨harmed, _⟩ => ?_⟩
    exact h.elim (fun h => h harmed) fun h => nomatch h.symm.trans hc
  case early =>
    refine ⟨_, exec_jobStartInstant t i s, jobStart_not_due fun d hd ⟨_, hdue⟩ => ?_⟩
    obtain rfl : c = d := Option.some.inj (hstart.symm.trans hd)
    exact absurd hdue (Nat.not_le.mpr hc)
  case late =>
    have hlate := lateExpiry_timed hq htimed hstart hvalid
    refine ⟨fun hdue => ⟨_, exec_lateStartExpiry t i s, ?_⟩, fun hnot => ⟨_, exec_lateStartExpiry t i s, ?_⟩⟩
    · rw [hlate, if_pos hdue]
      exact hends (.inl hq)
    · exact hlate.trans (if_neg (Nat.not_le.mpr hnot))
  case held =>
    have hheld : HeldBack (slotAt (advance t s) i) (advance t s) := h
    have hhold := holdExpiry_held hheld
    refine ⟨fun hdue => ⟨_, exec_holdLimitExpiry t i s, ?_⟩, fun hnot => ⟨_, exec_holdLimitExpiry t i s, ?_⟩⟩
    · rw [hhold, if_pos hdue]
      exact hends hheld.waits
    · exact hhold.trans (if_neg (Nat.not_le.mpr hnot))
  case atHead =>
    have hadmit := admitExpiry_head hq hhead
    refine ⟨fun hdue => ⟨_, exec_admitTimeoutExpiry t i s, ?_⟩, fun hnot => ⟨_, exec_admitTimeoutExpiry t i s, ?_⟩⟩
    · rw [hadmit, if_pos hdue]
      exact hends (.inl hq)
    · exact hadmit.trans (if_neg (Nat.not_le.mpr hnot))
  case cancel =>
    refine ⟨_, exec_jobCancelWrite hp val, rfl, fun j hj hm hst hn hnone => ?_, fun j hj hm hst hnone => ?_,
      fun y l hl hy hlt harmed hm hst => ?_, fun j hj h => ?_⟩
    · have hwaits : (slotAt u j).Waits := by simpa only [Slot.Waits, List.mem_cons, List.not_mem_nil, or_false] using hst
      exact cancelWritten_cancels hj hm port hwaits hn (startOf_eq_none hnone)
    · exact cancelWritten_stops hj hm port hst (startOf_eq_none hnone)
    · obtain ⟨hend, hcode, -, hplay⟩ := cancelWritten_unstarts hlt hm port hst (startOf_head hl hy) harmed
      exact ⟨hend, hcode, hplay⟩
    · have hslot : slotAt (cancelWritten port val (advance t s)) j = slotAt (advance t s) j := by
        cases hm : (fld val 0 16).testBit j with
        | false =>
          refine (cancelWritten_spared hm port _).slot_eq ?_
          rcases h with ⟨-, hst⟩ | hst | ⟨hst, -⟩
          · exact hst
          · rintro hq
            rw [hq] at hst
            exact absurd hst (by decide)
          · rw [hst]
            exact nofun
        | true =>
          refine cancelWritten_leaves hj hm port ?_
          rcases h with ⟨hno, -⟩ | hst | ⟨hst, hearlier, hnone⟩
          · exact absurd (hno.symm.trans hm) Bool.false_ne_true
          · have hover : (slotAt u j).st = .free ∨ (slotAt u j).st = .ended := by
              simpa only [List.mem_cons, List.not_mem_nil, or_false] using hst
            exact hover.imp_right .inl
          · exact .inr (.inr ⟨hst, hearlier, startOf_eq_none fun y hy hslot => absurd hslot (hnone y hy)⟩)
      exact ⟨congrArg Slot.st hslot, congrArg Slot.endCode hslot⟩
  case chained =>
    have hslot := jobEndChained_done hi hst hend
    refine ⟨_, exec_jobEndChained t i s, ?_, ?_⟩
    · rw [hslot]
    · rw [hslot]

end Sys2Proof.Machine
end

section
/-!
SUPPORT. The evidence chain (10 R236, R250 to R258; 12 R273, R274, R277): what fault events, ends of jobs and notifications leave of it, a record
chained, the suspension, a loss that closes, and a release: O39.
-/

namespace Sys2Proof.Machine

open Sys2Proof

/-! ### What other operations leave of the chain -/

/-- The chain: its value, COUNT, the records held from OLDEST on, its copy in Nightwatch, and the seal that forms. -/
structure ChainView where
  head : Option (List Byte)
  count : Nat
  oldest : Nat
  held : List Rec
  copy : ChainSt
  part0Wait : Bool
  forming : Option SealForm

def chainView (s : State) : ChainView :=
  ⟨s.evid.head, s.evid.count, s.evid.oldest, s.evid.held, s.nw.chain, s.sl.part0Wait, s.sl.forming⟩

/-- The parts of the chain outside evidence memory: its copy in Nightwatch, and the sealing engine. -/
def sealView (s : State) : ChainSt × Seal := (s.nw.chain, s.sl)

theorem sealView_unseen : Unseen sealView := by
  constructor <;> intros <;> rfl

section ChainView

variable {a : ChainView} {s : State} (h : chainView s = a)
include h

theorem chainView_of_memory {w : State} (hmem : w.evid.memory = s.evid.memory) (hseal : sealView w = sealView s) : chainView w = a := by
  have hparts (u : State) : chainView u = ⟨u.evid.memory.head, u.evid.memory.count, u.evid.memory.oldest, u.evid.memory.held,
    (sealView u).1, (sealView u).2.part0Wait, (sealView u).2.forming⟩ := rfl
  rw [← h, hparts w, hmem, hseal]
  rfl

/-- An update that writes nothing of it. -/
theorem upd_chainView {w : State} (hhead : w.evid.head = s.evid.head := by rfl) (hcount : w.evid.count = s.evid.count := by rfl)
    (holdest : w.evid.oldest = s.evid.oldest := by rfl) (hheld : w.evid.held = s.evid.held := by rfl)
    (hcopy : w.nw.chain = s.nw.chain := by rfl) (hwait : w.sl.part0Wait = s.sl.part0Wait := by rfl)
    (hform : w.sl.forming = s.sl.forming := by rfl) : chainView w = a := by
  rw [← h, chainView, hhead, hcount, holdest, hheld, hcopy, hwait, hform]
  rfl

theorem fault_chainView (x : FltAt) (detail : Nat) (ws : List Nat) : chainView (fault x detail ws s) = a :=
  chainView_of_memory h (fault_jobsKept (.refl s) _ _ _).memory (fault_unseen sealView_unseen rfl _ _ _)

theorem faultU_chainView (src detail : Nat) : chainView (faultU src detail s) = a := fault_chainView h _ _ _

theorem setCond_chainView (src oct : Nat) (c : Bool) : chainView (setCond src oct c s) = a := upd_chainView h

theorem pushUnit_chainView (r : Rec) (k : Instant) : chainView (pushUnit r k s) = a := view_ite h (upd_chainView h)

/-! ### The end of a job (09 R225) -/

theorem orderStop_chainView (gran : Bool) (code cause : Nat) (line : Bool) (i : Nat) : chainView (orderStop gran code cause line i s) = a :=
  view_ite (upd_chainView h) h

theorem formAt_chainView (k : Nat) (q : QRec) (lo hi : Nat) : chainView (formAt k q lo hi s) = a :=
  chainView_of_memory h (formAt_jobsKept (.refl s) _ _ _ _).memory (formAt_unseen sealView_unseen rfl _ _ _ _)

theorem closeOcts_chainView (at_ : Instant) (mask : Nat) : chainView (closeOcts at_ mask s) = a :=
  view_foldl _ _ h fun _ _ hu => view_foldl _ _ (upd_chainView hu) fun _ _ hw => formAt_chainView hw _ _ _ _

theorem resetRings_chainView (mask : Nat) : chainView (resetRings mask s) = a := view_foldl _ _ h fun _ _ hu => upd_chainView hu

theorem endPins_chainView (code mask : Nat) (act ran : Bool) : chainView (endPins code mask act ran s) = a :=
  view_ite (view_ite (upd_chainView h) (view_ite (upd_chainView h) h)) h

theorem endFault_chainView (i code cause : Nat) : chainView (endFault i code cause s) = a := by
  unfold endFault
  split
  · exact faultU_chainView h _ _
  · exact faultU_chainView h _ _
  · exact h

theorem endJob_chainView (code cause : Nat) (line : Bool) (i : Nat) : chainView (endJob code cause line i s) = a := by
  unfold endJob
  extract_lets x e1 p e2 ran s1 s2 s3 s4 s5 q s6
  split
  · exact h
  · exact h
  · have he1 : chainView e1 = a := upd_chainView h
    have he2 : chainView e2 = a := view_ite (upd_chainView he1) he1
    exact view_ite (endPins_chainView he2 _ _ _ _) h
  · have h1 : chainView s1 = a := view_ite (closeOcts_chainView (upd_chainView h) _ _) h
    have h2 : chainView s2 = a := view_ite h1 (resetRings_chainView h1 _)
    have h3 : chainView s3 = a := endPins_chainView h2 _ _ _ _
    have h5 : chainView s5 = a := upd_chainView h3
    have h6 : chainView s6 = a := view_ite (upd_chainView h5) h5
    exact endFault_chainView h6 _ _ _

theorem fullSet_chainView : chainView (fullSet s) = a := by
  refine view_ite (view_foldl _ _ (view_foldl _ _ ?_ fun _ _ hu => orderStop_chainView hu _ _ _ _ _)
    fun _ _ hu => endJob_chainView hu _ _ _ _) h
  exact faultU_chainView (setCond_chainView (upd_chainView h) _ _ _) _ _

/-! ### Notifications (10 R252) and seal triggers (12 R275) -/

theorem spiHandover_chainView : chainView (spiHandover s) = a := by
  obtain ⟨k, e, heq⟩ := spiHandover_eq s
  rw [heq]
  exact upd_chainView h

theorem spiNoteMove_chainView : chainView (spiNoteMove s) = a := by
  unfold spiNoteMove
  split
  · split
    · exact h
    · exact spiHandover_chainView (upd_chainView h)
  · exact h

theorem spiNotify_chainView (recNo : Nat) (r : Rec) (strobe : Option Instant) : chainView (spiNotify recNo r strobe s) = a :=
  view_ite h (view_ite (spiNoteMove_chainView (upd_chainView h)) (faultU_chainView (upd_chainView h) _ _))

theorem taspEvent_chainView (i : Nat) (body : List Byte) (strobe : Option Instant) : chainView (taspEvent i body strobe s) = a := by
  unfold taspEvent
  split
  · exact h
  · exact view_ite (view_ite (upd_chainView h) (faultU_chainView (upd_chainView h) _ _)) h

theorem notifyRec_chainView (recNo : Nat) (r : Rec) (strobe : Option Instant) : chainView (notifyRec recNo r strobe s) = a :=
  view_ite (view_foldl _ _ (spiNotify_chainView h _ _ _) fun _ _ hu => taspEvent_chainView hu _ _ _) h

theorem sealDue_chainView (trig : Nat) (k : Instant) : chainView (sealDue trig k s) = a := view_ite h (upd_chainView h)

theorem sealTriggers_chainView (r : Rec) : chainView (sealTriggers r s) = a := by
  have hcount : chainView (if recLog2 s ≠ 0 ∧ s.sl.recs = 2 ^ recLog2 s then sealDue 2 s.now s else s) = a :=
    view_ite (sealDue_chainView h _ _) h
  exact view_ite (sealDue_chainView hcount _ _) hcount

theorem endChained_chainView (jobNo : Nat) : chainView (endChained jobNo s) = a := upd_chainView h

/-! ### Space regained (10 R254, R256) -/

theorem fullClear_chainView : chainView (fullClear s) = a := view_ite (setCond_chainView (upd_chainView h) _ _ _) h

theorem endsNext_chainView : chainView (endsNext s) = a := upd_chainView h

theorem resume_chainView : chainView (resume s) = a := by
  refine view_ite (endsNext_chainView ?_) h
  refine upd_chainView (view_foldl _ _ ?_ fun _ _ hu => pushUnit_chainView hu _ _)
  exact pushUnit_chainView (pushUnit_chainView (setCond_chainView (upd_chainView h) _ _ _) _ _) _ _

end ChainView

/-! ### A record chained (10 R236; 12 R273, R274) -/

/-- The chain with a record added on a chain value. -/
def ChainView.added (c : ChainView) (before : List Byte) (r : Rec) : ChainView :=
  { c with
    head := some (sha256 (before ++ recBytes r)), count := c.count + 1, held := c.held ++ [r]
    copy := ⟨some (sha256 (before ++ recBytes r)), c.count + 1, c.oldest⟩ }

theorem chained_chainView (w : Nat) (r : Rec) (strobe : Option Instant) (s : State) :
    chainView (chained w r strobe s) = (chainView s).added (chainHead s) r := by
  have hrec : chainView (chainRec w r s) = (chainView s).added (chainHead s) r := rfl
  have hnote := notifyRec_chainView hrec s.evid.count r strobe
  exact fullSet_chainView (sealTriggers_chainView (view_ite (endChained_chainView hnote _) hnote) r)

theorem takeCand_chainView (c : Cand) (s : State) : chainView (takeCand c s) = chainView s ∧ chainHead (takeCand c s) = chainHead s := by
  unfold takeCand
  split
  · exact ⟨rfl, rfl⟩
  · exact ⟨rfl, rfl⟩

theorem chained_takeCand_chainView (w : Nat) (c : Cand) (s : State) :
    chainView (chained w c.q.body c.q.strobe (takeCand c s)) = (chainView s).added (chainHead s) c.q.body := by
  obtain ⟨hview, hhead⟩ := takeCand_chainView c s
  rw [chained_chainView, hview, hhead]

/-- Part 0 of a seal states its own number, and the seal forms on the chain value before it (12 R277). -/
theorem chainPart0_chainView (c : Cand) (s : State) :
    chainView (chainPart0 c s) = { (chainView s).added (chainHead s) (fillPart0 s.evid.count c.q.body) with
      part0Wait := false, forming := some ⟨s.evid.count, fillPart0 s.evid.count c.q.body, chainHead s⟩ } := by
  obtain ⟨hview, hhead⟩ := takeCand_chainView c s
  unfold chainPart0
  rw [chained_chainView]
  change ChainView.added { chainView (takeCand c s) with part0Wait := _, forming := _ } (chainHead (takeCand c s)) _ = _
  rw [hview, hhead]
  rfl

/-! ### The end records formed first (09 R225) -/

/-- The unit with job slots and the unit queue as given. -/
def withUnitQ (v : Vector Slot 16) (q : List QRec) (n : Nat) (s : State) : State :=
  { s with seqr := { s.seqr with slots := v }, evid := { s.evid with unitQ := q, nextOrd := n } }

/-- Forming end records moves job slots and the unit queue alone. -/
theorem formEnds_eq (s : State) : ∃ v q n, formEnds s = withUnitQ v q n s := by
  refine List.foldlRecOn (motive := fun u => ∃ v q n, u = withUnitQ v q n s) _ _
    ⟨s.seqr.slots, s.evid.unitQ, s.evid.nextOrd, rfl⟩ ?_
  rintro _ ⟨v, q, n, rfl⟩ i -
  unfold formEnd pushUnit
  dsimp only
  split
  · split
    · exact ⟨_, _, _, rfl⟩
    · exact ⟨_, _, _, rfl⟩
  · exact ⟨v, q, n, rfl⟩

/-- What looks at neither is as before. -/
theorem formEnds_keeps {α : Type} (f : State → α) (s : State) (hf : ∀ v q n, f (withUnitQ v q n s) = f s := by exact fun _ _ _ => rfl) :
    f (formEnds s) = f s := by
  obtain ⟨v, q, n, h⟩ := formEnds_eq s
  rw [h, hf]

theorem formEnds_chainView (s : State) : chainView (formEnds s) = chainView s :=
  formEnds_keeps chainView s fun _ _ _ => upd_chainView rfl

theorem formEnds_chainHead (s : State) : chainHead (formEnds s) = chainHead s := formEnds_keeps chainHead s

theorem formEnds_caps (s : State) : (formEnds s).caps = s.caps := formEnds_keeps State.caps s

theorem formEnds_count (s : State) : (formEnds s).evid.count = s.evid.count := formEnds_keeps (fun u => u.evid.count) s

theorem formEnds_evFree (s : State) : evFree (formEnds s) = evFree s := formEnds_keeps evFree s

theorem formEnds_tamNow (s : State) : tamNow (formEnds s) = tamNow s := formEnds_keeps tamNow s

/-- The chain runs: not suspended, no seal forming, the fast domain powered. -/
def ChainRuns (s : State) : Prop := s.evid.suspended = false ∧ s.sl.forming = none ∧ fastOn s = true

theorem chainRuns_formEnds {s : State} : ChainRuns (formEnds s) ↔ ChainRuns s := iff_of_eq (formEnds_keeps ChainRuns s)

/-! ### CHAIN_STEP (10 R236, R256) -/

theorem chainStep_rests {s : State} (h : ¬ ChainRuns s ∨ leastCand (candidates (formEnds s)) = none) : chainStep s = formEnds s := by
  unfold chainStep
  dsimp only
  split
  · rfl
  next hstops =>
    have hruns : ChainRuns (formEnds s) := by simpa [ChainRuns] using hstops
    rw [h.resolve_left (not_not.mpr (chainRuns_formEnds.mp hruns))]

/-- The space a candidate of the merge needs so that the chain is not suspended: none for a pin record, which waits. -/
def Cand.need (c : Cand) : Nat := if c.oct.isSome then 0 else if recType c.q.body = 0x30 then 9 else 1

section Next

variable {s : State} {c : Cand} (hruns : ChainRuns s) (hc : leastCand (candidates (formEnds s)) = some c)
include hruns hc

theorem chainStep_next : chainStep s =
    if evFree s < c.need then suspend (formEnds s)
    else if c.oct.isSome ∧ evFree s = 0 then formEnds s
    else if recType c.q.body = 0x30 then chainPart0 c (formEnds s)
    else chained (c.oct.getD 8) c.q.body c.q.strobe (takeCand c (formEnds s)) := by
  obtain ⟨hsus, hform, hon⟩ := chainRuns_formEnds.mpr hruns
  unfold chainStep
  dsimp only
  rw [if_neg (by simp [hsus, hform, hon]), hc, ← formEnds_evFree s]
  rfl

theorem chainStep_chains (htype : recType c.q.body ≠ 0x30) (hfree : 1 ≤ evFree s) :
    chainView (chainStep s) = (chainView s).added (chainHead s) c.q.body := by
  have hneed : c.need ≤ 1 := by
    rw [Cand.need, if_neg htype]
    split
    · exact Nat.zero_le 1
    · exact Nat.le_refl 1
  rw [chainStep_next hruns hc, if_neg (by omega), if_neg (by omega), if_neg htype, chained_takeCand_chainView, formEnds_chainView,
    formEnds_chainHead]

theorem chainStep_chains_part0 (htype : recType c.q.body = 0x30) (hunit : c.oct = none) (hfree : 9 ≤ evFree s) :
    chainView (chainStep s) = { (chainView s).added (chainHead s) (fillPart0 s.evid.count c.q.body) with
      part0Wait := false, forming := some ⟨s.evid.count, fillPart0 s.evid.count c.q.body, chainHead s⟩ } := by
  have hneed : c.need = 9 := by
    rw [Cand.need, if_neg (by simp [hunit]), if_pos htype]
  have hpin : ¬ (c.oct.isSome = true ∧ evFree s = 0) := by
    rw [hunit]
    exact fun h => Bool.false_ne_true h.1
  rw [chainStep_next hruns hc, hneed, if_neg (Nat.not_lt.mpr hfree), if_neg hpin, if_pos htype, chainPart0_chainView,
    formEnds_chainView, formEnds_chainHead, formEnds_count]

theorem chainStep_suspends (hunit : c.oct = none) (hfree : evFree s < if recType c.q.body = 0x30 then 9 else 1) :
    chainStep s = suspend (formEnds s) := by
  have hneed : c.need = if recType c.q.body = 0x30 then 9 else 1 := by simp [Cand.need, hunit]
  rw [chainStep_next hruns hc, hneed, if_pos hfree]

theorem chainStep_waits (hpin : c.oct ≠ none) (hfull : evFree s = 0) : chainStep s = formEnds s := by
  have hsome : c.oct.isSome = true := Option.isSome_iff_ne_none.mpr hpin
  have hneed : c.need = 0 := if_pos hsome
  rw [chainStep_next hruns hc, hneed, if_neg (Nat.not_lt_zero _), if_pos ⟨hsome, hfull⟩]

end Next

/-- A suspension keeps COUNT, the chain value and the records held, and is stamped with the present time (R256). -/
theorem suspend_effect (s : State) : (suspend s).evid.suspended = true ∧ (suspend s).evid.suspendTime = tamNow s ∧
    (suspend s).evid.count = s.evid.count ∧ (suspend s).evid.head = s.evid.head ∧ (suspend s).evid.held = s.evid.held ∧
    (suspend s).nw.chain = s.nw.chain := by
  have hmem (x : State) := (fault_jobsKept (.refl x) ⟨25, 0, none⟩ 0 []).memory
  unfold suspend faultU
  exact ⟨(congrArg Evid.suspended (hmem _) :), (congrArg Evid.suspendTime (hmem _) :), (congrArg Evid.count (hmem _) :),
    (congrArg Evid.head (hmem _) :), (congrArg Evid.held (hmem _) :),
    (congrArg Prod.fst (fault_unseen sealView_unseen rfl ⟨25, 0, none⟩ 0 []) :)⟩

/-! ### LOSS_CLOSE (10 R251) -/

/-- Fault events and their reactions touch no capture. -/
theorem caps_calmPins (v : Vector Cap 8) : CalmPins fun s => s.caps = v where
  evPend _ _ h := h
  log _ _ _ h := h
  pend _ _ h := h
  safe _ mask h := (mapPins_caps mask _ _).trans h
  octs _ _ _ h := h
  acts _ _ h := h
  slots _ _ h := h
  evid _ _ h := h
  cal _ _ h := h
  flt _ _ h := h
  subst _ _ h := h

theorem recType_mkRec_octet {type k flags jobNo c payload : Nat} (htype : type < 256) (hflags : flags % 256 = 0) :
    recType (mkRec type 0 k flags jobNo c payload) = type := by
  simp only [recType, mkRec, fld, word, BitVec.toNat_ofNat, Nat.shiftRight_zero]
  omega

theorem lossCloseAt_open {k : Nat} {l : Loss} {s : State} (hloss : (capAt s k).loss = some l) (hroom : capFill s k < 4094)
    (hsus : s.evid.suspended = false) : ∃ a b, recType a.body = 5 ∧ recType b.body = 6 ∧
      (lossCloseAt k s).caps = (modCap k (fun c => { c with loss := none, fifo := c.fifo ++ [a, b] }) s).caps := by
  have hflags : b2n l.notify * hNotify % 256 = 0 := by cases l.notify <;> decide
  have hopen : capFill s k < capRoom ∧ !s.evid.suspended := ⟨hroom, by rw [hsus]; rfl⟩
  unfold lossCloseAt
  dsimp only
  rw [hloss]
  dsimp only
  rw [if_pos hopen]
  exact ⟨_, _, recType_mkRec_octet (by decide) hflags, recType_mkRec_octet (by decide) hflags,
    fault_calmPins (caps_calmPins _) rfl _ _ _⟩

theorem lossCloseAt_stays {k : Nat} {s : State} (h : (capAt s k).loss = none ∨ 4094 ≤ capFill s k ∨ s.evid.suspended = true) :
    lossCloseAt k s = s := by
  unfold lossCloseAt
  dsimp only
  split
  · rfl
  next l hl =>
    refine if_neg fun ⟨hroom, hsus⟩ => ?_
    rcases h with h | h | h
    · cases h.symm.trans hl
    · exact Nat.not_le.mpr hroom h
    · simp [h] at hsus

theorem capAt_congr {s w : State} (h : w.caps = s.caps) (k : Nat) : capAt w k = capAt s k := by rw [capAt, h, capAt]

/-- A loss with room closes: its pair is at the end of the FIFO, and no other octet is touched. -/
theorem lossClose_closes {k : Nat} (hk : k < 8) {l : Loss} {s : State} (hloss : (capAt s k).loss = some l) (hroom : capFill s k < 4094)
    (hsus : s.evid.suspended = false) :
    let w := formEnds (lossCloseAt k s)
    (capAt w k).loss = none ∧ (∃ a b, (capAt w k).fifo = (capAt s k).fifo ++ [a, b] ∧ recType a.body = 5 ∧ recType b.body = 6) ∧
    ∀ j < 8, j ≠ k → capAt w j = capAt s j := by
  obtain ⟨a, b, ha, hb, hcaps⟩ := lossCloseAt_open hloss hroom hsus
  have hcap (j : Nat) : capAt (formEnds (lossCloseAt k s)) j =
      if k = j ∧ k < 8 then { capAt s j with loss := none, fifo := (capAt s j).fifo ++ [a, b] } else capAt s j :=
    (capAt_congr ((formEnds_caps _).trans hcaps) j).trans (capAt_modCap ..)
  have hsame := (hcap k).trans (if_pos ⟨rfl, hk⟩)
  refine ⟨?_, ⟨a, b, ?_, ha, hb⟩, fun j _ hj => (hcap j).trans (if_neg fun h => hj h.1.symm)⟩
  · rw [hsame]
  · rw [hsame]

/-! ### EVID_RELEASE_WRITE (10 R258) -/

/-- A release up to TO as clipped, above OLDEST: the records below it are gone. -/
theorem applyRelease_chainView {upto : Nat} {s : State} (h : s.evid.oldest < upto) : chainView (applyRelease upto s) =
    { chainView s with oldest := upto, held := s.evid.held.drop (upto - s.evid.oldest), copy := ⟨s.evid.head, s.evid.count, upto⟩ } := by
  unfold applyRelease
  rw [if_neg (Nat.not_le.mpr h), assureLapse_eq]
  exact resume_chainView (fullClear_chainView rfl)

/-- The unit with the events of the cycle as given. -/
def withEvPend (e : List EvBump) (s : State) : State := { s with evPend := e }

/-- The unit after a release up to TO as clipped: nothing, a release that waits for exports, or one that takes effect. -/
def released (upto : Nat) (e : List EvBump) (s : State) : State :=
  if upto ≤ s.evid.oldest then withEvPend e s
  else if exportCovered s upto then { withEvPend e s with evid := { s.evid with relWait := s.evid.relWait ++ [upto] } }
  else applyRelease upto (withEvPend e s)

theorem release_eq (n : Nat) (s : State) : ∃ e, (release n s).1 = released (min n s.evid.sealedEnd) e s := by
  have hclip : ∃ e, (if s.evid.sealedEnd < n then bump rgEvid 8 8 1 s else s) = withEvPend e s := by
    split
    · exact ⟨_, rfl⟩
    · exact ⟨s.evPend, rfl⟩
  obtain ⟨e, he⟩ := hclip
  refine ⟨e, ?_⟩
  unfold release released
  dsimp only
  rw [he]
  rw [apply_ite Prod.fst, apply_ite Prod.fst]
  rfl

/-- A write of G_EVID_RELEASE_LO is carried out, with the TO it completes clipped to SEALED_END. -/
theorem evidReleaseWrite_carried {p : Port} {s : State} (val : Word) (hup : portUp s p = true) :
    ∃ e, portWrite p 0x420 val (evidReleaseWrite val) s = answer p 0x420 true val .done
      (released (min (2 ^ 32 * s.r.evidRelHi.toNat + val.toNat) s.evid.sealedEnd) e s) := by
  obtain ⟨e, he⟩ := release_eq (2 ^ 32 * s.r.evidRelHi.toNat + val.toNat) (assureLapse s)
  refine ⟨e, ?_⟩
  rw [portWrite_up hup, evidReleaseWrite, assureLapse_r, he, assureLapse_eq]
  rfl

section Released

variable {upto : Nat} (e : List EvBump) {s : State}

theorem released_not_above (h : upto ≤ s.evid.oldest) : released upto e s = withEvPend e s := if_pos h

theorem released_waits (h : s.evid.oldest < upto) (hcov : exportCovered s upto = true) :
    released upto e s = { withEvPend e s with evid := { s.evid with relWait := s.evid.relWait ++ [upto] } } := by
  rw [released, if_neg (Nat.not_le.mpr h), if_pos hcov]

theorem released_chainView (h : s.evid.oldest < upto) (hcov : exportCovered s upto = false) : chainView (released upto e s) =
    { chainView s with oldest := upto, held := s.evid.held.drop (upto - s.evid.oldest), copy := ⟨s.evid.head, s.evid.count, upto⟩ } := by
  rw [released, if_neg (Nat.not_le.mpr h), if_neg (ne_true_of_eq_false hcov)]
  exact applyRelease_chainView (s := withEvPend e s) h

/-- COUNT and HEAD stay in every case. -/
theorem released_head (upto : Nat) : (released upto e s).evid.count = s.evid.count ∧ (released upto e s).evid.head = s.evid.head := by
  rcases Nat.lt_or_ge s.evid.oldest upto with h | h
  · cases hcov : exportCovered s upto with
    | true =>
      rw [released_waits e h hcov]
      exact ⟨rfl, rfl⟩
    | false =>
      have hview := released_chainView e h hcov
      exact ⟨(congrArg ChainView.count hview :), (congrArg ChainView.head hview :)⟩
  · rw [released_not_above e h]
    exact ⟨rfl, rfl⟩

end Released

/-! ### The statement -/

theorem exec_chainStep (t : Instant) (s : State) : exec (.chainStep t) s = .next (chainStep (advance t s)) := rfl
theorem exec_lossClose (t : Instant) (k : Fin 8) (s : State) : exec (.lossClose t k) s = .next (formEnds (lossCloseAt k (advance t s))) := rfl
theorem exec_evidReleaseWrite (t : Instant) (p : Port) (v : Word) (s : State) :
    exec (.evidReleaseWrite t p v) s = .next (portWrite p 0x420 v (evidReleaseWrite v) (advance t s)) := rfl

/-- COUNT, the chain value, the records held and the copy in Nightwatch are as before. -/
def ChainStands (s w : State) : Prop :=
  w.evid.count = s.evid.count ∧ w.evid.head = s.evid.head ∧ w.evid.held = s.evid.held ∧ w.nw.chain = s.nw.chain

theorem chainStands_of_view {s w : State} (h : chainView w = chainView s) : ChainStands s w :=
  ⟨congrArg ChainView.count h, congrArg ChainView.head h, congrArg ChainView.held h, congrArg ChainView.copy h⟩

theorem formEnds_stands (s : State) : ChainStands s (formEnds s) := chainStands_of_view (formEnds_chainView s)

theorem suspend_formEnds (s : State) : ChainStands s (suspend (formEnds s)) ∧ (suspend (formEnds s)).evid.suspended = true ∧
    (suspend (formEnds s)).evid.suspendTime = tamNow s := by
  obtain ⟨hsus, htime, hcount, hhead, hheld, hcopy⟩ := suspend_effect (formEnds s)
  obtain ⟨hcount', hhead', hheld', hcopy'⟩ := formEnds_stands s
  exact ⟨⟨hcount.trans hcount', hhead.trans hhead', hheld.trans hheld', hcopy.trans hcopy'⟩, hsus, htime.trans (formEnds_tamNow s)⟩

/-- A record is added at the end: COUNT, HEAD, the records held, and the copy in Nightwatch. -/
def RecordAdded (s w : State) (r : Rec) : Prop :=
  w.evid.count = s.evid.count + 1 ∧ w.evid.head = some (sha256 (chainHead s ++ recBytes r)) ∧ w.evid.held = s.evid.held ++ [r] ∧
  w.evid.oldest = s.evid.oldest ∧ w.nw.chain = ⟨w.evid.head, s.evid.count + 1, s.evid.oldest⟩

theorem recordAdded_of_view {s w : State} {r : Rec} {b : Bool} {f : Option SealForm}
    (h : chainView w = { (chainView s).added (chainHead s) r with part0Wait := b, forming := f }) : RecordAdded s w r := by
  have hhead : w.evid.head = some (sha256 (chainHead s ++ recBytes r)) := congrArg ChainView.head h
  refine ⟨congrArg ChainView.count h, hhead, congrArg ChainView.held h, congrArg ChainView.oldest h, ?_⟩
  rw [hhead]
  exact congrArg ChainView.copy h

theorem sealForms_of_view {w : State} {c : ChainView} {b : Bool} {f : Option SealForm}
    (h : chainView w = { c with part0Wait := b, forming := f }) : w.sl.part0Wait = b ∧ w.sl.forming = f :=
  ⟨congrArg ChainView.part0Wait h, congrArg ChainView.forming h⟩

/-- Settles O39: CHAIN_STEP by `chainStep_next` and its cases with `chained_chainView`, LOSS_CLOSE by `lossClose_closes`, the release by
`released_chainView`. -/
theorem evidenceChain : Obligations.EvidenceChain := by
  intro t k port val c s u v upto kept added runs
  refine ⟨fun h => ⟨_, exec_chainStep t s, ?rests⟩, fun hr hc htype hfree => ⟨_, exec_chainStep t s, ?chains⟩,
    fun hr hc htype hunit hfree => ⟨_, exec_chainStep t s, ?part0⟩, fun hr hc hunit hfree => ⟨_, exec_chainStep t s, ?suspends⟩,
    fun hr hc hpin hfull => ⟨_, exec_chainStep t s, ?waits⟩,
    fun l hloss hroom hsus => ⟨_, exec_lossClose t k s, lossClose_closes k.isLt hloss hroom hsus⟩,
    fun h => ⟨_, exec_lossClose t k s, ?lossStays⟩, fun hup => ⟨_, exec_evidReleaseWrite t port val s, ?release⟩⟩
  case rests =>
    rw [chainStep_rests h]
    exact formEnds_stands u
  case chains => exact recordAdded_of_view (chainStep_chains hr hc htype hfree)
  case part0 =>
    have hview := chainStep_chains_part0 hr hc htype hunit hfree
    exact ⟨recordAdded_of_view hview, sealForms_of_view hview⟩
  case suspends =>
    rw [chainStep_suspends hr hc hunit hfree]
    exact suspend_formEnds u
  case waits =>
    rw [chainStep_waits hr hc hpin hfull]
    exact ⟨formEnds_stands u, formEnds_caps u⟩
  case lossStays =>
    rw [lossCloseAt_stays h]
    exact formEnds_caps u
  case release =>
    obtain ⟨e, he⟩ := evidReleaseWrite_carried val hup
    obtain ⟨hcount, hhead⟩ := released_head e (s := u) upto
    rw [he]
    refine ⟨rfl, hcount, hhead, fun hlow => ?_, fun habove hcov => ?_, fun habove hcov => ?_⟩
    · rw [released_not_above e hlow]
      exact ⟨rfl, rfl, rfl⟩
    · have hview := released_chainView e habove hcov
      exact ⟨congrArg ChainView.oldest hview, congrArg ChainView.held hview, congrArg ChainView.copy hview⟩
    · rw [released_waits e habove hcov]
      exact ⟨rfl, rfl, rfl⟩

end Sys2Proof.Machine
end
